-- ==== Sys2Proof/Word.lean ====
section
/-! DEFINITION. The word types, the sparse table and the byte memory that the state is made of. -/

namespace Sys2Proof

/-- One byte. -/
abbrev Byte := BitVec 8

/-- A 64-bit register value or host address (R8). -/
abbrev Word := BitVec 64

/-- A sparse table: pairs of a key and a value. In canonical form the keys rise strictly and no entry holds the default
of its table, so that equal tables are equal lists. -/
abbrev Tab (α : Type) := List (Nat × α)

/-- A byte memory as a list of cells; in canonical form the addresses rise strictly and no cell is zero. -/
abbrev Memory := List (Nat × BitVec 8)

end Sys2Proof
end

