-- ==== Sys2Proof/Machine/Types.lean ====
section
/-! DEFINITION. The data types of the FS9600: what the registers, tables, queues and engines of each chapter hold. -/

namespace Sys2Proof.Machine

open Sys2Proof

/-! ### The structure image (02) -/

/-- One SLOT_WIRE entry of GEOM: the clusters and waystation banks a reed slot may use (R49). -/
structure SlotWire where
  clusters : BitVec 12
  banks    : BitVec 32
deriving DecidableEq, Repr

/-- GEOM (R49). -/
structure Geom where
  tickSel        : Nat
  patience       : Nat
  reedWindowS    : Nat
  driveTimeoutMs : Nat
  scrubPeriodH   : Nat
  slotWire       : List SlotWire
deriving DecidableEq, Repr

/-- PART (R51): SRAM sizes in MiB, HBM sizes in 256 MiB. -/
structure Part where
  srWaystation : Nat
  srPgt        : Nat
  srRing       : Nat
  srSmc        : Nat
  srJhead      : Nat
  srReedbuf    : Nat
  srEvent      : Nat
  hbCache      : Nat
  hbJournal    : Nat
  hbLedger     : Nat
  hbFirmware   : Nat
deriving DecidableEq, Repr

/-- One RING entry (R52). -/
structure RingEnt where
  firstGroup  : Nat
  groups      : Nat
  cseraiShare : Nat
  vectors     : Nat
deriving DecidableEq, Repr

/-- One code family record of CODE (R54); `matrix` is row-major over K_MAX columns. -/
structure Family where
  id          : Nat
  kind        : Nat
  kMax        : Nat
  mMax        : Nat
  stripMask   : BitVec 16
  localGroups : Nat
  matrix      : List Byte
  groupMap    : List Nat
deriving DecidableEq, Repr

/-- PLAC (R57). -/
structure Plac where
  wFill         : Nat
  wWear         : Nat
  wPort         : Nat
  wReed         : Nat
  fdDepth       : Nat
  sparePermille : Nat
  seed          : BitVec 32
deriving DecidableEq, Repr

/-- CACH (R59). -/
structure Cach where
  dumpRateMbs     : Nat
  coalesceTicks   : Nat
  destageStartPct : Nat
  destageHighPct  : Nat
deriving DecidableEq, Repr

/-- One EVNT entry (R60). -/
structure EvntEnt where
  func   : Nat
  vector : Nat
  toMsix : Bool
  toMgmt : Bool
  coal   : Nat
deriving DecidableEq, Repr

/-- PAIR (R62). -/
structure PairSec where
  pairEn    : Bool
  policy    : Nat
  postCount : Nat
  postSlot  : List Nat
  pairId    : Word
deriving DecidableEq, Repr

/-- HEMD (R63); `li` is CLASS = 1. -/
structure Hemd where
  li             : Bool
  cutoffMv       : Nat
  fullMv         : Nat
  taperHoldS     : Nat
  capacityJ      : Nat
  reserveJ       : Nat
  taperMa        : Nat
  shuntUohm      : Nat
  calDirtyMaxMib : Nat
  ocv            : List Nat
deriving DecidableEq, Repr

/-- TRIA (R64). -/
structure Tria where
  allowEpong  : Bool
  allowDrive  : Bool
  allowReed   : Bool
  clusterMask : BitVec 12
deriving DecidableEq, Repr

/-- A structure image that passed the loader's checks: the fields of its twelve sections. Reserved bytes are zero
(R46) and headers are fixed (R44), so two sections are byte-identical exactly when their fields here are equal. `digests` are
the SHA-384 digests of the seven sections that a pair shares (R82, R478), six words each. -/
structure Image where
  imgId     : Word
  imgLen    : Nat
  buildTime : Word
  geom      : Geom
  part      : Part
  ring      : Tab RingEnt
  families  : List Family
  plac      : Plac
  cach      : Cach
  evnt      : Tab EvntEnt
  pair      : PairSec
  hemd      : Hemd
  tria      : Tria
  keySlot   : Nat
  digests   : List Word
deriving DecidableEq, Repr

/-- GLB_LDR_STAT.STATE (R69). -/
inductive LdrState where
  | loader | fetch | verify | prepare | apply | running
deriving DecidableEq, Repr

/-- GLB_LDR_LIVE.LSTATE (R69). -/
inductive LiveState where
  | idle | verifying | pending | refused
deriving DecidableEq, Repr

/-- An image being tried: where it comes from (COPY of R69), the window context that ordered it, its bytes as the
loader reads them and, for a window transfer, how many of them were written (R70, R525). -/
structure LoadJob where
  copy    : Nat
  ctx     : Option Nat
  bytes   : List Byte
  written : Option Nat
deriving DecidableEq, Repr

/-- A live request that verified (R78, R79, R83): the image, the context that ordered it, the tick in which this
unit's own verification finished, the partner's report and the edge at which it takes effect. -/
structure LiveReq where
  image      : Image
  ctx        : Option Nat
  verifiedAt : Nat
  partnerOk  : Bool
  target     : Option Nat
deriving DecidableEq, Repr

/-- The loader (02): GLB_LDR_STAT, GLB_LDR_LIVE, GLB_LDR_LIVE_TICK, GLB_IMG_ID, the RWL gate of R75, the image being
tried, the accepted image waiting for APPLY and the live request. -/
structure Loader where
  state       : LdrState
  copy        : Nat
  reason      : Nat
  section_    : Nat
  offset      : BitVec 32
  lstate      : LiveState
  lreason     : Nat
  lsection    : Nat
  appliedTick : Nat
  imgId       : Word
  rwlOpen     : Bool
  job         : Option LoadJob
  accepted    : Option Image
  acceptedCtx : Option Nat
  prepared    : Bool
  sizeChange  : Bool
  liveJob     : Option LoadJob
  live        : Option LiveReq
  partnerImg  : Option Word
  partnerAt   : Nat
deriving DecidableEq, Repr

/-! ### Scheduling: drone, caravans, legs and drive submissions (03, 07) -/

/-- The five background streams, in the bit order of DRN_CLASS_STAT.URGENT (R110). -/
inductive Stream where
  | rebuild | vault | migration | compaction | scrub
deriving DecidableEq, Repr

/-- The class a leg or submission is queued in (03 "Admission classes"). -/
inductive WorkClass where
  | journal
  | foreground
  | background (st : Stream)
deriving DecidableEq, Repr

/-- Leg kinds of R87. -/
inductive LegKind where
  | reed | dma | hbm
deriving DecidableEq, Repr

/-- Reed leg operations of R222, with the known-vector test of R493. -/
inductive ReedOp where
  | encode | update | decode | check | copy | test
deriving DecidableEq, Repr

/-- One leg of caravan work (R87, R222). `ins` are its input streams, `coeffs` its coefficient rows (one row per
output), `outs` the output bytes written so far (each output grows by segments of 64 bytes), `dst` the places of
the outputs in the plan, `diff` the CHECK syndrome. `pair` is a physical pair chosen for it (a vote re-run, a known-vector test), `avoid` a slot on which it failed
(R233). `job` names the plan that waits for it, `order` is its place in its queue (R93, R100). `ownTick` is the tick it
was compiled for, `late` says that it does not finish by the edge that ends this tick, `counted` that it has overrun. `bank`
is the waystation bank of its buffers (R89), `pc` the pseudo-channel of an HBM batch (R90). -/
structure Leg where
  id       : Nat
  job      : Nat
  order    : Nat
  tag      : Nat
  kind     : LegKind
  op       : ReedOp
  cls      : WorkClass
  zr       : Bool
  slot     : Option Nat
  pair     : Option Nat
  voteFor  : Option Nat
  avoid    : Option Nat
  chan     : Option Nat
  clusters : BitVec 12
  bank     : Nat
  pc       : Nat
  ins      : List (List Byte)
  coeffs   : List (List Byte)
  outs     : List (List Byte)
  segment  : Nat
  diff     : Bool
  dst      : List Nat
  cost     : Nat
  hostIn   : Nat
  hostOut  : Nat
  hbm      : Nat
  epong    : Nat
  ownTick  : Nat
  done     : Bool
  late     : Bool
  counted  : Bool
  reruns   : Nat
  attempts : Nat
deriving DecidableEq, Repr

/-- The NVMe commands the device sends to its drives (12). -/
inductive NvmOp where
  | read | write | flush | deallocate | resAcquire | resRelease | resRegister | resReport | smart | writeZeroes
deriving DecidableEq, Repr

/-- One drive submission (R94, R96, R407): the slot, the NVMe command, its range and data, the waystation bytes it
reserves when it is placed (R98), its place in its queue (R93, R100) and whether the urgent bucket was charged for it
(R97). -/
structure Sub where
  cid      : Nat
  job      : Nat
  order    : Nat
  tag      : Nat
  slot     : Nat
  op       : NvmOp
  lba      : Nat
  nlb      : Nat
  fua      : Bool
  data     : List Byte
  charge   : Nat
  buf      : Nat
  pi       : Nat
  urg      : Bool
  cls      : WorkClass
  zr       : Bool
  queue    : Nat
  posted   : Nat
  deadline : Nat
deriving DecidableEq, Repr

/-- A unit of queued work: a leg or a drive submission. -/
inductive Work where
  | leg (l : Leg)
  | sub (d : Sub)
deriving DecidableEq, Repr

/-- The credit of one drive cluster (R96, R97): main and urgent bucket (they may be negative) and bytes in flight. -/
structure Bucket where
  main     : Int
  urgent   : Int
  inflight : Nat
deriving DecidableEq, Repr

/-- The per-stream patience state (R102, R103): DRN_WAIT[s]. -/
structure Patience where
  wait   : Nat
  urgent : Bool
  remain : Nat
  order  : Nat
deriving DecidableEq, Repr

/-- What the seal of a caravan fixes (R91, R92): the first identity of work that came after it, the pairs condemned before
it, and how much was placed when compilation had not finished. -/
structure Seal where
  nextId    : Nat
  condemned : List Nat
  late      : Option Nat
deriving DecidableEq, Repr

/-- The drone scheduler: the DRN registers of R110 and the work they govern. `running` is the caravan that runs in
the current tick behind the legs carried over, `cut` the seal of the one being compiled, `next` the one compiled for the edge
in the order of placement, `queued` the work not yet placed in queue order over all classes, `urgentUsed` the urgent streams
of the last compilation, `urgentShown` those of the running caravan, `inflight` the drive submissions posted and not
collected. `holdUsed` is DRN_BG_HOLD as the compilation in progress found it (R111); `heir` is the place in the queue that
new plans take over from the plan that they continue (R93). -/
structure Drone where
  count       : Nat
  overrunCnt  : Word
  lastTick    : Nat
  lastRes     : Nat
  lastKind    : Nat
  lateCnt     : Word
  hungCnt     : Word
  zrFloor     : Bool
  floor8      : Bool
  urgentShown : List Stream
  urgentUsed  : List Stream
  zrShown     : Bool
  floor8Shown : Bool
  hold        : List Stream
  holdUsed    : List Stream
  heir        : Option Nat
  patience    : List Patience
  grants      : List Word
  queued      : List Work
  next        : List Work
  dumpPosts   : List Sub
  cut         : Option Seal
  running     : List Leg
  inflight    : List Sub
  buckets     : List Bucket
  wayUsed     : Nat
  nextId      : Nat
  promotions  : Nat
deriving DecidableEq, Repr

/-! ### Host rings (04) and commands (05) -/

/-- A completion waiting for its place (R119, R131). -/
structure Completion where
  cmdId     : BitVec 16
  status    : Nat
  viaCserai : Bool
  result    : Word
deriving DecidableEq, Repr

/-- One ring pair (R113, R146): its eight registers, the index SQ_PI sampled by the scan (R124), OWED and HELD of
R129, and its caravanserai completions, oldest first. -/
structure Ring where
  en       : Bool
  busy     : Bool
  stall    : Bool
  err      : Bool
  sqErr    : Bool
  cqErr    : Bool
  depthLog : Nat
  evtSrc   : Nat
  evtEn    : Bool
  sqBase   : Word
  cqBase   : Word
  mirror   : Word
  sqPi     : BitVec 17
  sqCi     : BitVec 17
  cqPi     : BitVec 17
  cqCi     : BitVec 17
  owed     : Nat
  held     : Nat
  sampled  : BitVec 17
  fetched  : BitVec 17
  fetchRes : List Bool
  cserai   : List Completion
  moveAt   : Option Nat
  eventAt  : Option Nat
deriving DecidableEq, Repr

/-- A scan of a ring group in progress (R124 to R126): the rings still to visit in this pass, whether the pass left
entries, and whether SQ_PI was sampled already (a later pass keeps the sampled values). -/
structure Scan where
  group   : Nat
  sampled : Bool
deriving DecidableEq, Repr

/-- Per-function PCIe state: MSI-X enable, function mask, the message address and data of its table, vector masks and
pending bits (R143, R507), and the Relaxed Ordering Enable bit of Device Control (R137). -/
structure Func where
  msixEn   : Bool
  msixMask : Bool
  table    : Tab (Word × Nat)
  vecMask  : Tab Bool
  pba      : Tab Bool
  roEn     : Bool
deriving DecidableEq, Repr

/-- A decoded submission entry (R117, R168): the bytes the decoder reads, by field. -/
structure Entry where
  opcode  : Nat
  flags   : BitVec 8
  cmdId   : BitVec 16
  volume  : Nat
  lba     : Nat
  blocks  : Nat
  sgCount : Nat
  dataPtr : Word
  piPtr   : Word
  param   : List Byte
deriving DecidableEq, Repr

/-- How far a fetched command has come. `waiting` commands wait for their turn (R174), for admission (ledger pages,
capacity, cache room) or for earlier overlapping work; `running n` counts the parts still outstanding; `finished`
holds the status and result to post (R131). -/
inductive Phase where
  | decoded
  | waiting
  | running
  | finished (status : Nat) (result : Word)
deriving DecidableEq, Repr

/-- One element of a command's host buffer as the scatter list names it (R118): address and length. -/
abbrev SgElem := Word × Nat

/-- A stretch of host memory: its address and its bytes. -/
abbrev HostFrag := Word × List Byte

/-- A command in execution (05). `reserved` says that it holds a caravanserai reservation and not a CQ place (R129); `sg`
its host buffers, `lost` the indices of lost blocks met (R157), `abandoned` those of R233, `hostErr`, `guardErr`,
`noCapacity` the statuses of R176 met so far, `parts` the outstanding parts; `iseq` and `jseq` the in-step input and the
intent whose acknowledgement or durability its completion waits for (R159, R174), `roots` the intents, named by their first
JSEQ, that must retire before it (R159, R166), `lseq` the ledger change that must be durable, `listed` the change of the lost-block list that must be durable (R379; 0: none);
`resolved` the parcels whose ledger entries have been looked up; `clean` that its data is in the cache, or its volume command
has removed or added what it changes. Of a volume command `parts` 1 says that it has taken effect (R174), `fams` are the code
families at its decode (R80), `oldSize` the volume's size before it, `record` the record of a VOL_QUERY at its effect,
`verdict` its status and result once they are known. -/
structure Cmd where
  seq        : Nat
  ring       : Nat
  func       : Nat
  entry      : Entry
  reserved   : Bool
  sq         : BitVec 17
  phase      : Phase
  discard    : Bool
  parts      : Nat
  sg         : List SgElem
  lost       : List Nat
  abandoned  : List Nat
  hostErr    : Bool
  guardErr   : Bool
  noCapacity : Bool
  iseq       : Nat
  jseq       : Nat
  roots      : List Nat
  listed     : Nat
  lseq       : Nat
  resolved   : List Nat
  clean      : Bool
  fams       : List Family
  oldSize    : Nat
  record     : List Byte
  verdict    : Option (Nat × Word)
deriving DecidableEq, Repr

/-- STATE of a volume (R170). -/
inductive VolState where
  | online | readOnly | offline | deleting
deriving DecidableEq, Repr

/-- One volume of the volume table (R168, R173). -/
structure Volume where
  size     : Nat
  family   : Nat
  k        : Nat
  m        : Nat
  stripLog : Nat
  piBytes  : Nat
  fdLevel  : Nat
  fdMin    : Nat
  state    : VolState
  owner    : Nat
deriving DecidableEq, Repr

/-- The ring intake, the completion stage and the command decoder. `doorbells` is the order in which groups wait
(R126), `rescan` the marked groups (R125), `finish` the order in which commands finished. -/
structure HostSide where
  rings     : Tab Ring
  funcs     : Tab Func
  doorbells : List Nat
  scan      : Option Scan
  rescan    : List Nat
  stopped   : Bool
  cmds      : List Cmd
  nextSeq   : Nat
  finish    : List Nat
  volumes   : Tab Volume
  flrDone   : Tab Nat
deriving DecidableEq, Repr

/-! ### DMA engine (06) -/

/-- DMA_STAT.STATE (R214). -/
inductive ChanState where
  | idle | run | pausing | paused | halted
deriving DecidableEq, Repr

/-- A fetched descriptor (R186, R187). -/
structure Desc where
  addr     : Word
  next     : Word
  src      : Word
  dst      : Word
  l0       : Nat
  l1       : Nat
  l2       : Nat
  esize    : Nat
  srcSpace : Nat
  dstSpace : Nat
  crcSpace : Nat
  barrier  : Bool
  intHalf  : Bool
  intFull  : Bool
  crcEn    : Bool
  crc64    : Bool
  crcChain : Bool
  srcS     : List (BitVec 32)
  dstS     : List (BitVec 32)
  crcAddr  : Word
deriving DecidableEq, Repr

/-- A descriptor of the running list: how many of its elements have a read issued, have been read, have a write issued
and have moved (R193 to R196), the source bytes read and not yet written, the CRC over the elements whose writes are
issued (R198), whether the CRC store is issued and done, and whether HALF was reached and the descriptor has ended. `seq` numbers the
descriptors of a list; `marks` holds the CRC before the first element of each burst group, for a group may run again (R108),
and `ends` the ends of the groups whose writes are not all issued. -/
structure DescRun where
  seq     : Nat
  desc    : Desc
  readN   : Nat
  gotN    : Nat
  wroteN  : Nat
  movedN  : Nat
  buf     : List Byte
  crc     : Word
  marks   : List (Nat × Word)
  ends    : List Nat
  crcSent : Bool
  crcDone : Bool
  half    : Bool
  ended   : Bool
deriving DecidableEq, Repr

/-- A write issued and not yet responded: its descriptor, the elements it carries, or the CRC store (R193); its space, address
and bytes, and the CRC before its first element (R208). A `stale` write will be issued again, for the position went back
behind it. -/
structure DmaWrite where
  seq   : Nat
  store : Bool
  first : Nat
  count : Nat
  space : Nat
  addr  : Word
  data  : List Byte
  crc   : Word
  stale : Bool
deriving DecidableEq, Repr

/-- A read burst issued and not yet completed (R190): for a source in HBM, `was` holds the bytes at its issue (R192). -/
structure DmaRead where
  first : Nat
  count : Nat
  space : Nat
  addr  : Word
  bytes : Nat
  was   : List Byte
deriving DecidableEq, Repr

/-- One DMA channel (R214). `active` holds the descriptors of the running list that have not ended, and the last one
read, oldest first; `toFetch` is the address of the next descriptor to fetch, `fetching` that of a fetch in flight;
`shSlot` the pending slot of R204; `prevCrc` the running CRC left by the previous descriptor; `halting` says that a fault waits for
what is issued to respond (R207), `fresh` that it has not yet spread under COMPAT4200 (R211), and `endToo` that the faulting
descriptor has ended with it (R210). -/
structure Chan where
  pause      : Bool
  mode       : Bool
  paceSrc    : Nat
  listSpace  : Nat
  endEn      : Bool
  faultEn    : Bool
  lateEn     : Bool
  func       : Nat
  state      : ChanState
  shSlot     : Option Word
  half       : Bool
  done       : Bool
  listEnd    : Bool
  fault      : Bool
  lateCommit : Bool
  shRefused  : Bool
  shCancel   : Bool
  listHead   : Word
  nextSh     : Word
  cur        : Word
  srcCur     : Word
  dstCur     : Word
  remain     : Nat × Nat × Nat
  crc        : Word
  faultAddr  : Word
  faultWrite : Bool
  faultKind  : Nat
  faultCause : Nat
  faultSpace : Nat
  faultOther : Nat
  faultDesc  : Word
  paceCnt    : Nat
  toFetch    : Option Word
  fetching   : Option Word
  active     : List DescRun
  reads      : List DmaRead
  writes     : List DmaWrite
  prevCrc    : Word
  halting    : Bool
  fresh      : Bool
  endToo     : Bool
deriving DecidableEq, Repr

/-- DMA_GCTL and DMA_GSTAT of one PF (R215); STOPPED is computed. -/
structure DmaGlobal where
  compat4200 : Bool
  firstCh    : Nat
deriving DecidableEq, Repr

/-- The DMA engine. -/
structure Dma where
  chans : Tab Chan
  glob0 : DmaGlobal
  glob1 : DmaGlobal
deriving DecidableEq, Repr

/-! ### Reed pairs (07) -/

/-- Per physical pair (R235, REED_PAIR_STAT): the ticks of the faults that make its engines suspect, of its pending
hang, its counters and its retirement reason. -/
structure PairStat where
  suspectA  : Option Nat
  suspectB  : Option Nat
  hangAt    : Option Nat
  retireWhy : Nat
  faultA    : Nat
  faultB    : Nat
  hung      : Nat
  votes     : Nat
  lastTest  : Nat
deriving DecidableEq, Repr

/-- A vote in progress (R229 to R234): the leg, and for each pair whose mismatch it covers the segment and the saved copies
of engines A and B (none for a hang); `forced` is the engine of a trial's forced mismatch (true: B), `tried` counts the
voters whose own engines disagreed or that hung, `asked` are those of them that hung, `voter` is the pair that re-runs the
leg. -/
structure Vote where
  leg    : Leg
  tick   : Nat
  slot   : Nat
  pair   : Nat
  saved  : List (Nat × Nat × List Byte × List Byte)
  forced : Option Bool
  tried  : Nat
  asked  : List Nat
  voter  : Option Nat
deriving DecidableEq, Repr

/-- REED_VOTE_LOG (R244). -/
structure VoteLog where
  tick    : Nat
  slot    : Nat
  pair    : Nat
  voter   : Nat
  outcome : Nat
deriving DecidableEq, Repr

/-- REED_SLOT_MAP as written by the management plane (R25, R244): the pair of each slot (none: out of service), the
retired pairs and SEQ. -/
structure SlotMap where
  pairs   : List (Option Nat)
  retired : List Nat
  seq     : BitVec 8
deriving DecidableEq, Repr

/-- The reeds: pair status, votes, REED registers, effective wiring (R240) and the decode row cache (R228). -/
structure Reeds where
  stat        : List PairStat
  condemned   : List Nat
  votes       : List Vote
  voteLog     : VoteLog
  mismatchCnt : Word
  failCnt     : Word
  sparesOut   : Bool
  dmxKeys     : List (Nat × Nat × Nat × List Nat)
  dmxMisses   : Nat
  wiring      : List SlotWire
deriving DecidableEq, Repr

/-! ### Placement and the ledger (08) -/

/-- A relocation record (R253). -/
structure Reloc where
  member  : Nat
  valid   : Bool
  pending : Bool
  slot    : Nat
  run     : Nat
deriving DecidableEq, Repr

/-- A ledger entry (R252). -/
structure LEntry where
  pg       : Nat
  placed   : Bool
  moving   : Bool
  fdShort  : Bool
  pslot    : Nat
  gen      : BitVec 32
  zeroMask : BitVec 32
  reloc0   : Option Reloc
  reloc1   : Option Reloc
deriving DecidableEq, Repr

/-- STATE of a placement group (R250). -/
inductive PgState where
  | free | open_ | closed | degraded | draining
deriving DecidableEq, Repr

/-- A PGT entry (R249); the enclosure and cluster spans are those computed when the group was made. -/
structure Pg where
  family  : Nat
  k       : Nat
  m       : Nat
  stripLog : Nat
  state   : PgState
  encSpan : Nat
  cluSpan : Nat
  gen     : BitVec 32
  fill    : Nat
  slots   : List Nat
  failed  : BitVec 32
deriving DecidableEq, Repr

/-- Service state of a drive slot (PLC_SLOT_STAT.STATE, R255, R286). -/
inductive SlotState where
  | absent | joined | pool | failed
deriving DecidableEq, Repr

/-- What the placement state holds for one slot: tag, drain bit, service state, DATA_EXT, the used runs of its extent
map (first extent, length) (R280), the WHY of its failure record (R362, 0 when none) and the serial of the drive that
holds the slot. -/
structure SlotRec where
  tagValid  : Bool
  encl      : Nat
  drain     : Bool
  state     : SlotState
  refused   : Bool
  dataExt   : Nat
  used      : List (Nat × Nat)
  failWhy   : Nat
  failTick  : Nat
  served    : Bool
deriving DecidableEq, Repr

/-- TYPE of a ledger log record (R281). -/
inductive LType where
  | place | moveStart | moveCommit | moveAbandon | relocStart | relocDone | release | zeroMask | pgUpdate
  | slot | snapshot | volume | seal
deriving DecidableEq, Repr

/-- A ledger log record (R281): its SEQ, TYPE, VOLUME (or slot) and KEY, and its payload bytes. -/
structure LRec where
  seq     : Nat
  type    : LType
  volume  : Nat
  key     : Nat
  payload : List Byte
deriving DecidableEq, Repr

/-- One migration in the migration table (R274): the target, its reason, the stripes copied so far, the stripes being
copied and the target strips durable. -/
structure Migration where
  pg      : Nat
  run     : Nat
  reason  : Nat
  next    : Nat
  done    : Nat
deriving DecidableEq, Repr

/-- A released run waiting to become free (R277): the destages planned on the run before the change, by root JSEQ, and the tick
of the change, which the standby must acknowledge. -/
structure FreeWait where
  slot    : Nat
  first   : Nat
  len     : Nat
  intents : List Nat
  tick    : Nat
deriving DecidableEq, Repr

/-- A placement snapshot (R268): the tick, wear and port terms per slot and the effective wiring of the slots in
service (none before the first snapshot). -/
structure Snapshot where
  tick   : Nat
  wear   : Tab Nat
  port   : Tab Nat
  wiring : List (Nat × BitVec 12)
deriving DecidableEq, Repr

/-- A ledger page resident in the HBM tier (R283): `seq` is the SEQ of its newest change, `since` that of the oldest change which
its home copies lack. While the rest of a page is still read from the home (R303), `part` names the parcels it holds. -/
structure Page where
  dirty : Bool
  used  : Nat
  seq   : Nat
  since : Nat
  part  : Option (List Nat)
deriving DecidableEq, Repr

/-- A structure of the ledger home (R282, R379): a ledger page by its key, 32 records of the on-drive ledger log by SEQ / 32,
the checkpoint root, or the lost-block list. -/
inductive HomeUnit where
  | page (p : Nat)
  | log (b : Nat)
  | root
  | lost
deriving DecidableEq, Repr

/-- Where the copies of a home structure lie: the same LBAs on each slot. -/
structure HomeLoc where
  lba   : Nat
  nlb   : Nat
  slots : List Nat
deriving DecidableEq, Repr

/-- The placement and ledger engines: the placement state of R265, the ledger log and tier, and the PLC registers that
are not computed from them. `ckptRun` is S of the checkpoint in progress, `ckptStage` 1 once its root is durable and 2 once the
labels point at it. `log` holds the ledger log records behind the checkpoint that are durable in the journal or on drives. `dir` is
the page directory with the places of the other home structures, `dirTop` the next free page place and `homeBad` the pages of which
no copy could be read. `heldRuns` are runs of relocation records that a pending record replaced (R271). `wearNow` is the
Percentage Used last read from each drive, `charged` and `grown` the B and G sums of R260 per cluster. -/
structure Ledger where
  entries    : Tab LEntry
  pgt        : Tab Pg
  slots      : Tab SlotRec
  migs       : Tab Migration
  freeWait   : List FreeWait
  snapshot   : Option Snapshot
  seq        : Nat
  ckptSeq    : Nat
  ckptRun    : Option Nat
  ckptStage  : Nat
  ckptTick   : Nat
  log        : List LRec
  logSeq     : Nat
  logBytes   : Nat
  pages      : Tab Page
  dir        : List (HomeUnit × HomeLoc)
  dirTop     : Nat
  homeBad    : List Nat
  aboveHigh  : Bool
  missing    : List Nat
  misses     : Nat
  spread     : Nat
  wearSpread : Nat
  maxMoving  : Nat
  migNew     : Option (Nat × Nat × Nat)
  abandoned  : Nat
  pgSel      : Nat
  pgData     : List Byte
  wearNow    : Tab Nat
  charged    : List Nat
  grown      : List Nat
  compact    : List Nat
  replace    : List Nat
  heldRuns   : Tab (List (Nat × Nat × Nat))
deriving DecidableEq, Repr

/-! ### Stripe map cache (09) -/

/-- A line: key (V, g), its eight sub-blocks (none: not valid), age and lock (R288, R290). -/
structure SmcLine where
  vol  : Nat
  g    : Nat
  subs : List (Option LEntry)
  age  : Nat
  lock : Bool
deriving DecidableEq, Repr

/-- Who asked for a lookup: a host command by sequence number, a preload of a PF, the device's own work of an admission class, or a
prefetch. -/
inductive Requester where
  | cmd (seq : Nat)
  | preload (pf : Nat)
  | internal (cls : WorkClass)
  | prefetch
deriving DecidableEq, Repr

/-- A fill in flight (R293, R294, R301, R314): key, the way it will take (none: a bypass of R316), the port, the
requesters waiting, the sub-blocks already written meanwhile and those an invalidation removed. -/
structure Fill where
  vol     : Nat
  g       : Nat
  way     : Option Nat
  side    : Bool
  port    : Nat
  stream  : Bool
  waiters : List (Requester × Nat)
  written : List (Nat × LEntry)
  dropped : List Nat
deriving DecidableEq, Repr

/-- An eviction buffer entry (R304 to R306): the line, whether its offer was sent, whether the tier accepts it, and whether the line
was reinstated. -/
structure Evict where
  line      : SmcLine
  way       : Nat
  sent      : Bool
  accepted  : Bool
  reinstated : Bool
deriving DecidableEq, Repr

/-- A lookup that waits: parked for its page (R295), or held at its port (R292). -/
structure Parked where
  vol    : Nat
  parcel : Nat
  port   : Nat
  who    : Requester
deriving DecidableEq, Repr

/-- One identified sequential scan of a port (R298): volume, last line, lookups since it was seen. -/
structure SmcScan where
  vol   : Nat
  g     : Nat
  idle  : Nat
deriving DecidableEq, Repr

/-- One SMC port: a miss outstanding, a second miss that holds the port (R292), its last 64 looked-up lines and its scans. -/
structure SmcPort where
  missing : Bool
  held    : Bool
  recent  : List (Nat × Nat)
  scans   : List SmcScan
deriving DecidableEq, Repr

/-- A preload or unlock in progress or held (R307, R310): OP, range and the next parcel line. -/
structure Preload where
  pf     : Nat
  op     : Nat
  vol    : Nat
  first  : Nat
  count  : Nat
deriving DecidableEq, Repr

/-- The SMC registers a PF has for itself (R321). -/
structure SmcPf where
  baseVol    : Nat
  baseParcel : Nat
  op         : Nat
  count      : Nat
  overs      : Nat
  err        : Bool
  done       : Bool
deriving DecidableEq, Repr

/-- The stripe map cache. `lines` is keyed by 16 · set + way; the merging buffer holds each entry with the SEQ of its change; `queue`
are lookups of the device's own work that a port has not accepted yet. -/
structure Smc where
  lines      : Tab SmcLine
  side       : List SmcLine
  evict      : List Evict
  merge      : List (Nat × LEntry × Nat)
  fills      : List Fill
  parked     : List Parked
  queue      : List Parked
  ports      : List SmcPort
  prefetchEn : Bool
  seqDetEn   : Bool
  ready      : Bool
  pf0        : SmcPf
  pf1        : SmcPf
  run        : Option Preload
  heldOp     : Option Preload
  cnt        : List Word
deriving DecidableEq, Repr

/-! ### Write cache, journal and vault (10) -/

/-- One cached block: 4,096 data bytes, its protection bytes, and the tick in which it was accepted. -/
structure CBlock where
  data     : List Byte
  pi       : List Byte
  accepted : Nat
deriving DecidableEq, Repr

/-- METHOD of an intent (R328). -/
inductive Method where
  | open_ | full | rmw | recon
deriving DecidableEq, Repr

/-- How far an intent has come (R330): OPEN, planned with its superseding record not yet durable, its strip writes
running, its ledger change pending (ZGROUP), its retire record appended and not yet durable. -/
inductive IPhase where
  | open_ | gathering | superseding | writing | zeroing | retiring
deriving DecidableEq, Repr

/-- A live intent of a stripe (R328, R330, R331): `root`, the JSEQ of its OPEN record, journal fields, the dirty blocks (pages) and zero blocks it covers by
block position in the stripe, its survivors (R337), and the marks that make it eligible (R334). `outside` says that a write
carried out as in write-through has dirtied it, so that its superseding intent carries WT; `wtOnly` names the blocks whose
pages are held for such writes only, outside D (R324, R326, R344). `lostVer` and `iseq` are the lost-block list and the in-step
input that its retirement waits for (R581). -/
structure Intent where
  root       : Nat
  jseq       : Nat
  prev       : Nat
  method     : Method
  phase      : IPhase
  wt         : Bool
  degraded   : Bool
  zgroup     : Bool
  oldGen     : BitVec 32
  newGen     : BitVec 32
  stripMask  : BitVec 32
  tick       : Nat
  blocks     : Tab CBlock
  zeros      : List Nat
  survivors  : Tab CBlock
  outside    : Bool
  wtOnly     : List Nat
  eligible   : Bool
  allMark    : Bool
  lostVer    : Nat
  iseq       : Nat
  attempt    : Nat
  replay     : Bool
deriving DecidableEq, Repr

/-- A stripe descriptor: the live intents of a stripe, oldest first; at most two (R331). -/
structure StripeDesc where
  intents : List Intent
deriving DecidableEq, Repr

/-- A journal intent record (R328, R329): its fields; `stripe` is the stripe's key (volume, parcel, stripe). -/
structure IntentRec where
  jseq      : Nat
  method    : Method
  wt        : Bool
  degraded  : Bool
  zgroup    : Bool
  stripe    : Nat
  oldGen    : BitVec 32
  newGen    : BitVec 32
  stripMask : BitVec 32
  prev      : Nat
  tick      : Nat
deriving DecidableEq, Repr

/-- A record of the HBM journal (R328): a ledger log record (two places), an intent, a retire record naming the retired
intent, or padding. -/
inductive JRec where
  | ledger (r : LRec)
  | intent (r : IntentRec)
  | retire (jseq stripe retired : Nat)
  | padding
deriving DecidableEq, Repr

/-- Phase of a power-fail dump (R350). -/
inductive DumpPhase where
  | none_ | appending | headers | journal | safeHeaders | pages | flush | sealing | done
deriving DecidableEq, Repr

/-- Phase of restore and replay (R356, R579). -/
inductive RestorePhase where
  | waiting | ledger | pages | replay | destage | held | ended
deriving DecidableEq, Repr

/-- The vault: the newest live or restored epoch, its state and half, the claim that a restored one carries, the last dump's time and load, and the phases of
dump and restore (R348 to R358, R579). `top` is the highest epoch found on any drive, `liveEpochs` are (epoch, half);
`restored` are the roots of the intents that restore reinstated, `replaying` those that replay rewrites; `drives` are the
slots of a dump, `segments` the segments written so far and `counts` those on each of its drives. `failNow` says that
PWR_FAIL_N counts as asserted (R348), `failLow` that it did since the latest link loss (R482). -/
structure Vault where
  epoch      : Nat
  state      : Nat
  half       : Nat
  held       : Bool
  timeUs     : Nat
  mib        : Nat
  dump       : DumpPhase
  dumpTick   : Nat
  claim      : Word
  restore    : RestorePhase
  restoreAt  : Nat
  paused     : Bool
  liveEpochs : List (Nat × Nat)
  below      : Option Nat
  restored   : List Nat
  replaying  : List Nat
  top        : Nat
  drives     : List Nat
  segments   : Nat
  counts     : Tab Nat
  failNow    : Bool
  failLow    : Bool
deriving DecidableEq, Repr

/-- The write cache and journal. `hemCeiling` and `hemStamp` are what the HEM last wrote (R32); `ceiling` and `stamp`
the latched copy. -/
structure Cache where
  stripes    : Tab StripeDesc
  nextJseq   : Nat
  durJseq    : Nat
  appendQ    : List JRec
  batch      : Nat
  ring       : List JRec
  ringPos    : Nat
  hemCeiling : Nat
  hemStamp   : Nat
  ceiling    : Nat
  stamp      : Nat
  staleEdges : Nat
  freshSeen  : Nat
  stale      : Bool
  ceilLow    : Bool
  lowEdges   : Nat
  permanent  : Bool
  wtForce    : Bool
  destageAll : Bool
  cleanWait  : Bool
  reload3    : Bool
  wt         : Bool
  wtDrives   : List Nat
  wtLog      : List Nat
  wtPos      : Nat
  sizeMib    : Nat
  slotsFull  : Bool
  ringFull   : Bool
  lostCnt    : Word
  wtCnt      : Word
  vault      : Vault
deriving DecidableEq, Repr

/-! ### Rebuild, lost blocks and scrub (11) -/

/-- A lost-block list entry (R379). -/
structure Lost where
  span   : Bool
  cause  : Nat
  volume : Nat
  volLast : Nat
  first  : Nat
  count  : Nat
  last   : Nat
  run    : Nat
  stride : Nat
deriving DecidableEq, Repr

/-- An active rebuild parcel (R374): its key, the members being rebuilt with their target, the stripe in work, the
target strips durable, whether a target breaks the failure-domain minimum (R271) the losses noted so far (stripe, block
position, erased data strips), and once they are listed the change of the lost-block list and the in-step input that must be durable. -/
structure Rebuild where
  key     : Nat
  members : List Nat
  short   : Bool
  stripe  : Nat
  started : Bool
  losses  : List (Nat × Nat × List Nat)
  lostVer : Nat
  iseq    : Nat
deriving DecidableEq, Repr

/-- A scrub pass (R383, R387): the parcels still to visit (key), the stripe of the first, the stripes to visit once
more at the end (R384), the home structures still to read (R386), the pass total and bytes checked, and when it began. -/
structure Scrub where
  parcels : List Nat
  stripe  : Nat
  again   : List Nat
  homes   : List HomeUnit
  second  : Bool
  total   : Nat
  checked : Nat
  began   : Nat
  behind  : Bool
  nopace  : Bool
deriving DecidableEq, Repr

/-- The degraded-array machinery: the PLC registers of R391, the active parcels, the lost-block list in the order of
R382 with the number of its changes so far and of those durable in its home copies (R379), the scrub pass and the block repairs
made per slot with their tick (R362 WHY 6). -/
structure ArrayPart where
  parallel   : Nat
  parallelNew : Option Nat
  active     : List Rebuild
  queueWas   : Bool
  skipped    : List Nat
  rbldBytes  : Word
  failSlot   : Nat
  lost       : List Lost
  lostVer    : Nat
  lostDur    : Nat
  widened    : Bool
  merges     : Nat
  lostSel    : Nat
  lostData   : List Byte
  scrub      : Option Scrub
  passes     : Nat
  scrubCnt   : List Word
  repairs    : List (Nat × Nat)
  declare    : List (Nat × Nat)
deriving DecidableEq, Repr

/-! ### Drive ports (12) -/

/-- One drive cluster: DRV_CLU_CFG and the link state of its root ports (R393, R394, R419), and DRV_PERST_N of each
root port (true: high). -/
structure Cluster where
  en    : Bool
  bifur : Nat
  speed : Nat
  width : List Nat
  rate  : List Nat
  perst : List Bool
deriving DecidableEq, Repr

/-- The drive at a position and how far its bring-up has come (R403). -/
inductive BringUp where
  | waitRdy | identCtrl | identNs | label_ | hostId | numQueues | cqs | sqs | register | report | acquire | smart
  | ready | unassigned | foreign | stopped
deriving DecidableEq, Repr

/-- What bring-up learns of a drive (R402, R407, R412, R398): `wz` and `resvOk` are what its Identify Controller data says
of the requirements 0x5 and 0x7; `label_` is a valid label's slot and array identity, none once the drive counts as
unlabelled. -/
structure DriveInfo where
  serial   : List Byte
  wz       : Bool
  resvOk   : Bool
  vwc      : Bool
  piFmt    : Nat
  piFirst  : Bool
  mdts     : Nat
  nsze     : Nat
  dsm      : Bool
  queues   : Nat
  depth    : Nat
  mqes     : Nat
  label_   : Option (Nat × Word)
deriving DecidableEq, Repr

/-- A present drive: bring-up step, what is known of it, whether its link is in L0 and since when it is down, its controller
enable and bus mastering, the I/O queue used last (R406), and DRV_SLOT_STAT.RESV. -/
structure Drive where
  step    : BringUp
  info    : DriveInfo
  slot    : Option Nat
  linkUp  : Bool
  downAt  : Nat
  ccEn    : Bool
  master  : Bool
  lastQ   : Nat
  resv    : Nat
deriving DecidableEq, Repr

/-- DRV_POS_MAP of one position (R419). -/
structure PosMap where
  slot  : Nat
  valid : Bool
deriving DecidableEq, Repr

/-- The sticky part of DRV_SLOT_STAT (bits 47:36), DRV_SLOT_SER, the failure bits LAST_RESORT and RETURNED of
PLC_SLOT_FAIL, and the serial and cluster of the slot's latest SLOT change (R400, R401). -/
structure SlotStat where
  refuse  : Nat
  causes  : BitVec 8
  serial  : List Byte
  cluster : Option Nat
  lastRes : Bool
  returned : Bool
  failedSerial : List Byte
deriving DecidableEq, Repr

/-- The drive ports. -/
structure Drives where
  clusters : List Cluster
  posMap   : Tab PosMap
  drives   : Tab Drive
  slots    : Tab SlotStat
  arrived  : List (Nat × Nat × Nat × List Byte)
  retried  : List Nat
deriving DecidableEq, Repr

/-! ### Hold-up energy monitor (13) -/

/-- One second of samples for the 1 s means (R430, R439): samples so far, the sum of their current codes and of the
magnitudes of their current codes. -/
structure Second where
  n    : Nat
  sumI : Int
  sumA : Nat
deriving DecidableEq, Repr

/-- A rest point (R430, R439, R444): voltage (V), Q or s, the state of charge at the rest voltage, the charge counter (C)
and the tick. -/
structure RestPoint where
  volt : Rat
  held : Rat
  soc  : Rat
  count : Rat
  tick : Nat
deriving DecidableEq, Repr

/-- The HEM (13). Voltages in volts, charge in coulombs, energy in joules, times in ns of `clock`. For an SC source `q`
is the charge count; for an LI source `soc`, `v1`, `p` are the filter's state (R427). `counted` integrates the current
without clamping, for learning and calibration; `fresh` says that a restore has ended the 30 % derating (R434, R448);
`taperAt`, `disAt` count samples of 1 ms; `calRef` that the last calibration request was refused; `stall` counts the edges
for which no ceiling is written after a management plane reset (R33); `calCapAt` is the stamp of the first ceiling that a
calibration's cap bounds (R445); `low` that E_g is at or below the reserve (R436), as it is before the first sample. -/
structure Hem where
  vraw     : BitVec 16
  iraw     : BitVec 16
  traw     : BitVec 16
  seq      : Nat
  sampled  : Bool
  sampleAt : Nat
  q        : Rat
  bank     : Rat
  r0       : Rat
  r1       : Rat
  tau      : Rat
  soc      : Rat
  v1       : Rat
  p00      : Rat
  p01      : Rat
  p11      : Rat
  eq       : Rat
  ev       : Rat
  eg       : Rat
  counted  : Rat
  second   : Second
  restSecs : Nat
  restDone : Bool
  atRest   : Bool
  restAge  : Nat
  restAt   : Nat
  restored : Bool
  fresh    : Bool
  learnedSrc : Nat
  learnCnt : Nat
  learnTotal : Nat
  everLearned : Bool
  reject   : Nat
  restoreRes : Nat
  open_    : Option RestPoint
  bad      : Nat
  steps    : List Rat
  lastI    : Rat
  lastV    : Rat
  railRun  : Nat
  goodRun  : Nat
  fault    : Bool
  emptyRun : Nat
  taperAt  : Option Nat
  fullDone : Bool
  disagree : Bool
  disAt    : Nat
  disMin   : Rat
  disMax   : Rat
  staleLearn : Bool
  low      : Bool
  cal      : Nat
  calRef   : Bool
  calWhy   : Nat
  calFull  : Bool
  calCapAt : Option Nat
  calWt    : Bool
  calFrom  : Option RestPoint
  disch    : Bool
  ship     : Nat
  shipPin  : Bool
  shipFell : Bool
  cleanSeen : Bool
  chg      : Bool
  dumpPower : Nat
  calDirtyMax : Nat
  vdiv     : Nat
  ceil     : Nat
  stamp    : Nat
  stall    : Nat
deriving DecidableEq, Repr

/-! ### What commands carry from outside -/

/-- The holder of a drive's reservation as a Reservation Report shows it: its key, and the two words of its Host Identifier
(R404). -/
structure Holder where
  key  : Word
  pair : Word
  die  : Word
deriving DecidableEq, Repr

/-- What an admin command of a drive answers (R402, R403, R416): CSTS.RDY with CFS clear, a failure (or CFS), the
identify data, the label block, a plain success, the number of queue pairs granted, a Reservation Report (its holder), a
Reservation Conflict, or SMART data. -/
inductive AdminAnswer where
  | rdy
  | failed
  | identCtrl (serial : List Byte) (vwc : Bool) (mdts : Nat) (writeZeroes dsm resv hostId128 : Bool) (mqes : Nat)
  | identNs (active fmtOk : Bool) (nsze : Nat) (piFmt : Nat) (piOk piFirst ptpl writeExcl : Bool)
  | label_ (bytes : List Byte)
  | ok
  | queues (granted : Nat)
  | report (holder : Option Holder)
  | conflict
  | smart (warning used : Nat)
deriving DecidableEq, Repr

/-- A stripe descriptor read back from the vault (R323, R356): the stripe's key and, for each of its live intents, the JSEQ,
the dirty blocks, the zero blocks and the survivors, by block number within the stripe. -/
structure DescFind where
  stripe  : Nat
  intents : List (Nat × List Nat × List Nat × List Nat)
deriving DecidableEq, Repr

/-- What a vault header says of its epoch (R354). -/
structure VaultHead where
  epoch    : Nat
  state    : Nat
  half     : Nat
  arrayId  : Word
  claim    : Word
  dumpTick : Nat
  jseqLast : Nat
  bytes    : Nat
deriving DecidableEq, Repr

/-- A vault epoch as it was read back (R354, R357): the header copies found of it on the drives, 128 bytes each, how long its dump
took, the journal records from tail to head (none: a missing record), and the descriptors that were read. -/
structure VaultFind where
  headers  : List (List Byte)
  timeUs   : Nat
  journal  : List (Option JRec)
  descs    : List DescFind
deriving DecidableEq, Repr

/-- A copy of a checkpoint root as restore reads it (R284, R285): S, the tables as they stood at S, and the page directory;
`stats` are the serial, cluster and failure of each slot as its last SLOT change gives them. -/
structure RootFind where
  seq     : Nat
  entries : Tab LEntry
  pgt     : Tab Pg
  slots   : Tab SlotRec
  stats   : Tab SlotStat
  migs    : Tab Migration
  volumes : Tab Volume
  dir     : List (HomeUnit × HomeLoc)
  dirTop  : Nat
deriving DecidableEq, Repr

/-- What restore reads from the drives (R285, R356, R579): the copies with a valid CRC at each place of a checkpoint root, the
records of the ledger log in the order of their places from S + 1 of the newest root on, 128 bytes each, the vault epochs, the
highest claim in labels and posts, and the lost-block list's home copy. -/
structure RestoreFind where
  roots   : List (List RootFind)
  log     : List (List Byte)
  lost    : List Lost
  vaults  : List VaultFind
  claim   : Word
deriving DecidableEq, Repr

/-- A page read back from the vault at restore (R356, R357): the epoch in which it was found (0: the write-through log, whose intents
carry WT, R344), stripe, block number within it, the JSEQ that names it, its data and protection bytes. -/
structure PageFind where
  epoch  : Nat
  stripe : Nat
  block  : Nat
  jseq   : Nat
  data   : List Byte
  pi     : List Byte
deriving DecidableEq, Repr

/-- The content of an in-step input (R457): a data command with its blocks, a volume command, a lost-block addition, a
volume clear, a live replacement, a destage plan. -/
inductive InStep where
  | data (e : Entry) (func : Nat) (bytes pi : List Byte)
  | volume (e : Entry) (func : Nat)
  | lost (l : Lost)
  | clear (vol : Nat)
  | live
  | destage (stripe jseq : Nat)
deriving DecidableEq, Repr

/-- The value of a relay post as a read shows it (R470, R472). -/
structure PostVal where
  gen   : Nat
  loc   : Bool
  claim : Word
  tick  : Nat
deriving DecidableEq, Repr

/-- Where an uncorrectable ECC error lies (R496, "Uncorrectable ECC errors by location"). -/
inductive EccLoc where
  | reedLeg (leg : Nat)
  | dmaBuf (ch : Nat)
  | smc (vol g : Nat)
  | fatalSram
  | cachePage (stripe block : Nat)
  | cleanPage
  | ledgerPage (page : Nat)
  | fatalHbm
deriving DecidableEq, Repr

/-- What an SRAM patrol pass found in a group (R494): corrected words by row, rows with an uncorrectable error and what
lies there, and columns with errors and how many rows show them. -/
structure SramFind where
  group : Nat
  rows  : List Nat
  ue    : List (Nat × EccLoc)
  cols  : List (Nat × Nat)
deriving DecidableEq, Repr

/-! ### Pair operation (14) -/

/-- Unit states of R474. -/
inductive UnitState where
  | solo | active | standbySynced | standbyJoining | unsynced | isolated | salvage
deriving DecidableEq, Repr

/-- EPG_CLAIM (R490): both words. -/
structure Claim where
  claim : Word
  unit  : UnitState
  seq   : BitVec 8
deriving DecidableEq, Repr

/-- What is known of a relay post (R470, EPG_POST_STAT): last value read or written, the POST_GEN of the first read
after the latest link loss (R472). -/
structure Post where
  valid   : Bool
  adv     : Bool
  loc     : Bool
  durable : Bool
  gen     : Nat
  claim   : Word
  base    : Option Nat
  tick    : Nat
deriving DecidableEq, Repr

/-- A relay post round (R471): its number, LOCAL, when it was issued, how many of its writes have completed, and whether it
has been taken as durable. -/
structure Round where
  gen    : Nat
  loc    : Bool
  issued : Nat
  done   : Nat
  noted  : Bool
deriving DecidableEq, Repr

/-- Why a claim is being taken (R466): takeover, salvage, switch-back, FORM. -/
inductive TakeWhy where
  | takeover | salvage | switchBack | form
deriving DecidableEq, Repr

/-- The claim procedure of R467: drives still to do (slots, in order), those acquired and those that failed, the old holder's
key, and whether the posts still have to be read again (R482). -/
structure Take where
  why     : TakeWhy
  left    : List Nat
  got     : List Nat
  failed  : List Nat
  oldKey  : Word
  reread  : Bool
deriving DecidableEq, Repr

/-- Frame types of R455 with the content the model gives them. -/
inductive Frame where
  | hello (pairId dieId : Word) (unit : UnitState) (claim : Word) (digests : List Word) (ledgerSeq : Nat)
  | input (iseq : Nat) (what : InStep)
  | jrec (r : JRec)
  | page (stripe block jseq : Nat) (data pi : List Byte)
  | dinput (stripe block : Nat) (data : List Byte)
  | digest (tick iseq jseq lseq : Nat) (ledgerCrc parityCrc : Word) (jseqs : List Nat)
  | ack (jseq tick iseq : Nat)
  | base (r : JRec)
  | basePage (stripe block jseq : Nat) (data pi : List Byte)
  | baseDone
  | mismatch (tick : Nat)
  | drop
  | handover (tick : Nat)
  | liveImg (imgId : Word) (target : Nat)
deriving DecidableEq, Repr

/-- The Epong link controller (R452 to R454): whether the link is in L0 or retraining and since when (`l0At`), sender
sequence and kept payload flits (by FSEQ), those sent in this tick (`sent`) and the bytes of them that the mirror budget is
charged (`charged`, R456), receiver sequence, replays of one flit, and
the counters of EPG_LINK. -/
structure Link where
  l0       : Bool
  up       : Bool
  training : Bool
  l0At     : Nat
  lastFlit : Nat
  lossDecl : Bool
  txSeq    : Nat
  txKeep   : List Nat
  sent     : Nat
  charged  : Nat
  replayOf : Nat
  replayN  : Nat
  rxSeq    : Nat
  rxCount  : Nat
  replays  : Nat
  retrains : Nat
  losses   : Nat
  prsntN   : Bool
deriving DecidableEq, Repr

/-- What the next digest covers (R464): the ledger records of the tick (on the standby: received), the last ledger SEQ and
JSEQ entered in the journal, and the parity outputs by superseding intent. -/
structure DigestAcc where
  ledger : List Byte
  parity : List (Nat × List Byte)
  lseq   : Nat
  jseq   : Nat
deriving DecidableEq, Repr

/-- A digest received and not yet confirmed (R465): its tick, whether its sequence numbers and LEDGER_CRC agree, its
PARITY_CRC and the destages it lists. -/
structure DigestIn where
  tick   : Nat
  ok     : Bool
  parity : Word
  jseqs  : List Nat
deriving DecidableEq, Repr

/-- The pair sequencer (14). Active side: partner knowledge, mirroring, resync (`joinSeq` is the joiner's ledger SEQ,
`manifest` the intents whose pages are still to send, by root JSEQ and JSEQ at X), rounds. Standby side: `iseq` the last ISEQ received, `appliedIseq` the
last one applied, the placements it made itself and whose records are still to come, digests to confirm, DINPUT blocks
(stripe, tag, data), retirements that wait for a parity leg, the buffer, `manifest` the base intents whose pages have not
all arrived, posts. `powerOwn` says that the unit found its own reservation at power-up (R476), `fenceHold` that R469 holds
completions, `handover` the tick of a HANDOVER not yet acted on (R488), `conflicts` the commands that wait for a Reservation
Report (R468), `oldClaim`, `salvBuf` and `salvAll` what a salvage started from (R483, R486): claim H, an unbroken buffer, a
takeover. `readAt` is the time of the latest post read, `basePos` the next block number to send of the first intent of `manifest`. -/
structure Pair where
  claim      : Claim
  partner    : Nat
  peerUnit   : UnitState
  mirrored   : Bool
  partnerLeft : Bool
  loc        : Bool
  wantLocal  : Bool
  haltAnn    : Bool
  noHolder   : Bool
  phase      : Nat
  joinWhy    : Nat
  scope      : Nat
  mismatch   : List Nat
  joinOrder  : Bool
  high       : Word
  last       : Nat
  result     : Nat
  halt       : Bool
  iseq       : Nat
  appliedIseq : Nat
  ackJseq    : Nat
  ackTick    : Nat
  ackIseq    : Nat
  ackAt      : Nat
  lastStamp  : Nat
  digest     : DigestAcc
  dcheck     : List DigestIn
  ownRecs    : List LRec
  dins       : List (Nat × Nat × List Byte)
  retires    : List (Nat × Nat × Nat)
  buffer     : List (Nat × Frame)
  bufferOk   : Bool
  baseLeft   : Nat
  manifest   : List (Nat × Nat)
  xIseq      : Nat
  xJseq      : Nat
  xLseq      : Nat
  posts      : List Post
  postGen    : Nat
  rounds     : List Round
  durableAt  : Nat
  roundAt    : Nat
  postReadAt : Nat
  readAt     : Nat
  stallFrom  : Option Nat
  lostRaised : Bool
  take       : Option Take
  switch     : Nat
  switchAt   : Nat
  reports    : List (Nat × Bool × Word)
  volClear   : Nat
  volRefused : Bool
  cnt        : List Word
  powerOwn   : Bool
  fenceHold  : Bool
  handover   : Option Nat
  conflicts  : List Sub
  helloAt    : Nat
  joinSeq    : Nat
  oldClaim   : Word
  salvBuf    : Bool
  salvAll    : Bool
  basePos    : Nat
  link       : Link
deriving DecidableEq, Repr

/-! ### Health, events and trials (15) -/

/-- The flash health record (R237, R495, R501): what every later reset applies again. -/
structure HealthRec where
  retiredPairs : List (Nat × Nat)
  pcRetired    : List Nat
  sramRows     : Tab Nat
  sramCols     : Tab Nat
  wtPerm       : Bool
  reasons      : BitVec 5
  powerOnH     : Nat
deriving DecidableEq, Repr

/-- Health state (15): HLT registers, counters of HLT_REPORT and the marks the self-tests keep: `ceRows` the rows of a
group with a correctable error in its last pass, `rowMarks` the HBM rows with one (pseudo-channel, row, time),
`agingSeen` the monitors that have read 400 or below, `thermal` that a thermal stop has been made (R561). -/
structure Health where
  why        : BitVec 5
  stopped    : Bool
  tempHigh   : Bool
  wtPerm     : Bool
  stop       : Bool
  cluCap     : BitVec 12
  dseq       : BitVec 8
  pcRetire   : BitVec 64
  report     : List Byte
  sramRows   : Tab Nat
  sramCols   : Tab Nat
  sramCe     : Nat
  sramUe     : Nat
  hbmCe      : Nat
  hbmUe      : Nat
  sramPasses : Nat
  hbmPasses  : Nat
  ceRows     : Tab (List Nat)
  rowMarks   : List (Nat × Nat × Nat)
  reedFaults : Nat
  testFails  : Nat
  dmaHangs   : Nat
  aging      : List Nat
  agingSeen  : List Nat
  agingLow   : List Nat
  phy        : List Nat
  phySweeps  : Nat
  tjNow      : Int
  tjMax      : Int
  hotRun     : Nat
  thermal    : Bool
  powerOnH   : Nat
deriving DecidableEq, Repr

/-- What is pending for a source at one destination (R506): raise count and the recorded tick. -/
structure Pend where
  count : Nat
  tick  : Nat
deriving DecidableEq, Repr

/-- The event unit (15): EVT_STAT and EVT_MASK as sparse bit sets, pending marks per destination, the tick of the last
message per vector (function · 2,048 + vector), the management log and its read copy. -/
structure Events where
  stat     : Tab Bool
  mask     : Tab Bool
  pendMsix : Tab Pend
  pendMgmt : Tab Pend
  lastMsg  : Tab Nat
  log      : List (Nat × Nat × Nat)
  written  : Nat
  logBase  : Nat
  logSel   : Nat
  logData  : List Byte
deriving DecidableEq, Repr

/-- A trial as TRL_ARM lays it out (R519). -/
structure Trial where
  epong    : Bool
  drv      : Bool
  reed     : Bool
  clusters : BitVec 12
  kind     : Nat
  dir      : Bool
  rateLog  : Nat
  pair     : Nat
  engineB  : Bool
  count    : Nat
deriving DecidableEq, Repr

/-- Trial control (15): TRL_ARM with its SEQ, TRL_REQ, TRL_CTL.ARM, TRL_STAT, TRL_FIRED and the units counted. -/
structure Trials where
  arm       : Option Trial
  seq       : BitVec 8
  announced : Bool
  req       : BitVec 48
  armBit    : Bool
  refuse    : Nat
  why       : Nat
  link      : Nat
  reed      : Nat
  unitsE    : Nat
  unitsD    : Nat
  unitsR    : Nat
  done      : Nat
  stopped   : Bool
deriving DecidableEq, Repr

/-! ### Management plane (16) -/

/-- One window context (R521): MGW_ADDR and MGW_CTL. `lastUse` is the time of its last window access. -/
structure Ctx where
  offset    : Nat
  target    : Nat
  claim     : Option Nat
  copy      : Bool
  busy      : Bool
  cmdTarget : Option Nat
  overrun   : Bool
  claimLost : Bool
  result    : Nat
  lastCmd   : Nat
  written   : Nat
  runOpen   : Bool
  lastUse   : Nat
  health    : List Byte
  reply     : List Byte
deriving DecidableEq, Repr

/-- STATE of a key slot (R535). -/
inductive SlotFuse where
  | empty | programmed | revoked | damaged
deriving DecidableEq, Repr

/-- One key slot (R535). -/
structure KeySlot where
  hash  : List Byte
  state : SlotFuse
  image : Bool
deriving DecidableEq, Repr

/-- A checked key order being fused (R537, R539): context, ACTION, slot, USE, hash, SVN. -/
structure Fusing where
  ctx    : Nat
  action : Nat
  slot   : Nat
  image  : Bool
  hash   : List Byte
  svn    : Nat
deriving DecidableEq, Repr

/-- A flash write (R529): context, command and copy; a waiting one has no bytes yet. -/
structure FlashJob where
  ctx   : Nat
  cmd   : Nat
  copy  : Nat
  bytes : List Byte
deriving DecidableEq, Repr

/-- The running firmware (MGW_FW). -/
structure Firmware where
  version : Nat
  svn     : Nat
  copyB   : Bool
deriving DecidableEq, Repr

/-- An endpoint registered for alerts (R543): whether a notification is owed, and owed at once. -/
structure Alert where
  eid     : Nat
  smbus   : Bool
  owed    : Bool
  urgent  : Bool
  sentAt  : Option Nat
deriving DecidableEq, Repr

/-- The management plane (16): contexts, staging areas, fuses, running firmware, flash queue, orders being fused, alert
endpoints, EIDs and the SMBus address straps. -/
structure Mgmt where
  ctxs     : List Ctx
  image    : List Byte
  firmware : List Byte
  order    : List Byte
  hem      : List Byte
  keys     : List KeySlot
  svnMin   : Nat
  orderWhy : Nat
  recovery : Bool
  fw       : Option Firmware
  flashQ   : List FlashJob
  fusing   : Option Fusing
  alerts   : List Alert
  eids     : List Nat
  smbAddr  : BitVec 2
  alertPin : Bool
deriving DecidableEq, Repr

/-- The SPI NOR flash (R533, R72): the bytes programmed from the start of each region; beyond them the erased value. -/
structure Flash where
  fwA       : List Byte
  fwB       : List Byte
  primary   : List Byte
  secondary : List Byte
  health    : HealthRec
deriving DecidableEq, Repr

/-! ### Pins and the device (17) -/

/-- Pin levels that the model keeps (R550, R553, R569): inputs as last seen, outputs as driven (open-drain outputs:
true = released). -/
structure Pins where
  porN       : Bool
  hpPerst    : List Bool
  pwrFailN   : Bool
  testMode   : Bool
  replaceN   : Bool
  thermTripN : Bool
  cold       : Bool
deriving DecidableEq, Repr

/-- What the block sends out: writes to host memory, MSI-X messages, frames and flits to the partner, drive traffic,
and management messages. -/
inductive Output where
  | hostWrite (func : Nat) (addr : Word) (bytes : List Byte) (ro : Bool)
  | msix (func vector : Nat) (addr : Word) (data : Nat) (ro : Bool)
  | entryFetch (func : Nat) (addr : Word)
  | dmaRead (ch : Nat) (addr : Word) (bytes : Nat)
  | descFetch (ch : Nat) (addr : Word)
  | submit (cid slot queue : Nat) (op : NvmOp) (lba nlb : Nat) (fua prchk : Bool)
  | sqTail (slot queue entries : Nat)
  | cqHead (slot queue entries : Nat)
  | admin (pos : Nat) (step : BringUp) (data : List Byte)
  | getLog (slot page : Nat)
  | frame (stamp : Nat) (f : Frame)
  | flitAck (fseq : Nat) (refuse : Bool)
  | flitReplay (fseq : Nat)
  | flitStruck (kind : Nat)
  | tlpStruck (cid kind : Nat)
  | mctp (ctx code : Nat) (bytes : List Byte)
  | notify (eid record : Nat)
deriving DecidableEq, Repr

/-- The copy of the claim and health register set that the data plane samples at each edge (R25). -/
structure Sampled where
  claim    : Claim
  holder   : Bool
  slotMap  : SlotMap
  pcRetire : BitVec 64
  wtPerm   : Bool
  stop     : Bool
  cluCap   : BitVec 12
  trial    : Option Trial
deriving DecidableEq, Repr

/-- Where the device is on its way from reset (R550, R551): in reset; boot ROM running; configuration ready and the
loader at work. -/
inductive Boot where
  | reset | booting | up
deriving DecidableEq, Repr

/-- What a plan waits for and what it does next (R93 by construction: the continuation runs when the last part of the
plan has completed). A stripe is named by its key: 256 · parcel key + stripe. -/
inductive Purpose where
  | readPart (seq first key : Nat)
  | readOut (seq : Nat)
  | hostOut (seq : Nat)
  | writeIn (seq : Nat)
  | verifyRead (seq first key : Nat)
  | verifyCheck (seq first key : Nat)
  | repair (key : Nat)
  | destageRead (key root : Nat)
  | destageEnc (key root : Nat)
  | destageWrite (key root : Nat)
  | wtLog (key root : Nat)
  | rebuildRead (key : Nat)
  | rebuildWrite (key : Nat)
  | moveRead (key : Nat)
  | moveEnc (key : Nat)
  | moveWrite (key : Nat)
  | scrubRead (key : Nat)
  | scrubCheck (key : Nat)
  | scrubAgain (key : Nat)
  | parity (jseq key : Nat)
  | journal
  | post (gen : Nat)
  | vault
  | report (slot : Nat)
  | take (slot : Nat)
  | homeWrite (u : HomeUnit) (seq : Nat)
  | homeLabels
  | homeRead (page : Nat)
  | homeScrub (u : HomeUnit)
deriving DecidableEq, Repr

/-- A plan: its purpose, the parts still outstanding, the waystation bytes it holds, its stripe's remaining redundancy
(R101, R221; for a WRITE the bytes it will add to the dirty load), its place in its queue (R93, R100). A stripe plan wants the
blocks `want`, tagged 64 · block position + strip, has those of `got`, of which `pages` lie in cache pages, met a media error
on those of `failed` and found those of `lost` beyond recovery; a CHECK leaves in `lost` the block positions that differ.
`outs` are leg outputs by 16 · tag + chunk, `stage` counts the rounds of an UPDATE with more inputs than one leg takes. -/
structure Job where
  purpose : Purpose
  order   : Nat
  left    : Nat
  cls     : WorkClass
  zr      : Bool
  red     : Nat
  reserve : Nat
  want    : List Nat
  got     : Tab (List Byte)
  pages   : List Nat
  failed  : List Nat
  lost    : List Nat
  outs    : Tab (List Byte)
  stage   : Nat
deriving DecidableEq, Repr

end Sys2Proof.Machine
end

