-- ==== Sys2Proof/Syntax.lean ====
section
/-! DEFINITION. The commands of the FS9600: one constructor per row of the table of what drives the device. A command
carries what comes from outside with it: the writing function `f`, the register value written, the bytes a read of host
memory or of a drive returned, the level of a pin. `f` is the function index 128 · port + n of R52; a stripe is named
by its key (volume · 2^40 + parcel) · 256 + stripe. -/

namespace Sys2Proof

open Sys2Proof.Machine

/-- What can happen to the block. -/
inductive Instr where
  /-- DEVICE_RESET (R550): POR_N low stops every plane at once with no dump, returns DRN_COUNT to zero and drives the reset pin states. -/
  | deviceReset
  /-- SUPPLY_BROWNOUT (R550): The on-die monitor sees VDD_CORE or VDD_IO below 90 % of nominal for more than 2 µs and causes a device reset. -/
  | supplyBrownout
  /-- POR_N_RELEASE (R551): POR_N rises and the device proceeds through PLL lock, fuse read, firmware check, health record and LOADER bring-up. -/
  | porNRelease (straps : BitVec 2) (tj : Int)
  /-- IMAGE_VERIFY_DONE (R70): The loader finishes its structural and signature checks of an image and either accepts it or refuses it with a reason, section and offset. -/
  | imageVerifyDone
  /-- RELOAD_PREPARE (R76): At a tick edge after acceptance, ring intake stops, the journal head is appended and the ledger checkpoint is sealed. -/
  | reloadPrepare
  /-- RELOAD_APPLY (R76): Once PREPARE has finished, the caravanserai is empty and posted drive commands are collected, the control and data planes reset and the new image is applied. -/
  | reloadApply
  /-- IMAGE_RUNNING (R28): APPLY completes, STATE becomes RUNNING, GLB_IMG_ID updates and event 0xE02 is raised. -/
  | imageRunning
  /-- LIVE_VERIFY_DONE (R78): A live CODE or PLAC request finishes verification and is either made pending or refused with a live reason and event 0xE04. -/
  | liveVerifyDone
  /-- LIVE_PAIR_TIMEOUT (R83): The standby has not reported the same verified IMG_ID within 10 s, so both units refuse the live request with reason 0x12. -/
  | livePairTimeout
  /-- TICK_EDGE (R34): DRN_COUNT increments and the ordered edge operations run: sampling, ceiling latch, live apply, drive posting and collection, and caravan start. -/
  | tickEdge
  /-- CARAVAN_SEAL (R91): The seal cycle is reached, and the caravan is closed and loaded into engine and drive queues. -/
  | caravanSeal (late : Option Nat)
  /-- DRN_OVERRUN (R106): A leg unfinished at the edge that ends its tick continues into the next tick from the reserved slice and is counted. -/
  | drnOverrun (leg : Nat)
  /-- DRN_LEG_HUNG (R108): A leg still unfinished at the second edge after its tick is cancelled and re-run, or handled as a resource fault. -/
  | drnLegHung (leg : Nat)
  /-- DRN_URGENT_SET (R103): A background stream's wait count reaches DRN_PATIENCE; the stream becomes urgent with its backlog recorded. -/
  | drnUrgentSet (stream : Nat)
  /-- DRN_BG_HOLD_WRITE (R111): A write to DRN_BG_HOLD holds or releases background streams from the next compilation and ends the urgency of a held stream. -/
  | drnBgHoldWrite (f : Nat) (value : Word)
  /-- JRN_CEIL_STALE (R33): The ceiling stamp has not advanced for 16 edges, so the ceiling is treated as zero until two fresh values are latched. -/
  | jrnCeilStale
  /-- JRN_WT_EXIT (R345): D ≤ 7/8 · L has held at 1,024 consecutive latches, so new writes return to write-back. -/
  | jrnWtExit
  /-- RING_ENABLE (R120): A write of RNG_CFG.EN from 0 to 1 enables the ring pair and zeroes its indices, or is refused with ERR. -/
  | ringEnable (f ring : Nat) (value : Word)
  /-- RING_DISABLE (R121): A write of EN = 0 stops fetching; BUSY stays 1 until the owed completions are written. -/
  | ringDisable (f ring : Nat) (value : Word)
  /-- DOORBELL (R124): A write that reaches DBL_GRP starts, or queues, a scan of the ring group. -/
  | doorbell (f group : Nat)
  /-- GROUP_SCAN (R126): Ring intake scans a waiting group in doorbell order, samples SQ_PI and issues entry fetches subject to completion places. -/
  | groupScan
  /-- ENTRY_FETCH_DONE (R127): A submission entry read completes, SQ_CI advances and the command goes to the decoder. -/
  | entryFetchDone (ring : Nat) (bytes : List Byte)
  /-- SQ_FETCH_ERROR (R128): A read error on a submission fetch sets SQ_ERR and stops fetching from the ring. -/
  | sqFetchError (ring : Nat)
  /-- STALL_RELEASE (R133): A release makes the held fetch possible, so STALL clears and fetching resumes without a doorbell. -/
  | stallRelease (ring : Nat)
  /-- CQ_CI_WRITE (R132): The host writes RNG_CQ_CI and frees completion positions. -/
  | cqCiWrite (f ring : Nat) (value : Word)
  /-- CSERAI_MOVE (R132): In the tick after the CQ_CI write is seen, caravanserai entries move to the CQ in order with VIA_CSERAI set. -/
  | cseraiMove (ring : Nat)
  /-- COMMAND_COMPLETE (R131): A command finishes and its completion takes its CQ place or a caravanserai entry in finish order. -/
  | commandComplete (ring : Nat)
  /-- CQ_WRITE_ERROR (R134): A write error on a completion entry or the mirror word sets CQ_ERR and stops fetching and posting. -/
  | cqWriteError (ring : Nat)
  /-- FUNCTION_LEVEL_RESET (R135): An FLR stops intake for the function, discards its completions and pending events, and aborts its work within 100 ms. -/
  | functionLevelReset (f : Nat)
  /-- MSIX_DISABLE (R509): Disabling MSI-X in a function discards its pending marks and clears its PBA. -/
  | msixDisable (f : Nat)
  /-- READ (R154): Opcode 0x01 delivers blocks from the write cache or the drives, reconstructing blocks on failed drives. -/
  | read (cmd : Nat) (mem : List HostFrag)
  /-- WRITE (R159): Opcode 0x02 places the data in protected HBM under a journal intent, or on drives for FUA and write-through. -/
  | write (cmd : Nat) (lists data : List HostFrag)
  /-- WRITE_ZEROES (R165): Opcode 0x03 makes every block of its range read as zero. -/
  | writeZeroes (cmd : Nat)
  /-- DEALLOCATE (R165): Opcode 0x04 deallocates its range so that it reads as zero, releasing parcels whose zero mask fills. -/
  | deallocate (cmd : Nat)
  /-- FLUSH (R166): Opcode 0x05 completes at once in write-back, or once the volume's dirty blocks are durable in write-through. -/
  | flush (cmd : Nat)
  /-- VERIFY (R158): Opcode 0x07 checks every block against parity and guard, repairs what it can and reports lost blocks. -/
  | verify (cmd : Nat)
  /-- VOL_CREATE (R168): Opcode 0x40 creates a volume with the given code, geometry, protection information, failure-domain minimum and owner. -/
  | volCreate (cmd : Nat)
  /-- VOL_DELETE (R171): Opcode 0x41 waits for earlier commands, discards the volume's dirty data and releases its parcels. -/
  | volDelete (cmd : Nat)
  /-- VOL_RESIZE (R172): Opcode 0x42 grows or shrinks a volume for later commands. -/
  | volResize (cmd : Nat)
  /-- VOL_QUERY (R173): Opcode 0x43 writes the 64-byte volume record to host memory. -/
  | volQuery (cmd : Nat)
  /-- HOST_MEMORY_ERROR (R163): A PCIe error on host memory access for a command completes it with status 0x06. -/
  | hostMemoryError (cmd : Nat)
  /-- DMA_START (R199): Writing DMA_CTL.START while IDLE starts the list at DMA_LIST_HEAD. -/
  | dmaStart (f ch : Nat)
  /-- DMA_PAUSE (R202): Writing PAUSE = 1 stops new reads and enters PAUSING. -/
  | dmaPause (f ch : Nat)
  /-- DMA_UNPAUSE (R202): Writing PAUSE = 0 in PAUSING or PAUSED returns the channel to RUN at the named element. -/
  | dmaUnpause (f ch : Nat)
  /-- DMA_PAUSED (R202): The last write issued before a pause has responded, and the channel enters PAUSED with exact positions. -/
  | dmaPaused (ch : Nat)
  /-- DESCRIPTOR_FETCH (R188): A descriptor fetch completes and the descriptor is checked, or the channel faults with cause 0x6. -/
  | descriptorFetch (ch : Nat) (bytes : List Byte)
  /-- PACING_REQUEST (R201): A credit line or leg grant lets a paced channel issue one read burst or be counted in DMA_PACE_CNT. -/
  | pacingRequest (src : Nat)
  /-- DMA_WRITE_RESPONSE (R196): A data write or CRC store of a channel responds and moves elements toward the HALF, DONE and list end reports. -/
  | dmaWriteResponse (ch : Nat)
  /-- DMA_SH_COMMIT (R204): A write to DMA_SH_COMMIT copies DMA_NEXT_SH into the pending slot, or starts it when IDLE. -/
  | dmaShCommit (f ch : Nat) (sameCycle : Bool)
  /-- DMA_BUS_ERROR (R207): A bus error halts the channel after its issued writes respond and latches the fault registers. -/
  | dmaBusError (ch : Nat) (write : Bool) (kind cause beat : Nat)
  /-- FAULT_ACT_RESUME (R209): FAULT_ACT = 1 re-reads from the named element and continues the list. -/
  | faultActResume (f ch : Nat)
  /-- FAULT_ACT_SKIP (R209): FAULT_ACT = 2 abandons the rest of the faulting descriptor and continues with NEXT. -/
  | faultActSkip (f ch : Nat)
  /-- FAULT_ACT_ABORT (R209): FAULT_ACT = 3 ends the list without LIST_END, cancels a pending commit and goes IDLE. -/
  | faultActAbort (f ch : Nat)
  /-- REED_SEGMENT_COMPARE (R225): Both engines finish an output segment, the pair compares them and writes engine A's copy if they are equal. -/
  | reedSegmentCompare (pair : Nat) (errA errB : List Byte)
  /-- VOTE_RESULT (R231): A voter completes the re-run and its reference result marks losing engines or passes to the next voter. -/
  | voteResult (leg : Nat)
  /-- REED_TEST_DUE (R493): A pair's last known-vector test is 10 s old, so its test leg is placed first on its slot. -/
  | reedTestDue (pair : Nat)
  /-- REED_TEST_RESULT (R493): A test leg completes and each engine's output is checked against the expected CRC. -/
  | reedTestResult (pair : Nat) (okA okB differ : Bool)
  /-- PLC_SLOT_TAG_WRITE (R258): A write to PLC_SLOT_TAG is applied as a SLOT ledger change, or refused. -/
  | plcSlotTagWrite (f slot : Nat) (value : Word)
  /-- DRAIN_SET (R259): Setting PLC_SLOT_CTL.DRAIN puts the slot's PGs into DRAINING and starts moving their parcels away. -/
  | drainSet (f slot : Nat)
  /-- DRAIN_CLEAR (R259): Clearing DRAIN ends the drain and returns the affected PGs to OPEN. -/
  | drainClear (f slot : Nat)
  /-- PLACEMENT_SNAPSHOT (R268): At DRN_COUNT a multiple of 65,536 the fence holder issues a wear, port and wiring snapshot. -/
  | placementSnapshot
  /-- RELOC_DONE (R271): All 256 rebuilt strips are durable on the target, so the record becomes VALID. -/
  | relocDone (vol parcel : Nat)
  /-- MOVE_START (R274): The fence holder starts a migration, reserving the target run and setting MOVING. -/
  | moveStart
  /-- MOVE_COMMIT (R276): Every target strip is durable, so the entry moves to the target and its SMC range is invalidated. -/
  | moveCommit (vol parcel : Nat)
  /-- MOVE_ABANDON (R278): A migration is abandoned on high dirty level, target failure, drain, power failure or fence loss. -/
  | moveAbandon (vol parcel : Nat)
  /-- RUN_FREE (R277): A released run becomes free once earlier I/O has finished and the standby has acknowledged. -/
  | runFree (slot first : Nat)
  /-- RELEASE (R279): Compaction releases the place of a fully zero, deleted or removed parcel. -/
  | release (vol parcel : Nat)
  /-- CHECKPOINT_START (R284): Every 2^28 ticks, or after 256 MiB of log growth, a ledger checkpoint begins. -/
  | checkpointStart
  /-- PLC_CKPT (R284): All pages up to SEQ S are durable and the checkpoint root is written. -/
  | plcCkpt
  /-- PAGE_MISS_READ (R283): A ledger page miss completes with the first valid home copy. -/
  | pageMissRead (vol page copy : Nat)
  /-- TIER_HIGH_WATERMARK (R283): Resident pages pass 90 %, so the tier flushes and evicts until it is below 80 %. -/
  | tierHighWatermark
  /-- PLC_PG_SEL_WRITE (R286): A write to PLC_PG_SEL copies a PGT entry into PLC_PG_DATA. -/
  | plcPgSelWrite (f : Nat) (value : Word)
  /-- SMC_FILL (R294): A miss's fill from the ledger tier and merging buffer is installed and the requester is answered. -/
  | smcFill (vol g : Nat)
  /-- SMC_PARKED_REPRESENT (R295): The page of a parked lookup becomes resident and the lookup is presented again. -/
  | smcParkedRepresent (vol parcel : Nat)
  /-- SMC_OFFER (R304): The cycle after eviction, the line's valid sub-blocks are offered to the tier. -/
  | smcOffer
  /-- SMC_OFFER_ANSWER (R305): The tier accepts or declines an offer, and the eviction buffer entry is freed. -/
  | smcOfferAnswer
  /-- SMC_MERGE_DRAIN (R302): The oldest merging buffer entry drains to the tier. -/
  | smcMergeDrain
  /-- SMC_PRELOAD (R307): SMC_PRELOAD.GO with OP 0 loads the lines of a range without locking them. -/
  | smcPreload (f : Nat) (value : Word)
  /-- SMC_PRELOAD_LOCK (R308): GO with OP 1 loads and locks the lines of a range within the 12-way limit. -/
  | smcPreloadLock (f : Nat) (value : Word)
  /-- SMC_UNLOCK (R312): GO with OP 2 unlocks every line of the range. -/
  | smcUnlock (f : Nat) (value : Word)
  /-- SMC_PRELOAD_HELD_START (R310): A held preload or unlock of the other PF starts when the running one ends. -/
  | smcPreloadHeldStart
  /-- SMC_PRELOAD_DONE (R322): A preload or unlock finishes and sets DONE. -/
  | smcPreloadDone
  /-- UNLOCK_ALL (R312): SMC_CTL.UNLOCK_ALL unlocks every line of volumes on the writing PF's port. -/
  | unlockAll (f : Nat)
  /-- COALESCE_EXPIRY (R334): COALESCE_TICKS have passed since a stripe's oldest dirty block, so the stripe becomes eligible. -/
  | coalesceExpiry (stripe : Nat)
  /-- DESTAGE_PLAN (R336): An eligible stripe's destage is planned with a method, and a superseding intent is appended. -/
  | destagePlan (stripe : Nat)
  /-- JOURNAL_APPEND_DONE (R327): A journal append batch completes, making its records durable and releasing waiting strip writes. -/
  | journalAppendDone
  /-- INTENT_RETIRE (R330): Every strip write of a destage is durable, so a retire record is appended and the pages unpin. -/
  | intentRetire (stripe : Nat)
  /-- JRN_WT_FORCE (R343): A write to JRN_CTL.WT_FORCE forces or releases write-through. -/
  | jrnWtForce (f : Nat) (on : Bool)
  /-- JRN_DESTAGE_ALL (R334): Setting JRN_CTL.DESTAGE_ALL makes every dirty stripe eligible. -/
  | jrnDestageAll (f : Nat)
  /-- PWR_FAIL_ASSERT (R348): PWR_FAIL_N has been low for 64 core cycles and is treated as asserted. -/
  | pwrFailAssert
  /-- DUMP_START (R348): At the first edge after assertion, intake, admission and completions stop and the fence holder begins the dump. -/
  | dumpStart
  /-- DUMP_JOURNAL_SAFE (R350): All JOURNAL_SAFE header writes have completed, so page segments begin. -/
  | dumpJournalSafe
  /-- DUMP_FLUSH (R350): Pages are written and every vault drive is sent NVMe Flush. -/
  | dumpFlush
  /-- JRN_DUMP_DONE (R350): Headers are written SEALED and the data plane halts. -/
  | jrnDumpDone
  /-- RESTORE_BEGIN (R579): Once clusters are enabled and drive bring-up has ended, restore loads the ledger and the vault epoch. -/
  | restoreBegin (found : RestoreFind)
  /-- RESTORE_DRIVE_TIMEOUT (R579): A slot's drive is still not ready 60 s after restore began and is declared failed with WHY 2. -/
  | restoreDriveTimeout (slot : Nat)
  /-- JRN_RESTORE_DONE (R356): The restored pages are in place. -/
  | jrnRestoreDone (pages : List PageFind)
  /-- REPLAY (R340): Replay rewrites the positions of each live non-OPEN intent and keeps OPEN stripes dirty. -/
  | replay
  /-- EPOCH_RELEASE (R358): Every restored intent has retired, so the epoch's headers are written RELEASED. -/
  | epochRelease
  /-- RESTORE_RESUME (R555): PWR_FAIL_N has been high for 64 cycles, so the paused restore and replay resume. -/
  | restoreResume
  /-- DRIVE_COMMAND_TIMEOUT (R99): A drive command is still uncollected at its deadline edge. -/
  | driveCommandTimeout (cid : Nat)
  /-- SMART_POLL (R362): Every 60 s the SMART log is read from every drive and critical warnings are checked. -/
  | smartPoll (slot warning used : Nat)
  /-- FAIL_ORDER (R362): PLC_FAIL_CTL with ACT = 1 declares the named slot failed with WHY 7. -/
  | failOrder (f slot : Nat)
  /-- FORGET_RETURNED (R390): PLC_FAIL_CTL with ACT = 2 removes the returned-drive record and admits the drive as new. -/
  | forgetReturned (f slot : Nat)
  /-- REBUILD_PARCEL_START (R374): The rebuild stream takes the next queued parcel, chooses targets and issues RELOC_START. -/
  | rebuildParcelStart
  /-- REBUILD_STRIPE_DONE (R374): A rebuild stripe's work completes and the next stripe's work is queued. -/
  | rebuildStripeDone (vol parcel : Nat)
  /-- SCRUB_STRIPE_START (R383): Within its pace limit, scrub starts a CHECK of the next stripe. -/
  | scrubStripeStart
  /-- SCRUB_CHECK_DONE (R385): A scrub CHECK leg completes and each difference is re-checked, attributed and repaired. -/
  | scrubCheckDone (vol parcel stripe : Nat)
  /-- SCRUB_BEHIND (R387): SCRUB_PERIOD_H elapses before the pass ends, and the pace limit is lifted. -/
  | scrubBehind
  /-- PLC_LOST_SEL_WRITE (R391): A write to PLC_LOST_SEL copies a lost-block entry into PLC_LOST_DATA. -/
  | plcLostSelWrite (f : Nat) (value : Word)
  /-- CLUSTER_ENABLE (R553): Setting DRV_CLU_CFG.EN trains the cluster's links and enumerates. -/
  | clusterEnable (f cluster : Nat) (value : Word)
  /-- CLUSTER_DISABLE (R419): Clearing EN takes the links down and every drive of the cluster departs. -/
  | clusterDisable (f cluster : Nat) (value : Word)
  /-- DRV_PERST_RELEASE (R553): DRV_PERST_N of an enabled root port rises at least 100 ms after DRV_REFCLK is stable. -/
  | drvPerstRelease (cluster port : Nat)
  /-- DRIVE_ARRIVAL (R397): A presence or link-state change shows a drive arriving at a position. -/
  | driveArrival (cluster port index width rate : Nat)
  /-- ADMIN_COMPLETION (R403): An admin command or CSTS.RDY of a bring-up completes and bring-up continues or stops. -/
  | adminCompletion (pos : Nat) (answer : AdminAnswer)
  /-- DRIVE_LINK_DOWN (R397): A drive link leaves L0. -/
  | driveLinkDown (pos : Nat)
  /-- DRIVE_DEPART (R397): The link stays down for more than 100 ms, which is a fatal status. -/
  | driveDepart (pos : Nat)
  /-- CSTS_POLL (R411): Every 10 ms, and after a timeout, CSTS of every ready drive is read. -/
  | cstsPoll (pos : Nat) (cfs : Bool)
  /-- DRIVE_DMA_REFUSED (R408): A drive access outside its buffers completes with Unsupported Request. -/
  | driveDmaRefused (slot : Nat)
  /-- POS_MAP_ADOPT (R399): DRV_POS_MAP.ACT = 1 adopts the FOREIGN drive at the position. -/
  | posMapAdopt (f pos : Nat) (value : Word)
  /-- POS_MAP_VALID_SET (R399): Setting VALID assigns an UNASSIGNED drive at the position at once. -/
  | posMapValidSet (f pos : Nat) (value : Word)
  /-- HEM_SAMPLE (R421): A 1 kHz sample updates the charge count or filter and the estimates. -/
  | hemSample (v i t : BitVec 16)
  /-- HEM_SENSE_FAULT (R423): A sense fault begins and the guaranteed energy is zero. -/
  | hemSenseFault
  /-- SAMPLE_GAP (R424): After a gap of more than 100 ms the charge count is set from the voltage. -/
  | sampleGap
  /-- HEM_FULL (R428): The taper conditions have held for TAPER_HOLD_S, so a full anchor occurs. -/
  | hemFull
  /-- EMPTY_ANCHOR (R429): The voltage stays at or below cutoff for 10 samples, so the estimate is set to empty. -/
  | emptyAnchor
  /-- HEM_REST (R430): Rest has held for 1,800 intervals, so a rest point is recorded. -/
  | hemRest
  /-- REANCHOR (R433): After 60 s of stable disagreement the count is re-anchored to the voltage. -/
  | reanchor
  /-- HEM_STALE_LEARN (R435): The rest age passes 30 days. -/
  | hemStaleLearn
  /-- CAL_REQ (R444): HEM_CTL.CAL_REQ starts a calibration or refuses it. -/
  | calReq (f : Nat)
  /-- CAL_ABORT (R446): HEM_CTL.CAL_ABORT aborts the calibration and releases HU_DISCH. -/
  | calAbort (f : Nat)
  /-- CAL_DISCHARGE_START (R445): The cache is seen in write-back under the cap, so HU_DISCH is asserted for phase 2. -/
  | calDischargeStart
  /-- CAL_DISCHARGE_END (R444): The counted charge or energy limit ends phase 2 and HU_DISCH is released. -/
  | calDischargeEnd
  /-- SHIP_REQ (R447): HEM_CTL.SHIP_REQ enters ship mode with a zero ceiling. -/
  | shipReq (f : Nat)
  /-- SHIP_CANCEL (R447): HEM_CTL.SHIP_CANCEL leaves ship mode while SHIP is 1. -/
  | shipCancel (f : Nat)
  /-- HEM_SHIP (R447): JRN_CLEAN is observed after the request, so HU_SHIP is asserted. -/
  | hemShip
  /-- HEM_CHG (R447): HU_CHG_PRESENT changes, which may release ship or abort a calibration. -/
  | hemChg (level : Bool)
  /-- FLIT_RECEIVE (R453): An Epong flit arrives and is passed on in order, or refused on a CRC failure. -/
  | flitReceive (hdr payload crc : List Byte)
  /-- FLIT_ACK_RECEIVE (R453): An acknowledgement or refusal flit arrives and the sender frees or replays flits. -/
  | flitAckReceive (fseq : Nat) (refuse : Bool)
  /-- RETRAIN_TIMEOUT (R453): A retrain not reaching L0 within 2 ms puts the link down. -/
  | retrainTimeout
  /-- EPG_LINK_DOWN (R454): The Epong link goes down and link loss is declared. -/
  | epgLinkDown
  /-- FLIT_SILENCE_TIMEOUT (R454): No valid flit has arrived for 100 µs, so link loss is declared. -/
  | flitSilenceTimeout
  /-- EPG_LINK_UP (R454): The link has held L0 for 1 s. -/
  | epgLinkUp
  /-- HELLO (R478): A HELLO frame is received and the active runs the join check. -/
  | hello (pairId dieId : Word) (unit : UnitState) (claim : Word) (digests : List Word) (ledgerSeq : Nat)
  /-- INPUT (R457): An INPUT frame's in-step inputs are applied in ISEQ order. -/
  | input (stamp iseq : Nat) (what : InStep)
  /-- JREC (R346): Journal records from the active are appended to the standby journal. -/
  | jrec (stamp : Nat) (r : JRec)
  /-- PAGE (R346): A mirrored page and its protection bytes are stored and pinned. -/
  | page (stamp stripe block jseq : Nat) (data pi : List Byte)
  /-- DINPUT (R460): Destage drive-read blocks are received for the standby's parity legs. -/
  | dinput (stamp stripe block : Nat) (data : List Byte)
  /-- DIGEST (R465): A per-tick digest is received and confirmed once its frames are applied. -/
  | digest (stamp iseq jseq lseq : Nat) (ledgerCrc parityCrc : Word) (jseqs : List Nat)
  /-- ACK (R465): An ACK from the standby advances its durable JSEQ, confirmed tick and applied ISEQ. -/
  | ack (jseq tick iseq : Nat)
  /-- BASE (R480): Resync base content is received and applied or buffered. -/
  | base (what : Frame)
  /-- BASE_DONE (R480): The end of base content makes the joiner apply its buffer. -/
  | baseDone
  /-- MISMATCH (R465): The active receives MISMATCH, stops mirroring and starts a new resync. -/
  | mismatch (tick : Nat)
  /-- DROP (R463): The standby receives DROP and enters UNSYNCED. -/
  | drop
  /-- HANDOVER (R488): The standby receives HANDOVER, confirms digest h and takes the claim. -/
  | handover (tick : Nat)
  /-- LIVE_IMG (R83): A verified IMG_ID and target tick of a live request is exchanged. -/
  | liveImg (imgId : Word) (target : Nat)
  /-- DIGEST_UNCONFIRMED_DROP (R463): A digest is still unconfirmed 16,384 ticks later, so DROP is sent. -/
  | digestUnconfirmedDrop
  /-- ACK_TIMEOUT_DROP (R463): No ACK for 1 ms with the link up, so DROP is sent. -/
  | ackTimeoutDrop
  /-- RELAY_POST_ROUND (R471): Every 10 ms, or on a LOCAL or claim change, the active writes a post round. -/
  | relayPostRound
  /-- POST_ROUND_DURABLE (R471): A post round is durable on a majority. -/
  | postRoundDurable
  /-- POST_READ (R472): A unit that is not fence holder reads every post every 100 ms, or every 5 ms with the link down. -/
  | postRead
  /-- POST_READ_RESULT (R472): Post reads complete and advance or LOCAL is judged. -/
  | postReadResult (blocks : List (List Byte))
  /-- COMPLETION_FENCE_HOLD (R469): 40 ms without a durable round stops the active writing completions. -/
  | completionFenceHold
  /-- EPG_TAKEOVER (R482): 50 ms with no post advance after link loss makes a synced standby take claim H + 1. -/
  | epgTakeover
  /-- CLAIM_ACQUIRED (R467): Every drive has completed its Acquire and the unit becomes ACTIVE. -/
  | claimAcquired
  /-- ACTIVE_LOST_UNSYNCED (R485): An unsynced unit sees no post advance for 50 ms. -/
  | activeLostUnsynced
  /-- POWERUP_RESERVATION (R476): The majority of post-drive Reservation Reports decides ACTIVE, wait or NO_HOLDER. -/
  | powerupReservation (reports : List (Option Holder))
  /-- JOIN (R479): EPG_CMD order 1 permits a join after three mismatches. -/
  | join (f : Nat)
  /-- SALVAGE (R486): EPG_CMD order 2 makes an unsynced unit take a new claim and restore its state. -/
  | salvage (f : Nat)
  /-- SWITCH_BACK (R488): EPG_CMD order 3 stops intake for a hand-over to the synced standby. -/
  | switchBack (f : Nat)
  /-- FORM (R477): EPG_CMD order 4 takes claim H + 1 with Acquire when no holder exists. -/
  | form (f : Nat)
  /-- SWITCH_BACK_QUIESCE (R488): OWED reaches zero on every ring, or 100 ms passes, so drive work stops and HANDOVER is sent. -/
  | switchBackQuiesce
  /-- SWITCH_BACK_LAPSE (R489): No preemption 1 s after HANDOVER, so the old active resumes. -/
  | switchBackLapse
  /-- EPG_VOL_CLEAR_GO (R487): EPG_VOL_CLEAR.GO sets a READ_ONLY volume ONLINE, or is refused. -/
  | epgVolClearGo (f : Nat) (value : Word)
  /-- EPG_POLICY_WRITE (R462): A write of HALT holds writes, or releases them at the next compilation. -/
  | epgPolicyWrite (f : Nat) (value : Word)
  /-- SRAM_PATROL (R494): The SRAM patrol corrects words and repairs rows and columns with spares. -/
  | sramPatrol (found : List SramFind)
  /-- HBM_PATROL (R496): The HBM patrol corrects errors and retires failing pseudo-channels. -/
  | hbmPatrol (pc : Nat) (rows : List Nat) (ue : List EccLoc) (done : Bool)
  /-- ECC_UNCORRECTABLE (R496): An uncorrectable ECC error is met, with the effect its location gives. -/
  | eccUncorrectable (place : Nat) (loc : EccLoc)
  /-- AGING_MEASURE (R497): Every 60 s the 64 aging monitors are read. -/
  | agingMeasure (margins : List Nat)
  /-- PHY_MARGIN_MEASURE (R498): Lane margins are measured every 24 h and 10 s after L0. -/
  | phyMarginMeasure (group pct : Nat)
  /-- TEMP_READING (R560): The junction temperature is read every 1 ms. -/
  | tempReading (tj : Int)
  /-- THERMAL_STOP (R561): Ten readings at 105 °C or more assert THERM_TRIP_N and trigger a dump and halt. -/
  | thermalStop
  /-- THERM_COMPARATOR (R562): The independent comparator asserts THERM_TRIP_N at 115 °C. -/
  | thermComparator
  /-- HLT_SNAP_WRITE (R504): A write to HLT_SNAP copies a fresh HLT_REPORT within 1 ms. -/
  | hltSnapWrite (f : Nat)
  /-- EVT_MASK_WRITE (R508): A write to EVT_MASK masks or unmasks the writing PF's sources, and unmasked pending sources join the next message. -/
  | evtMaskWrite (f w : Nat) (value : Word)
  /-- EVT_LOG_SEL_WRITE (R518): A write to EVT_LOG_SEL copies a management log record into EVT_LOG_DATA. -/
  | evtLogSelWrite (f : Nat) (value : Word)
  /-- TRL_ARM_REQUEST (R511): TRL_CTL.ARM submits TRL_REQ, which the management plane checks against TRIA and arms or refuses. -/
  | trlArmRequest (f : Nat)
  /-- TRL_DISARM (R515): TRL_CTL.DISARM ends the trial. -/
  | trlDisarm (f : Nat)
  /-- TRL_COUNT_DONE (R515): TRL_FIRED reaches COUNT and the trial ends. -/
  | trlCountDone
  /-- MGW_DATA_WRITE (R523): A write to MGW_DATA stores a word of the claimed target and advances OFFSET. -/
  | mgwDataWrite (ctx : Nat) (value : BitVec 32)
  /-- MGW_DATA_READ (R523): A read of MGW_DATA returns a word of the target and advances OFFSET. -/
  | mgwDataRead (ctx : Nat)
  /-- MGW_CLAIM (R526): MGW_CTL.CLAIM claims the target, or is refused with RESULT 3. -/
  | mgwClaim (ctx : Nat)
  /-- MGW_RELEASE (R527): MGW_CTL.RELEASE ends the context's claim. -/
  | mgwRelease (ctx : Nat)
  /-- LOAD (R74): CMD 0x01 orders a full load of the staged image. -/
  | load (ctx : Nat)
  /-- LOAD_LIVE (R78): CMD 0x02 orders a live CODE or PLAC request. -/
  | loadLive (ctx : Nat)
  /-- IMG_TO_FLASH (R528): CMD 0x03 checks the image and writes it to the named SPI copy. -/
  | imgToFlash (ctx : Nat)
  /-- FW_UPDATE (R533): CMD 0x04 validates a firmware package and writes it to the copy that is not running. -/
  | fwUpdate (ctx : Nat)
  /-- HEM_SAVE (R528): CMD 0x05 copies the HEM state record into the target. -/
  | hemSave (ctx : Nat)
  /-- HEM_RESTORE (R442): CMD 0x06 offers the staged record to the HEM for acceptance. -/
  | hemRestore (ctx : Nat)
  /-- KEY_ORDER (R539): CMD 0x07 checks a signed key order and starts fusing, or refuses it. -/
  | keyOrder (ctx : Nat)
  /-- HEALTH_SNAP (R528): CMD 0x08 refreshes the context's HEALTH copy. -/
  | healthSnap (ctx : Nat)
  /-- MGW_CLAIM_BROKEN (R527): A claim with no window access for 10 s is broken. -/
  | mgwClaimBroken (ctx : Nat)
  /-- FLASH_WRITE_DONE (R529): A flash write ends, its command completes and any waiting flash command starts. -/
  | flashWriteDone (ok : Bool)
  /-- MGW_KEY_CHANGE (R539): Fusing of a key order completes. -/
  | mgwKeyChange
  /-- MGMT_WATCHDOG_RESET (R530): The management watchdog resets the management plane, ending commands and claims and emptying the log. -/
  | mgmtWatchdogReset
  /-- WIN_WRITE (R542): An MCTP WIN_WRITE sets MGW_ADDR and writes data words on the context. -/
  | winWrite (ctx : Nat) (addr : Word) (words : List (BitVec 32))
  /-- WIN_READ (R542): An MCTP WIN_READ returns data words from the window. -/
  | winRead (ctx : Nat) (addr : Word) (count : Nat)
  /-- WIN_CTL (R542): An MCTP WIN_CTL writes MGW_CTL on the context. -/
  | winCtl (ctx : Nat) (value : Word)
  /-- ORDER (R542): An MCTP ORDER performs a pair, trial, HEM control or dump power operation. -/
  | order (ctx code : Nat) (arg : Word)
  /-- ALERT_REG (R543): An MCTP ALERT_REG registers or unregisters the requester for alerts. -/
  | alertReg (ctx eid : Nat) (on : Bool)
  /-- MCTP_CONTROL_MESSAGE (R541): An MCTP control message for discovery, EID assignment or version support is answered. -/
  | mctpControlMessage (ctx code arg : Nat)
  /-- SMBUS_ALERT_RESPONSE (R543): The SMBus Alert Response Address is answered, MGMT_ALERT_N is released and the notification is sent. -/
  | smbusAlertResponse
  /-- PORT_RESET_ASSERT (R552): HPn_PERST_N asserted resets only that host port and its functions. -/
  | portResetAssert (port : Nat)
  /-- PORT_RESET_RELEASE (R552): HPn_PERST_N deasserts and configuration is ready again within 100 ms. -/
  | portResetRelease (port : Nat)
  /-- EPG_PRSNT_CHANGE (R570): EPG_PRSNT_N changes, permitting link training or holding the link in Detect. -/
  | epgPrsntChange (high : Bool)
  /-- TEST_MODE_ASSERT (R571): TEST_MODE or SCAN_EN high holds the device in device reset. -/
  | testModeAssert (high : Bool)
  /-- REGISTER_WRITE (R12): A write to a register field with no row of its own acts by its access code. -/
  | registerWrite (f bar offset width : Nat) (value : Word)
  /-- DRIVE_COMPLETION_ARRIVAL (R95): The device accepts a drive's write of an I/O completion queue entry, which fixes the tick whose ending edge collects it. -/
  | driveCompletionArrival (cid status : Nat) (data : List Byte)
  /-- DMA_READ_COMPLETION (R190): The data of a read burst issued by a DMA channel returns, the running CRC advances and the matching write burst is issued. -/
  | dmaReadCompletion (ch : Nat) (data : List Byte)
  /-- CAP_TO_EXPIRY (R402): CSTS.RDY has not become 1 within CAP.TO after CC.EN was set, so bring-up stops with refusal reason 0x1. -/
  | capToExpiry (pos : Nat)
  /-- MSIX_UNMASK (R507): The host unmasks a function or vector in its MSI-X table, and a message held in the PBA is sent as PCIe requires. -/
  | msixUnmask (f : Nat) (vector : Option Nat)
deriving DecidableEq, Repr

end Sys2Proof
end

