-- ==== Sys2Proof/Config.lean ====
section
/-! DEFINITION. What one implementation fixes and the free values: constants without a body, where the spec gives no
value. Nothing in Lean can evaluate them, so a claim holds whatever they are. -/

namespace Sys2Proof.Config

open Sys2Proof

/-- The n-th free value drawn: a value the spec leaves open (R179 register values after a host error, the DIAG log of
R522, a source byte that its own descriptor also writes, R192). `State.free` counts the draws. -/
opaque freeWord : Nat → Word

/-- The fused die identity as manufactured (R4), before the guarantee that it is not zero is applied. -/
opaque dieIdRaw : Word

/-- The die identity (R4): never zero. -/
def dieId : Word := if dieIdRaw = 0 then 1 else dieIdRaw

/-- The hash Yalom fuses in key slot 0 at manufacture (R535). -/
opaque slot0Hash : List (BitVec 8)

/-- exp(−x) of R427, for which exact rational arithmetic has no value. -/
opaque expNeg : Rat → Rat

/-- The known vector of a reed test leg and its coefficient block, held in management ROM (R493). -/
opaque testVector : Nat → List (BitVec 8)

end Sys2Proof.Config
end

