-- ==== Sys2Proof/Machine/State.lean ====
section
/-! DEFINITION. The state of the FS9600, its fault and refusal reasons, and the state after a device reset. -/

namespace Sys2Proof.Machine

open Sys2Proof

/-- Why the machine would stop with a fault. -/
inductive Fault where
  /-- Raised by nobody: the FS9600 answers every event with a next state, a failure being an event, a status or a
  halted data plane (R349, R499, R561), so this constructor only makes the type inhabited. Safe. -/
  | none_
deriving DecidableEq, Repr

/-- Why a command would have no meaning. -/
inductive Refusal where
  /-- Raised by `exec` for a command that has no meaning yet, by name. Safe. -/
  | notModelled (mnemonic : String)
deriving DecidableEq, Repr

/-- The machine's state. `clock` counts nanoseconds of running ticks (for the real-time conditions of the rules);
`mem` is HBM content reached by DMA descriptors (06), listed by address; `jobs` the plans in progress; `free` counts the
free values drawn (the model's own field: the spec gives no value there); `out` what the block sent, oldest first. -/
structure State where
  boot     : Boot
  halted   : Bool
  clock    : Nat
  free     : Nat
  dieId    : Word
  image    : Option Image
  loader   : Loader
  drone    : Drone
  jobs     : Tab Job
  sampled  : Sampled
  slotMap  : SlotMap
  host     : HostSide
  dma      : Dma
  mem      : Memory
  reeds    : Reeds
  ledger   : Ledger
  smc      : Smc
  cache    : Cache
  array    : ArrayPart
  drives   : Drives
  hem      : Hem
  pair     : Pair
  health   : Health
  events   : Events
  trials   : Trials
  mgmt     : Mgmt
  flash    : Flash
  pins     : Pins
  out      : List Output
  pending  : List Instr
deriving DecidableEq, Repr

/-! ### Reset values, block by block -/

/-- GLB_LDR_* at reset (R69). -/
def Loader.reset : Loader where
  state := .loader
  copy := 0
  reason := 0
  section_ := 0xF
  offset := 0xFFFFFFFF
  lstate := .idle
  lreason := 0
  lsection := 0xF
  appliedTick := 0
  imgId := 0
  rwlOpen := true
  job := none
  accepted := none
  acceptedCtx := none
  prepared := false
  sizeChange := false
  liveJob := none
  live := none
  partnerImg := none
  partnerAt := 0

/-- A stream with no denied caravan (R110). -/
def Patience.reset : Patience := { wait := 0, urgent := false, remain := 0, order := 0 }

/-- An empty credit bucket (R96). -/
def Bucket.reset : Bucket := { main := 0, urgent := 0, inflight := 0 }

/-- DRN registers at reset (R110). -/
def Drone.reset : Drone where
  count := 0
  overrunCnt := 0
  lastTick := 0
  lastRes := 0
  lastKind := 0
  lateCnt := 0
  hungCnt := 0
  zrFloor := false
  floor8 := false
  urgentShown := []
  urgentUsed := []
  zrShown := false
  floor8Shown := false
  hold := []
  holdUsed := []
  heir := none
  patience := List.replicate 5 Patience.reset
  grants := List.replicate 4 0
  queued := []
  next := []
  dumpPosts := []
  cut := none
  running := []
  inflight := []
  buckets := List.replicate 12 Bucket.reset
  wayUsed := 0
  nextId := 1
  promotions := 0

/-- RNG registers of a ring pair at reset (R146). -/
def Ring.reset : Ring where
  en := false
  busy := false
  stall := false
  err := false
  sqErr := false
  cqErr := false
  depthLog := 0
  evtSrc := 0
  evtEn := false
  sqBase := 0
  cqBase := 0
  mirror := 0
  sqPi := 0
  sqCi := 0
  cqPi := 0
  cqCi := 0
  owed := 0
  held := 0
  sampled := 0
  fetched := 0
  fetchRes := []
  cserai := []
  moveAt := none
  eventAt := none

/-- A function after reset: MSI-X disabled, every vector masked and Relaxed Ordering enabled as PCIe requires.
PRESUMED (log 12). -/
def Func.reset : Func where
  msixEn := false
  msixMask := false
  table := []
  vecMask := []
  pba := []
  roEn := true

/-- The host side at reset. -/
def HostSide.reset : HostSide where
  rings := []
  funcs := []
  doorbells := []
  scan := none
  rescan := []
  stopped := false
  cmds := []
  nextSeq := 1
  finish := []
  volumes := []
  flrDone := []

/-- DMA registers of a channel at reset (R214); FUNC of a utility channel reads its PF. -/
def Chan.reset (func : Nat) : Chan where
  pause := false
  mode := false
  paceSrc := 0
  listSpace := 0
  endEn := false
  faultEn := false
  lateEn := false
  func := func
  state := .idle
  shSlot := none
  half := false
  done := false
  listEnd := false
  fault := false
  lateCommit := false
  shRefused := false
  shCancel := false
  listHead := 0
  nextSh := 0
  cur := 0
  srcCur := 0
  dstCur := 0
  remain := (0, 0, 0)
  crc := 0
  faultAddr := 0
  faultWrite := false
  faultKind := 0
  faultCause := 0
  faultSpace := 0
  faultOther := 0
  faultDesc := 0
  paceCnt := 0
  toFetch := none
  fetching := none
  active := []
  reads := []
  writes := []
  prevCrc := 0
  halting := false
  fresh := false
  endToo := false

/-- The DMA engine at reset. -/
def Dma.reset : Dma where
  chans := []
  glob0 := { compat4200 := false, firstCh := 0 }
  glob1 := { compat4200 := false, firstCh := 0 }

/-- REED_PAIR_STAT at reset (R244). -/
def PairStat.reset : PairStat where
  suspectA := none
  suspectB := none
  hangAt := none
  retireWhy := 0
  faultA := 0
  faultB := 0
  hung := 0
  votes := 0
  lastTest := 0

/-- REED_SLOT_MAP at reset (R244): pair s serves slot s. -/
def SlotMap.reset : SlotMap where
  pairs := (List.range 16).map some
  retired := []
  seq := 0

/-- The reeds at reset. -/
def Reeds.reset : Reeds where
  stat := List.replicate 18 PairStat.reset
  condemned := []
  votes := []
  voteLog := { tick := 0, slot := 0, pair := 0, voter := 0, outcome := 0 }
  mismatchCnt := 0
  failCnt := 0
  sparesOut := false
  dmxKeys := []
  dmxMisses := 0
  wiring := []

/-- PLC registers at reset (R286). -/
def Ledger.reset : Ledger where
  entries := []
  pgt := []
  slots := []
  migs := []
  freeWait := []
  snapshot := none
  seq := 0
  ckptSeq := 0
  ckptRun := none
  ckptStage := 0
  ckptTick := 0
  log := []
  logSeq := 0
  logBytes := 0
  pages := []
  dir := []
  dirTop := 0
  homeBad := []
  aboveHigh := false
  missing := []
  misses := 0
  spread := 50
  wearSpread := 200
  maxMoving := 16
  migNew := none
  abandoned := 0
  pgSel := 0
  pgData := []
  wearNow := []
  charged := List.replicate 12 0
  grown := List.replicate 12 0
  compact := []
  replace := []
  heldRuns := []

/-- An SMC port without a miss that has seen no lookup (R318). -/
def SmcPort.idle : SmcPort where
  missing := false
  held := false
  recent := []
  scans := []

/-- The per-PF SMC registers at reset (R321). -/
def SmcPf.reset : SmcPf where
  baseVol := 0
  baseParcel := 0
  op := 0
  count := 0
  overs := 0
  err := false
  done := false

/-- The stripe map cache at reset (R318, R321). -/
def Smc.reset : Smc where
  lines := []
  side := []
  evict := []
  merge := []
  fills := []
  parked := []
  queue := []
  ports := List.replicate 4 SmcPort.idle
  prefetchEn := true
  seqDetEn := true
  ready := false
  pf0 := SmcPf.reset
  pf1 := SmcPf.reset
  run := none
  heldOp := none
  cnt := List.replicate 9 0

/-- The vault registers at reset (R360). -/
def Vault.reset : Vault where
  epoch := 0
  state := 0
  half := 0
  held := false
  timeUs := 0
  mib := 0
  dump := .none_
  dumpTick := 0
  claim := 0
  restore := .waiting
  restoreAt := 0
  paused := false
  liveEpochs := []
  below := none
  restored := []
  replaying := []
  top := 0
  drives := []
  segments := 0
  counts := []
  failNow := false
  failLow := false

/-- JRN registers at reset (R360). -/
def Cache.reset : Cache where
  stripes := []
  nextJseq := 1
  durJseq := 0
  appendQ := []
  batch := 0
  ring := []
  ringPos := 0
  hemCeiling := 0
  hemStamp := 0
  ceiling := 0
  stamp := 0
  staleEdges := 0
  freshSeen := 0
  stale := false
  ceilLow := false
  lowEdges := 0
  permanent := false
  wtForce := false
  destageAll := false
  cleanWait := false
  reload3 := false
  wt := false
  wtDrives := []
  wtLog := []
  wtPos := 0
  sizeMib := 0
  slotsFull := false
  ringFull := false
  lostCnt := 0
  wtCnt := 0
  vault := Vault.reset

/-- The PLC registers of R391 at reset. -/
def ArrayPart.reset : ArrayPart where
  parallel := 64
  parallelNew := none
  active := []
  queueWas := false
  skipped := []
  rbldBytes := 0
  failSlot := 0
  lost := []
  lostVer := 0
  lostDur := 0
  widened := false
  merges := 0
  lostSel := 0
  lostData := []
  scrub := none
  passes := 0
  scrubCnt := List.replicate 6 0
  repairs := []
  declare := []

/-- A disabled cluster (R419, R553). -/
def Cluster.reset : Cluster where
  en := false
  bifur := 0
  speed := 0
  width := [0, 0, 0, 0]
  rate := [0, 0, 0, 0]
  perst := [false, false, false, false]

/-- The drive ports at reset. -/
def Drives.reset : Drives where
  clusters := List.replicate 12 Cluster.reset
  posMap := []
  drives := []
  slots := []
  arrived := []
  retried := []

/-- The HEM at reset (R449). -/
def Hem.reset : Hem where
  vraw := 0
  iraw := 0
  traw := 0
  seq := 0
  sampled := false
  sampleAt := 0
  q := 0
  bank := 0
  r0 := 0
  r1 := 0
  tau := 0
  soc := 0
  v1 := 0
  p00 := 0
  p01 := 0
  p11 := 0
  eq := 0
  ev := 0
  eg := 0
  counted := 0
  second := { n := 0, sumI := 0, sumA := 0 }
  restSecs := 0
  restDone := false
  atRest := false
  restAge := 0
  restAt := 0
  restored := false
  fresh := false
  learnedSrc := 0
  learnCnt := 0
  learnTotal := 0
  everLearned := false
  reject := 0
  restoreRes := 0
  open_ := none
  bad := 0
  steps := []
  lastI := 0
  lastV := 0
  railRun := 0
  goodRun := 0
  fault := false
  emptyRun := 0
  taperAt := none
  fullDone := false
  disagree := false
  disAt := 0
  disMin := 0
  disMax := 0
  staleLearn := false
  low := true
  cal := 0
  calRef := false
  calWhy := 0
  calFull := false
  calCapAt := none
  calWt := false
  calFrom := none
  disch := false
  ship := 0
  shipPin := false
  shipFell := false
  cleanSeen := false
  chg := false
  dumpPower := 0
  calDirtyMax := 0
  vdiv := 64
  ceil := 0
  stamp := 0
  stall := 0

/-- A relay post not read yet. -/
def Post.reset : Post where
  valid := false
  adv := false
  loc := false
  durable := false
  gen := 0
  claim := 0
  base := none
  tick := 0

/-- The Epong link in Detect (R570); EPG_PRSNT_N has a pull-up. -/
def Link.reset : Link where
  l0 := false
  up := false
  training := false
  l0At := 0
  lastFlit := 0
  lossDecl := false
  txSeq := 0
  txKeep := []
  sent := 0
  charged := 0
  replayOf := 0
  replayN := 0
  rxSeq := 0
  rxCount := 0
  replays := 0
  retrains := 0
  losses := 0
  prsntN := true

/-- The pair sequencer at reset (R490): SOLO with claim 0. -/
def Pair.reset : Pair where
  claim := { claim := 0, unit := .solo, seq := 0 }
  partner := 0
  peerUnit := .standbyJoining
  mirrored := false
  partnerLeft := false
  loc := false
  wantLocal := false
  haltAnn := false
  noHolder := false
  phase := 0
  joinWhy := 0
  scope := 0
  mismatch := []
  joinOrder := false
  high := 0
  last := 0
  result := 0
  halt := false
  iseq := 0
  appliedIseq := 0
  ackJseq := 0
  ackTick := 0
  ackIseq := 0
  ackAt := 0
  lastStamp := 0
  digest := { ledger := [], parity := [], lseq := 0, jseq := 0 }
  dcheck := []
  ownRecs := []
  dins := []
  retires := []
  buffer := []
  bufferOk := false
  baseLeft := 0
  manifest := []
  xIseq := 0
  xJseq := 0
  xLseq := 0
  posts := List.replicate 7 Post.reset
  postGen := 0
  rounds := []
  durableAt := 0
  roundAt := 0
  postReadAt := 0
  readAt := 0
  stallFrom := none
  lostRaised := false
  take := none
  switch := 0
  switchAt := 0
  reports := []
  volClear := 0
  volRefused := false
  cnt := List.replicate 6 0
  powerOwn := false
  fenceHold := false
  handover := none
  conflicts := []
  helloAt := 0
  joinSeq := 0
  oldClaim := 0
  salvBuf := false
  salvAll := false
  basePos := 0
  link := Link.reset

/-- A blank health record, as manufactured. -/
def HealthRec.reset : HealthRec where
  retiredPairs := []
  pcRetired := []
  sramRows := []
  sramCols := []
  wtPerm := false
  reasons := 0
  powerOnH := 0

/-- Health at reset (R516); monitors read their margin at manufacture until measured, margins are not measured. -/
def Health.reset : Health where
  why := 0
  stopped := false
  tempHigh := false
  wtPerm := false
  stop := false
  cluCap := 0
  dseq := 0
  pcRetire := 0
  report := []
  sramRows := []
  sramCols := []
  sramCe := 0
  sramUe := 0
  hbmCe := 0
  hbmUe := 0
  sramPasses := 0
  hbmPasses := 0
  ceRows := []
  rowMarks := []
  reedFaults := 0
  testFails := 0
  dmaHangs := 0
  aging := List.replicate 64 1000
  agingSeen := []
  agingLow := List.replicate 64 0
  phy := List.replicate 15 255
  phySweeps := 0
  tjNow := 0
  tjMax := 0
  hotRun := 0
  thermal := false
  powerOnH := 0

/-- The event unit at reset (R518). -/
def Events.reset : Events where
  stat := []
  mask := []
  pendMsix := []
  pendMgmt := []
  lastMsg := []
  log := []
  written := 0
  logBase := 0
  logSel := 0
  logData := []

/-- Trial control at reset (R519). -/
def Trials.reset : Trials where
  arm := none
  seq := 0
  announced := false
  req := 0
  armBit := false
  refuse := 0
  why := 0
  link := 0
  reed := 0
  done := 0
  unitsE := 0
  unitsD := 0
  unitsR := 0
  stopped := false

/-- A window context at reset (R544). -/
def Ctx.reset : Ctx where
  offset := 0
  target := 0
  claim := none
  copy := false
  busy := false
  cmdTarget := none
  overrun := false
  claimLost := false
  result := 0
  lastCmd := 0
  written := 0
  runOpen := false
  lastUse := 0
  health := []
  reply := []

/-- The key fuses as manufactured (R535): slot 0 PROGRAMMED with USE FW, the others EMPTY. -/
def KeySlot.manufactured : List KeySlot :=
  { hash := Config.slot0Hash, state := .programmed, image := false } ::
    List.replicate 3 { hash := List.replicate 48 0, state := .empty, image := false }

/-- The management plane at reset. -/
def Mgmt.reset : Mgmt where
  ctxs := List.replicate 4 Ctx.reset
  image := []
  firmware := []
  order := []
  hem := []
  keys := KeySlot.manufactured
  svnMin := 0
  orderWhy := 0
  recovery := false
  fw := none
  flashQ := []
  fusing := none
  alerts := []
  eids := [0, 0]
  smbAddr := 0
  alertPin := true

/-- The flash of a new board: nothing programmed. -/
def Flash.erased : Flash where
  fwA := []
  fwB := []
  primary := []
  secondary := []
  health := HealthRec.reset

/-- The pins while POR_N is low and nothing else is driven (R550, R569): inputs at their pulls, open-drain outputs
released. -/
def Pins.reset : Pins where
  porN := false
  hpPerst := [false, false]
  pwrFailN := true
  testMode := false
  replaceN := true
  thermTripN := true
  cold := false

/-- The claim and health register set as first sampled. -/
def Sampled.reset : Sampled where
  claim := { claim := 0, unit := .solo, seq := 0 }
  holder := false
  slotMap := SlotMap.reset
  pcRetire := 0
  wtPerm := false
  stop := false
  cluCap := 0
  trial := none

/-- The device in device reset (R550): POR_N low, every register at its reset value, no image, a new board's flash and
fuses, no command waiting. -/
def State.reset : State where
  boot := .reset
  halted := false
  clock := 0
  free := 0
  dieId := Config.dieId
  image := none
  loader := Loader.reset
  drone := Drone.reset
  jobs := []
  sampled := Sampled.reset
  slotMap := SlotMap.reset
  host := HostSide.reset
  dma := Dma.reset
  mem := []
  reeds := Reeds.reset
  ledger := Ledger.reset
  smc := Smc.reset
  cache := Cache.reset
  array := ArrayPart.reset
  drives := Drives.reset
  hem := Hem.reset
  pair := Pair.reset
  health := Health.reset
  events := Events.reset
  trials := Trials.reset
  mgmt := Mgmt.reset
  flash := Flash.erased
  pins := Pins.reset
  out := []
  pending := []

end Sys2Proof.Machine
end

