-- ==== Sys2Proof/Machine/Ops.lean ====
section
/-! DEFINITION. Named operations over tables, memory, bytes, lists, events and outputs, and the conditions under which
the planes act. -/

namespace Sys2Proof.Machine

open Sys2Proof

/-! ### Sparse tables -/

/-- The entry of a table at a key. -/
def tabFind {α : Type} (t : Tab α) (k : Nat) : Option α :=
  match t with
  | [] => none
  | (i, v) :: r => if i = k then some v else tabFind r k

/-- A table read with its default. -/
def tabGet {α : Type} (d : α) (t : Tab α) (k : Nat) : α := (tabFind t k).getD d

/-- A table without the entry at a key. -/
def tabErase {α : Type} (t : Tab α) (k : Nat) : Tab α :=
  match t with
  | [] => []
  | (i, v) :: r => if i = k then r else (i, v) :: tabErase r k

/-- A table with an entry put at its place in key order. -/
def tabInsert {α : Type} (t : Tab α) (k : Nat) (v : α) : Tab α :=
  match t with
  | [] => [(k, v)]
  | (i, w) :: r => if k < i then (k, v) :: (i, w) :: r else if k = i then (k, v) :: r else (i, w) :: tabInsert r k v

/-- A table write in canonical form: writing the default removes the entry. -/
def tabPut {α : Type} [DecidableEq α] (d : α) (t : Tab α) (k : Nat) (v : α) : Tab α :=
  if v = d then tabErase t k else tabInsert t k v

/-- Every entry changed by a function of its key and value. -/
def tabMap {α : Type} (f : Nat → α → α) (t : Tab α) : Tab α := t.map fun p => (p.1, f p.1 p.2)

/-- The canonical order of a table's keys: strictly rising. -/
def tabSorted {α : Type} (t : Tab α) : Bool :=
  match t with
  | [] => true
  | [_] => true
  | (i, _) :: (j, w) :: r => decide (i < j) && tabSorted ((j, w) :: r)

/-! ### HBM bytes (06) -/

/-- A byte of HBM: one that nothing has written reads as zero. -/
def memRead (m : Memory) (a : Nat) : Byte := tabGet 0 m a

/-- A byte written to HBM. -/
def memWrite (m : Memory) (a : Nat) (b : Byte) : Memory := tabPut 0 m a b

/-- Consecutive bytes read from HBM. -/
def memReadN (m : Memory) (a : Nat) : Nat → List Byte
  | 0 => []
  | n + 1 => memRead m a :: memReadN m (a + 1) n

/-- Consecutive bytes written to HBM. -/
def memWriteN (m : Memory) (a : Nat) : List Byte → Memory
  | [] => m
  | b :: r => memWriteN (memWrite m a b) (a + 1) r

/-- The canonical form of the memory: addresses rising, no cell zero. -/
def Memory.wf (m : Memory) : Bool := tabSorted m && m.all fun c => decide (c.2 ≠ 0)

/-! ### Bytes and fields (R8, R128: little-endian) -/

/-- The first n bytes of a number, lowest first. -/
def leBytes : Nat → Nat → List Byte
  | 0, _ => []
  | n + 1, w => BitVec.ofNat 8 w :: leBytes n (w / 256)

/-- The number that little-endian bytes spell. -/
def leNat : List Byte → Nat
  | [] => 0
  | b :: r => b.toNat + 256 * leNat r

/-- The number that big-endian bytes spell (R45). -/
def beNat (bs : List Byte) : Nat := bs.foldl (fun a b => 256 * a + b.toNat) 0

/-- The first n bytes of a list, padded with zeros. -/
def takePad : Nat → List Byte → List Byte
  | 0, _ => []
  | n + 1, [] => 0 :: takePad n []
  | n + 1, b :: r => b :: takePad n r

/-- n bytes at an offset, padded with zeros. -/
def slice (bs : List Byte) (off n : Nat) : List Byte := takePad n (bs.drop off)

/-- A little-endian field of n bytes at an offset. -/
def field (bs : List Byte) (off n : Nat) : Nat := leNat (slice bs off n)

/-- A 64-bit field at an offset. -/
def fieldW (bs : List Byte) (off : Nat) : Word := BitVec.ofNat 64 (field bs off 8)

/-- The bytes of ASCII text. -/
def ascii (t : String) : List Byte := t.toList.map fun c => BitVec.ofNat 8 c.toNat

/-- n zero bytes. -/
def zeros (n : Nat) : List Byte := List.replicate n 0

/-- Bits [lo + n - 1 : lo] of a register value, as a number. -/
def bits (w : Word) (lo n : Nat) : Nat := w.toNat / 2 ^ lo % 2 ^ n

/-- One bit of a register value. -/
def bit (w : Word) (n : Nat) : Bool := w.getLsbD n

/-- A field value placed at bit lo. -/
def put (v lo : Nat) : Word := BitVec.ofNat 64 (v * 2 ^ lo)

/-- A flag placed at bit lo. -/
def putB (b : Bool) (lo : Nat) : Word := if b then BitVec.ofNat 64 (2 ^ lo) else 0

/-- A number held below a maximum (a saturating field). -/
def sat (mx v : Nat) : Nat := min mx v

/-! ### Lists -/

/-- A list with position n changed by a function (unchanged when n is outside it). -/
def modAt {α : Type} (l : List α) (n : Nat) (f : α → α) : List α := l.modify n f

/-- A list element with a default. -/
def nth {α : Type} (d : α) (l : List α) (n : Nat) : α := l.getD n d

/-- A sum over a list. -/
def sumBy {α : Type} (f : α → Nat) (l : List α) : Nat := l.foldl (fun a x => a + f x) 0

/-- The greatest of a list of numbers (0 when empty). -/
def maxBy {α : Type} (f : α → Nat) (l : List α) : Nat := l.foldl (fun a x => max a (f x)) 0

/-- The element with the least key, the earlier one on a tie. -/
def leastBy {α : Type} (lt : α → α → Bool) : List α → Option α
  | [] => none
  | x :: r =>
    match leastBy lt r with
    | none => some x
    | some y => if lt y x then some y else some x

/-- An element put into a sorted list, behind its equals. -/
def insertBy {α : Type} (le : α → α → Bool) (x : α) : List α → List α
  | [] => [x]
  | y :: r => if le y x then y :: insertBy le x r else x :: y :: r

/-- A list sorted, equals in their order. -/
def sortBy {α : Type} (le : α → α → Bool) (l : List α) : List α := l.foldl (fun a x => insertBy le x a) []

/-- The number of distinct elements. -/
def distinct (l : List Nat) : Nat := l.eraseDups.length

/-- A list without repeats with an element added at the end. -/
def addOnce (l : List Nat) (x : Nat) : List Nat := if l.contains x then l else l ++ [x]

/-- Ceiling division. -/
def ceilDiv (a b : Nat) : Nat := (a + b - 1) / b

/-! ### Outputs and free values -/

/-- The payload bytes of a frame (R455, R464, R478). -/
def Frame.bytes : Frame → Nat
  | .hello _ _ _ _ ds _ => 40 + 8 * ds.length
  | .input _ (.data _ _ bs pi) => 64 + bs.length + pi.length
  | .input _ _ => 64
  | .jrec (.ledger _) => 128
  | .jrec _ => 64
  | .page _ _ _ d p => 16 + d.length + p.length
  | .dinput _ _ d => 16 + d.length
  | .digest _ _ _ _ _ _ js => 48 + 8 * js.length
  | .ack _ _ _ => 24
  | .base (.ledger _) => 128
  | .base _ => 64
  | .basePage _ _ _ d p => 16 + d.length + p.length
  | .baseDone => 0
  | .mismatch _ => 8
  | .drop => 0
  | .handover _ => 8
  | .liveImg _ _ => 16

/-- The payload flits that a frame takes: 240 bytes each, behind a 16-byte header (R452, R455). -/
def Frame.flits (f : Frame) : Nat := ceilDiv (16 + f.bytes) 240

/-- The bytes of a frame that the mirror budget is charged: journal records, pages, destage inputs and base content with their
headers (R456). -/
def Frame.charge (f : Frame) : Nat :=
  match f with
  | .jrec _ => 16 + f.bytes
  | .page _ _ _ _ _ => 16 + f.bytes
  | .dinput _ _ _ => 16 + f.bytes
  | .base _ => 16 + f.bytes
  | .basePage _ _ _ _ _ => 16 + f.bytes
  | _ => 0

/-- A frame sent in payload flits: numbered modulo 1,024, the last 1,024 kept (R452, R453). -/
def sendFlits (f : Frame) (l : Link) : Link :=
  let all := l.txKeep ++ (List.range f.flits).map fun i => (l.txSeq + i) % 1024
  { l with
    txSeq := (l.txSeq + f.flits) % 1024, txKeep := all.drop (all.length - 1024), sent := l.sent + f.flits
    charged := l.charged + f.charge }

/-- What the block sends out; a frame goes to the partner in payload flits. -/
def emit (o : Output) (s : State) : State :=
  match o with
  | .frame _ f => { s with out := s.out ++ [o], pair := { s.pair with link := sendFlits f s.pair.link } }
  | _ => { s with out := s.out ++ [o] }

/-- Several outputs in order. -/
def emits (os : List Output) (s : State) : State := os.foldl (fun t o => emit o t) s

/-- A free value drawn: the value and the state with the counter advanced. -/
def drawFree (s : State) : Word × State := (Config.freeWord s.free, { s with free := s.free + 1 })

/-! ### Events (R506, R573) -/

/-- The EVNT entry of a masked source (R60). -/
def EvntEnt.masked : EvntEnt := { func := 0, vector := 0, toMsix := false, toMgmt := false, coal := 0 }

/-- The routing in force for a source: until the first image of a reset runs, management only (R573). -/
def route (s : State) (src : Nat) : EvntEnt :=
  if s.loader.rwlOpen then { func := 0, vector := 0, toMsix := false, toMgmt := true, coal := 0 }
  else
    match s.image with
    | none => { func := 0, vector := 0, toMsix := false, toMgmt := true, coal := 0 }
    | some im => tabGet EvntEnt.masked im.evnt src

/-- A pending mark after one more raise in tick `t` (R506). -/
def pendAdd (t : Nat) : Option Pend → Pend
  | none => { count := 1, tick := t }
  | some p => { p with count := sat 65535 (p.count + 1) }

/-- The raise of a source: its status bit, and its pending marks at the destinations of its EVNT entry (R506). -/
def raiseIn (e : EvntEnt) (t src : Nat) (ev : Events) : Events where
  stat := tabPut false ev.stat src true
  mask := ev.mask
  pendMsix := if e.toMsix then tabInsert ev.pendMsix src (pendAdd t (tabFind ev.pendMsix src)) else ev.pendMsix
  pendMgmt := if e.toMgmt then tabInsert ev.pendMgmt src (pendAdd t (tabFind ev.pendMgmt src)) else ev.pendMgmt
  lastMsg := ev.lastMsg
  log := ev.log
  written := ev.written
  logBase := ev.logBase
  logSel := ev.logSel
  logData := ev.logData

/-- What the HEM observes of the cache's events, whatever their routing (R445, R447). -/
def hemObserve (src : Nat) (h : Hem) : Hem :=
  if src = 0xB00 then { h with calWt := true }
  else if src = 0xB01 then { h with calWt := false }
  else if src = 0xB0D ∧ h.ship = 1 then { h with cleanSeen := true }
  else h

/-- An event source is raised (R30, R31, R506). -/
def raise (src : Nat) (s : State) : State :=
  { s with events := raiseIn (route s src) s.drone.count src s.events, hem := hemObserve src s.hem }

/-- A source raised when a condition holds. -/
def raiseIf (c : Bool) (src : Nat) (s : State) : State := if c then raise src s else s

/-! ### When the planes act -/

/-- The management plane runs: not in device reset, and past the boot ROM (R550, R551). -/
def mgmtUp (s : State) : Bool := s.boot == .up

/-- An image structures the control and data planes and neither plane has halted (R349, R499, R556, R561). -/
def serving (s : State) : Bool := s.boot == .up && s.image.isSome && !s.halted && s.loader.state != .apply

/-- The unit is fence holder in this tick: the sampled copy shows SOLO or ACTIVE and a claim no lower than any seen
(R139). -/
def fenceHolder (s : State) : Bool :=
  (s.sampled.claim.unit == .solo || s.sampled.claim.unit == .active) &&
    decide (s.pair.high.toNat ≤ s.sampled.claim.claim.toNat)

/-- A dump is running or has ended (R348). -/
def dumping (s : State) : Bool := s.cache.vault.dump != .none_

/-- The port (0 or 1) of a function index (R52). -/
def portOf (f : Nat) : Nat := f / 128

/-- The function index names a PF. -/
def isPf (f : Nat) : Bool := f == 0 || f == 128

/-- The RING entry of a function in the running image, zero where there is none (R52). -/
def ringEnt (s : State) (f : Nat) : RingEnt :=
  match s.image with
  | none => { firstGroup := 0, groups := 0, cseraiShare := 0, vectors := 0 }
  | some im => tabGet { firstGroup := 0, groups := 0, cseraiShare := 0, vectors := 0 } im.ring f

/-- The function that owns a ring group (R141). -/
def groupOwner (s : State) (g : Nat) : Option Nat :=
  match s.image with
  | none => none
  | some im => (im.ring.find? fun p => p.2.firstGroup ≤ g && g < p.2.firstGroup + p.2.groups).map (·.1)

/-- The function's BAR0 answers in the blocks beyond GLB and MGW: the port's link is up and an image runs (R73). -/
def barOpen (s : State) (f : Nat) : Bool :=
  serving s && (nth false s.pins.hpPerst (portOf f))

/-- The function's registers read: as for `barOpen`, and also in a unit that has halted, whose management plane runs on and
whose status registers say that it stopped (R349, R499, R556). -/
def barSeen (s : State) (f : Nat) : Bool :=
  s.boot == .up && s.image.isSome && s.loader.state != .apply && nth false s.pins.hpPerst (portOf f)

/-- The function's view of GLB answers, with or without an image (R3, R69, R73, R142): configuration ready and the port out of
reset. -/
def glbOpen (s : State) (f : Nat) : Bool := mgmtUp s && nth false s.pins.hpPerst (portOf f)

/-- The PF's BAR0 answers in GLB and MGW (R73): configuration ready and the port out of reset. -/
def pfOpen (s : State) (f : Nat) : Bool := mgmtUp s && isPf f && nth false s.pins.hpPerst (portOf f)

/-- The PF's BAR0 answers in every block. -/
def pfFull (s : State) (f : Nat) : Bool := isPf f && barOpen s f

/-- The PF reaches the registers of the management plane, the event unit and the selections of what is read (R21, R556). -/
def pfSeen (s : State) (f : Nat) : Bool := isPf f && barSeen s f

/-- A tick's length in ns (R85); 1 µs until an image runs (R573). -/
def tickNs (s : State) : Nat :=
  match s.image with
  | none => 1000
  | some im => 500 * 2 ^ im.geom.tickSel

/-- Core cycles per tick (R85). -/
def tickCycles (s : State) : Nat := tickNs s * 5 / 4

/-- Ticks in a number of milliseconds, rounded up. -/
def msTicks (s : State) (ms : Nat) : Nat := ceilDiv (ms * 1000000) (tickNs s)

end Sys2Proof.Machine
end

