-- ==== Sys2Proof/Machine/Crc.lean ====
section
/-! DEFINITION. CRC32C and the NVMe CRC64 in the form of R198: reflected, started from all ones, without the final
inversion; and the guards of R162. -/

namespace Sys2Proof.Machine

open Sys2Proof

/-- n shift steps of a reflected CRC. -/
def crcShift {w : Nat} (poly : BitVec w) : Nat → BitVec w → BitVec w
  | 0, c => c
  | n + 1, c => crcShift poly n (if c.getLsbD 0 then (c >>> 1) ^^^ poly else c >>> 1)

/-- One byte into a reflected CRC. -/
def crcByte {w : Nat} (poly : BitVec w) (c : BitVec w) (b : Byte) : BitVec w :=
  crcShift poly 8 (c ^^^ b.setWidth w)

/-- Bytes into a running CRC32C. -/
def crc32cFrom (c : BitVec 32) (bs : List Byte) : BitVec 32 := bs.foldl (crcByte 0x82F63B78) c

/-- Bytes into a running NVMe CRC64. -/
def crc64From (c : BitVec 64) (bs : List Byte) : BitVec 64 := bs.foldl (crcByte 0x9A6C9329AC4BC9B5) c

/-- CRC32C in the form of R198. -/
def crc32c (bs : List Byte) : BitVec 32 := crc32cFrom (BitVec.allOnes 32) bs

/-- NVMe CRC64 in the form of R198; over no bytes it is all ones (R464). -/
def crc64 (bs : List Byte) : BitVec 64 := crc64From (BitVec.allOnes 64) bs

/-- n shift steps of the 16-bit guard CRC (polynomial 0x8BB7, most significant bit first). -/
def crc16Shift : Nat → BitVec 16 → BitVec 16
  | 0, c => c
  | n + 1, c => crc16Shift n (if c.getLsbD 15 then (c <<< 1) ^^^ 0x8BB7 else c <<< 1)

/-- The 16-bit guard of 8-byte protection information (R162), as NVMe defines it. -/
def crc16 (bs : List Byte) : BitVec 16 :=
  bs.foldl (fun c b => crc16Shift 8 (c ^^^ ((b.setWidth 16 : BitVec 16) <<< (8 : Nat)))) 0

/-- The 64-bit guard of 16-byte protection information (R162): the NVMe CRC64 as its standard defines it. -/
def guard64 (bs : List Byte) : BitVec 64 := ~~~ (crc64 bs)

/-- Bytes of a number, highest first. -/
def beBytes (n v : Nat) : List Byte := (leBytes n v).reverse

/-- The guard bytes of a block's data for PI_BYTES 8 or 16 (big-endian, as NVMe places a guard), none for 0. -/
def guardBytes (piBytes : Nat) (data : List Byte) : List Byte :=
  if piBytes = 8 then beBytes 2 (crc16 data).toNat
  else if piBytes = 16 then beBytes 8 (guard64 data).toNat
  else []

/-- The protection bytes of a block of zeros (R156): zero but for the guard. -/
def zeroPi (piBytes : Nat) (guard : List Byte) : List Byte := takePad piBytes guard

/-- The guard in the host's protection bytes agrees with the data (R162). -/
def guardOk (piBytes : Nat) (data pi : List Byte) : Bool :=
  (guardBytes piBytes data) == pi.take (guardBytes piBytes data).length

end Sys2Proof.Machine
end

