-- ==== Sys2Proof/Machine/Flags.lean ====
section
/-! DEFINITION. Status computations of the host side: ring indices and places, caravanserai use, event raising of a
ring, and the values its registers show. -/

namespace Sys2Proof.Machine

open Sys2Proof

/-! ### Functions -/

/-- Per-function state. -/
def getFunc (s : State) (f : Nat) : Func := tabGet Func.reset s.host.funcs f

/-- Per-function state replaced. -/
def setFunc (f : Nat) (x : Func) (s : State) : State :=
  { s with host := { s.host with funcs := tabPut Func.reset s.host.funcs f x } }

/-- Data written to a function's host memory, with Relaxed Ordering as its enable bit says (R137). -/
def dataOut (s : State) (f : Nat) (addr : Word) (bs : List Byte) : Output := .hostWrite f addr bs (getFunc s f).roEn

/-! ### Ring indices (R114, R115) -/

/-- The position of a ring index: bits [15:0]. -/
def idxPos (x : BitVec 17) : Nat := x.toNat % 65536

/-- The wrap bit of a ring index: bit [16]. -/
def idxWrap (x : BitVec 17) : Bool := x.getLsbD 16

/-- An index made of a position and a wrap bit. -/
def idxMake (w : Bool) (p : Nat) : BitVec 17 := BitVec.ofNat 17 (p % 65536 + if w then 65536 else 0)

/-- The index after `x` in a ring of depth `d` (R114). -/
def idxNext (d : Nat) (x : BitVec 17) : BitVec 17 :=
  if idxPos x + 1 ≥ d then idxMake (!idxWrap x) 0 else idxMake (idxWrap x) (idxPos x + 1)

/-- The index before `x` advanced `n` times. -/
def idxAdd (d : Nat) : Nat → BitVec 17 → BitVec 17
  | 0, x => x
  | n + 1, x => idxAdd d n (idxNext d x)

/-- The distance of producer index `p` from consumer index `c` (R115). -/
def idxDist (d : Nat) (p c : BitVec 17) : Nat :=
  if idxWrap p = idxWrap c then idxPos p - idxPos c else d + idxPos p - idxPos c

/-- A ring is empty when all 17 bits agree (R115). -/
def idxEmpty (p c : BitVec 17) : Bool := p == c

/-- A ring is full when the positions agree and the wrap bits differ (R115). -/
def idxFull (p c : BitVec 17) : Bool := idxPos p == idxPos c && idxWrap p != idxWrap c

/-! ### Ring pairs -/

/-- The ring pair with a global number. -/
def getRing (s : State) (r : Nat) : Ring := tabGet Ring.reset s.host.rings r

/-- A ring pair replaced. -/
def setRing (r : Nat) (q : Ring) (s : State) : State :=
  { s with host := { s.host with rings := tabPut Ring.reset s.host.rings r q } }

/-- A ring pair changed by a function. -/
def modRing (r : Nat) (f : Ring → Ring) (s : State) : State := setRing r (f (getRing s r)) s

/-- The depth D of a ring (R113). -/
def Ring.depth (q : Ring) : Nat := 2 ^ q.depthLog

/-- The occupancy of a ring's CQ (R129). -/
def Ring.occupancy (q : Ring) : Nat := idxDist q.depth q.cqPi q.cqCi

/-- occupancy + OWED − HELD < D (R129). -/
def Ring.room (q : Ring) : Bool := decide (q.occupancy + q.owed < q.depth + q.held)

/-- The owner of a ring pair: the owner of its group (R141). -/
def ringOwner (s : State) (r : Nat) : Option Nat := groupOwner s (r / 64)

/-- The rings of a function that are not in reset state, with their numbers. -/
def ringsOf (s : State) (f : Nat) : List (Nat × Ring) := s.host.rings.filter fun p => ringOwner s p.1 == some f

/-- Caravanserai entries held or reserved by a function (R148 USED). -/
def cseraiUsed (s : State) (f : Nat) : Nat := sumBy (fun p => p.2.held) (ringsOf s f)

/-- The function has an unused entry of its share (R129, R130). -/
def cseraiFree (s : State) (f : Nat) : Bool := decide (cseraiUsed s f < (ringEnt s f).cseraiShare)

/-- The ring's event source raised, at most once per ring and tick, if EVT_EN is 1 (R145). -/
def ringEvent (r : Nat) (s : State) : State :=
  let q := getRing s r
  if q.evtEn && q.eventAt != some s.drone.count then
    raise q.evtSrc (setRing r { q with eventAt := some s.drone.count } s)
  else s

/-- Restore and replay after a device reset have ended (R579). -/
def restoreEnded (s : State) : Bool := s.cache.vault.restore == .ended

/-- A function level reset of the function is in progress (R135). -/
def inFlr (s : State) (f : Nat) : Bool := (tabFind s.host.flrDone f).isSome

/-- Ring intake fetches: the planes serve, no PREPARE or dump has stopped it (R76, R348), the unit is fence holder
(R140), and the ring's function can be reached and is not being reset. -/
def intakeOn (s : State) (r : Nat) : Bool :=
  serving s && !s.host.stopped && !dumping s && fenceHolder s &&
    match ringOwner s r with
    | none => false
    | some f => barOpen s f && !inFlr s f

/-- `p` names at most D entries from `c` in a ring of depth `d`: neither a host error of R178. -/
def idxValid (d : Nat) (p c : BitVec 17) : Bool :=
  decide (idxPos p < d) && (if idxWrap p = idxWrap c then decide (idxPos c ≤ idxPos p) else decide (idxPos p ≤ idxPos c))

/-- An ACTIVE unit writes no completion once 40 ms have passed since it issued its last durable post round (R469). -/
def completionHold (s : State) : Bool :=
  s.sampled.claim.unit == .active && decide (s.pair.durableAt + 40000000 ≤ s.clock)

/-- The completion stage writes to the rings of a function: the planes serve, no dump has stopped completions (R348),
R469 does not hold them, and the function can be reached. -/
def mayPost (s : State) (f : Nat) : Bool := serving s && !dumping s && !completionHold s && barOpen s f

/-- A completion as it may be written in this tick: only status 0x07 while the unit is not fence holder (R139, R140). -/
def fenced (s : State) (c : Completion) : Completion :=
  if fenceHolder s then c else { c with status := 7, result := 0 }

/-- RNG_CFG as it reads (R146). -/
def rngCfg (q : Ring) : Word :=
  putB q.en 0 ||| putB q.busy 1 ||| putB q.stall 2 ||| putB (!q.cserai.isEmpty) 3 ||| putB q.err 4 ||| putB q.sqErr 5 |||
    putB q.cqErr 6 ||| put q.depthLog 8 ||| put q.evtSrc 16 ||| putB q.evtEn 27 ||| put (sat 131071 q.owed) 32

/-- GLB_FN_INFO of a function (R148): zero in LOADER, and again while an image is applied; the running image's values from
RUNNING on. -/
def fnInfo (s : State) (f : Nat) : Word :=
  if s.image.isNone || s.loader.state == .apply || s.loader.state == .loader then 0
  else
    let e := ringEnt s f
    put f 0 ||| put e.firstGroup 8 ||| put e.groups 18 ||| put e.vectors 32 ||| put e.cseraiShare 48

/-- GLB_FN_CSERAI of a function (R148). -/
def fnCserai (s : State) (f : Nat) : Word :=
  let n := ((ringsOf s f).filter fun p => p.2.stall).length
  put (cseraiUsed s f) 0 ||| putB (n != 0) 16 ||| put n 32

/-- The mirror word of a ring (R136). -/
def mirrorWord (q : Ring) : Nat := q.cqPi.toNat + q.sqCi.toNat * 2 ^ 32

/-- A completion entry's sixteen bytes (R119). -/
def completionBytes (sqCi : BitVec 17) (via : Bool) (c : Completion) : List Byte :=
  leBytes 2 c.cmdId.toNat ++ leBytes 1 c.status ++ leBytes 1 (if via then 1 else 0) ++ leBytes 4 sqCi.toNat ++
    leBytes 8 c.result.toNat

end Sys2Proof.Machine
end

