-- ==== Sys2Proof/Machine/Health.lean ====
section
/-! DEFINITION. Health (R492 to R504, R560): replacement reasons, retirement of pseudo-channels and SRAM rows, aging, PHY
margins, temperature and the health report. -/

namespace Sys2Proof.Machine

open Sys2Proof

/-! ### The replacement request (R501, R502) -/

/-- A reason bit of HLT_REPLACE_WHY set: REPLACE_N goes low, 0xC00 is raised for a further bit, and the flash health
record keeps SPARES and PC_RETIRE, which follow from what it records (R495, R501, R502). DEDUCED (log 48). -/
def setReason (n : Nat) (s : State) : State :=
  if s.health.why.getLsbD n then s
  else
    let w := s.health.why ||| BitVec.ofNat 5 (2 ^ n)
    raise 0xC00 { s with
      health := { s.health with why := w }
      pins := { s.pins with replaceN := false }
      flash := { s.flash with health := { s.flash.health with reasons := w &&& 5 } } }

/-- A reason set when its condition holds. -/
def reasonIf (c : Bool) (n : Nat) (s : State) : State := if c then setReason n s else s

/-- HLT_DEGRADE changed: its SEQ increments (R516). -/
def modDegrade (f : Health → Health) (s : State) : State :=
  let h := f s.health
  { s with health := { h with dseq := h.dseq + 1 } }

/-- A fatal stop: HLT_DEGRADE.STOP is set, HLT_FATAL raised and the FATAL reason set (R499). -/
def fatalStop (s : State) : State :=
  if s.health.stop then s
  else setReason 4 (raise 0xC08 (modDegrade (fun h => { h with stop := true, stopped := true }) s))

/-! ### Pseudo-channels (R38 to R40, R496) -/

/-- Retired pseudo-channels in a mask. -/
def pcCount (m : BitVec 64) : Nat := ((List.range 64).filter fun p => m.getLsbD p).length

/-- The protected write cache in MiB with a mask of retired pseudo-channels (R35, R38). -/
def cacheMib (im : Image) (m : BitVec 64) : Nat := 256 * im.part.hbCache - 768 * pcCount m

/-- Fewer than 4 GiB of protected write cache would be left (R40). -/
def cacheTooSmall (s : State) : Bool := s.image.any fun im => decide (cacheMib im s.health.pcRetire < 4096)

/-- The write cache switches to write-through when too little of it is left, for good: the health record holds it (R40).
DEDUCED (log 79): the record is where it outlives a reset. -/
def checkWtPerm (s : State) : State :=
  if cacheTooSmall s && !s.health.wtPerm then
    modDegrade (fun h => { h with wtPerm := true })
      { s with flash := { s.flash with health := { s.flash.health with wtPerm := true } } }
  else s

/-- A pseudo-channel retired: HLT_PC_RETIRE, the flash record, the event, R40 and the PC_RETIRE reason (R495, R496). -/
def retirePc (pc : Nat) (s : State) : State :=
  if s.health.pcRetire.getLsbD pc then s
  else
    let m := s.health.pcRetire ||| BitVec.ofNat 64 (2 ^ pc)
    let s1 := raise 0xC04 { s with
      health := { s.health with pcRetire := m }
      flash := { s.flash with health := { s.flash.health with pcRetired := addOnce s.flash.health.pcRetired pc } } }
    reasonIf (decide (2 < pcCount m)) 2 (checkWtPerm s1)

/-! ### SRAM repair (R494, R495) -/

/-- A row of a group replaced by a spare row, or the SPARES reason where none is left (R494, R501, R503). -/
def repairRow (g : Nat) (s : State) : State :=
  let n := tabGet 0 s.health.sramRows g
  if 32 ≤ n then setReason 0 s
  else raise 0xC01 { s with
    health := { s.health with sramRows := tabInsert s.health.sramRows g (n + 1) }
    flash := { s.flash with health := { s.flash.health with sramRows := tabInsert s.flash.health.sramRows g (n + 1) } } }

/-- A column of a group replaced by a spare column, or the SPARES reason where none is left (R494, R501). -/
def repairCol (g : Nat) (s : State) : State :=
  let n := tabGet 0 s.health.sramCols g
  if 8 ≤ n then setReason 0 s
  else raise 0xC01 { s with
    health := { s.health with sramCols := tabInsert s.health.sramCols g (n + 1) }
    flash := { s.flash with health := { s.flash.health with sramCols := tabInsert s.flash.health.sramCols g (n + 1) } } }

/-- A change made a number of times. -/
def times (n : Nat) (f : State → State) (s : State) : State :=
  match n with
  | 0 => s
  | k + 1 => times k f (f s)

/-- What the SRAM patrol found in a group, its uncorrectable errors apart (R494): correctable errors counted, a row with
one in two consecutive passes and a column with errors in more than 4 rows repaired; the pass is complete with group
63. -/
def patrolGroup (s : State) (x : SramFind) : State :=
  let again := x.rows.eraseDups.filter fun r => (tabGet [] s.health.ceRows x.group).contains r
  let cols := x.cols.filter fun c => 4 < c.2
  let s1 := times cols.length (repairCol x.group) (times again.length (repairRow x.group) s)
  { s1 with health := { s1.health with
      sramCe := s1.health.sramCe + x.rows.length
      ceRows := tabPut [] s1.health.ceRows x.group (x.rows.eraseDups.filter fun r => !again.contains r)
      sramPasses := if x.group = 63 then s1.health.sramPasses + 1 else s1.health.sramPasses } }

/-! ### Self-tests run by the management plane -/

/-- The self-tests other than the aging monitors run: an image has entered RUNNING since the device reset (R492). -/
def testsOn (s : State) : Bool := mgmtUp s && !s.loader.rwlOpen

/-- The HLT_AGING raises of a measurement: one for each monitor that first reads 400 or below (R497). -/
def agingEvents (ms : List Nat) (s : State) : State :=
  let new := (List.range 64).filter fun m => nth 1000 ms m ≤ 400 && !s.health.agingSeen.contains m
  times new.length (raise 0xC05) { s with health := { s.health with agingSeen := s.health.agingSeen ++ new } }

/-- The number of consecutive measurements in which each monitor read 250 or below (R497). -/
def agingRuns (ms old : List Nat) : List Nat :=
  (List.range 64).map fun m => if nth 1000 ms m ≤ 250 then nth 0 old m + 1 else 0

/-- A measurement of the 64 aging monitors (R497). -/
def measureAging (ms : List Nat) (s : State) : State :=
  let runs := agingRuns ms s.health.agingLow
  reasonIf (runs.any (3 ≤ ·)) 1
    (agingEvents ms { s with health := { s.health with aging := (List.range 64).map (nth 1000 ms), agingLow := runs } })

/-- AGING_MEASURE (R497). -/
def execAgingMeasure (margins : List Nat) (s : State) : Host.Outcome State Fault Refusal :=
  if mgmtUp s then .next (measureAging margins s) else .next s

/-- A cluster's bit in HLT_DEGRADE.CLU_CAP. -/
def capped (m : BitVec 12) (c : Nat) : Bool := m.getLsbD c

/-- The cluster's links run at 16 GT/s or less (R498, R419). -/
def atCap (s : State) (c : Nat) : Bool := (nth Cluster.reset s.drives.clusters c).rate.all fun r => decide (r ≤ 2)

/-- A lane group below 120 % (R498): groups 0 and 1 are HP0 and HP1, 2 to 13 DC0 to DC11, 14 the Epong link. -/
def phyLow (g : Nat) (s : State) : State :=
  if 2 ≤ g ∧ g < 14 then
    let c := g - 2
    if !capped s.health.cluCap c then
      raise 0xC07 (modDegrade (fun h => { h with cluCap := h.cluCap ||| BitVec.ofNat 12 (2 ^ c) }) s)
    else reasonIf (atCap s c) 3 s
  else setReason 3 s

/-- A margin measurement (R498, R504). -/
def measurePhy (g pct : Nat) (s : State) : State :=
  let s1 := { s with health := { s.health with
    phy := modAt s.health.phy g fun _ => sat 254 pct
    phySweeps := s.health.phySweeps + 1 } }
  if pct < 120 then phyLow g (raise 0xC06 s1) else s1

/-- PHY_MARGIN_MEASURE (R498). -/
def execPhyMarginMeasure (group pct : Nat) (s : State) : Host.Outcome State Fault Refusal :=
  if testsOn s then .next (measurePhy group pct s) else .next s

/-- A junction temperature reading in 0.1 °C: HLT_TEMP_HIGH above 95 °C, HLT_TEMP_OK below 90 °C again, and the run of
readings of 105 °C or more (R500, R560, R561). -/
def readTemp (tj : Int) (s : State) : State :=
  let up := !s.health.tempHigh && decide (950 < tj)
  let down := s.health.tempHigh && decide (tj < 900)
  raiseIf down 0xC0A (raiseIf up 0xC09 { s with health := { s.health with
    tempHigh := up || (s.health.tempHigh && !down)
    tjNow := tj
    tjMax := max s.health.tjMax tj
    hotRun := if 1050 ≤ tj then s.health.hotRun + 1 else 0 } })

/-! ### Reed capacity (R244) -/

/-- A pair retired by the current REED_SLOT_MAP. -/
def pairRetired (s : State) (p : Nat) : Bool := s.slotMap.retired.contains p

/-- The pairs that serve no slot and are not retired: the spares (R244). -/
def sparePairs (s : State) : List Nat :=
  (List.range 18).filter fun p => !s.slotMap.pairs.contains (some p) && !pairRetired s p

/-- The slots in service by the current map. -/
def mapSlots (s : State) : List Nat := (List.range 16).filter fun n => (nth none s.slotMap.pairs n).isSome

/-! ### The health report (R504) -/

/-- The unit state's code (R474). -/
def UnitState.code : UnitState → Nat
  | .solo => 0
  | .active => 1
  | .standbySynced => 2
  | .standbyJoining => 3
  | .unsynced => 4
  | .isolated => 5
  | .salvage => 6

/-- Powered hours of the present device reset. -/
def hoursNow (s : State) : Nat := s.clock / 3600000000000

/-- HLT_DEGRADE as it reads (R516). -/
def hltDegrade (h : Health) : Word :=
  putB h.wtPerm 0 ||| putB h.stop 1 ||| put h.cluCap.toNat 2 ||| put h.dseq.toNat 56

/-- A signed 16-bit field. -/
def le16s (v : Int) : List Byte := leBytes 2 (v % 65536).toNat

/-- The longest time since a known-vector test over the pairs not retired, in ms (R504). -/
def testAgeMs (s : State) : Nat :=
  let ages := ((List.range 18).filter fun p => !pairRetired s p).map fun p =>
    (s.drone.count - (nth PairStat.reset s.reeds.stat p).lastTest) * tickNs s / 1000000
  maxBy id ages

/-- The monitor with the least margin, the first on a tie, with its margin. -/
def agingMin (s : State) : Nat × Nat :=
  (leastBy (fun a b : Nat × Nat => decide (a.2 < b.2))
    ((List.range 64).map fun m => (m, nth 0 s.health.aging m))).getD (0, 0)

/-- The groups with no spare row or no spare column left (R504). -/
def groupsOut (s : State) : Nat :=
  ((List.range 64).filter fun g => 32 ≤ tabGet 0 s.health.sramRows g || 8 ≤ tabGet 0 s.health.sramCols g).length

/-- HLT_REPORT up to its CRC (R504). -/
def reportBody (s : State) : List Byte :=
  let h := s.health
  ascii "HLTR" ++ leBytes 2 1 ++ leBytes 1 0x11 ++ leBytes 1 s.pair.claim.unit.code ++ leBytes 8 s.dieId.toNat ++
    leBytes 8 s.drone.count ++ leBytes 4 (s.flash.health.powerOnH + hoursNow s) ++ leBytes 4 h.why.toNat ++
    leBytes 8 (hltDegrade h).toNat ++ leBytes 8 h.pcRetire.toNat ++ leBytes 1 (mapSlots s).length ++
    leBytes 1 (sparePairs s).length ++ leBytes 1 s.slotMap.retired.length ++ zeros 1 ++ leBytes 4 h.reedFaults ++
    leBytes 4 h.testFails ++ leBytes 4 (testAgeMs s) ++ leBytes 2 (sumBy (·.2) h.sramRows) ++
    leBytes 2 (sumBy (·.2) h.sramCols) ++ leBytes 2 (groupsOut s) ++ zeros 2 ++ leBytes 4 h.sramCe ++
    leBytes 4 h.sramUe ++ leBytes 4 h.hbmCe ++ leBytes 4 h.hbmUe ++ leBytes 1 (pcCount h.pcRetire) ++
    leBytes 1 (agingMin s).1 ++ leBytes 2 (agingMin s).2 ++ leBytes 2 (sumBy id h.aging / 64) ++ le16s h.tjMax ++
    le16s h.tjNow ++ (h.phy.flatMap fun p => leBytes 1 p) ++ zeros 3 ++ leBytes 4 h.sramPasses ++
    leBytes 4 h.hbmPasses ++ leBytes 4 h.phySweeps ++ (h.aging.flatMap fun m => leBytes 1 (m / 4)) ++
    leBytes 4 h.dmaHangs ++ zeros 52

/-- HLT_REPORT with its CRC (R504). -/
def healthReport (s : State) : List Byte := reportBody s ++ leBytes 8 (crc64 (reportBody s)).toNat

/-- A fresh report copied (R504). -/
def snapHealth (s : State) : State := { s with health := { s.health with report := healthReport s } }

/-- HLT_SNAP_WRITE (R504). -/
def execHltSnapWrite (f : Nat) (s : State) : Host.Outcome State Fault Refusal :=
  if pfSeen s f then .next (snapHealth s) else .next s

/-- An HLT register as it reads, by offset in the block (R516). -/
def hltRead (s : State) (off : Nat) : Word :=
  if off = 0x00 then putB (s.health.why != 0) 0 ||| putB s.health.stopped 1 ||| putB s.health.tempHigh 2
  else if off = 0x08 then put s.health.why.toNat 0
  else if off = 0x10 then hltDegrade s.health
  else if off = 0x18 then s.health.pcRetire
  else if 0x100 ≤ off ∧ off < 0x200 then fieldW s.health.report (off - 0x100)
  else 0

end Sys2Proof.Machine
end

