-- ==== Sys2Proof/Machine/Gf.lean ====
section
/-! DEFINITION. Arithmetic in GF(2^8) (R216), generator and decode rows (R219, R226, R227) and the recoverability of a
family (R220, R221). A matrix is a list of rows of bytes. -/

namespace Sys2Proof.Machine

open Sys2Proof

/-- One doubling in the field: the shift with its reduction by 0x11D. -/
def gfDouble (a : Byte) : Byte := if a.getLsbD 7 then (a <<< 1) ^^^ 0x1D else a <<< 1

/-- Multiplication over the bits of b from bit n on (R216, gf_mul). -/
def gfMulFrom : Nat → Nat → Byte → Byte → Byte
  | 0, _, _, _ => 0
  | k + 1, n, a, b => (if b.getLsbD n then a else 0) ^^^ gfMulFrom k (n + 1) (gfDouble a) b

/-- Multiplication in GF(2^8) (R216). -/
def gfMul (a b : Byte) : Byte := gfMulFrom 8 0 a b

/-- The n-th power of a field element. -/
def gfPow (a : Byte) : Nat → Byte
  | 0 => 1
  | n + 1 => gfMul a (gfPow a n)

/-- The inverse of a nonzero element: its 254th power. -/
def gfInv (a : Byte) : Byte := gfPow a 254

/-- The sum of products of two rows. -/
def gfDot : List Byte → List Byte → Byte
  | a :: r, b :: t => gfMul a b ^^^ gfDot r t
  | _, _ => 0

/-- A row scaled. -/
def rowScale (c : Byte) (r : List Byte) : List Byte := r.map (gfMul c)

/-- The sum of two rows. -/
def rowAdd : List Byte → List Byte → List Byte
  | a :: r, b :: t => (a ^^^ b) :: rowAdd r t
  | [], t => t
  | r, [] => r

/-- One output byte stream: the coefficients applied to the input streams, position by position (R217, R222). -/
def combine (coeffs : List Byte) (ins : List (List Byte)) (n : Nat) : List Byte :=
  (List.zip coeffs ins).foldl (fun acc p => if p.1 = 0 then acc else rowAdd acc (takePad n (rowScale p.1 p.2)))
    (zeros n)

/-- A unit vector of length k. -/
def unitRow (k j : Nat) : List Byte := (List.range k).map fun i => if i = j then 1 else 0

/-- Gauss-Jordan elimination (R227) on rows of a matrix with its right-hand side appended: column by column, the
pivot row is the first remaining row with a nonzero entry. Answers the reduced rows in pivot order, or none. -/
def gaussStep (col : Nat) (done rest : List (List Byte)) : Option (List (List Byte) × List (List Byte)) :=
  match rest.find? fun r => nth 0 r col != 0 with
  | none => none
  | some p =>
    let p' := rowScale (gfInv (nth 0 p col)) p
    let clear := fun r => rowAdd r (rowScale (nth 0 r col) p')
    some (done.map clear ++ [p'], (rest.erase p).map clear)

/-- Elimination over columns col, col + 1, … -/
def gaussCols : Nat → Nat → List (List Byte) → List (List Byte) → Option (List (List Byte))
  | 0, _, done, _ => some done
  | n + 1, col, done, rest =>
    match gaussStep col done rest with
    | none => none
    | some (d, r) => gaussCols n (col + 1) d r

/-- The inverse of a k × k matrix (R227), none when it is singular. -/
def gfInverse (k : Nat) (g : List (List Byte)) : Option (List (List Byte)) :=
  let aug := (List.zip (List.range k) g).map fun p => takePad k p.2 ++ unitRow k p.1
  (gaussCols k 0 [] aug).map fun rows => rows.map (·.drop k)

/-- The rank of a list of rows: elimination that skips columns without a pivot. -/
def gfRankFrom : Nat → Nat → List (List Byte) → Nat
  | 0, _, _ => 0
  | n + 1, col, rest =>
    match gaussStep col [] rest with
    | none => gfRankFrom n (col + 1) rest
    | some (_, r) => 1 + gfRankFrom n (col + 1) r

/-- The rank of rows of length k. -/
def gfRank (k : Nat) (rows : List (List Byte)) : Nat := gfRankFrom k 0 rows

/-- A row vector times a matrix. -/
def rowTimes (r : List Byte) (m : List (List Byte)) (k : Nat) : List Byte :=
  (List.zip r m).foldl (fun acc p => rowAdd acc (rowScale p.1 (takePad k p.2))) (zeros k)

/-- Generator matrix of a volume (R219): m rows of k coefficients taken from the family's MATRIX. -/
def genMatrix (fam : Family) (k m : Nat) : List (List Byte) :=
  (List.range m).map fun i => (List.range k).map fun j => nth 0 fam.matrix (fam.kMax * i + j)

/-- Generator row of strip x (R227). -/
def genRow (fam : Family) (k m x : Nat) : List Byte :=
  if x < k then unitRow k x else nth (zeros k) (genMatrix fam k m) (x - k)

/-- The local group of strip x of a locally repairable family: of a data strip by GROUP_MAP, of a local parity its own
index; none for a global parity (R54, R219). -/
def localGroup (fam : Family) (k x : Nat) : Option Nat :=
  if x < k then some (nth 0 fam.groupMap x)
  else if x - k < fam.localGroups then some (x - k) else none

/-- Members of a local group: its data strips and its local parity. -/
def groupMembers (fam : Family) (k g : Nat) : List Nat :=
  ((List.range k).filter fun j => nth 0 fam.groupMap j == g) ++ [k + g]

/-- Strips kept greedily while they raise the rank (R226, last case). -/
def greedyRank (fam : Family) (k m : Nat) : List Nat → List Nat → List Nat
  | kept, [] => kept
  | kept, x :: r =>
    if kept.length = k then kept
    else if gfRank k ((kept ++ [x]).map (genRow fam k m)) = kept.length + 1 then greedyRank fam k m (kept ++ [x]) r
    else greedyRank fam k m kept r

/-- The survivors selected for an erased set among the strips that may be read (R226). `usable` excludes what may not
be read besides the erased strips. -/
def selectSurvivors (fam : Family) (k m : Nat) (erased : List Nat) : List Nat :=
  let left := (List.range (k + m)).filter fun x => !erased.contains x
  if fam.kind = 3 then
    match erased with
    | [x] =>
      match localGroup fam k x with
      | some g => (groupMembers fam k g).filter fun y => y != x
      | none => greedyRank fam k m [] left
    | _ => greedyRank fam k m [] left
  else left.take k

/-- The strips left have rank k, so that every erased strip can be decoded (R221). -/
def recoverable (fam : Family) (k m : Nat) (erased : List Nat) : Bool :=
  gfRank k (((List.range (k + m)).filter fun x => !erased.contains x).map (genRow fam k m)) = k

/-- Tolerance t of a stripe (R221). -/
def tolerance (fam : Family) (m : Nat) : Nat := if fam.kind = 3 then m - fam.localGroups + 1 else m

/-- Remaining redundancy of a stripe with these erased strips (R221): 0 for a lost stripe too. -/
def redundancy (fam : Family) (k m : Nat) (erased : List Nat) : Nat :=
  if recoverable fam k m erased then tolerance fam m - erased.length else 0

/-- The decode row of erased strip x over the survivors (R227): the group's own equation for a local repair, otherwise
the generator row times the inverse of the survivors' rows. -/
def decodeRow (fam : Family) (k m : Nat) (survivors : List Nat) (x : Nat) : List Byte :=
  if survivors.length = k ∧ gfRank k (survivors.map (genRow fam k m)) = k then
    match gfInverse k (survivors.map (genRow fam k m)) with
    | some inv => rowTimes (genRow fam k m x) inv k
    | none => zeros k
  else
    match localGroup fam k x with
    | none => zeros survivors.length
    | some g =>
      let row := genRow fam k m (k + g)
      let own : Byte := if x < k then gfInv (nth 0 row x) else 1
      survivors.map fun y => if y = k + g then own else gfMul own (nth 0 row y)

/-- All sublists of length n. -/
def choose {α : Type} : Nat → List α → List (List α)
  | 0, _ => [[]]
  | _ + 1, [] => []
  | n + 1, x :: r => (choose n r).map (x :: ·) ++ choose (n + 1) r

/-- A square matrix is nonsingular. -/
def nonsingular (k : Nat) (rows : List (List Byte)) : Bool := gfRank k rows = k

/-- Every square submatrix of the family's matrix is nonsingular (R220, KIND 0x01 and 0x02). -/
def allSquares (fam : Family) : Bool :=
  (List.range (min fam.kMax fam.mMax)).all fun n =>
    (choose (n + 1) (List.range fam.mMax)).all fun rs =>
      (choose (n + 1) (List.range fam.kMax)).all fun cs =>
        nonsingular (n + 1) (rs.map fun i => cs.map fun j => nth 0 fam.matrix (fam.kMax * i + j))

/-- The conditions of R220 for a locally repairable family. -/
def lrcOk (fam : Family) : Bool :=
  decide (fam.localGroups + 1 ≤ fam.mMax) &&
  ((List.range fam.localGroups).all fun g => fam.groupMap.contains g) &&
  ((List.range fam.kMax).all fun j => nth 0 fam.matrix (fam.kMax * nth 0 fam.groupMap j + j) != 0) &&
  ((List.range (fam.mMax - fam.localGroups + 2)).all fun e =>
    (choose e (List.range (fam.kMax + fam.mMax))).all fun er => recoverable fam fam.kMax fam.mMax er)

/-- A family meets its recoverability conditions (R220). -/
def familyOk (fam : Family) : Bool :=
  if fam.kind = 1 ∨ fam.kind = 2 then allSquares fam else if fam.kind = 3 then lrcOk fam else true

end Sys2Proof.Machine
end

