-- ==== Sys2Proof/Machine/Sched.lean ====
section
/-! DEFINITION. Admission and caravans (03): budgets, credit, queueing of plans, compilation, sealing, patience. -/

namespace Sys2Proof.Machine

open Sys2Proof

/-! ### Budgets (R85, R88, R96) -/

/-- The reed slot budget in cycles (R85). -/
def slotBudget (s : State) : Nat := 15 * tickCycles s / 16

/-- The seal cycle (R85). -/
def sealCycle (s : State) : Nat := tickCycles s - 128

/-- The host budget per direction in bytes (R88). -/
def hostBudget (s : State) : Nat := 242000 * tickNs s * 15 / 16000

/-- The HBM budget in bytes (R88). -/
def hbmBudget (s : State) : Nat := 2400000 * tickNs s * 15 / 16000

/-- The Epong mirror budget in bytes (R88). -/
def epongBudget (s : State) : Nat := 110000 * tickNs s / 1000

/-- The growth of a cluster's credit per tick (R96). -/
def creditGrowth (s : State) : Nat := 370000 * tickNs s / 12000

/-- The cap of the main bucket: 1 MiB (R96). -/
def mainCap : Nat := 1048576

/-- The cap of the urgent bucket: 128 KiB, or 512 KiB while the zero-redundancy floor applies (R97). DESIGN CHOICE (log 75):
content above 128 KiB is cut to it at the first edge after the floor has ended. -/
def urgentCap (zr : Bool) : Nat := if zr then 524288 else 131072

/-- The bytes that may be in flight on a cluster (R96). -/
def inflightCap : Nat := 4194304

/-- The waystation's bytes (R35). -/
def wayBytes (s : State) : Nat :=
  match s.image with
  | none => 0
  | some im => im.part.srWaystation * 1048576

/-- The most bytes of one leg of source data: 32 KiB, 16 KiB at TICK_SEL 0 (R87). -/
def legMax (s : State) : Nat := if tickNs s = 500 then 16384 else 32768

/-- The cycles a reed leg costs: L/32 for each input and 16 (R87, R224). -/
def reedCost (len inputs : Nat) : Nat := len * inputs / 32 + 16

/-- DRN_PATIENCE of the running image (R110). -/
def patienceTicks (s : State) : Nat :=
  match s.image with
  | none => 4096
  | some im => im.geom.patience

/-! ### Places of work -/

/-- The slot's drive: its position and record (R396, R399). -/
def slotDrive (s : State) (slot : Nat) : Option (Nat × Drive) :=
  s.drives.drives.find? fun p => p.2.slot == some slot

/-- The image pairs this unit with another (R62). -/
def pairEn (s : State) : Bool := s.image.any (·.pair.pairEn)

/-- The drive cluster of a slot: position / 32 (R396). -/
def slotCluster (s : State) (slot : Nat) : Option Nat := (slotDrive s slot).map fun p => p.1 / 32

/-- The clusters of some slots, as SLOT_WIRE bits (R89). -/
def clustersOf (s : State) (slots : List Nat) : BitVec 12 :=
  slots.foldl (fun a x => match slotCluster s x with
    | none => a
    | some c => a ||| BitVec.ofNat 12 (2 ^ c)) 0

/-- The physical pair that serves a reed slot as sampled, when it may be given legs (R25, R237). -/
def slotPair (s : State) (n : Nat) : Option Nat :=
  match nth none s.sampled.slotMap.pairs n with
  | none => none
  | some p => if s.reeds.condemned.contains p then none else some p

/-- The reed slots that take legs. -/
def slotsInService (s : State) : List Nat := (List.range 16).filter fun n => (slotPair s n).isSome

/-- The effective wiring of a slot (R49, R240). -/
def slotWire (s : State) (n : Nat) : SlotWire := nth { clusters := 0, banks := 0 } s.reeds.wiring n

/-- The clusters of a slot's effective wiring. -/
def slotWiring (s : State) (n : Nat) : BitVec 12 := (slotWire s n).clusters

/-- The waystation banks of a slot's effective wiring, ascending. -/
def slotBanks (s : State) (n : Nat) : List Nat := (List.range 32).filter fun b => (slotWire s n).banks.getLsbD b

/-- The bank that holds the waystation buffers of block position `x` of a stripe on some clusters (R89): the positions go in
turn over the banks of the slots that are wired to the clusters. DESIGN CHOICE (log 76): the spec places no buffer. -/
def bufferBank (s : State) (clusters : BitVec 12) (x : Nat) : Nat :=
  let ns := (slotsInService s).filter fun n => (slotWiring s n &&& clusters) == clusters
  let bs := slotBanks s (nth 0 ns (x % max 1 ns.length))
  nth 0 bs (x / max 1 ns.length % max 1 bs.length)

/-- The bytes of a slot's reed-local buffer (R35, R36). -/
def reedBufBytes (s : State) : Nat := ((s.image.map (·.part.srReedbuf)).getD 0) * 1048576 / 16

/-- What pending votes hold of a slot's reed-local buffer: the coefficient block and the saved segments (R225, R229).
DEDUCED (log 76): 256 bytes and 128 bytes each. -/
def reedBufHeld (s : State) (n : Nat) : Nat :=
  sumBy (fun v : Vote => if v.slot = n then 256 + 128 * v.saved.length else 0) s.reeds.votes

/-- A leg's coefficient block and input staging fit the slot's reed-local buffer beside what votes hold (R225). -/
def reedBufFits (s : State) (l : Leg) (n : Nat) : Bool :=
  decide (reedBufHeld s n + 256 + 64 * l.ins.length ≤ reedBufBytes s)

/-- R89 allows a leg on a slot: the effective wiring names the leg's clusters and the bank of its buffers. -/
def slotAllows (s : State) (l : Leg) (n : Nat) : Bool :=
  (slotWiring s n &&& l.clusters) == l.clusters && (slotWire s n).banks.getLsbD l.bank && reedBufFits s l n

/-! ### Works and plans -/

/-- The identity of a unit of work: legs and submissions share one numbering. -/
def Work.id : Work → Nat
  | .leg l => l.id
  | .sub d => d.cid

/-- The plan a unit of work belongs to; 0 is none. -/
def Work.job : Work → Nat
  | .leg l => l.job
  | .sub d => d.job

/-- The place of a unit of work in its queue (R93, R100). -/
def Work.order : Work → Nat
  | .leg l => l.order
  | .sub d => d.order

/-- The class of a unit of work. -/
def Work.cls : Work → WorkClass
  | .leg l => l.cls
  | .sub d => d.cls

/-- The work is a rebuild of a stripe with zero remaining redundancy (R104). -/
def Work.zr : Work → Bool
  | .leg l => l.zr
  | .sub d => d.zr

/-- A leg with no resource and no content, to be completed by its planner. -/
def Leg.blank : Leg where
  id := 0
  job := 0
  order := 0
  tag := 0
  kind := .hbm
  op := .copy
  cls := .foreground
  zr := false
  slot := none
  pair := none
  voteFor := none
  avoid := none
  chan := none
  clusters := 0
  bank := 0
  pc := 0
  ins := []
  coeffs := []
  outs := []
  segment := 0
  diff := false
  dst := []
  cost := 0
  hostIn := 0
  hostOut := 0
  hbm := 0
  epong := 0
  ownTick := 0
  done := false
  late := false
  counted := false
  reruns := 0
  attempts := 0

/-- A unit of work with its identity, plan, place, class and floor mark. -/
def Work.mark (id job order : Nat) (cls : WorkClass) (zr : Bool) : Work → Work
  | .leg l => .leg { l with id := id, job := job, order := order, cls := cls, zr := zr }
  | .sub d => .sub { d with cid := id, job := job, order := order, cls := cls, zr := zr }

/-- Work numbered from `n` on. -/
def numberWorks (job order : Nat) (cls : WorkClass) (zr : Bool) : Nat → List Work → List Work
  | _, [] => []
  | n, w :: r => w.mark n job order cls zr :: numberWorks job order cls zr (n + 1) r

/-- Work put into a queue at its place: behind what has the same place or an earlier one (R93, R100). -/
def placeInQueue (order : Nat) (ws q : List Work) : List Work :=
  q.takeWhile (fun w => decide (w.order ≤ order)) ++ ws ++ q.dropWhile fun w => decide (w.order ≤ order)

/-- Two units of work in queue order. -/
def workBefore (a b : Work) : Bool := decide (a.order < b.order) || (a.order == b.order && decide (a.id ≤ b.id))

/-- A unit of work back at its own place in the queue. -/
def requeue (w : Work) (s : State) : State :=
  { s with drone := { s.drone with queued := insertBy workBefore w s.drone.queued } }

/-- Work joins the queue under a plan, at the plan's place; work of no plan comes last. -/
def queueWorks (job : Nat) (cls : WorkClass) (zr : Bool) (ws : List Work) (s : State) : State :=
  let order := ((tabFind s.jobs job).map (·.order)).getD s.drone.nextId
  { s with drone := { s.drone with
      queued := placeInQueue order (numberWorks job order cls zr s.drone.nextId ws) s.drone.queued
      nextId := s.drone.nextId + ws.length } }

/-- A new plan and its work; the number of the plan. Its place in the queue is that of the plan that it continues, else the
last (R93). -/
def newJob (p : Purpose) (cls : WorkClass) (zr : Bool) (red : Nat) (ws : List Work) (s : State) : Nat × State :=
  let id := s.drone.nextId
  let j : Job := {
    purpose := p, order := s.drone.heir.getD id, left := ws.length, cls := cls, zr := zr, red := red, reserve := 0
    want := [], got := [], pages := [], failed := [], lost := [], outs := [], stage := 0 }
  let s1 := { s with jobs := tabInsert s.jobs id j, drone := { s.drone with nextId := id + 1 } }
  (id, queueWorks id cls zr ws s1)

/-- What `f` plans takes a place in the queue over (R93, R100): that of a plan it continues, or one for all plans of a
command; `none` gives every plan a place of its own. -/
def withPlace (place : Option Nat) (f : State → State) (s : State) : State :=
  let t := f { s with drone := { s.drone with heir := place } }
  { t with drone := { t.drone with heir := s.drone.heir } }

/-- A plan queued, its number dropped. -/
def plan (p : Purpose) (cls : WorkClass) (zr : Bool) (red : Nat) (ws : List Work) (s : State) : State :=
  (newJob p cls zr red ws s).2

/-- A drive command on a slot, to be completed by `Work.mark` (R407). -/
def driveSub (tag slot : Nat) (op : NvmOp) (lba nlb : Nat) (fua : Bool) (data : List Byte) (buf : Nat) : Work :=
  .sub {
    cid := 0, job := 0, order := 0, tag := tag, slot := slot, op := op, lba := lba, nlb := nlb, fua := fua, data := data
    charge := if op = .read ∨ op = .write then max 4096 (4112 * nlb) else 4096
    buf := buf, pi := 0, urg := false, cls := .foreground, zr := false, queue := 0, posted := 0, deadline := 0 }

/-! ### Classes and order (R100, R101, R335) -/

/-- The background streams in their order (R101). -/
def allStreams : List Stream := [.rebuild, .vault, .migration, .compaction, .scrub]

/-- A stream's bit (R110). -/
def Stream.bit : Stream → Nat
  | .rebuild => 0
  | .vault => 1
  | .migration => 2
  | .compaction => 3
  | .scrub => 4

/-- The stream with a bit number. -/
def streamOf (n : Nat) : Option Stream := allStreams.find? fun x => x.bit == n

/-- The stream's patience state. -/
def patienceOf (s : State) (st : Stream) : Patience := nth Patience.reset s.drone.patience st.bit

/-- The stream of background work. -/
def Work.stream? (w : Work) : Option Stream :=
  match w.cls with
  | .background st => some st
  | _ => none

/-- The work is of the urgent class (R103, R104). -/
def isUrgent (s : State) (w : Work) : Bool := w.zr || w.stream?.any fun st => (patienceOf s st).urgent

/-- The work is held by DRN_BG_HOLD (R104, R111). -/
def isHeld (s : State) (w : Work) : Bool := !w.zr && w.stream?.any fun st => s.drone.holdUsed.contains st

/-- The units of work of a stream. -/
def admittedOf (ws : List Work) (st : Stream) : Nat := (ws.filter fun w => w.stream? == some st).length

/-- An urgent stream with no pending work returns to background (R103). -/
def endUrgency (s : State) (st : Stream) : State :=
  if (patienceOf s st).urgent && admittedOf s.drone.queued st == 0 then
    raise 0xD04 { s with drone := { s.drone with patience := modAt s.drone.patience st.bit fun _ => Patience.reset } }
  else s

/-- Work leaves the queue and the caravan without being admitted; a stream whose queue that empties is urgent no longer
(R103). -/
def dropWork (bad : Work → Bool) (s : State) : State :=
  allStreams.foldl endUrgency { s with drone := { s.drone with
      queued := s.drone.queued.filter fun w => !bad w
      next := s.drone.next.filter fun w => !bad w } }

/-- The work belongs to a destage (R335). -/
def isDestage (s : State) (w : Work) : Bool :=
  match tabFind s.jobs w.job with
  | none => false
  | some j =>
    match j.purpose with
    | .destageRead _ _ => true
    | .destageEnc _ _ => true
    | .destageWrite _ _ => true
    | .wtLog _ _ => true
    | _ => false

/-- The remaining redundancy of the stripe that a unit of work serves (R101). -/
def workRed (s : State) (w : Work) : Nat := ((tabFind s.jobs w.job).map (·.red)).getD 0

/-- Two lists taken in turn, starting with the first (R335). -/
def interleave {α : Type} : List α → List α → List α
  | [], d => d
  | h, [] => h
  | h :: hs, d :: ds => h :: d :: interleave hs ds

/-- Foreground work in the order of R335: mode 0 host work first, 1 in turn, 2 destage first. -/
def foregroundOrder (s : State) (mode : Nat) (ws : List Work) : List Work :=
  let d := ws.filter (isDestage s)
  let h := ws.filter fun w => !isDestage s w
  if mode = 0 then h ++ d else if mode = 1 then interleave h d else d ++ h

/-- Urgent work in the order of R101: zero-redundancy rebuild, other rebuild by ascending remaining redundancy, the
other urgent streams in the order of their promotion. -/
def urgentOrder (s : State) (ws : List Work) : List Work :=
  let u := ws.filter (isUrgent s)
  let zr := u.filter (·.zr)
  let rb := sortBy (fun a b => decide (workRed s a ≤ workRed s b)) (u.filter fun w => !w.zr && w.stream? == some .rebuild)
  let others := sortBy (fun a b => decide ((patienceOf s a).order ≤ (patienceOf s b).order)) (allStreams.drop 1)
  zr ++ rb ++ others.flatMap fun st => u.filter fun w => !w.zr && w.stream? == some st

/-- Background work that is not urgent, in stream order (R101). -/
def backgroundOrder (s : State) (ws : List Work) : List Work :=
  allStreams.flatMap fun st => ws.filter fun w => !isUrgent s w && w.stream? == some st

/-! ### Placement in a caravan (R87 to R98, R100) -/

/-- What is left of each resource while a caravan is compiled. -/
structure Left where
  slots   : List Nat
  hostIn  : Nat
  hostOut : Nat
  hbm     : Nat
  epong   : Nat
  way     : Nat
  buckets : List Bucket
  chans   : Tab Nat
  spares  : Tab Nat
deriving DecidableEq, Repr

/-- The resources of a tick (R88): slots out of service have none. -/
def Left.full (s : State) : Left where
  slots := (List.range 16).map fun n => if (slotPair s n).isSome then slotBudget s else 0
  hostIn := hostBudget s
  hostOut := hostBudget s
  hbm := hbmBudget s
  epong := epongBudget s
  way := wayBytes s - s.drone.wayUsed
  buckets := s.drone.buckets
  chans := []
  spares := []

/-- The cycles left over all slots (R100). -/
def Left.reeds (f : Left) : Nat := sumBy id f.slots

/-- The slot that an ordinary reed leg takes: in service, allowed by R89, with the cycles left. After an undecided vote it is
one other than the leg's own where R89 allows any (R233). Of several slots the one with most cycles left is taken, the lowest
on a tie: DESIGN CHOICE (log 76). -/
def chooseSlot (s : State) (f : Left) (l : Leg) : Option Nat :=
  let ok := (slotsInService s).filter (slotAllows s l)
  let others := ok.filter fun n => l.avoid != some n
  leastBy (fun a b => nth 0 f.slots b < nth 0 f.slots a)
    ((if others.isEmpty then ok else others).filter fun n => l.cost ≤ nth 0 f.slots n)

/-- A reed leg placed on its slot or pair, `hold` cycles being kept over all slots (R87, R89, R100, R230, R493). -/
def placeReed (s : State) (hold : Nat) (f : Left) (l : Leg) : Option (Left × Leg) :=
  if f.hbm < l.hbm then none
  else
    match l.pair with
    | some p =>
      match l.slot with
      | none =>
        let used := tabGet 0 f.spares p + l.cost
        if used ≤ slotBudget s then some ({ f with hbm := f.hbm - l.hbm, spares := tabInsert f.spares p used }, l) else none
      | some n =>
        if l.cost ≤ nth 0 f.slots n then
          some ({ f with hbm := f.hbm - l.hbm, slots := modAt f.slots n (· - l.cost) }, l)
        else none
    | none =>
      match chooseSlot s f l with
      | none => none
      | some n =>
        if f.reeds < hold + l.cost then none
        else some ({ f with hbm := f.hbm - l.hbm, slots := modAt f.slots n (· - l.cost) },
          { l with slot := some n, pair := slotPair s n })

/-- A leg placed: its cost fits what is left of every resource it uses (R87, R191). -/
def placeLeg (s : State) (hold : Nat) (f : Left) (l : Leg) : Option (Left × Leg) :=
  match l.kind with
  | .reed => placeReed s hold f l
  | .dma =>
    let ch := l.chan.getD 0
    let used := tabGet 0 f.chans ch
    if l.hostIn ≤ f.hostIn ∧ l.hostOut ≤ f.hostOut ∧ l.hbm ≤ f.hbm ∧
        (l.chan.isNone ∨ used + l.cost ≤ 32 * slotBudget s) then
      some ({ f with
        hostIn := f.hostIn - l.hostIn, hostOut := f.hostOut - l.hostOut, hbm := f.hbm - l.hbm
        chans := if l.chan.isNone then f.chans else tabInsert f.chans ch (used + l.cost) }, l)
    else none
  | .hbm =>
    if l.hbm ≤ f.hbm ∧ l.epong ≤ f.epong then some ({ f with hbm := f.hbm - l.hbm, epong := f.epong - l.epong }, l)
    else none

/-- The main bucket takes a charge (R96). -/
def mainTakes (b : Bucket) (charge : Nat) : Bool :=
  decide ((min charge mainCap : Int) ≤ b.main) && decide (b.inflight < inflightCap)

/-- The urgent bucket takes a charge (R97). -/
def urgentTakes (zr : Bool) (b : Bucket) (charge : Nat) : Bool :=
  decide ((min charge (urgentCap zr) : Int) ≤ b.urgent) && decide (b.inflight < inflightCap)

/-- A drive submission placed: its cluster's credit and its waystation buffer (R96, R97, R98); `urgent` work may use the
urgent bucket. -/
def placeSub (s : State) (urgent : Bool) (f : Left) (d : Sub) : Option (Left × Sub) :=
  match slotCluster s d.slot with
  | none => none
  | some c =>
    let b := nth Bucket.reset f.buckets c
    if f.way < d.buf then none
    else if urgent && urgentTakes s.drone.zrFloor b d.charge then
      some ({ f with way := f.way - d.buf, buckets := modAt f.buckets c fun b =>
        { b with urgent := b.urgent - d.charge, inflight := b.inflight + d.charge } }, { d with urg := true })
    else if mainTakes b d.charge then
      some ({ f with way := f.way - d.buf, buckets := modAt f.buckets c fun b =>
        { b with main := b.main - d.charge, inflight := b.inflight + d.charge } }, { d with urg := false })
    else none

/-- Two drive commands may not be outstanding together (R406): one drive, overlapping LBAs, and one of them writes. -/
def subClash (a b : Sub) : Bool :=
  let moves := fun (d : Sub) => d.nlb != 0
  a.slot == b.slot && moves a && moves b && decide (a.lba < b.lba + b.nlb) && decide (b.lba < a.lba + a.nlb) &&
    (a.op != .read || b.op != .read)

/-- A submission would overlap an outstanding command, or one placed in this caravan (R406). -/
def overlaps (s : State) (placed : List Work) (d : Sub) : Bool :=
  s.drone.inflight.any (subClash d) || placed.any fun w => match w with
    | .leg _ => false
    | .sub x => subClash d x

/-- A command changes what the drive stores. -/
def NvmOp.writes : NvmOp → Bool
  | .write | .writeZeroes | .deallocate => true
  | _ => false

/-- A work item is the write of a slot's label (LBA 0). -/
def labelOf (slot : Nat) : Work → Bool
  | .leg _ => false
  | .sub x => x.slot == slot && x.op == .write && x.lba == 0

/-- An unlabelled drive's label is still to be written, ahead of any other write to it (R399). -/
def labelDue (s : State) (placed : List Work) (slot : Nat) : Bool :=
  (slotDrive s slot).any (·.2.info.label_.isNone) &&
    (s.drone.queued.any (labelOf slot) || placed.any (labelOf slot) || s.drone.next.any (labelOf slot) ||
      s.drone.inflight.any fun x => labelOf slot (.sub x))

/-- A submission waits: a write to a drive whose reservation the unit does not hold, or one whose label comes first
(R399, R416). -/
def subWaits (s : State) (placed : List Work) (d : Sub) : Bool :=
  d.op.writes &&
    ((pairEn s && (slotDrive s d.slot).any (·.2.resv != 1)) || (d.lba != 0 && labelDue s placed d.slot))

/-- What a compilation has placed so far (newest first) and the commands and plans, by their places in the queue, of which a
part did not fit: their later parts keep their order behind it (R100). -/
structure Acc where
  left    : Left
  placed  : List Work
  skipped : List Nat
deriving DecidableEq, Repr

/-- A unit of work that fits is placed. -/
def placeWork (s : State) (hold : Nat) (urgent : Bool) (a : Acc) (w : Work) : Option (Left × Work) :=
  match w with
  | .leg l => (placeLeg s hold a.left l).map fun x => (x.1, .leg x.2)
  | .sub d => if overlaps s a.placed d || subWaits s a.placed d then none else (placeSub s urgent a.left d).map fun x => (x.1, .sub x.2)

/-- One unit of work tried (R100): nothing is placed behind a skipped part of its command, nor once a late compilation has
placed what it placed by the seal (R92). -/
def tryWork (s : State) (hold : Nat) (urgent : Bool) (a : Acc) (w : Work) : Acc :=
  if a.skipped.contains w.order || (s.drone.cut.bind (·.late)).any (fun k => decide (k ≤ a.placed.length)) then a
  else
    match placeWork s hold urgent a w with
    | none => { a with skipped := addOnce a.skipped w.order }
    | some (f, x) => { a with left := f, placed := x :: a.placed }

/-- Work that comes ahead of every class on its resource: vote re-runs (R230), known-vector tests (R493) and legs that
run again after a hang (R108). -/
def isFirst : Work → Bool
  | .leg l => l.voteFor.isSome || l.op == .test || (l.reruns != 0 && l.kind != .reed)
  | .sub _ => false

/-- A first-placed leg waits (R108): the third run of an HBM batch, until a new HLT_PC_RETIRE is sampled. -/
def isParked : Work → Bool
  | .leg l => l.kind == .hbm && l.reruns == 2
  | .sub _ => false

/-- The work came behind the seal of the caravan being compiled (R91); `last` bounds what came before the tick ended, for
what the legs that end with the tick have brought is known before the seal (R93). -/
def behindSeal (s : State) (last : Nat) (w : Work) : Bool :=
  s.drone.cut.any fun c => decide (c.nextId ≤ w.id) && decide (w.id < last)

/-- The reed cycles that the floor keeps from foreground work (R100). -/
def floorHold (s : State) (ws : List Work) (full : Left) : Nat :=
  let need := sumBy (fun w => match w with
    | .leg l => if l.kind = .reed then l.cost else 0
    | .sub _ => 0) (ws.filter (isUrgent s))
  let total := full.reeds
  min (if s.drone.zrFloor then total / 2 else if s.drone.floor8 then total / 8 else 0) need

/-- The works of a class. -/
def ofClass (c : WorkClass) (ws : List Work) : List Work := ws.filter fun w => w.cls == c && !isFirst w

/-- The compilation of R100 over the queue: what it leaves of the resources and what it places, in order. -/
def compileAcc (s : State) (mode last : Nat) : Acc :=
  let ws := s.drone.queued.filter fun w => !isHeld s w && !isParked w && !behindSeal s last w
  let full := Left.full s
  let hold := floorHold s ws full
  let a0 : Acc := { left := full, placed := [], skipped := [] }
  let a1 := (ws.filter isFirst).foldl (tryWork s 0 false) a0
  let a2 := (ofClass .journal ws).foldl (tryWork s 0 false) { a1 with skipped := [] }
  let a3 := (foregroundOrder s mode (ofClass .foreground ws)).foldl (tryWork s hold false) { a2 with skipped := [] }
  let rest := ws.filter fun w => !isFirst w
  let a4 := (urgentOrder s rest).foldl (tryWork s 0 true) { a3 with skipped := [] }
  (backgroundOrder s rest).foldl (tryWork s 0 false) { a4 with skipped := [] }

/-- A placed submission's buffer is reserved under its plan (R98). -/
def reserveBuf (js : Tab Job) (w : Work) : Tab Job :=
  match w with
  | .leg _ => js
  | .sub d =>
    match tabFind js d.job with
    | none => js
    | some j => tabInsert js d.job { j with reserve := j.reserve + d.buf }

/-- The floors that apply to a compilation (R100, R104), and the events at their changes (R112); `zr` says that a stripe
with zero remaining redundancy is queued for rebuild. -/
def setFloors (zr : Bool) (s : State) : State :=
  let f8 := !zr && s.drone.patience.any (·.urgent)
  let s1 := { s with drone := { s.drone with zrFloor := zr, floor8 := f8 } }
  raiseIf (!zr && s.drone.zrFloor) 0xD06 (raiseIf (zr && !s.drone.zrFloor) 0xD05 s1)

/-- The caravan compiled (R100): foreground work in the order that `mode` names (R335). -/
def placeCaravan (mode last : Nat) (s : State) : State :=
  let a := compileAcc s mode last
  let placed := a.placed.reverse
  let ids := placed.map Work.id
  { s with
    jobs := placed.foldl reserveBuf s.jobs
    drone := { s.drone with
      urgentUsed := allStreams.filter fun st => (patienceOf s st).urgent || (st == .rebuild && s.drone.zrFloor)
      next := placed
      buckets := a.left.buckets
      wayUsed := wayBytes s - a.left.way
      queued := s.drone.queued.filter fun w => !ids.contains w.id } }

/-! ### Closing a caravan (R92, R101 to R103) -/

/-- A stream's patience after a caravan (R102, R103): `adm` admitted, `left` pending, `held` by DRN_BG_HOLD. DESIGN CHOICE
(log 75): the count of a denied urgent stream stands at the limit. -/
def patienceStep (limit : Nat) (held : Bool) (adm left order : Nat) (p : Patience) : Patience :=
  let wait := if held ∨ adm ≠ 0 ∨ left = 0 then 0 else min limit (p.wait + 1)
  if p.urgent then
    if p.remain ≤ adm ∨ left = 0 then { wait := 0, urgent := false, remain := 0, order := 0 }
    else { p with wait := wait, remain := p.remain - adm }
  else if wait ≠ 0 ∧ limit ≤ wait then { wait := limit, urgent := true, remain := left, order := order }
  else { p with wait := wait }

/-- One stream's patience counter updated, with its event (R102, R103, R112). -/
def streamStep (s : State) (st : Stream) : State :=
  let p := patienceOf s st
  let adm := admittedOf s.drone.next st
  let left := admittedOf s.drone.queued st
  let q := patienceStep (patienceTicks s) (s.drone.holdUsed.contains st) adm left (s.drone.promotions + 1) p
  let s1 := { s with drone := { s.drone with
    patience := modAt s.drone.patience st.bit fun _ => q
    promotions := if q.urgent && !p.urgent then s.drone.promotions + 1 else s.drone.promotions } }
  raiseIf (p.urgent && !q.urgent) 0xD04 (raiseIf (q.urgent && !p.urgent) 0xD03 s1)

/-- The class a placed unit of work is counted in: 0 foreground, 1 journal, 2 urgent, 3 background (R110 DRN_ADMIT). -/
def admitClass (s : State) (w : Work) : Nat :=
  match w.cls with
  | .foreground => 0
  | .journal => 1
  | .background _ => if isUrgent s w then 2 else 3

/-- DRN_ADMIT after a caravan (R110). -/
def countAdmits (s : State) : State :=
  { s with drone := { s.drone with
      grants := s.drone.next.foldl (fun g w => modAt g (admitClass s w) (· + 1)) s.drone.grants } }

/-- The caravan closed: admissions counted and patience counters updated, once for each caravan (R91, R102). -/
def closeCaravan (s : State) : State := allStreams.foldl streamStep (countAdmits s)

/-- CARAVAN_COMPILE (R91 to R93, R100, R102): the next caravan compiled from the queue as the seal found it, and closed; no
leg goes to the slot of a pair condemned before the seal (R237). -/
def compileNext (mode last : Nat) (zr : Bool) (s : State) : State :=
  let was := s.reeds.condemned
  let t := closeCaravan (placeCaravan mode last (setFloors zr
    { s with reeds := { s.reeds with condemned := (s.drone.cut.map (·.condemned)).getD was } }))
  { t with reeds := { t.reeds with condemned := was }, drone := { t.drone with cut := none } }

/-- A placed submission's charge returned when it is taken back (R96). -/
def refund (s : State) (w : Work) : State :=
  match w with
  | .leg _ => s
  | .sub d =>
    match slotCluster s d.slot with
    | none => s
    | some c =>
      { s with
        jobs := match tabFind s.jobs d.job with
          | none => s.jobs
          | some j => tabInsert s.jobs d.job { j with reserve := j.reserve - d.buf }
        drone := { s.drone with
          wayUsed := s.drone.wayUsed - d.buf
          buckets := modAt s.drone.buckets c fun b =>
            { main := if d.urg then b.main else b.main + d.charge
              urgent := if d.urg then b.urgent + d.charge else b.urgent
              inflight := b.inflight - d.charge } } }

/-- A placed submission back in its queue, its charge and its buffer returned. -/
def takeBack (ws : List Work) (s : State) : State :=
  let s1 := ws.foldl refund s
  let ids := ws.map Work.id
  ws.foldl (fun t w => requeue w t)
    { s1 with drone := { s1.drone with next := s1.drone.next.filter fun w => !ids.contains w.id } }

/-- The seal set: what comes now is left to the next compilation (R91); a late compilation has placed `late` units (R92). -/
def sealAt (late : Option Nat) (s : State) : State :=
  { s with drone := { s.drone with cut := some { nextId := s.drone.nextId, condemned := s.reeds.condemned, late := late } } }

/-- CARAVAN_SEAL (R91, R92): the seal cycle is reached; `late` gives how much was placed when compilation had not finished.
DESIGN CHOICE (log 9): what the caravan holds is worked out at the edge that ends the tick, from the queue as the seal found
it and what the legs of the tick bring. -/
def execCaravanSeal (late : Option Nat) (s : State) : Host.Outcome State Fault Refusal :=
  if !serving s || s.drone.cut.isSome then .next s
  else if late.isNone then .next (sealAt late s)
  else .next (raise 0xD02 (sealAt late { s with drone := { s.drone with lateCnt := s.drone.lateCnt + 1 } }))

/-! ### Holds and urgency (R103, R111) -/

/-- The streams that a DRN_BG_HOLD value holds; vault cannot be held (R110). -/
def holdOf (w : Word) : List Stream := [Stream.rebuild, .migration, .compaction, .scrub].filter fun st => bit w st.bit

/-- A hold ends the stream's urgency and clears its recorded backlog (R111). -/
def holdStream (s : State) (st : Stream) : State :=
  raiseIf (patienceOf s st).urgent 0xD04
    { s with drone := { s.drone with patience := modAt s.drone.patience st.bit fun _ => Patience.reset } }

/-- DRN_BG_HOLD takes effect at the first compilation that begins after its write (R111). -/
def adoptHold (s : State) : State :=
  (s.drone.hold.filter fun st => !s.drone.holdUsed.contains st).foldl holdStream
    { s with drone := { s.drone with holdUsed := s.drone.hold } }

/-- A write of DRN_BG_HOLD (R111). -/
def writeBgHold (w : Word) (s : State) : State := { s with drone := { s.drone with hold := holdOf w } }

/-- DRN_BG_HOLD as it reads (R110). -/
def bgHold (s : State) : Word := s.drone.hold.foldl (fun a st => a ||| putB true st.bit) 0

/-- A stream made urgent with its backlog recorded (R103). -/
def setUrgent (st : Stream) (s : State) : State :=
  raise 0xD03 { s with drone := { s.drone with
    promotions := s.drone.promotions + 1
    patience := modAt s.drone.patience st.bit fun _ =>
      { wait := patienceTicks s, urgent := true, remain := admittedOf s.drone.queued st, order := s.drone.promotions + 1 } } }

/-- DRN_URGENT_SET (R103): a stream with pending work whose count has reached DRN_PATIENCE becomes urgent. -/
def execDrnUrgentSet (stream : Nat) (s : State) : Host.Outcome State Fault Refusal :=
  match streamOf stream with
  | none => .next s
  | some st =>
    let p := patienceOf s st
    if serving s && !p.urgent && !s.drone.holdUsed.contains st && admittedOf s.drone.queued st != 0 &&
        decide (patienceTicks s ≤ p.wait) then
      .next (setUrgent st s)
    else .next s

/-! ### Edges: credit and overruns (R96, R97, R106) -/

/-- A bucket after an edge (R96, R97): growth `g`, the zero-redundancy floor, whether urgent work is pending. DESIGN CHOICE
(log 75): the urgent share of the growth is rounded down. -/
def growBucket (g : Nat) (zr pend : Bool) (b : Bucket) : Bucket :=
  let u := if zr then g / 2 else g / 8
  let urgent := min (b.urgent + u) (urgentCap zr : Int)
  let main := b.main + (g - u : Nat)
  if pend then { b with main := min main (mainCap : Int), urgent := urgent }
  else { b with main := min (main + max urgent 0) (mainCap : Int), urgent := min urgent 0 }

/-- CREDIT_BUCKET_GROW (R96, R97). -/
def growCredit (s : State) : State :=
  let pend := s.drone.queued.any (isUrgent s)
  { s with drone := { s.drone with
      buckets := s.drone.buckets.map (growBucket (creditGrowth s) s.drone.zrFloor pend) } }

/-- The resource code of a leg in DRN_LAST_OVERRUN (R110). -/
def Leg.resource (l : Leg) : Nat :=
  match l.kind with
  | .reed =>
    match l.slot with
    | some n => n
    | none => 0x20 + l.pair.getD 0
  | .dma => if l.hostIn ≠ 0 then 0x10 else if l.hostOut ≠ 0 then 0x11 else 0x12
  | .hbm => if l.epong ≠ 0 then 0x13 else 0x12

/-- A leg kind's code in DRN_LAST_OVERRUN (R110). -/
def LegKind.code : LegKind → Nat
  | .reed => 0
  | .dma => 1
  | .hbm => 2

/-- The running leg with an identity. -/
def findLeg (s : State) (id : Nat) : Option Leg := s.drone.running.find? fun l => l.id == id

/-- A leg leaves the running caravan. -/
def stopLeg (id : Nat) (s : State) : State :=
  { s with drone := { s.drone with running := s.drone.running.filter fun l => l.id != id } }

/-- A running leg changed. -/
def modLeg (id : Nat) (f : Leg → Leg) (s : State) : State :=
  { s with drone := { s.drone with running := s.drone.running.map fun l => if l.id = id then f l else l } }

/-- A leg has overrun the edge that ended its tick (R106, R107): counted once, recorded, raised. -/
def countOverrun (s : State) (l : Leg) : State :=
  if l.counted then s
  else
    raise 0xD00 (modLeg l.id (fun x => { x with counted := true }) { s with drone := { s.drone with
      overrunCnt := s.drone.overrunCnt + 1
      lastTick := l.ownTick
      lastRes := l.resource
      lastKind := l.kind.code } })

/-- A running leg does not finish by the edge that ends this tick. -/
def delayLeg (id : Nat) (s : State) : State := modLeg id (fun x => { x with late := true }) s

/-- DRN_OVERRUN (R106): a running leg does not finish by the edge that ends its tick, at which it is counted. -/
def execDrnOverrun (leg : Nat) (s : State) : Host.Outcome State Fault Refusal :=
  match findLeg s leg with
  | none => .next s
  | some l => if l.done || l.ownTick != s.drone.count then .next s else .next (delayLeg leg s)

/-- Two legs share a serial resource (R90): a reed pair, a DMA channel, an HBM pseudo-channel. -/
def sameResource (a b : Leg) : Bool :=
  a.kind == b.kind &&
    match a.kind with
    | .reed => a.pair == b.pair
    | .dma => a.chan.isSome && a.chan == b.chan
    | .hbm => a.pc == b.pc

/-- The legs of a caravan that have finished by its edge: all but those known to be late and those that run behind an
unfinished one on its resource (R90, R106, R107). -/
def finishedLegs : List Leg → List Leg → List Leg
  | _, [] => []
  | open_, l :: r =>
    if l.late || (!l.done && open_.any (sameResource l)) then finishedLegs (l :: open_) r
    else l :: finishedLegs open_ r

end Sys2Proof.Machine
end

