-- ==== Sys2Proof/Machine/Rings.lean ====
section
/-! DEFINITION. Ring intake and the completion stage (04): enables, doorbells, scans, fetches, caravanserai moves and
completions. -/

namespace Sys2Proof.Machine

open Sys2Proof

/-! ### Fetching (R124 to R133) -/

/-- Ring intake may fetch from an enabled ring that no error stops (R121, R128, R134). -/
def canFetch (s : State) (r : Nat) : Bool :=
  let q := getRing s r
  intakeOn s r && q.en && !q.sqErr && !q.cqErr

/-- One entry fetch issued with a CQ place or with a caravanserai reservation (R129). -/
def issueFetch (f r : Nat) (reserve : Bool) (s : State) : State :=
  let q := getRing s r
  emit (.entryFetch f (q.sqBase + BitVec.ofNat 64 (64 * idxPos q.fetched)))
    (setRing r { q with
      stall := false
      owed := q.owed + 1
      held := q.held + if reserve then 1 else 0
      fetched := idxNext q.depth q.fetched
      fetchRes := q.fetchRes ++ [reserve] } s)

/-- The fetch is held for lack of a completion place (R133). -/
def stallRing (r : Nat) (s : State) : State :=
  let q := getRing s r
  if q.stall then s else ringEvent r (setRing r { q with stall := true } s)

/-- At most `n` entries fetched from a ring, up to its sampled RNG_SQ_PI (R126, R129, R133). -/
def fetchRing : Nat → Nat → State → State
  | 0, _, s => s
  | n + 1, r, s =>
    let q := getRing s r
    if q.fetched == q.sampled || !canFetch s r then s
    else
      match ringOwner s r with
      | none => s
      | some f =>
        if q.room then fetchRing n r (issueFetch f r false s)
        else if cseraiFree s f then fetchRing n r (issueFetch f r true s)
        else stallRing r s

/-- RNG_SQ_PI sampled on arrival at a ring (R124); an index that names more than D entries is a host error (R178), and
the scan then fetches nothing from the ring. -/
def sampleRing (r : Nat) (s : State) : State :=
  let q := getRing s r
  setRing r { q with sampled := if idxValid q.depth q.sqPi q.fetched then q.sqPi else q.fetched } s

/-- One ring visited in a pass of a scan (R124, R126). -/
def scanRing (first : Bool) (s : State) (r : Nat) : State :=
  if (getRing s r).en then fetchRing 32 r (if first then sampleRing r s else s) else s

/-- The ring has entries left that the scan can take (R126). -/
def scanLeft (s : State) (r : Nat) : Bool :=
  let q := getRing s r
  canFetch s r && q.fetched != q.sampled && !q.stall

/-- The global ring numbers of a group, ascending (R141). -/
def groupRings (g : Nat) : List Nat := (List.range 64).map fun i => 64 * g + i

/-- The scan state after a pass over a group: continued, or ended with the group's rescan mark cleared (R125, R126). -/
def scanEnd (g : Nat) (s : State) : State :=
  if (groupRings g).any (scanLeft s) then { s with host := { s.host with scan := some { group := g, sampled := true } } }
  else { s with host := { s.host with scan := none, rescan := s.host.rescan.erase g } }

/-- One pass over the 64 rings of a group (R124, R126). -/
def scanPass (g : Nat) (first : Bool) (s : State) : State :=
  scanEnd g ((groupRings g).foldl (scanRing first) s)

/-- GROUP_SCAN (R124, R125, R126): the next pass of the scan in progress, or of the group whose doorbell came first. -/
def execGroupScan (s : State) : Host.Outcome State Fault Refusal :=
  match s.host.scan with
  | some sc => if intakeOn s (64 * sc.group) then .next (scanPass sc.group (!sc.sampled) s) else .next s
  | none =>
    match s.host.doorbells.find? fun g => intakeOn s (64 * g) with
    | none => .next s
    | some g => .next (scanPass g true { s with host := { s.host with doorbells := s.host.doorbells.erase g } })

/-- A doorbell of a group: a scan waits, or the group is marked for a rescan that takes its place in doorbell order
(R124, R125, R126). -/
def ringDoorbell (g : Nat) (s : State) : State :=
  let h := s.host
  if h.doorbells.contains g || h.scan.any (fun sc => sc.group == g) then
    if h.rescan.contains g then s
    else { s with host := { h with rescan := h.rescan ++ [g], doorbells := h.doorbells ++ [g] } }
  else { s with host := { h with doorbells := h.doorbells ++ [g] } }

/-- DOORBELL (R124, R147): a write that reaches DBL_GRP of a group that the function owns. -/
def execDoorbell (f group : Nat) (s : State) : Host.Outcome State Fault Refusal :=
  if barOpen s f && groupOwner s group == some f then .next (ringDoorbell group s) else .next s

/-- The fetches in flight of a ring are dropped: they hold no place any more and RNG_SQ_CI stays (R121, R128). -/
def dropFetches (r : Nat) (s : State) : State :=
  let q := getRing s r
  setRing r { q with
    owed := q.owed - q.fetchRes.length
    held := q.held - q.fetchRes.countP id
    fetchRes := []
    fetched := q.sqCi
    sampled := q.sqCi } s

/-- SQ_FETCH_ERROR (R128): the oldest fetch in flight fails, and fetching from the ring stops. -/
def execSqFetchError (ring : Nat) (s : State) : Host.Outcome State Fault Refusal :=
  if (getRing s ring).fetchRes.isEmpty then .next s
  else .next (ringEvent ring (modRing ring (fun q => { q with sqErr := true }) (dropFetches ring s)))

/-- STALL_RELEASE (R133): the held fetch has become possible, so STALL clears and fetching resumes up to the sampled
RNG_SQ_PI. -/
def execStallRelease (ring : Nat) (s : State) : Host.Outcome State Fault Refusal :=
  let q := getRing s ring
  if q.stall && canFetch s ring && (q.room || (ringOwner s ring).any (cseraiFree s)) then
    .next (fetchRing 65536 ring (setRing ring { q with stall := false } s))
  else .next s

/-! ### Posting (R131, R132, R136) -/

/-- A completion entry written at RNG_CQ_PI (R119, R136); the command is owed no longer. -/
def postEntry (f r : Nat) (via : Bool) (c : Completion) (s : State) : State :=
  let q := getRing s r
  emit (.hostWrite f (q.cqBase + BitVec.ofNat 64 (16 * idxPos q.cqPi)) (completionBytes q.sqCi via (fenced s c)) false)
    (setRing r { q with cqPi := idxNext q.depth q.cqPi, owed := q.owed - 1 } s)

/-- The mirror word and the event source after the entries of a tick (R136). -/
def postMirror (f r : Nat) (s : State) : State :=
  let q := getRing s r
  ringEvent r (emit (.hostWrite f q.mirror (leBytes 8 (mirrorWord q)) false) s)

/-- The ring's oldest caravanserai completion written with VIA_CSERAI set; `release` frees its entry. -/
def postOldest (f r : Nat) (release : Bool) (s : State) : State :=
  match (getRing s r).cserai with
  | [] => s
  | c :: rest =>
    modRing r (fun q => { q with cserai := rest, held := if release then q.held - 1 else q.held })
      (postEntry f r true c s)

/-- A finished command's completion takes its place (R131). -/
def placeCompletion (f r : Nat) (reserved : Bool) (c : Completion) (s : State) : State :=
  let q := getRing s r
  if !q.cserai.isEmpty then
    if reserved then setRing r { q with cserai := q.cserai ++ [c] } s
    else modRing r (fun x => { x with cserai := x.cserai ++ [c] }) (postOldest f r false s)
  else if !reserved then postEntry f r false c s
  else if q.room then modRing r (fun x => { x with held := x.held - 1 }) (postEntry f r false c s)
  else setRing r { q with cserai := [c] } s

/-- The status and result of a finished command. -/
def Phase.result? : Phase → Option (Nat × Word)
  | .finished st res => some (st, res)
  | _ => none

/-- The command with a sequence number. -/
def findCmd (s : State) (seq : Nat) : Option Cmd := s.host.cmds.find? fun c => c.seq == seq

/-- A command removed with its place in finish order. -/
def dropCmd (seq : Nat) (s : State) : State :=
  { s with host := { s.host with cmds := s.host.cmds.filter fun c => c.seq != seq, finish := s.host.finish.erase seq } }

/-- The completion a finished command is owed (R119). -/
def Cmd.completion (c : Cmd) (st : Nat) (res : Word) : Completion :=
  { cmdId := c.entry.cmdId, status := st, viaCserai := false, result := res }

/-- The place a command held, given up without a completion (R121, R135). -/
def giveUpPlace (r : Nat) (reserved : Bool) (s : State) : State :=
  modRing r (fun q => { q with owed := q.owed - 1, held := if reserved then q.held - 1 else q.held }) s

/-- One finished command of a ring taken to its place, or its completion discarded (R121, R131, R134, R135). -/
def finishOne (f r : Nat) (s : State) (seq : Nat) : State :=
  match findCmd s seq with
  | none => s
  | some c =>
    match c.phase.result? with
    | none => s
    | some (st, res) =>
      if c.ring != r then s
      else if c.discard then dropCmd seq s
      else if (getRing s r).cqErr then
        if (getRing s r).en then s else giveUpPlace r c.reserved (dropCmd seq s)
      else placeCompletion f r c.reserved (c.completion st res) (dropCmd seq s)

/-- BUSY of a disabled ring clears with the last owed completion (R121). -/
def settleRing (r : Nat) (s : State) : State :=
  modRing r (fun q => { q with busy := !q.en && decide (q.owed ≠ 0) }) s

/-- The finished commands of a ring posted in the order in which they finished, then RNG_CQ_PI, the mirror word and the
event source (R131, R136). -/
def postRing (f r : Nat) (s : State) : State :=
  let t := s.host.finish.foldl (finishOne f r) s
  settleRing r (if (getRing t r).cqPi = (getRing s r).cqPi then t else postMirror f r t)

/-- COMMAND_COMPLETE (R131, R136, R139): the finished commands of a ring take their places. -/
def execCommandComplete (ring : Nat) (s : State) : Host.Outcome State Fault Refusal :=
  match ringOwner s ring with
  | none => .next s
  | some f => if mayPost s f then .next (postRing f ring s) else .next s

/-- Caravanserai completions moved to the CQ while each leaves a place free (R132). -/
def moveCserai (f r : Nat) : Nat → State → State
  | 0, s => s
  | n + 1, s =>
    let q := getRing s r
    if q.cserai.isEmpty || !q.room then s else moveCserai f r n (postOldest f r true s)

/-- The ring's caravanserai completions move to the CQ in order, in the tick after the edge at which the write of
RNG_CQ_CI was seen (R132). -/
def moveDue (r : Nat) (s : State) : State :=
  let q := getRing s r
  match ringOwner s r, q.moveAt with
  | some f, some t =>
    if mayPost s f && decide (t < s.drone.count) && !q.cqErr then
      let u := moveCserai f r q.cserai.length (setRing r { q with moveAt := none } s)
      settleRing r (if (getRing u r).cqPi = q.cqPi then u else postMirror f r u)
    else s
  | _, _ => s

/-- CSERAI_MOVE (R132). -/
def execCseraiMove (ring : Nat) (s : State) : Host.Outcome State Fault Refusal := .next (moveDue ring s)

/-- The moves of this tick that have not been made yet (R132). -/
def moveAllDue (s : State) : State := (s.host.rings.map (·.1)).foldl (fun t r => moveDue r t) s

/-- A write of RNG_CQ_CI (R132): the completion stage sees it at the next edge; a move due in this tick comes first. -/
def writeCqCi (r : Nat) (w : Word) (s : State) : State :=
  let t := moveDue r s
  modRing r (fun q => { q with cqCi := BitVec.ofNat 17 (bits w 0 17), moveAt := some (q.moveAt.getD t.drone.count) }) t

/-- The completions of a ring discarded: those in the caravanserai and those of finished commands (R121, R134). -/
def discardRing (r : Nat) (s : State) : State :=
  let q := getRing s r
  let t := setRing r { q with cserai := [], owed := q.owed - q.cserai.length, held := q.held - q.cserai.length } s
  t.host.finish.foldl (finishOne 0 r) t

/-- CQ_WRITE_ERROR (R134): a completion entry or mirror write failed; fetching and posting on the ring stop. On a ring
disabled already, the completions that it still owes are discarded (R121). -/
def execCqWriteError (ring : Nat) (s : State) : Host.Outcome State Fault Refusal :=
  match ringOwner s ring with
  | none => .next s
  | some _ =>
    let t := modRing ring (fun q => { q with cqErr := true }) s
    .next (if (getRing s ring).en then t else settleRing ring (discardRing ring t))

/-! ### Enabling and disabling (R120, R121) -/

/-- The enable of a ring pair is refused (R120). -/
def enableRefused (s : State) (f : Nat) (q : Ring) : Bool :=
  q.depthLog < 1 || 16 < q.depthLog || (q.evtEn && (route s q.evtSrc).toMsix && (route s q.evtSrc).func != f) ||
    !restoreEnded s

/-- A ring pair as an accepted enable leaves it (R120). -/
def Ring.enabled (q : Ring) : Ring :=
  { q with
    en := true, err := false, sqErr := false, cqErr := false, stall := false
    sqPi := 0, sqCi := 0, cqPi := 0, cqCi := 0, sampled := 0, fetched := 0, moveAt := none }

/-- EN written 1 while it is 0 (R120). While BUSY is 1 the ring pair stays disabled, as BUSY says of it (R146); whether ERR
shows the write as refused is free, since R120 speaks of BUSY = 0 alone. DESIGN CHOICE (log 31). -/
def enableRing (f r : Nat) (s : State) : State :=
  let q := getRing s r
  if q.busy then
    let d := drawFree s
    setRing r { q with err := q.err || bit d.1 0 } d.2
  else if enableRefused s f q then setRing r { q with err := true } s
  else setRing r q.enabled s

/-- EN written 0 while it is 1: fetching stops at once; BUSY stays 1 while completions are owed (R121, R134). -/
def disableRing (r : Nat) (s : State) : State :=
  let t := modRing r (fun q => { q with en := false, stall := false }) (dropFetches r s)
  settleRing r (if (getRing t r).cqErr then discardRing r t else t)

/-- DEPTH_LOG written: a change while EN or BUSY is 1 is a host error that leaves a free value (R122, R179). -/
def writeDepth (r v : Nat) (s : State) : State :=
  let q := getRing s r
  if !(q.en || q.busy) then setRing r { q with depthLog := v } s
  else if v = q.depthLog then s
  else
    let d := drawFree s
    setRing r { q with depthLog := bits d.1 0 5 } d.2

/-- A write of RNG_CFG (R120, R121, R146). -/
def writeRngCfg (f r : Nat) (w : Word) (s : State) : State :=
  let t := modRing r (fun q => { q with evtSrc := bits w 16 11, evtEn := bit w 27 }) (writeDepth r (bits w 8 5) s)
  if bit w 0 && !(getRing t r).en then enableRing f r t
  else if !bit w 0 && (getRing t r).en then disableRing r t
  else t

/-- An address register of a ring written: while EN or BUSY is 1 a change is a host error that leaves a free value
(R122, R179). -/
def writeRingAddr (r : Nat) (get : Ring → Word) (put : Word → Ring → Ring) (w : Word) (s : State) : State :=
  let q := getRing s r
  if !(q.en || q.busy) then setRing r (put w q) s
  else if w = get q then s
  else
    let d := drawFree s
    setRing r (put d.1 q) d.2

end Sys2Proof.Machine
end

