-- ==== Sys2Proof/Machine/Smc.lean ====
section
/-! DEFINITION. The stripe map cache (09): lookups, replacement, prefetch, the merging and eviction buffers, preload and
locking, range invalidation. -/

namespace Sys2Proof.Machine

open Sys2Proof

/-! ### Keys (R5, R6, R282, R288, R289) -/

/-- The key of a parcel: volume · 2^40 + index. -/
def parcelKey (vol p : Nat) : Nat := vol * 2 ^ 40 + p

/-- The volume of a parcel key. -/
def keyVol (k : Nat) : Nat := k / 2 ^ 40

/-- The parcel index of a parcel key. -/
def keyParcel (k : Nat) : Nat := k % 2 ^ 40

/-- Blocks of a strip: 16 KiB · 2^STRIP_LOG. -/
def Volume.strip (v : Volume) : Nat := 4 * 2 ^ v.stripLog

/-- Data blocks of a stripe. -/
def Volume.stripe (v : Volume) : Nat := v.k * v.strip

/-- Data blocks of a parcel (R6). -/
def Volume.parcelBlocks (v : Volume) : Nat := 256 * v.stripe

/-- PARCELS of a volume (R173). -/
def Volume.parcels (v : Volume) : Nat := ceilDiv v.size v.parcelBlocks

/-- The volume with a number. -/
def getVol (s : State) (v : Nat) : Option Volume := tabFind s.host.volumes v

/-- PARCELS of a volume number, 0 where there is no volume. -/
def parcelsOf (s : State) (v : Nat) : Nat := ((getVol s v).map Volume.parcels).getD 0

/-- An entry of a parcel that was never placed (R252). -/
def LEntry.blank : LEntry where
  pg := 0
  placed := false
  moving := false
  fdShort := false
  pslot := 0
  gen := 0
  zeroMask := 0
  reloc0 := none
  reloc1 := none

/-- The ledger entry of a parcel. -/
def getEntry (s : State) (k : Nat) : LEntry := tabGet LEntry.blank s.ledger.entries k

/-- The ledger page that holds a parcel's entry (R282). -/
def pageOf (k : Nat) : Nat := parcelKey (keyVol k) (keyParcel k / 127)

/-- The page of a parcel's entry is resident in the tier, with that entry (R283, R303). -/
def pageHere (s : State) (k : Nat) : Bool := (tabFind s.ledger.pages (pageOf k)).any fun p => p.part.all (·.contains k)

/-- The home has copies of a ledger page (R282). -/
def pageHomed (s : State) (p : Nat) : Bool := s.ledger.dir.any fun d => d.1 == .page p

/-- The entry of a parcel put into the tier (R303): its page becomes resident, and while the rest of it is still to be read from the
home it holds what was put there. `seq` is the SEQ of a change (none: the entry is not newer than the home). -/
def touchPage (k : Nat) (seq : Option Nat) (s : State) : State :=
  let p := pageOf k
  let old := tabGet { dirty := false, used := 0, seq := 0, since := 0, part := if pageHomed s p then some [] else none } s.ledger.pages p
  let new := { old with used := s.drone.count, part := old.part.map (addOnce · k) }
  let x := match seq with
    | none => new
    | some n => { new with dirty := true, seq := max old.seq n, since := if old.dirty then old.since else n }
  { s with ledger := { s.ledger with pages := tabInsert s.ledger.pages p x } }

/-- A page that the home never held has nothing to read there: it becomes resident when it is first needed (R283).
DESIGN CHOICE (log 19). -/
def bornPage (k : Nat) (s : State) : State :=
  if (tabFind s.ledger.pages (pageOf k)).isNone && !pageHomed s (pageOf k) then touchPage k none s else s

/-- The set of a line (R289). -/
def smcSet (vol g : Nat) : Nat :=
  (g % 1024) ^^^ (g / 2 ^ 10 % 1024) ^^^ (g / 2 ^ 20 % 1024) ^^^ (g / 2 ^ 30 % 1024) ^^^ (vol % 1024) ^^^ (vol / 1024 * 16)

/-! ### Ways -/

/-- A line has the key. -/
def SmcLine.is (vol g : Nat) (l : SmcLine) : Bool := l.vol == vol && l.g == g

/-- Sub-block i of a line is valid. -/
def SmcLine.has (i : Nat) (l : SmcLine) : Bool := (nth none l.subs i).isSome

/-- No sub-block is valid. -/
def SmcLine.empty (l : SmcLine) : Bool := l.subs.all Option.isNone

/-- The lines of a set with their indices 16 · set + way. -/
def setLines (c : Smc) (set : Nat) : List (Nat × SmcLine) := c.lines.filter fun p => p.1 / 16 == set

/-- The way that holds a key: its index and line. -/
def findLine (c : Smc) (vol g : Nat) : Option (Nat × SmcLine) :=
  (setLines c (smcSet vol g)).find? fun p => p.2.is vol g

/-- A line replaced at its index. -/
def putLine (i : Nat) (l : SmcLine) (c : Smc) : Smc := { c with lines := tabInsert c.lines i l }

/-- A way with no line. -/
def dropLine (i : Nat) (c : Smc) : Smc := { c with lines := tabErase c.lines i }

/-- A counter of SMC_CNT incremented. -/
def smcCount (n : Nat) (c : Smc) : Smc := { c with cnt := modAt c.cnt n (· + 1) }

/-- The ways of a set that wait for a fill (R297). -/
def awaiting (c : Smc) : List Nat := c.fills.filterMap (·.way)

/-- The ways of a set that a new line may take, with their age and whether they hold nothing valid (R297). -/
def candidates (c : Smc) (set : Nat) : List (Nat × Nat × Bool) :=
  ((List.range 16).map (16 * set + ·)).filterMap fun i =>
    if (awaiting c).contains i then none
    else
      match tabFind c.lines i with
      | none => some (i, 0, true)
      | some l => if l.lock then none else some (i, l.age, l.empty)

/-- The ages of the candidates raised until one has age 3 (R297). -/
def ageSet (cand : List (Nat × Nat × Bool)) (c : Smc) : Smc :=
  let up := 3 - maxBy (fun x => x.2.1) cand
  { c with lines := tabMap (fun i (l : SmcLine) => if cand.any (fun x => x.1 == i) then { l with age := l.age + up } else l) c.lines }

/-- A displaced line goes to the eviction buffer (R304). -/
def evictLine (i : Nat) (c : Smc) : Smc :=
  match tabFind c.lines i with
  | none => c
  | some l =>
    if l.empty then dropLine i c
    else smcCount 3 { dropLine i c with evict := c.evict ++ [{ line := l, way := i, sent := false, accepted := false, reinstated := false }] }

/-- The way for a new line, made free; none when the lookup must wait (R297). -/
def takeWay (set : Nat) (c : Smc) : Option (Nat × Smc) :=
  let cand := candidates c set
  match cand.find? (·.2.2) with
  | some x => some (x.1, dropLine x.1 c)
  | none =>
    if cand.isEmpty then none
    else
      let aged := ageSet cand c
      match (candidates aged set).find? fun x => x.2.1 == 3 with
      | none => none
      | some x => if 8 ≤ c.evict.length then none else some (x.1, evictLine x.1 aged)

/-! ### Scans and prefetch (R298, R299) -/

/-- The scan that a line lookup belongs to: the line last seen, or the one after it. -/
def inScan (vol g : Nat) (x : SmcScan) : Bool := x.vol == vol && (x.g == g || x.g + 1 == g)

/-- A lookup of a line seen by a port's scan detector (R298). -/
def portLook (det : Bool) (vol g : Nat) (p : SmcPort) : SmcPort :=
  let recent := ((vol, g) :: p.recent).take 64
  let aged := (p.scans.map fun x =>
    if inScan vol g x then { x with g := g, idle := 0 } else { x with idle := x.idle + 1 }).filter fun x => x.idle < 1024
  let older := recent.drop 1
  let found := det && 2 ≤ g && !(p.scans.any (inScan vol g)) &&
    match older.dropWhile fun q => q != (vol, g - 1) with
    | [] => false
    | _ :: r => r.contains (vol, g - 2)
  let new : SmcScan := { vol := vol, g := g, idle := 0 }
  let scans := if found then (aged ++ [new]).drop (aged.length + 1 - 16) else aged
  { p with recent := recent, scans := if det then scans else [] }

/-- The lookup belongs to an identified scan of its port. -/
def scanning (c : Smc) (port vol g : Nat) : Bool :=
  c.seqDetEn && (nth SmcPort.idle c.ports port).scans.any fun x => x.vol == vol && x.g == g

/-- The key is held somewhere, or on its way (R290, R299). -/
def smcHeld (c : Smc) (vol g : Nat) : Bool :=
  (findLine c vol g).isSome || c.side.any (·.is vol g) || c.evict.any (fun e => !e.reinstated && e.line.is vol g) ||
    c.fills.any fun f => f.vol == vol && f.g == g

/-- A prefetch of one line into the side buffer (R299): only sub-blocks whose pages are resident. -/
def prefetchLine (vol g : Nat) (s : State) : State :=
  let any := (List.range 8).any fun i => 8 * g + i < parcelsOf s vol && pageHere s (parcelKey vol (8 * g + i))
  if smcHeld s.smc vol g || !any then s
  else
    let f : Fill := {
      vol := vol, g := g, way := none, side := true, port := 3, stream := true, waiters := [(.prefetch, 8 * g)]
      written := [], dropped := [] }
    { s with smc := { s.smc with fills := s.smc.fills ++ [f] } }

/-! ### Lookups (R292 to R306) -/

/-- What a lookup found: the entry now, or a wait for a fill or a page; `held` that it is not accepted yet, `second` that it holds its
port as a second miss (R292). -/
inductive Looked where
  | hit | waits | held | second
deriving DecidableEq, Repr

/-- A hit on a way: its age, and the counter (R296). -/
def hitWay (i : Nat) (l : SmcLine) (stream : Bool) (c : Smc) : Smc :=
  smcCount 0 (putLine i (if stream then l else { l with age := 0 }) c)

/-- A requester waits for a fill (R293). -/
def waitFill (vol g : Nat) (who : Requester) (p : Nat) (c : Smc) : Smc :=
  { c with fills := c.fills.map fun f =>
      if f.vol = vol ∧ f.g = g then { f with waiters := f.waiters ++ [(who, p)] } else f }

/-- A port released: its miss is installed or parked (R292, R295). -/
def freePort (port : Nat) (c : Smc) : Smc :=
  { c with ports := modAt c.ports port fun x => { x with missing := false, held := false } }

/-- The page of a missed sub-block is not resident (R295): the lookup is parked and the page is read (R283). -/
def parkLookup (vol p port : Nat) (who : Requester) (s : State) : State :=
  let pg := pageOf (parcelKey vol p)
  { s with
    smc := smcCount 2 { s.smc with parked := s.smc.parked ++ [{ vol := vol, parcel := p, port := port, who := who }] }
    ledger := if s.ledger.missing.contains pg then s.ledger else { s.ledger with
      missing := s.ledger.missing ++ [pg], misses := sat 0xFFFFFFFF (s.ledger.misses + 1) } }

/-- A fill started for a missed line or sub-block (R294): the port has a miss outstanding. -/
def startFill (vol p port : Nat) (way : Option Nat) (stream : Bool) (who : Requester) (c : Smc) : Smc :=
  let f : Fill := {
    vol := vol, g := p / 8, way := way, side := false, port := port, stream := stream, waiters := [(who, p)]
    written := [], dropped := [] }
  { c with
    fills := c.fills ++ [f]
    ports := modAt c.ports port fun x => { x with missing := true } }

/-- The port has a miss outstanding (R292). -/
def portBusy (c : Smc) (port : Nat) : Bool := (nth SmcPort.idle c.ports port).missing

/-- The requester is a preload, which alone refills a locked-empty line (R316). -/
def Requester.preloads : Requester → Bool
  | .preload _ => true
  | _ => false

/-- A lookup of a sub-block that no place holds (R293 to R295, R316): it waits for a fill in flight, is parked, or starts
a fill of `way` (none: a bypass). -/
def missSub (vol p port : Nat) (way : Option Nat) (stream : Bool) (who : Requester) (s : State) : Looked × State :=
  let k := parcelKey vol p
  let running := s.smc.fills.any fun f => f.vol == vol && f.g == p / 8
  if running && pageHere s k then (.waits, { s with smc := waitFill vol (p / 8) who p s.smc })
  else if portBusy s.smc port then (.second, s)
  else
    let s1 := { s with smc := smcCount 1 s.smc }
    if pageHere s k && !running then (.waits, { s1 with smc := startFill vol p port way stream who s1.smc })
    else (.waits, parkLookup vol p port who s1)

/-- A lookup of a line that a way holds (R292, R294, R315, R316). -/
def lookWay (i : Nat) (l : SmcLine) (vol p port : Nat) (stream : Bool) (who : Requester) (s : State) : Looked × State :=
  if l.has (p % 8) then (.hit, { s with smc := hitWay i l stream s.smc })
  else if l.lock && l.empty && !who.preloads then
    missSub vol p port none stream who { s with smc := smcCount 8 s.smc }
  else missSub vol p port (some i) stream who s

/-- A line put into a way of its set at an age (R296, R300, R306); none while no way can be taken. -/
def installLine (l : SmcLine) (age : Nat) (c : Smc) : Option (Nat × Smc) :=
  (takeWay (smcSet l.vol l.g) c).map fun r => (r.1, putLine r.1 { l with age := age, lock := false } r.2)

/-- A lookup on a port (R292 to R306). `stream` says that it is streaming work on port 3 (R296). -/
def lookCore (vol p port : Nat) (stream : Bool) (who : Requester) (s : State) : Looked × State :=
  let g := p / 8
  let c := s.smc
  match findLine c vol g with
  | some (i, l) => lookWay i l vol p port stream who s
  | none =>
    match c.side.find? (·.is vol g) with
    | some l =>
      match installLine l (if stream then 3 else 0) { c with side := c.side.filter fun x => !x.is vol g } with
      | none => (.held, s)
      | some (i, c1) =>
        if l.has (p % 8) then (.hit, { s with smc := smcCount 7 (smcCount 0 c1) })
        else lookWay i { l with age := if stream then 3 else 0, lock := false } vol p port stream who { s with smc := c1 }
    | none =>
      match c.evict.find? (fun e => !e.reinstated && e.line.is vol g) with
      | some e =>
        let rest := c.evict.filterMap fun x =>
          if x.line.is vol g ∧ x.reinstated = false then
            if x.sent then some { x with reinstated := true } else none
          else some x
        match installLine e.line 0 { c with evict := rest } with
        | none => (.held, s)
        | some (i, c1) =>
          let c2 := smcCount 6 c1
          if e.line.has (p % 8) then (.hit, { s with smc := smcCount 0 c2 })
          else lookWay i { e.line with age := 0, lock := false } vol p port stream who { s with smc := c2 }
      | none =>
        if c.fills.any (fun f => f.vol == vol && f.g == g) || portBusy c port || !pageHere s (parcelKey vol p) then
          missSub vol p port none stream who s
        else
          match takeWay (smcSet vol g) c with
          | none => (.held, s)
          | some (i, c1) => missSub vol p port (some i) stream who { s with smc := c1 }

/-- The scan detector and the prefetches of a lookup (R298, R299). -/
def afterLook (vol g port : Nat) (s : State) : State :=
  if s.smc.prefetchEn && scanning s.smc port vol g then prefetchLine vol (g + 2) (prefetchLine vol (g + 1) s) else s

/-- The port accepts no lookup: a second miss holds it (R292). -/
def portHeld (c : Smc) (port : Nat) : Bool := (nth SmcPort.idle c.ports port).held

/-- A second miss holds the port (R292). -/
def holdPort (port : Nat) (c : Smc) : Smc := { c with ports := modAt c.ports port fun x => { x with held := true } }

/-- A lookup of a parcel's entry on a port. While the SMC is not ready or the port is held none is accepted (R292, R318). A preload
looks up as demand, whatever scan it makes (R307). -/
def smcLookup (vol p port : Nat) (stream : Bool) (who : Requester) (s : State) : Looked × State :=
  if !s.smc.ready || portHeld s.smc port then (.held, s)
  else
    let g := p / 8
    let s1 := bornPage (parcelKey vol p)
      { s with smc := { s.smc with ports := modAt s.smc.ports port (portLook s.smc.seqDetEn vol g) } }
    let st := stream || (scanning s1.smc port vol g && !who.preloads)
    let r := lookCore vol p port st who s1
    match r.1 with
    | .held => (.held, s)
    | .second => (.held, { s with smc := holdPort port s.smc })
    | x => (x, afterLook vol g port r.2)

/-- The device's own work on port 3 is streaming (R296). -/
def Parked.streams (x : Parked) : Bool := x.port == 3 && match x.who with
  | .internal _ => true
  | _ => false

/-- The lookup of a waiting requester made, or made again; one that is not accepted keeps waiting. -/
def askLook (x : Parked) (s : State) : State :=
  match smcLookup x.vol x.parcel x.port x.streams x.who s with
  | (.held, t) => { t with smc := { t.smc with queue := t.smc.queue ++ [x] } }
  | (_, t) => t

/-- The lookup that work of the device needs before it can name a drive (R291, R295): `true` when the entry is at hand within this
tick, as it is while its page is resident; else the work waits for the page and asks again. -/
def smcAsk (k port : Nat) (cls : WorkClass) (s : State) : Bool × State :=
  let x : Parked := { vol := keyVol k, parcel := keyParcel k, port := port, who := .internal cls }
  let t := if s.smc.parked.contains x || s.smc.queue.contains x then s else askLook x s
  (pageHere t k, t)

/-- The lookups that a port has not accepted yet are made again, in order. -/
def askAgain (s : State) : State :=
  s.smc.queue.foldl (fun t x => askLook x t) { s with smc := { s.smc with queue := [] } }

/-! ### Fills (R294, R301, R314) -/

/-- The sub-blocks that a fill reads: resident pages and parcels of the volume, those already valid or invalidated left
out; every value is the newest (R294, R301). -/
def fillSubs (s : State) (f : Fill) (old : List (Option LEntry)) : List (Option LEntry) :=
  (List.range 8).map fun i =>
    let k := parcelKey f.vol (8 * f.g + i)
    match nth none old i with
    | some e => some e
    | none =>
      if f.dropped.contains i then none
      else if 8 * f.g + i < parcelsOf s f.vol ∧ (pageHere s k ∨ f.written.any (fun w => w.1 == i)) then some (getEntry s k)
      else none

/-- The line of a fill installed in its way, in the side buffer or nowhere (R294, R296, R299, R316). A key is held in one place (R290):
a prefetched line that another place has meanwhile is dropped. -/
def installFill (f : Fill) (s : State) : State :=
  let blank := List.replicate 8 (none : Option LEntry)
  if f.side then
    let l : SmcLine := { vol := f.vol, g := f.g, subs := fillSubs s f blank, age := 3, lock := false }
    if l.empty || (findLine s.smc f.vol f.g).isSome || s.smc.evict.any (fun e => !e.reinstated && e.line.is f.vol f.g) then s
    else { s with smc := { s.smc with side := (s.smc.side ++ [l]).drop (s.smc.side.length + 1 - 64) } }
  else
    match f.way with
    | none => s
    | some i =>
      match tabFind s.smc.lines i with
      | some l => { s with smc := putLine i { l with subs := fillSubs s f l.subs } s.smc }
      | none =>
        let l : SmcLine :=
          { vol := f.vol, g := f.g, subs := fillSubs s f blank, age := if f.stream then 3 else 0, lock := false }
        if l.empty then s else { s with smc := putLine i l s.smc }

/-- A lookup answered: a host command has the entry of that parcel. -/
def answerLook (s : State) (w : Requester × Nat) (vol : Nat) : State :=
  match w.1 with
  | .cmd seq => { s with host := { s.host with cmds := s.host.cmds.map fun c =>
      if c.seq = seq then { c with resolved := addOnce c.resolved (parcelKey vol w.2) } else c } }
  | _ => s

/-- A prefetched line that a lookup waited for moves into its set, as one that a lookup hits (R293, R300). DESIGN CHOICE (log 65): the spec
does not say where the line of such a fill goes. -/
def sideUsed (f : Fill) (s : State) : State :=
  match s.smc.side.find? (·.is f.vol f.g) with
  | none => s
  | some l =>
    match installLine l 0 { s.smc with side := s.smc.side.filter fun x => !x.is f.vol f.g } with
    | none => s
    | some r => { s with smc := r.2 }

/-- A fill completes: installed, its requesters answered, its port free. -/
def endFill (f : Fill) (s : State) : State :=
  let c := { s.smc with fills := s.smc.fills.filter fun x => !(x.vol == f.vol && x.g == f.g && x.side == f.side) }
  let s1 := installFill f { s with smc := if f.side then c else freePort f.port c }
  let s2 := if f.side && f.waiters.any (·.1 != .prefetch) then sideUsed f s1 else s1
  askAgain (f.waiters.foldl (fun t w => answerLook t w f.vol) s2)

/-! ### Preload and unlock (R307 to R312) -/

/-- The locked lines of a set. -/
def lockedWays (c : Smc) (set : Nat) : Nat := ((setLines c set).filter fun p => p.2.lock).length

/-- A PF's own SMC registers. -/
def smcPf (c : Smc) (f : Nat) : SmcPf := if portOf f = 0 then c.pf0 else c.pf1

/-- A PF's own SMC registers changed. -/
def modSmcPf (f : Nat) (g : SmcPf → SmcPf) (c : Smc) : Smc :=
  if portOf f = 0 then { c with pf0 := g c.pf0 } else { c with pf1 := g c.pf1 }

/-- A line of the range locked, or left unlocked at age 0 and counted in OVER (R308). -/
def lockLine (pf vol g : Nat) (c : Smc) : Smc :=
  match findLine c vol g with
  | none => c
  | some (i, l) =>
    if l.lock then c
    else if lockedWays c (smcSet vol g) < 12 then putLine i { l with lock := true } c
    else modSmcPf pf (fun x => { x with overs := x.overs + 1 }) (putLine i { l with age := 0 } c)

/-- A line unlocked: it keeps its age; a locked-empty line becomes a way with nothing in it (R312). -/
def unlockLine (vol g : Nat) (c : Smc) : Smc :=
  match findLine c vol g with
  | none => c
  | some (i, l) => if l.empty then dropLine i c else putLine i { l with lock := false } c

/-- The parcel is loaded: its sub-block is valid in a way. -/
def loaded (c : Smc) (vol p : Nat) : Bool := (findLine c vol (p / 8)).any fun r => r.2.has (p % 8)

/-- The preload waits for a fill or a page. -/
def preloadWaits (c : Smc) : Bool :=
  c.fills.any (fun f => f.waiters.any fun w => w.1.preloads) || c.parked.any fun x => x.who.preloads

/-- The preload goes on over the parcels of its lines until it must wait (R307, R308); a line is locked when it is
complete. -/
def preloadRun : Nat → State → State
  | 0, s => s
  | n + 1, s =>
    match s.smc.run with
    | none => s
    | some r =>
      if r.count = 0 || preloadWaits s.smc then s
      else
        let next := fun (t : State) => { t with smc :=
          let c := if r.op = 1 ∧ (r.first % 8 = 7 ∨ r.count = 1) then lockLine r.pf r.vol (r.first / 8) t.smc else t.smc
          { c with run := some { r with first := r.first + 1, count := r.count - 1 } } }
        if r.op = 2 then
          preloadRun n (next { s with smc := unlockLine r.vol (r.first / 8) s.smc })
        else if loaded s.smc r.vol r.first ∧ r.first % 8 ≠ 0 then preloadRun n (next s)
        else
          match smcLookup r.vol r.first 3 false (.preload r.pf) s with
          | (.hit, t) => preloadRun n (next t)
          | (_, t) => t

/-- A preload continues. -/
def preloadStep (s : State) : State :=
  match s.smc.run with
  | none => s
  | some r => preloadRun (r.count + 1) s

/-- The operation is refused (R309): no such volume, or one of another port. -/
def preloadRefused (s : State) (f vol : Nat) : Bool := (getVol s vol).all fun v => portOf v.owner != portOf f

/-- An operation begins: its range in whole lines, clipped at PARCELS (R307). -/
def beginPreload (r : Preload) (s : State) : State :=
  if preloadRefused s r.pf r.vol then
    raise 0xB61 { s with smc := modSmcPf r.pf (fun x => { x with err := true, overs := 0 }) { s.smc with run := none } }
  else
    let n := parcelsOf s r.vol
    let lo := r.first / 8 * 8
    let hi := min n ((r.first + r.count + 7) / 8 * 8)
    let q := { r with first := lo, count := if r.first < n then hi - lo else 0 }
    let c := modSmcPf r.pf (fun x => { x with err := false, overs := 0 }) { s.smc with run := some q }
    preloadStep { s with smc := c }

/-- The held operation starts when none runs (R310). -/
def startHeld (s : State) : State :=
  match s.smc.run, s.smc.heldOp with
  | none, some r => beginPreload r { s with smc := { s.smc with heldOp := none } }
  | _, _ => s

/-- SMC_PRELOAD written by a PF: OP (3 is not used and leaves it as it was, R18) and COUNT, and GO with the range sampled (R307, R310).
A GO waits behind a held operation of the other PF; one with COUNT 0 has an empty range and finishes with nothing loaded
(DESIGN CHOICE, log 65). -/
def writePreload (f : Nat) (w : Word) (s : State) : State :=
  let own := s.smc.run.any (fun r => r.pf == f) || s.smc.heldOp.any fun r => r.pf == f
  let s1 := { s with smc := modSmcPf f (fun x => { x with op := if bits w 1 2 = 3 then x.op else bits w 1 2, count := bits w 8 24 }) s.smc }
  let x := smcPf s1.smc f
  let r : Preload := { pf := f, op := x.op, vol := x.baseVol, first := x.baseParcel, count := x.count }
  if !bit w 0 || own then s1
  else
    let s2 := startHeld s1
    if s2.smc.run.isSome then { s2 with smc := { s2.smc with heldOp := some r } } else beginPreload r s2

/-- The running operation has covered its range: DONE, and SMC_PRELOAD_DONE (R321, R322). -/
def endPreload (s : State) : State :=
  match s.smc.run with
  | none => s
  | some r =>
    if r.count ≠ 0 then s
    else raise 0xB61 { s with smc := modSmcPf r.pf (fun x => { x with done := true }) { s.smc with run := none } }

/-- SMC_PRELOAD_DONE (R307, R322). -/
def execSmcPreloadDone (s : State) : Host.Outcome State Fault Refusal := .next (endPreload s)

/-- SMC_PRELOAD_HELD_START (R310). -/
def execSmcPreloadHeldStart (s : State) : Host.Outcome State Fault Refusal := .next (startHeld s)

/-- Every line of a volume of the PF's port unlocked (R312). -/
def unlockAll (f : Nat) (s : State) : State :=
  let own := s.smc.lines.filter fun p => p.2.lock && (getVol s p.2.vol).any fun v => portOf v.owner == portOf f
  { s with smc := own.foldl (fun c p => unlockLine p.2.vol p.2.g c) s.smc }

/-- UNLOCK_ALL (R312). -/
def execUnlockAll (f : Nat) (s : State) : Host.Outcome State Fault Refusal :=
  if pfFull s f then .next (unlockAll f s) else .next s

/-! ### Fills, parked lookups, drains and offers as they happen -/

/-- The preload locks the line that a fill installed for it (R308) as soon as the line is complete; the preload goes on. -/
def afterFill (s : State) : State := preloadStep s

/-- SMC_FILL (R294, R299): the fill of a line is installed, and its requesters are answered. -/
def execSmcFill (vol g : Nat) (s : State) : Host.Outcome State Fault Refusal :=
  match s.smc.fills.find? (fun f => f.vol == vol && f.g == g) with
  | none => .next s
  | some f => .next (afterFill (endFill f s))

/-- A parked lookup presented again as a new lookup once its page is resident (R295). -/
def representParked (x : Parked) (s : State) : State :=
  let s1 := { s with smc := { s.smc with parked := s.smc.parked.erase x } }
  match smcLookup x.vol x.parcel x.port x.streams x.who s1 with
  | (.hit, t) => answerLook t (x.who, x.parcel) x.vol
  | (.waits, t) => t
  | (_, t) => { t with smc := { t.smc with parked := s.smc.parked } }

/-- SMC_PARKED_REPRESENT (R295). -/
def execSmcParkedRepresent (vol parcel : Nat) (s : State) : Host.Outcome State Fault Refusal :=
  match s.smc.parked.find? (fun x => x.vol == vol && x.parcel == parcel) with
  | none => .next s
  | some x => if pageHere s (parcelKey vol parcel) then .next (preloadStep (representParked x s)) else .next s

/-- One entry of the merging buffer drained to the tier (R302, R303): its page becomes resident and dirty. -/
def drainMerge (s : State) : State :=
  match s.smc.merge with
  | [] => s
  | (k, _, n) :: r => touchPage k (some n) { s with smc := { s.smc with merge := r } }

/-- SMC_MERGE_DRAIN (R303). -/
def execSmcMergeDrain (s : State) : Host.Outcome State Fault Refusal := .next (drainMerge s)

/-- The parcel keys of an offered line's valid sub-blocks. -/
def offeredKeys (e : Evict) : List Nat :=
  ((List.range 8).filter fun i => e.line.has i).map fun i => parcelKey e.line.vol (8 * e.line.g + i)

/-- The offer of the oldest unsent eviction sent to the tier, which judges it in the order of sending (R303 to R305): it declines
where every page is resident or the tier is above its high watermark, else the offered entries it does not hold go into it. -/
def sendOffer (s : State) : State :=
  match s.smc.evict.find? (fun e => !e.sent && !e.reinstated) with
  | none => s
  | some e =>
    let keys := offeredKeys e
    let yes := !(keys.all (pageHere s) || s.ledger.aboveHigh)
    let s1 := { s with smc := { s.smc with evict := s.smc.evict.map fun x => if x = e then { x with sent := true, accepted := yes } else x } }
    if yes then keys.foldl (fun t k => if pageHere t k then t else touchPage k none t) s1 else s1

/-- SMC_OFFER (R304). -/
def execSmcOffer (s : State) : Host.Outcome State Fault Refusal := .next (sendOffer s)

/-- The tier has answered an offer (R304, R305): the eviction buffer entry is freed, and what waited for it goes on. -/
def answerOffer (e : Evict) (s : State) : State :=
  let s1 := { s with smc := { s.smc with evict := s.smc.evict.erase e } }
  askAgain (preloadStep { s1 with smc := smcCount (if e.accepted then 4 else 5) s1.smc })

/-- SMC_OFFER_ANSWER (R305): the tier answers the oldest offer sent. -/
def execSmcOfferAnswer (s : State) : Host.Outcome State Fault Refusal :=
  match s.smc.evict.find? (·.sent) with
  | none => .next s
  | some e => .next (answerOffer e s)

/-- What the SMC does within a tick, at the latest at its end: fills, parked lookups whose pages are resident, offers and the preload
go on (R294, R295, R304, R305, R310). -/
def settleSmc (s : State) : State :=
  let a := s.smc.fills.foldl (fun t f => endFill f t) s
  let b := (a.smc.parked.filter fun x => pageHere a (parcelKey x.vol x.parcel)).foldl (fun t x => representParked x t) a
  let c := b.smc.evict.foldl (fun t _ => sendOffer t) b
  let d := (c.smc.evict.filter (·.sent)).foldl (fun t e => answerOffer e t) c
  preloadStep (startHeld (endPreload (preloadStep (askAgain d))))

/-! ### Writes and invalidations (R301, R302, R313 to R315) -/

/-- A line with a sub-block's value replaced. -/
def SmcLine.set (i : Nat) (e : Option LEntry) (l : SmcLine) : SmcLine := { l with subs := modAt l.subs i fun _ => e }

/-- The merging buffer after a write by the next ledger change; a full buffer drains its oldest entry first (R302). -/
def mergeWrite (k : Nat) (e : LEntry) (s : State) : State :=
  let x := (k, e, s.ledger.seq + 1)
  if s.smc.merge.any (fun p => p.1 == k) then
    { s with smc := { s.smc with merge := s.smc.merge.map fun p => if p.1 = k then x else p } }
  else
    let s1 := if 64 ≤ s.smc.merge.length then drainMerge s else s
    { s1 with smc := { s1.smc with merge := s1.smc.merge ++ [x] } }

/-- SMC_ENTRY_WRITE (R301): a changed entry written through port 2 into a present line, a fill in flight and the merging
buffer. The line may stand in a way, in the side buffer or in the eviction buffer. -/
def smcWrite (k : Nat) (e : LEntry) (s : State) : State :=
  let vol := keyVol k
  let g := keyParcel k / 8
  let i := keyParcel k % 8
  let c := s.smc
  let c1 := match findLine c vol g with
    | none => c
    | some (w, l) => if l.lock && l.empty then c else putLine w (l.set i (some e)) c
  let up := fun (l : SmcLine) => if l.is vol g then l.set i (some e) else l
  mergeWrite k e { s with smc := { c1 with
    side := c1.side.map up
    evict := c1.evict.map (fun x => { x with line := up x.line })
    fills := c1.fills.map (fun f =>
      if f.vol = vol ∧ f.g = g then
        { f with written := f.written.filter (fun w => w.1 != i) ++ [(i, e)], dropped := f.dropped.filter (· != i) }
      else f) } }

/-- The sub-blocks of line g in a parcel range. -/
def coveredSubs (first count g : Nat) : List Nat :=
  (List.range 8).filter fun i => first ≤ 8 * g + i && 8 * g + i < first + count

/-- A line without its covered sub-blocks. -/
def SmcLine.without (first count : Nat) (l : SmcLine) : SmcLine :=
  (coveredSubs first count l.g).foldl (fun l i => l.set i none) l

/-- The line has a covered sub-block. -/
def SmcLine.covered (vol first count : Nat) (l : SmcLine) : Bool := l.vol == vol && !(coveredSubs first count l.g).isEmpty

/-- A fill behind an invalidation (R314, R316): it does not install the covered sub-blocks, and one that a lookup started for a line
that has become locked-empty installs none. -/
def Fill.invalidate (lines : Tab SmcLine) (first count : Nat) (f : Fill) : Fill :=
  let cov := coveredSubs first count f.g
  let empty := !cov.isEmpty && lines.any (fun p => p.2.is f.vol f.g && p.2.lock) && !(f.waiters.head?).any (·.1.preloads)
  { f with dropped := (f.dropped ++ if empty then List.range 8 else cov).eraseDups }

/-- RANGE_INVALIDATE (R313 to R315). -/
def smcInvalidate (vol first count : Nat) (s : State) : State :=
  let c := s.smc
  let hit := fun (l : SmcLine) => l.covered vol first count
  let lost := c.lines.any fun p => p.2.lock && hit p.2 && !p.2.empty
  let lines := (tabMap (fun _ l =>
    if hit l then if l.lock then { l with subs := List.replicate 8 none } else l.without first count else l) c.lines).filter
      fun p => p.2.lock || !p.2.empty
  let evict := c.evict.map fun e =>
    if hit e.line && !e.reinstated then { e with line := e.line.without first count } else e
  let fills := c.fills.map fun f => if f.vol = vol then f.invalidate lines first count else f
  raiseIf lost 0xB60 { s with smc := { c with
    lines := lines
    side := c.side.filter fun l => !hit l
    evict := evict.filter fun e => e.sent || !e.line.empty
    fills := fills } }

/-- The SMC invalidated at a device reset or APPLY (R318): lines, ages, locks and buffers cleared; the merging buffer is
drained before (R319). -/
def smcClear (c : Smc) : Smc :=
  { c with
    lines := [], side := [], evict := [], fills := [], parked := [], queue := [], ready := false, run := none, heldOp := none
    ports := List.replicate 4 SmcPort.idle }

/-- The locked lines. -/
def lockedLines (c : Smc) : List SmcLine := (c.lines.map (·.2)).filter (·.lock)

/-- An SMC register as a PF reads it, by offset in the block (R321). -/
def smcRead (s : State) (f off : Nat) : Word :=
  let c := s.smc
  let x := smcPf c f
  let own := c.run.any (fun r => r.pf == f) || c.heldOp.any fun r => r.pf == f
  if off = 0x00 then putB c.prefetchEn 0 ||| putB c.seqDetEn 1
  else if off = 0x08 then
    putB c.ready 0 ||| putB (c.run.isSome || c.heldOp.isSome) 1 ||| put c.merge.length 8 ||| put c.evict.length 16 ||| put c.side.length 32
  else if off = 0x10 then put x.baseVol 0 ||| put x.baseParcel 16
  else if off = 0x18 then putB own 0 ||| put x.op 1 ||| put x.count 8
  else if off = 0x20 then
    put (lockedLines c).length 0 ||| put ((lockedLines c).filter (·.empty)).length 16 ||| put x.overs 32 ||| putB x.err 56 |||
      putB x.done 57
  else if 0x40 ≤ off ∧ off < 0x88 then nth 0 c.cnt ((off - 0x40) / 8)
  else 0

end Sys2Proof.Machine
end

