-- ==== Sys2Proof/Machine/Place.lean ====
section
/-! DEFINITION. Placement and the ledger (08): extent maps, placement groups, ledger changes and their records, the
placement function, snapshots, relocation targets, migration, release, checkpoints and the tier. -/

namespace Sys2Proof.Machine

open Sys2Proof

/-! ### Extent maps (R245 to R247, R280) -/

/-- A slot's record before anything is known of it. -/
def SlotRec.absent : SlotRec where
  tagValid := false
  encl := 0
  drain := false
  state := .absent
  refused := false
  dataExt := 0
  used := []
  failWhy := 0
  failTick := 0
  served := false

/-- The placement state of a slot. -/
def getSlot (s : State) (n : Nat) : SlotRec := tabGet SlotRec.absent s.ledger.slots n

/-- What the drive ports keep for a slot, before anything is known. -/
def SlotStat.blank : SlotStat where
  refuse := 0
  causes := 0
  serial := []
  cluster := none
  lastRes := false
  returned := false
  failedSerial := []

/-- What the drive ports keep for a slot. -/
def getStat (s : State) (n : Nat) : SlotStat := tabGet SlotStat.blank s.drives.slots n

/-- A slot's placement state replaced. -/
def setSlot (n : Nat) (r : SlotRec) (s : State) : State :=
  { s with ledger := { s.ledger with slots := tabPut SlotRec.absent s.ledger.slots n r } }

/-- What the drive ports keep for a slot, replaced. -/
def setStat (n : Nat) (x : SlotStat) (s : State) : State :=
  { s with drives := { s.drives with slots := tabPut SlotStat.blank s.drives.slots n x } }

/-- A run added to the used runs: runs stay disjoint and in order, neighbours joined. -/
def addRun : List (Nat × Nat) → Nat → Nat → List (Nat × Nat)
  | [], a, n => [(a, n)]
  | (b, m) :: r, a, n =>
    if a + n < b then (a, n) :: (b, m) :: r
    else if b + m < a then (b, m) :: addRun r a n
    else addRun r (min a b) (max (a + n) (b + m) - min a b)

/-- A run taken out of the used runs. -/
def cutRun : List (Nat × Nat) → Nat → Nat → List (Nat × Nat)
  | [], _, _ => []
  | (b, m) :: r, a, n =>
    let left := if b < a then [(b, min m (a - b))] else []
    let stop := max b (a + n)
    let right := if stop < b + m then [(stop, b + m - stop)] else []
    left ++ right ++ cutRun r a n

/-- Used extents of a slot (R260, R286). -/
def SlotRec.usedExt (r : SlotRec) : Nat := sumBy (·.2) r.used

/-- Free extents of a slot. -/
def SlotRec.freeExt (r : SlotRec) : Nat := r.dataExt - r.usedExt

/-- A used run that a run of n extents at e meets. -/
def runClash (used : List (Nat × Nat)) (e n : Nat) : Option (Nat × Nat) :=
  used.find? fun u => decide (e < u.1 + u.2) && decide (u.1 < e + n)

/-- The lowest multiple of `n` from `e` on at which n extents are free in every map (R261, R270). -/
def lowestRun (maps : List (Nat × List (Nat × Nat))) (n : Nat) : Nat → Nat → Option Nat
  | 0, _ => none
  | fuel + 1, e =>
    if maps.any fun m => decide (m.1 < e + n) then none
    else
      match maps.findSome? fun m => runClash m.2 e n with
      | none => some e
      | some u => lowestRun maps n fuel (ceilDiv (u.1 + u.2) n * n)

/-- The maps of some slots: DATA_EXT and used runs. -/
def slotMaps (s : State) (xs : List Nat) : List (Nat × List (Nat × Nat)) :=
  xs.map fun x => ((getSlot s x).dataExt, (getSlot s x).used)

/-- The lowest common free run of n extents on some slots. -/
def freeRun (s : State) (xs : List Nat) (n : Nat) : Option Nat :=
  let maps := slotMaps s xs
  lowestRun maps n (sumBy (fun m => m.2.length) maps + 1) 0

/-! ### Placement terms (R256, R260) -/

/-- PLAC of the running image. -/
def placOf (s : State) : Plac :=
  match s.image with
  | none => { wFill := 0, wWear := 0, wPort := 0, wReed := 0, fdDepth := 1, sparePermille := 0, seed := 0 }
  | some im => im.plac

/-- reserve(s) (R260). -/
def reserveOf (s : State) (x : Nat) : Nat := (getSlot s x).dataExt * (placOf s).sparePermille / 1000

/-- common_run (R261): the lowest common run that leaves every slot its reserve. -/
def commonRun (s : State) (xs : List Nat) (n : Nat) : Option Nat :=
  if xs.all fun x => decide (reserveOf s x + n ≤ (getSlot s x).freeExt) then freeRun s xs n else none

/-- The cluster of a slot for placement: that of its latest SLOT change (R401). -/
def plcCluster (s : State) (x : Nat) : Nat := (getStat s x).cluster.getD 0xF

/-- The domain of a slot at a level: 1 drive, 2 enclosure, 3 port cluster (R256). -/
def domainOf (s : State) (level x : Nat) : Nat :=
  if level = 2 then (getSlot s x).encl else if level = 3 then plcCluster s x else x

/-- The span of a set of slots at a level (R256). -/
def spanOf (s : State) (level : Nat) (xs : List Nat) : Nat := distinct (xs.map (domainOf s level))

/-- fill(s). -/
def fillTerm (s : State) (x : Nat) : Nat :=
  let r := getSlot s x
  if r.dataExt = 0 then 0 else 1000 * r.usedExt / r.dataExt

/-- wear(s) from the latest snapshot; 500 where none covers the slot. -/
def wearTerm (s : State) (x : Nat) : Nat := (s.ledger.snapshot.bind fun n => tabFind n.wear x).getD 500

/-- port(s) from the latest snapshot; 500 where none covers the slot. -/
def portTerm (s : State) (x : Nat) : Nat := (s.ledger.snapshot.bind fun n => tabFind n.port x).getD 500

/-- cost(s). -/
def costOf (s : State) (x : Nat) : Nat :=
  let p := placOf s
  p.wFill * fillTerm s x + p.wWear * wearTerm s x + p.wPort * portTerm s x

/-- The reed slots in service with their effective wiring that placement uses (R260, R268). -/
def plcWiring (s : State) : List (Nat × BitVec 12) :=
  match s.ledger.snapshot, s.image with
  | some n, _ => n.wiring
  | none, some im => (List.range 16).map fun i => (i, (nth { clusters := 0, banks := 0 } im.geom.slotWire i).clusters)
  | none, none => []

/-- The cluster lies in a wiring. -/
def wires (w : BitVec 12) (c : Nat) : Bool := w.getLsbD c

/-- The number of clusters of a wiring. -/
def wireCount (w : BitVec 12) : Nat := ((List.range 12).filter fun c => w.getLsbD c).length

/-- reed(X) (R260): the slots outside the covering reed slot, in thousandths. -/
def reedTerm (s : State) (xs : List Nat) : Nat :=
  let cs := (xs.map (plcCluster s)).eraseDups
  match leastBy (fun a b : Nat × BitVec 12 => decide ((cs.filter (wires b.2)).length < (cs.filter (wires a.2)).length))
      (plcWiring s) with
  | none => 0
  | some w => 1000 * (xs.filter fun x => !wires w.2 (plcCluster s x)).length / xs.length

/-- reed_slot(s, members) (R261). -/
def reedSlotTerm (s : State) (members : List Nat) (x : Nat) : Nat :=
  match members with
  | [] => 0
  | m :: _ =>
    match leastBy (fun a b : Nat × BitVec 12 => decide (wireCount b.2 < wireCount a.2))
        ((plcWiring s).filter fun w => wires w.2 (plcCluster s m)) with
    | none => 1000
    | some w => if wires w.2 (plcCluster s x) then 0 else 1000

/-- tie(x) (R261). -/
def tieOf (s : State) (key x : Nat) : Nat :=
  (crc32c (leBytes 4 (placOf s).seed.toNat ++ leBytes 4 (keyVol key) ++ leBytes 4 (keyParcel key % 2 ^ 32) ++
    leBytes 4 x)).toNat

/-- use(s, level) (R261). -/
def useOf (s : State) (members : List Nat) (level x : Nat) : Nat :=
  (members.filter fun m => domainOf s level m == domainOf s level x).length

/-- The levels of the key of R261: fd_level, then the others in use, deepest first. -/
def levelsOf (s : State) (fd : Nat) : List Nat :=
  fd :: [3, 2, 1].filter fun l => l ≤ (placOf s).fdDepth && l != fd

/-- Lexicographic order of keys. -/
def keyLt : List Nat → List Nat → Bool
  | a :: r, b :: t => decide (a < b) || (a == b && keyLt r t)
  | [], _ :: _ => true
  | _, [] => false

/-- The slots with records, by number. -/
def knownSlots (s : State) : List Nat := s.ledger.slots.map (·.1)

/-- The slots of the pool that placement may use: not draining (R255, R259). -/
def poolSlots (s : State) : List Nat :=
  (knownSlots s).filter fun x => (getSlot s x).state == .pool && !(getSlot s x).drain

/-! ### Records of ledger changes (R281) -/

/-- A relocation record's 6 bytes (R253). -/
def relocBytes : Option Reloc → List Byte
  | none => zeros 6
  | some r => leBytes 3 (r.member + (if r.valid then 32 else 0) + (if r.pending then 64 else 0) + r.slot * 256) ++
      leBytes 3 r.run

/-- A ledger entry's 32 bytes (R252). -/
def entryBytes (e : LEntry) : List Byte :=
  leBytes 4 e.pg ++ leBytes 1 ((if e.placed then 1 else 0) + (if e.moving then 2 else 0) + (if e.fdShort then 4 else 0)) ++
    zeros 3 ++ leBytes 4 e.pslot ++ leBytes 4 e.gen.toNat ++ leBytes 4 e.zeroMask.toNat ++ relocBytes e.reloc0 ++
    relocBytes e.reloc1

/-- A relocation record read from 6 bytes; one neither valid nor pending is none. -/
def parseReloc (bs : List Byte) : Option Reloc :=
  let lo := field bs 0 3
  if lo / 32 % 4 = 0 then none
  else some { member := lo % 32, valid := lo / 32 % 2 = 1, pending := lo / 64 % 2 = 1, slot := lo / 256 % 512, run := field bs 3 3 }

/-- A ledger entry read from 32 bytes. -/
def parseLEntry (bs : List Byte) : LEntry where
  pg := field bs 0 4 % 2 ^ 18
  placed := field bs 4 1 % 2 = 1
  moving := field bs 4 1 / 2 % 2 = 1
  fdShort := field bs 4 1 / 4 % 2 = 1
  pslot := field bs 8 4 % 2 ^ 24
  gen := BitVec.ofNat 32 (field bs 0xC 4)
  zeroMask := BitVec.ofNat 32 (field bs 0x10 4)
  reloc0 := parseReloc (slice bs 0x14 6)
  reloc1 := parseReloc (slice bs 0x1A 6)

/-- The code of a PG state (R250). -/
def PgState.code : PgState → Nat
  | .free => 0
  | .open_ => 1
  | .closed => 2
  | .degraded => 3
  | .draining => 4

/-- The PG state with a code. -/
def pgStateOf (n : Nat) : PgState :=
  match n with
  | 1 => .open_
  | 2 => .closed
  | 3 => .degraded
  | 4 => .draining
  | _ => .free

/-- SLOTS of a PGT entry as a number: nine bits a member, 0x1FF beyond them (R249). -/
def slotsField : Nat → List Nat → Nat
  | 0, _ => 0
  | n + 1, [] => 511 + 512 * slotsField n []
  | n + 1, x :: r => x + 512 * slotsField n r

/-- A PGT entry's 64 bytes (R249). -/
def pgBytes (p : Pg) : List Byte :=
  leBytes 1 p.family ++ leBytes 1 p.k ++ leBytes 1 p.m ++ leBytes 1 p.stripLog ++ leBytes 1 p.state.code ++
    leBytes 1 p.encSpan ++ leBytes 1 p.cluSpan ++ zeros 1 ++ leBytes 4 p.gen.toNat ++ leBytes 4 p.fill ++
    leBytes 36 (slotsField 32 p.slots) ++ leBytes 4 p.failed.toNat ++ zeros 8

/-- A PGT entry that was never used. -/
def Pg.blank : Pg where
  family := 0
  k := 0
  m := 0
  stripLog := 0
  state := .free
  encSpan := 0
  cluSpan := 0
  gen := 0
  fill := 0
  slots := []
  failed := 0

/-- A PGT entry read from 64 bytes. -/
def parsePg (bs : List Byte) : Pg where
  family := field bs 0 1
  k := field bs 1 1
  m := field bs 2 1
  stripLog := field bs 3 1
  state := pgStateOf (field bs 4 1)
  encSpan := field bs 5 1
  cluSpan := field bs 6 1
  gen := BitVec.ofNat 32 (field bs 8 4)
  fill := field bs 0xC 4
  slots := (List.range (field bs 1 1 + field bs 2 1)).map fun i => field bs 0x10 36 / 512 ^ i % 512
  failed := BitVec.ofNat 32 (field bs 0x34 4)

/-- The code of a slot's service state (R286). -/
def SlotState.code : SlotState → Nat
  | .absent => 0
  | .joined => 1
  | .pool => 2
  | .failed => 3

/-- The service state with a code. -/
def slotStateOf (n : Nat) : SlotState :=
  match n with
  | 1 => .joined
  | 2 => .pool
  | 3 => .failed
  | _ => .absent

/-- What a SLOT record says of a slot (R257, R364, R400): tag, drain, service state, failure, DATA_EXT, and the cluster
and serial of its drive. The spec leaves the layout to the type; this one is the model's. DESIGN CHOICE
(log 20). -/
def slotBytes (r : SlotRec) (x : SlotStat) : List Byte :=
  leBytes 1 ((if r.tagValid then 1 else 0) + (if r.drain then 2 else 0) + (if r.served then 4 else 0) +
      (if x.lastRes then 8 else 0) + (if x.returned then 16 else 0)) ++
    leBytes 1 r.encl ++ leBytes 1 r.state.code ++ leBytes 1 r.failWhy ++ leBytes 4 r.dataExt ++ leBytes 8 r.failTick ++
    leBytes 1 (x.cluster.getD 0xF) ++ zeros 7 ++ takePad 20 x.serial ++ takePad 20 x.failedSerial

/-- The slot's placement state after a SLOT record; a drive that joins takes a map with every extent free (R389). -/
def slotOf (bs : List Byte) (old : SlotRec) (fresh : Bool) : SlotRec where
  tagValid := field bs 0 1 % 2 = 1
  encl := field bs 1 1
  drain := field bs 0 1 / 2 % 2 = 1
  state := slotStateOf (field bs 2 1)
  refused := old.refused
  dataExt := field bs 4 4
  used := if fresh then [] else old.used
  failWhy := field bs 3 1
  failTick := field bs 8 8
  served := field bs 0 1 / 4 % 2 = 1

/-- Serial bytes as they were before padding: an all-zero field is no serial. -/
def serialOf (bs : List Byte) : List Byte := if bs.all (· == 0) then [] else bs

/-- What the drive ports keep after a SLOT record. -/
def statOf (bs : List Byte) (old : SlotStat) : SlotStat where
  refuse := old.refuse
  causes := old.causes
  serial := serialOf (slice bs 24 20)
  cluster := if field bs 16 1 = 0xF then none else some (field bs 16 1)
  lastRes := field bs 0 1 / 8 % 2 = 1
  returned := field bs 0 1 / 16 % 2 = 1
  failedSerial := serialOf (slice bs 44 20)

/-- The code of a volume state (R173). -/
def VolState.code : VolState → Nat
  | .online => 0
  | .readOnly => 1
  | .offline => 2
  | .deleting => 3

/-- What a VOLUME record says (R168, R173): the volume record's first 17 bytes; a size of 0 names no volume any more. The
layout is the model's. DESIGN CHOICE (log 20). -/
def volBytes : Option Volume → List Byte
  | none => zeros 17
  | some v => leBytes 8 v.size ++ leBytes 1 v.family ++ leBytes 1 v.k ++ leBytes 1 v.m ++ leBytes 1 v.stripLog ++
      leBytes 1 v.piBytes ++ leBytes 1 v.fdLevel ++ leBytes 1 v.fdMin ++ leBytes 1 v.state.code ++ leBytes 1 v.owner

/-- A volume read from its bytes. -/
def parseVol (bs : List Byte) : Option Volume :=
  if field bs 0 8 = 0 then none
  else some {
    size := field bs 0 8, family := field bs 8 1, k := field bs 9 1, m := field bs 10 1, stripLog := field bs 11 1
    piBytes := field bs 12 1, fdLevel := field bs 13 1, fdMin := field bs 14 1
    state := match field bs 15 1 with
      | 1 => .readOnly
      | 2 => .offline
      | 3 => .deleting
      | _ => .online
    owner := field bs 16 1 }

/-- The code of a record type (R281). -/
def LType.code : LType → Nat
  | .place => 1
  | .moveStart => 2
  | .moveCommit => 3
  | .moveAbandon => 4
  | .relocStart => 5
  | .relocDone => 6
  | .release => 7
  | .zeroMask => 8
  | .pgUpdate => 9
  | .slot => 10
  | .snapshot => 11
  | .volume => 12
  | .seal => 13

/-- A ledger log record's 128 bytes (R281). -/
def recBytes (r : LRec) : List Byte :=
  let body := leBytes 8 r.seq ++ leBytes 1 r.type.code ++ zeros 1 ++ leBytes 2 r.volume ++ zeros 4 ++ leBytes 8 r.key ++
    takePad 96 r.payload
  body ++ leBytes 8 (crc64 body).toNat

/-- The record types by code (R281). -/
def ltypes : List LType :=
  [.place, .moveStart, .moveCommit, .moveAbandon, .relocStart, .relocDone, .release, .zeroMask, .pgUpdate, .slot, .snapshot,
    .volume, .seal]

/-- A ledger log record read from its 128 bytes; none when its CRC fails or its type is none of R281 (R285). -/
def parseRec (bs : List Byte) : Option LRec :=
  if bs.length = 128 ∧ field bs 0x78 8 = (crc64 (bs.take 0x78)).toNat ∧ field bs 8 1 ≠ 0 then
    (ltypes[field bs 8 1 - 1]?).map fun t =>
      { seq := field bs 0 8, type := t, volume := field bs 0xA 2, key := field bs 0x10 8, payload := slice bs 0x18 96 }
  else none

/-! ### Applying a record (R265, R266, R281) -/

/-- A PGT entry. -/
def getPg (s : State) (n : Nat) : Pg := tabGet Pg.blank s.ledger.pgt n

/-- A PGT entry replaced. -/
def setPg (n : Nat) (p : Pg) (s : State) : State := { s with ledger := { s.ledger with pgt := tabPut Pg.blank s.ledger.pgt n p } }

/-- Extents of a run of a PG's geometry: 2^STRIP_LOG (R247). -/
def Pg.runLen (p : Pg) : Nat := 2 ^ p.stripLog

/-- The runs of a PG's members at a parcel slot, members whose drive failed left out (R248, R251): slot, first, length. -/
def memberRuns (p : Pg) (e : Nat) : List (Nat × Nat × Nat) :=
  ((List.range p.slots.length).filter fun i => !p.failed.getLsbD i).map fun i => (nth 0 p.slots i, e, p.runLen)

/-- The run of a relocation record. -/
def relocRun (len : Nat) : Option Reloc → List (Nat × Nat × Nat)
  | none => []
  | some r => [(r.slot, r.run, len)]

/-- Every run that an entry uses. -/
def entryRuns (s : State) (e : LEntry) : List (Nat × Nat × Nat) :=
  if !e.placed then []
  else
    let p := getPg s e.pg
    memberRuns p e.pslot ++ relocRun p.runLen e.reloc0 ++ relocRun p.runLen e.reloc1

/-- The run that an entry's own member i would have, or that of a valid record. -/
def migRuns (s : State) (m : Migration) : List (Nat × Nat × Nat) := memberRuns (getPg s m.pg) m.run

/-- A Dataset Management – Deallocate of a run that has not been posted is withdrawn: the run is in use again. -/
def keepRun (r : Nat × Nat × Nat) (s : State) : State :=
  dropWork (fun w => match w with
    | .leg _ => false
    | .sub d => d.op == .deallocate && d.slot == r.1 && decide (d.lba < 4194304 + 1024 * (r.2.1 + r.2.2)) &&
        decide (4194304 + 1024 * r.2.1 < d.lba + d.nlb)) s

/-- A run taken on a slot: PLC_RESERVE when its free extents reach the reserve (R264). -/
def takeRun (s0 : State) (r : Nat × Nat × Nat) : State :=
  let s := keepRun r s0
  let x := getSlot s r.1
  let y := { x with used := addRun x.used r.2.1 r.2.2 }
  raiseIf (decide (reserveOf s r.1 < x.freeExt) && decide (y.freeExt ≤ reserveOf s r.1)) 0xB82 (setSlot r.1 y s)

/-- The destages of a parcel planned at this moment, by root JSEQ (R277). -/
def plannedRoots (s : State) (k : Nat) : List Nat :=
  (s.cache.stripes.filter fun p => p.1 / 256 == k).flatMap fun p => (p.2.intents.filter fun i => i.phase != .open_).map (·.root)

/-- A run of a parcel released: it becomes free under R277. -/
def releaseRun (k : Nat) (s : State) (r : Nat × Nat × Nat) : State :=
  let w : FreeWait := { slot := r.1, first := r.2.1, len := r.2.2, intents := plannedRoots s k, tick := s.drone.count }
  { s with ledger := { s.ledger with freeWait := s.ledger.freeWait ++ [w] } }

/-- The records of an entry. -/
def LEntry.relocs (e : LEntry) : List Reloc := [e.reloc0, e.reloc1].filterMap id

/-- The runs of an entry's records whose member has another run in its new records: they stay used until RELOC_DONE (R271). -/
def replacedRuns (s : State) (old e : LEntry) : List (Nat × Nat × Nat) :=
  (old.relocs.filter fun r => e.relocs.any fun x => x.member == r.member && (x.slot != r.slot || x.run != r.run)).map fun r =>
    (r.slot, r.run, (getPg s old.pg).runLen)

/-- The runs kept for a parcel are released (R271). -/
def releaseKept (k : Nat) (s : State) : State :=
  (tabGet [] s.ledger.heldRuns k).foldl (releaseRun k) { s with ledger := { s.ledger with heldRuns := tabErase s.ledger.heldRuns k } }

/-- FILL of a PG changed. -/
def bumpFill (n : Nat) (f : Nat → Nat) (s : State) : State := setPg n { getPg s n with fill := f (getPg s n).fill } s

/-- A parcel's entry replaced: runs taken and released, FILL counted, and the SMC written through (R264, R276, R277,
R301). Runs that a pending record replaced stay used (R271). -/
def applyEntry (k : Nat) (e : LEntry) (s : State) : State :=
  let old := getEntry s k
  let before := entryRuns s old
  let after := entryRuns s e
  let kept := if e.placed then replacedRuns s old e else []
  let s1 := (after.filter fun r => !before.contains r).foldl takeRun
    { s with ledger := { s.ledger with
      heldRuns := if kept.isEmpty then s.ledger.heldRuns else tabInsert s.ledger.heldRuns k (tabGet [] s.ledger.heldRuns k ++ kept) } }
  let s2 := (before.filter fun r => !after.contains r && !kept.contains r).foldl (releaseRun k) s1
  let s3 := if old.placed && !(e.placed && e.pg == old.pg) then bumpFill old.pg (· - 1) s2 else s2
  let s4 := if e.placed && !(old.placed && e.pg == old.pg) then bumpFill e.pg (· + 1) s3 else s3
  smcWrite k e { s4 with ledger := { s4.ledger with entries := tabPut LEntry.blank s4.ledger.entries k e } }

/-- The migration target of a MOVE_START payload: PG, run and reason in bytes 32 to 39. -/
def parseMove (bs : List Byte) : Migration :=
  { pg := field bs 32 4, run := field bs 36 3, reason := field bs 39 1, next := 0, done := 0 }

/-- A snapshot's part as a record carries it (R268): DRN_COUNT, the part's number, and from byte 10 on the terms of up to 14 slots
in part 0 to 255, or the reed wiring in part 256; part 0 begins the snapshot. The layout is the model's.
DESIGN CHOICE (log 20). -/
def applySnapshot (payload : List Byte) (s : State) : State :=
  let tick := field payload 0 8
  let part := field payload 8 2
  let bs := payload.drop 10
  let old := if part = 0 then { tick := tick, wear := [], port := [], wiring := [] }
    else s.ledger.snapshot.getD { tick := tick, wear := [], port := [], wiring := [] }
  let n := if part < 256 then
      ((List.range 14).filter fun i => field bs (6 * i) 2 != 0xFFFF).foldl (fun (x : Snapshot) i =>
        { x with
          wear := tabInsert x.wear (field bs (6 * i) 2) (field bs (6 * i + 2) 2)
          port := tabInsert x.port (field bs (6 * i) 2) (field bs (6 * i + 4) 2) }) old
    else
      { old with wiring := ((List.range 16).filter fun i => field bs (4 * i) 2 != 0xFFFF).map fun i =>
          (field bs (4 * i) 2, BitVec.ofNat 12 (field bs (4 * i + 2) 2)) }
  { s with ledger := { s.ledger with snapshot := some n } }

/-- A slot's terms leave the latest snapshot: until the next one they are 500 (R260). -/
def Snapshot.forget (n : Nat) (x : Snapshot) : Snapshot := { x with wear := tabErase x.wear n, port := tabErase x.port n }

/-- A SLOT record applied: tag, drain, service state and drive (R257, R364, R389, R400); a drive that newly joins has no terms in the
snapshot (R260). -/
def applySlot (n : Nat) (bs : List Byte) (s : State) : State :=
  let old := getSlot s n
  let x := statOf bs (getStat s n)
  let fresh := decide ((getStat s n).serial ≠ x.serial) && !x.serial.isEmpty && x.failedSerial != x.serial
  let t := setStat n x (setSlot n (slotOf bs old fresh) s)
  if fresh then { t with ledger := { t.ledger with
    snapshot := t.ledger.snapshot.map (Snapshot.forget n)
    freeWait := t.ledger.freeWait.filter fun w => w.slot != n
    heldRuns := (t.ledger.heldRuns.map fun p => (p.1, p.2.filter fun r => r.1 != n)).filter fun p => !p.2.isEmpty } }
  else t

/-- A VOLUME record applied: the volume's entry replaced, or taken out. -/
def applyVolume (n : Nat) (v : Option Volume) (s : State) : State :=
  let t := match v with
    | none => tabErase s.host.volumes n
    | some x => tabInsert s.host.volumes n x
  { s with host := { s.host with volumes := t } }

/-- A placed parcel waits for compaction to release its place (R279). -/
def toCompact (k : Nat) (s : State) : State :=
  if (getEntry s k).placed then { s with ledger := { s.ledger with compact := addOnce s.ledger.compact k } } else s

/-- A parcel waits for compaction from the change that fills its ZERO_MASK, until one clears a bit of it (R279). -/
def noteMask (k : Nat) (s : State) : State :=
  if (getEntry s k).zeroMask = BitVec.allOnes 32 then toCompact k s
  else { s with ledger := { s.ledger with compact := s.ledger.compact.erase k } }

/-- The effect of a ledger log record on the placement state (R265, R281). Behind the writes of a commit, of a relocation that becomes
valid and of a parcel that a deletion or a shrink released, the SMC's range is invalidated (R313). -/
def applyRec (r : LRec) (s : State) : State :=
  let k := parcelKey r.volume r.key
  let e := parseLEntry r.payload
  match r.type with
  | .moveStart =>
    let m := parseMove r.payload
    (migRuns s m).foldl takeRun (applyEntry k e { s with ledger := { s.ledger with migs := tabInsert s.ledger.migs k m } })
  | .moveAbandon =>
    let runs := match tabFind s.ledger.migs k with
      | none => []
      | some m => migRuns s m
    runs.foldl (releaseRun k) (applyEntry k e { s with ledger := { s.ledger with migs := tabErase s.ledger.migs k } })
  | .moveCommit => smcInvalidate r.volume r.key 1
      (releaseKept k (applyEntry k e { s with ledger := { s.ledger with migs := tabErase s.ledger.migs k } }))
  | .relocDone => smcInvalidate r.volume r.key 1 (releaseKept k (applyEntry k e s))
  | .place => applyEntry k e s
  | .relocStart => applyEntry k e s
  | .release =>
    let gone := (getVol s r.volume).all fun v => v.state == .deleting || decide (v.parcels ≤ r.key)
    let t := releaseKept k (applyEntry k e s)
    let u := { t with ledger := { t.ledger with compact := t.ledger.compact.erase k, replace := t.ledger.replace.erase k } }
    if gone then smcInvalidate r.volume r.key 1 u else u
  | .zeroMask => noteMask k (applyEntry k e s)
  | .pgUpdate => setPg r.key { parsePg r.payload with fill := (getPg s r.key).fill } s
  | .slot => applySlot r.volume r.payload s
  | .snapshot => applySnapshot r.payload s
  | .volume => applyVolume r.volume (parseVol r.payload) s
  | .seal => s

/-- What a journal record adds to the digest of its tick (R464). -/
def DigestAcc.add (d : DigestAcc) : JRec → DigestAcc
  | .ledger l => { d with ledger := d.ledger ++ recBytes l, lseq := max d.lseq l.seq }
  | .intent i => { d with jseq := max d.jseq i.jseq }
  | .retire j _ _ => { d with jseq := max d.jseq j }
  | .padding => d

/-- A record put at the end of the append queue (R327), and into the tick's digest. -/
def putRec (r : JRec) (s : State) : State :=
  { s with
    cache := { s.cache with appendQ := s.cache.appendQ ++ [r] }
    pair := { s.pair with digest := s.pair.digest.add r } }

/-- A record entered in the journal head (R281): its sequence number and the append queue; a mirrored partner gets it
(R346, R457). -/
def logRec (r : LRec) (s : State) : State :=
  let s1 := putRec (.ledger r) { s with ledger := { s.ledger with seq := r.seq } }
  if s1.pair.mirrored then emit (.frame s1.drone.count (.jrec (.ledger r))) s1 else s1

/-- A ledger change made by this unit: applied and entered in the journal (R265, R281). -/
def ledgerChange (t : LType) (vol key : Nat) (payload : List Byte) (s : State) : State :=
  let r : LRec := { seq := s.ledger.seq + 1, type := t, volume := vol, key := key, payload := payload }
  logRec r (applyRec r s)

/-- A change of a parcel's entry: GEN increments (R252). -/
def changeEntry (t : LType) (k : Nat) (f : LEntry → LEntry) (extra : List Byte) (s : State) : State :=
  let old := getEntry s k
  ledgerChange t (keyVol k) (keyParcel k) (entryBytes { f old with gen := old.gen + 1 } ++ extra) s

/-- A change of a PGT entry's STATE or FAILED_MASK: GEN increments (R249, R250). A PG with FILL 0 goes to FREE instead of
DEGRADED or DRAINING. -/
def changePg (n : Nat) (f : Pg → Pg) (s : State) : State :=
  let old := getPg s n
  let p := f old
  let p1 := if old.fill = 0 ∧ (p.state = .degraded ∨ p.state = .draining) then { p with state := .free } else p
  ledgerChange .pgUpdate 0 n (pgBytes { p1 with gen := old.gen + 1 }) s

/-- The transitions of a PG whose FILL has decreased (R250). -/
def settlePg (n : Nat) (s : State) : State :=
  let p := getPg s n
  if p.fill = 0 ∧ (p.state = .degraded ∨ p.state = .draining) then changePg n (fun p => { p with state := .free }) s
  else if p.state = .closed then changePg n (fun p => { p with state := .open_ }) s
  else s

/-- A change of a slot's state (R257, R281). -/
def changeSlot (n : Nat) (f : SlotRec → SlotRec) (g : SlotStat → SlotStat) (s : State) : State :=
  ledgerChange .slot n 0 (slotBytes (f (getSlot s n)) (g (getStat s n))) s

/-- A change of the volume table (R281). -/
def changeVol (n : Nat) (v : Option Volume) (s : State) : State := ledgerChange .volume n 0 (volBytes v) s

/-! ### Choosing a place (R261, R262) -/

/-- PG_LIMIT (R249). -/
def pgLimit (s : State) : Nat :=
  match s.image with
  | none => 262144
  | some im => im.part.srPgt * 16384

/-- The PGs that are not FREE, ascending. -/
def usedPgs (s : State) : List (Nat × Pg) := s.ledger.pgt.filter fun p => p.2.state != .free

/-- The lowest number not in an ascending list of numbers from n on. -/
def lowestGap : Nat → List Nat → Nat
  | n, [] => n
  | n, x :: r => if x = n then lowestGap (n + 1) r else n

/-- The PGT entry that a new PG takes (R262): the lowest FREE one, else the lowest OPEN one with FILL 0. -/
def pgRoom (s : State) : Option Nat :=
  let n := lowestGap 0 ((usedPgs s).map (·.1))
  if n < pgLimit s then some n else ((usedPgs s).find? fun p => p.2.state == .open_ && p.2.fill == 0).map (·.1)

/-- The PG has a volume's geometry (R261). -/
def pgFits (v : Volume) (p : Pg) : Bool := p.family == v.family && p.k == v.k && p.m == v.m && p.stripLog == v.stripLog

/-- The OPEN PGs that may take a parcel of a volume, slots to exclude not among their members. -/
def openPgs (s : State) (v : Volume) (avoid : List Nat) : List (Nat × Pg) :=
  s.ledger.pgt.filter fun p => p.2.state == .open_ && pgFits v p.2 && decide (v.fdMin ≤ spanOf s v.fdLevel p.2.slots) &&
    !(p.2.slots.any avoid.contains)

/-- The score of a set of slots (R261). -/
def scoreOf (s : State) (xs : List Nat) : Nat := maxBy (costOf s) xs + (placOf s).wReed * reedTerm s xs

/-- An existing PG as a place: score, tie, PG, run. -/
structure Place where
  score : Nat
  tie   : Nat
  pg    : Nat
  run   : Nat
deriving DecidableEq, Repr

/-- One OPEN PG tried (R261): the best place so far, and the PGs found without a common run. -/
def tryPg (s : State) (key : Nat) (v : Volume) (a : Option Place × List Nat) (p : Nat × Pg) : Option Place × List Nat :=
  match commonRun s p.2.slots (2 ^ v.stripLog) with
  | none => (a.1, a.2 ++ [p.1])
  | some e =>
    let x : Place := { score := scoreOf s p.2.slots, tie := tieOf s key p.1, pg := p.1, run := e }
    match a.1 with
    | none => (some x, a.2)
    | some b => (if x.score < b.score ∨ (x.score = b.score ∧ x.tie < b.tie) then some x else some b, a.2)

/-- build(v) (R261): members taken one by one. -/
def buildSet (s : State) (key : Nat) (v : Volume) (avoid : List Nat) : Nat → List Nat → Option (List Nat)
  | 0, ms => some ms
  | n + 1, ms =>
    let pool := (poolSlots s).filter fun x => !ms.contains x && !avoid.contains x &&
      decide (reserveOf s x + 2 ^ v.stripLog ≤ (getSlot s x).freeExt)
    let keyOf := fun x => (levelsOf s v.fdLevel).map (fun l => useOf s ms l x) ++
      [costOf s x + (placOf s).wReed * reedSlotTerm s ms x, tieOf s key x]
    match leastBy (fun a b => keyLt (keyOf a) (keyOf b)) pool with
    | none => none
    | some x => buildSet s key v avoid n (ms ++ [x])

/-- The candidate set of R261: none when it misses the failure-domain minimum. -/
def candidateSet (s : State) (key : Nat) (v : Volume) (avoid : List Nat) : Option (List Nat) :=
  (buildSet s key v avoid (v.k + v.m) []).filter fun ms => decide (v.fdMin ≤ spanOf s v.fdLevel ms)

/-- new_pg (R262): the entry is cleared first when it is an OPEN one. -/
def newPg (n : Nat) (v : Volume) (ms : List Nat) (s : State) : State :=
  let s1 := if (getPg s n).state = .free then s else changePg n (fun p => { p with state := .free }) s
  changePg n (fun p => { p with
    family := v.family, k := v.k, m := v.m, stripLog := v.stripLog, state := .open_, fill := 0, slots := ms, failed := 0
    encSpan := spanOf s1 2 ms, cluSpan := spanOf s1 3 ms }) s1

/-- A new set is better than the best existing PG by the 10 % margin (R261). -/
def newWins (s : State) (ms : List Nat) (best : Option Place) : Bool :=
  best.all fun b => decide (10 * scoreOf s ms < 9 * b.score)

/-- place(v, p) (R261, R262): the PG and run chosen, a PG made where the new set wins, PGs without a common run closed. -/
def placeParcel (key : Nat) (v : Volume) (avoid : List Nat) (s : State) : Option (Nat × Nat) × State :=
  let r := (openPgs s v avoid).foldl (tryPg s key v) (none, [])
  let s1 := r.2.foldl (fun t n => changePg n (fun p => { p with state := .closed }) t) s
  let old := r.1.map fun b => (b.pg, b.run)
  match candidateSet s key v avoid with
  | none => (old, s1)
  | some ms =>
    if newWins s ms r.1 then
      match pgRoom s1, commonRun s ms (2 ^ v.stripLog) with
      | none, _ => (old, raise 0xB81 s1)
      | some n, some e => (some (n, e), newPg n v ms s1)
      | some _, none => (old, s1)
    else (old, s1)

/-- A first-write placement (R263, R264): the entry placed, or none (status 0x0A, PLC_NO_PLACE). -/
def firstPlace (key : Nat) (v : Volume) (s : State) : Bool × State :=
  let r := placeParcel key v [] s
  match r.1 with
  | none => (false, raise 0xB80 r.2)
  | some (pg, e) => (true, changeEntry .place key (fun x => { x with
      pg := pg, placed := true, moving := false, fdShort := false, pslot := e, zeroMask := BitVec.allOnes 32
      reloc0 := none, reloc1 := none }) [] r.2)

/-! ### Freeing runs (R277) -/

/-- Drive I/O on a run is planned, placed or in flight. -/
def runBusy (s : State) (w : FreeWait) : Bool :=
  let meets := fun (d : Sub) => d.slot == w.slot && d.op != .deallocate && decide (d.lba < 4194304 + 1024 * (w.first + w.len)) &&
    decide (4194304 + 1024 * w.first < d.lba + d.nlb)
  let works := fun (x : Work) => match x with
    | .leg _ => false
    | .sub d => meets d
  s.drone.queued.any works || s.drone.next.any works || s.drone.inflight.any meets

/-- The conditions of R277 hold: no drive I/O on the run is left, every destage planned on it before the change has retired, and a
mirrored partner has acknowledged the tick of the change. DEDUCED (log 70): the acknowledgement of a tick covers its ledger changes (R461). -/
def runFreeable (s : State) (w : FreeWait) : Bool :=
  !runBusy s w && (s.cache.stripes.all fun p => p.2.intents.all fun i => !w.intents.contains i.root) &&
    (!s.pair.mirrored || decide (w.tick ≤ s.pair.ackTick))

/-- Compaction tells a drive that reports Dataset Management about a freed run (R409). -/
def deallocRun (slot first len : Nat) (s : State) : State :=
  if (slotDrive s slot).any fun d => d.2.info.dsm then
    queueWorks 0 (.background .compaction) false
      [driveSub 0 slot .deallocate (4194304 + 1024 * first) (1024 * len) false [] 0] s
  else s

/-- A released run becomes free: PLC_DRAIN_DONE when a draining slot becomes EMPTY (R277, R287). A run of a drive that has
left the slot changes nothing. -/
def freeWaitRun (s0 : State) (w : FreeWait) : State :=
  let s := deallocRun w.slot w.first w.len s0
  let x := getSlot s w.slot
  let y := { x with used := cutRun x.used w.first w.len }
  raiseIf (x.drain && !x.used.isEmpty && y.used.isEmpty) 0xB86
    (setSlot w.slot y { s with ledger := { s.ledger with freeWait := s.ledger.freeWait.erase w } })

/-- Every released run that may become free does (R277). -/
def freeRuns (s : State) : State := (s.ledger.freeWait.filter (runFreeable s)).foldl freeWaitRun s

/-- RUN_FREE (R277): the run of a slot at a first extent. -/
def execRunFree (slot first : Nat) (s : State) : Host.Outcome State Fault Refusal :=
  match s.ledger.freeWait.find? (fun w => w.slot == slot && w.first == first) with
  | none => .next s
  | some w => if serving s && runFreeable s w then .next (freeWaitRun s w) else .next s

/-! ### Slot tags and drains (R255 to R259) -/

/-- The slot is a member of a PG that is not FREE (R258). -/
def slotInPg (s : State) (n : Nat) : Bool := (usedPgs s).any fun p => p.2.slots.contains n

/-- REFUSED of PLC_SLOT_STAT set (R257, R258). -/
def refuseSlot (n : Nat) (s : State) : State := setSlot n { getSlot s n with refused := true } s

/-- The service state of a slot whose drive is in service, by its tag (R255). -/
def joinState (tag : Bool) (st : SlotState) : SlotState :=
  match st with
  | .joined => if tag then .pool else .joined
  | .pool => if tag then .pool else .joined
  | x => x

/-- A write of PLC_SLOT_TAG (R257, R258). -/
def writeTag (n : Nat) (w : Word) (s : State) : State :=
  let r := getSlot s n
  let v := bit w 0
  let e := bits w 8 8
  if !fenceHolder s then refuseSlot n s
  else if slotInPg s n && ((r.tagValid && !v) || e != r.encl) then raise 0xB87 (refuseSlot n s)
  else changeSlot n (fun x => { x with tagValid := v, encl := e, state := joinState v x.state }) id s

/-- A migration abandoned (R278): MOVING cleared, the target run released. -/
def abandonMove (k : Nat) (s : State) : State :=
  if (tabFind s.ledger.migs k).isNone then s
  else
    let s1 := changeEntry .moveAbandon k (fun e => { e with moving := false }) [] s
    raise 0xB85 { s1 with ledger := { s1.ledger with abandoned := sat 65535 (s1.ledger.abandoned + 1) } }

/-- The migrations with a target member in a slot. -/
def movesInto (s : State) (slot : Nat) : List Nat :=
  (s.ledger.migs.filter fun m => (getPg s m.2.pg).slots.contains slot).map (·.1)

/-- The drain of a slot begins (R259): its PGs enter DRAINING, migrations into it are abandoned (R278). -/
def beginDrain (n : Nat) (s : State) : State :=
  let s1 := changeSlot n (fun x => { x with drain := true }) id s
  let s2 := (movesInto s1 n).foldl (fun t k => abandonMove k t) s1
  let s3 := ((usedPgs s2).filter fun p => p.2.slots.contains n && (p.2.state == .open_ || p.2.state == .closed)).foldl
    (fun t p => changePg p.1 (fun x => { x with state := .draining }) t) s2
  raiseIf (getSlot s3 n).used.isEmpty 0xB86 s3

/-- The drain of a slot ends (R259, R250): its PGs return to OPEN when no other member drains and none failed. -/
def endDrain (n : Nat) (s : State) : State :=
  let s1 := changeSlot n (fun x => { x with drain := false }) id s
  ((usedPgs s1).filter fun p => p.2.state == .draining && p.2.slots.contains n && p.2.failed == 0 &&
      !(p.2.slots.any fun x => (getSlot s1 x).drain)).foldl
    (fun t p => changePg p.1 (fun x => { x with state := .open_ }) t) s1

/-- A write of PLC_SLOT_CTL (R257, R259): one that leaves DRAIN as it is is a ledger change too. -/
def writeSlotCtl (n : Nat) (drain : Bool) (s : State) : State :=
  if !fenceHolder s then refuseSlot n s
  else if drain && !(getSlot s n).drain then beginDrain n s
  else if !drain && (getSlot s n).drain then endDrain n s
  else changeSlot n id id s

/-- DRAIN_SET (R259). -/
def execDrainSet (f slot : Nat) (s : State) : Host.Outcome State Fault Refusal :=
  if pfFull s f && slot < 384 then .next (writeSlotCtl slot true s) else .next s

/-- DRAIN_CLEAR (R259). -/
def execDrainClear (f slot : Nat) (s : State) : Host.Outcome State Fault Refusal :=
  if pfFull s f && slot < 384 then .next (writeSlotCtl slot false s) else .next s

/-! ### Snapshots (R260, R268) -/

/-- wear(s) as it is measured now. -/
def wearNowOf (s : State) (x : Nat) : Nat := 10 * min (tabGet 0 s.ledger.wearNow x) 100

/-- port(s) as it is measured now: charge over growth since the last snapshot. -/
def portNowOf (s : State) (x : Nat) : Nat :=
  let b := nth 0 s.ledger.charged (plcCluster s x)
  let g := nth 0 s.ledger.grown (plcCluster s x)
  if g = 0 then 0 else min 1000 (1000 * b / g)

/-- A list in parts of n. -/
def parts {α : Type} (n : Nat) : Nat → List α → List (List α)
  | 0, _ => []
  | fuel + 1, l => if l.isEmpty then [] else l.take n :: parts n fuel (l.drop n)

/-- The payload of a snapshot's part: DRN_COUNT, the part, and what it says, filled up with ones. -/
def snapBytes (tick part : Nat) (bs : List Byte) : List Byte :=
  leBytes 8 tick ++ leBytes 2 part ++ bs ++ List.replicate (86 - bs.length) 0xFF

/-- The terms of up to 14 slots as a record carries them. -/
def termBytes (s : State) (xs : List Nat) : List Byte :=
  xs.flatMap fun x => leBytes 2 x ++ leBytes 2 (wearNowOf s x) ++ leBytes 2 (portNowOf s x)

/-- The wiring of the reed slots in service as a record carries it (R240, R268). -/
def wiringBytes (s : State) : List Byte :=
  (slotsInService s).flatMap fun n => leBytes 2 n ++ leBytes 2 (slotWiring s n).toNat

/-- The parts of a snapshot in turn. -/
def snapParts (tick : Nat) : Nat → List (List Nat) → State → State
  | _, [], s => s
  | n, xs :: r, s => snapParts tick (n + 1) r (ledgerChange .snapshot 0 0 (snapBytes tick n (termBytes s xs)) s)

/-- A placement snapshot issued (R268); the sums of R260 start again. -/
def takeSnapshot (s : State) : State :=
  let pool := (knownSlots s).filter fun x => (getSlot s x).state == .pool
  let ps := match parts 14 28 pool with
    | [] => [[]]
    | l => l
  let s1 := snapParts s.drone.count 0 ps s
  let s2 := ledgerChange .snapshot 0 0 (snapBytes s.drone.count 256 (wiringBytes s1)) s1
  { s2 with ledger := { s2.ledger with charged := List.replicate 12 0, grown := List.replicate 12 0 } }

/-- A snapshot is due: the fence holder's DRN_COUNT is a multiple of 65,536, and none was taken in this tick (R268). -/
def snapshotDue (s : State) : Bool :=
  serving s && fenceHolder s && s.drone.count != 0 && s.drone.count % 65536 == 0 && !(s.ledger.snapshot.any fun n => n.tick == s.drone.count)

/-- PLACEMENT_SNAPSHOT (R268). -/
def execPlacementSnapshot (s : State) : Host.Outcome State Fault Refusal :=
  if snapshotDue s then .next (takeSnapshot s) else .next s

/-! ### Relocation (R270 to R272) -/

/-- The slots that an entry's members use, with a valid or pending record in place of a member. -/
def entrySlots (s : State) (e : LEntry) : List Nat :=
  (getPg s e.pg).slots ++ [e.reloc0, e.reloc1].filterMap fun r => r.map (·.slot)

/-- The record that names member i. -/
def LEntry.reloc (e : LEntry) (i : Nat) : Option Reloc := e.relocs.find? fun r => r.member == i

/-- The slots that now hold the members of an entry, member i left out: valid records count (R270). -/
def memberSlots (s : State) (e : LEntry) (i : Nat) : List Nat :=
  let p := getPg s e.pg
  ((List.range p.slots.length).filter fun j => j != i).map fun j =>
    match e.reloc j with
    | some r => r.slot
    | none => nth 0 p.slots j

/-- A slot in place of member i leaves the parcel below its failure-domain minimum: the first key element of R270 is 1. -/
def relocShort (s : State) (v : Volume) (e : LEntry) (i t : Nat) : Bool :=
  !decide (v.fdMin ≤ spanOf s v.fdLevel (memberSlots s e i ++ [t]))

/-- The target slot for member i of a parcel (R270), with its run and whether it breaks the failure-domain minimum. -/
def relocTarget (s : State) (k : Nat) (v : Volume) (e : LEntry) (i : Nat) : Option (Nat × Nat × Bool) :=
  let others := memberSlots s e i
  let len := 2 ^ v.stripLog
  let pool := (poolSlots s).filter fun t => !(entrySlots s e).contains t && decide (len ≤ (getSlot s t).freeExt)
  let keyOf := fun t => (if relocShort s v e i t then 1 else 0) :: (levelsOf s v.fdLevel).map (fun l => useOf s others l t) ++ [costOf s t, tieOf s k t]
  let fit := pool.filter fun t => (freeRun s [t] len).isSome
  match leastBy (fun a b => keyLt (keyOf a) (keyOf b)) fit with
  | none => none
  | some t => (freeRun s [t] len).map fun r => (t, r, relocShort s v e i t)

/-- A record put into an entry: over the one that names its member, or into a free one. -/
def LEntry.putReloc (r : Reloc) (e : LEntry) : LEntry :=
  if e.reloc0.any (fun x => x.member == r.member) then { e with reloc0 := some r }
  else if e.reloc1.any (fun x => x.member == r.member) then { e with reloc1 := some r }
  else if e.reloc0.isNone then { e with reloc0 := some r }
  else { e with reloc1 := some r }

/-- RELOC_START (R271): the target recorded with PENDING = 1. -/
def startReloc (k i slot run : Nat) (s : State) : State :=
  changeEntry .relocStart k (LEntry.putReloc { member := i, valid := false, pending := true, slot := slot, run := run }) [] s

/-- The records made valid (R271). -/
def validate : Option Reloc → Option Reloc
  | some r => some { r with valid := r.valid || r.pending, pending := false }
  | none => none

/-- RELOC_DONE (R271): PENDING records become VALID; `short` is whether a target's first key element was 1. -/
def finishReloc (k : Nat) (short : Bool) (s : State) : State :=
  raiseIf short 0xB83 (changeEntry .relocDone k (fun x => { x with
    reloc0 := validate x.reloc0, reloc1 := validate x.reloc1, fdShort := x.fdShort || short }) [] s)

/-- A parcel queued for re-placement (R272, R287). -/
def queueReplace (k : Nat) (s : State) : State :=
  if s.ledger.replace.contains k then s
  else raise 0xB84 { s with ledger := { s.ledger with replace := s.ledger.replace ++ [k] } }

/-! ### Migration (R273 to R278) -/

/-- Every placed parcel of a PG, ascending. -/
def parcelsIn (s : State) (pg : Nat) : List Nat :=
  (s.ledger.entries.filter fun p => p.2.placed && p.2.pg == pg).map (·.1)

/-- The pool slot that is greatest by a term, the lowest number on a tie. -/
def greatestSlot (s : State) (f : Nat → Nat) : Option Nat :=
  leastBy (fun a b => decide (f b < f a)) ((knownSlots s).filter fun x => (getSlot s x).state == .pool)

/-- The pool slot that is least by a term. -/
def leastSlot (s : State) (f : Nat → Nat) : Option Nat :=
  leastBy (fun a b => decide (f a < f b)) ((knownSlots s).filter fun x => (getSlot s x).state == .pool)

/-- The parcel may start to move (R273): for reasons 0 to 2 always, for reasons 3 and 4 unless it is being rebuilt (DESIGN CHOICE,
log 70). -/
def movable (s : State) (reason k : Nat) : Bool :=
  let e := getEntry s k
  e.placed && !e.moving && (decide (reason < 3) || !(s.array.active.any (fun r => r.key == k) || e.relocs.any (·.pending)))

/-- Parcels of the lowest PG that contains the greatest slot, when the spread by a term is above a limit (R273). -/
def spreadParcels (s : State) (f : Nat → Nat) (limit : Nat) : List Nat :=
  match greatestSlot s f, leastSlot s f with
  | some a, some b =>
    if limit < f a - f b then
      match (usedPgs s).find? fun p => p.2.slots.contains a && decide (0 < p.2.fill) with
      | none => []
      | some p => parcelsIn s p.1
    else []
  | _, _ => []

/-- The parcels of a migration reason, in order (R273). -/
def moveParcels (s : State) (reason : Nat) : List Nat :=
  match reason with
  | 0 => ((knownSlots s).filter fun x => (getSlot s x).drain).flatMap fun x =>
      ((usedPgs s).filter fun p => p.2.slots.contains x).flatMap fun p => parcelsIn s p.1
  | 1 => s.ledger.replace
  | 2 => (s.ledger.entries.filter fun p => p.2.placed && (p.2.fdShort || p.2.relocs.any (·.valid))).map (·.1)
  | 3 => spreadParcels s (fillTerm s) s.ledger.spread
  | _ => spreadParcels s (wearTerm s) s.ledger.wearSpread

/-- The slots that a migration's target excludes (R273). -/
def moveAvoid (s : State) (reason k : Nat) : List Nat :=
  match reason with
  | 1 => []
  | 2 => (greatestSlot s (fillTerm s)).toList
  | _ => (getPg s (getEntry s k).pg).slots

/-- The target is good enough for reasons 3 and 4: its worst term is below the greatest minus half the spread. -/
def moveGain (s : State) (reason pg : Nat) : Bool :=
  let f := if reason = 3 then fillTerm s else wearTerm s
  let limit := if reason = 3 then s.ledger.spread else s.ledger.wearSpread
  reason < 3 || (greatestSlot s f).any fun a => decide (maxBy f (getPg s pg).slots + limit / 2 < f a)

/-- A migration of one parcel tried (R273, R274): MOVE_START with its target and whether it started. What place() does on the way
stays. -/
def startMove (reason k : Nat) (s : State) : Bool × State :=
  match getVol s (keyVol k) with
  | none => (false, s)
  | some v =>
    let r := placeParcel k v (moveAvoid s reason k) s
    match r.1 with
    | none => (false, r.2)
    | some (pg, e) =>
      if !moveGain r.2 reason pg || pg = (getEntry s k).pg then (false, r.2)
      else
        let s1 := changeEntry .moveStart k (fun x => { x with moving := true }) (leBytes 4 pg ++ leBytes 3 e ++ leBytes 1 reason) r.2
        (true, { s1 with ledger := { s1.ledger with replace := s1.ledger.replace.erase k } })

/-- The parcels that may start to move, reasons and parcels in order (R273). -/
def moveQueue (s : State) : List (Nat × Nat) :=
  (if s.ledger.maxMoving = 0 then [0, 1, 2] else [0, 1, 2, 3, 4]).flatMap fun r =>
    ((moveParcels s r).filter (movable s r)).map fun k => (r, k)

/-- The first migration that can start does. -/
def nextMove (s : State) : State :=
  ((moveQueue s).foldl (fun (a : Bool × State) x => if a.1 then a else startMove x.1 x.2 a.2) (false, s)).2

/-- The number of parcels MOVING. -/
def movingCount (s : State) : Nat := s.ledger.migs.length

/-- MOVE_START (R273, R274). -/
def execMoveStart (s : State) : Host.Outcome State Fault Refusal :=
  if serving s && fenceHolder s && !dumping s && restoreEnded s && decide (movingCount s < max 1 s.ledger.maxMoving) then
    .next (nextMove s)
  else .next s

/-- MOVE_COMMIT's change (R276): the entry names the target; FILL of both PGs changes. -/
def commitMove (k : Nat) (m : Migration) (s : State) : State :=
  let src := (getEntry s k).pg
  settlePg src (changeEntry .moveCommit k (fun e => { e with
    pg := m.pg, pslot := m.run, moving := false, fdShort := false, reloc0 := none, reloc1 := none }) [] s)

/-- DESTAGE_HIGH_PCT has been reached while a stripe of the parcel is dirty (R278), as `high` says. -/
def moveDirty (s : State) (k : Nat) : Bool := s.cache.stripes.any fun p => p.1 / 256 == k && !p.2.intents.isEmpty

/-! ### Release (R279) -/

/-- A parcel's place released (R279). -/
def releaseParcel (k : Nat) (s : State) : State :=
  let pg := (getEntry s k).pg
  settlePg pg (changeEntry .release k (fun e => { e with
    placed := false, pg := 0, pslot := 0, moving := false, fdShort := false, reloc0 := none, reloc1 := none
    zeroMask := BitVec.allOnes 32 }) [] (abandonMove k s))

/-- Compaction can release the parcel's place (R279): it waits for that, its ZERO_MASK is full, and no intent holds data
of it. -/
def releasable (s : State) (k : Nat) : Bool :=
  let e := getEntry s k
  e.placed && s.ledger.compact.contains k && e.zeroMask == BitVec.allOnes 32 &&
    !(s.cache.stripes.any fun p => p.1 / 256 == k && !p.2.intents.isEmpty)

/-- RELEASE (R279). -/
def execRelease (vol parcel : Nat) (s : State) : Host.Outcome State Fault Refusal :=
  let k := parcelKey vol parcel
  if serving s && fenceHolder s && releasable s k then .next (releaseParcel k s) else .next s

/-! ### PLC registers (R286) -/

/-- PLC_PG_SEL written: the entry copied as one image. -/
def writePgSel (w : Word) (s : State) : State :=
  { s with ledger := { s.ledger with pgSel := bits w 0 18, pgData := pgBytes (getPg s (bits w 0 18)) } }

/-- PLC_MIG_CFG written: in force from the next compilation. Only the fence holder starts migrations, so only there has the value
an effect; the other unit keeps it for the time when it holds the fence. -/
def writeMigCfg (w : Word) (s : State) : State :=
  { s with ledger := { s.ledger with migNew := some (bits w 0 10, bits w 16 10, bits w 32 8) } }

/-- The written PLC_MIG_CFG takes effect. -/
def adoptMigCfg (s : State) : State :=
  match s.ledger.migNew with
  | none => s
  | some (a, b, c) =>
    { s with ledger := { s.ledger with migNew := none, spread := a, wearSpread := b, maxMoving := c } }

/-- PLC_SLOT_STAT[s] as it reads. EMPTY is 0 in an ABSENT slot, as its reset value has it. -/
def slotStatWord (s : State) (n : Nat) : Word :=
  let r := getSlot s n
  put r.state.code 0 ||| putB r.drain 2 ||| putB (r.state != .absent && r.used.isEmpty) 3 ||| putB r.refused 4 ||| put r.dataExt 16 |||
    put r.usedExt 40

/-- PLC_SLOT_TAG[s] as it reads; CLUSTER is 0xF while no drive is attached. -/
def slotTagWord (s : State) (n : Nat) : Word :=
  let r := getSlot s n
  putB r.tagValid 0 ||| put r.encl 8 ||| put ((slotCluster s n).getD 0xF) 16

/-- A placement or ledger register of the PLC block as it reads, by offset (R286); the rest of the block belongs to 11. -/
def plcRead (s : State) (off : Nat) : Word :=
  let l := s.ledger
  let cfg := l.migNew.getD (l.spread, l.wearSpread, l.maxMoving)
  if off = 0x00 then put (pgLimit s) 0 ||| put (usedPgs s).length 32
  else if off = 0x08 then put ((l.snapshot.map (·.tick)).getD 0) 0
  else if off = 0x10 then put cfg.1 0 ||| put cfg.2.1 16 ||| put cfg.2.2 32
  else if off = 0x18 then put (movingCount s) 0 ||| put l.abandoned 32
  else if off = 0x20 then put l.ckptSeq 0
  else if off = 0x28 then put l.logSeq 0
  else if off = 0x30 then put l.pages.length 0 ||| putB l.aboveHigh 21 ||| put l.misses 32
  else if off = 0x40 then put l.pgSel 0
  else if 0x80 ≤ off ∧ off < 0xC0 then fieldW l.pgData (off - 0x80)
  else if 0x1000 ≤ off ∧ off < 0x1C00 then slotTagWord s ((off - 0x1000) / 8)
  else if 0x2000 ≤ off ∧ off < 0x2C00 then putB (getSlot s ((off - 0x2000) / 8)).drain 0
  else if 0x3000 ≤ off ∧ off < 0x3C00 then slotStatWord s ((off - 0x3000) / 8)
  else 0

end Sys2Proof.Machine
end

