-- ==== Sys2Proof/Machine/Stripe.lean ====
section
/-! DEFINITION. Stripes: where a block lies (R6, R248), which members are erased (R369), how a plan reads the blocks of a
stripe around failures, and the reed legs that encode, update, decode and check them (R222). -/

namespace Sys2Proof.Machine

open Sys2Proof

/-! ### Geometry (R6) -/

/-- A stripe's key: parcel key and stripe. -/
def stripeKey (pk j : Nat) : Nat := pk * 256 + j

/-- The stripe that holds block b of a volume. -/
def Volume.stripeOf (n : Nat) (v : Volume) (b : Nat) : Nat :=
  stripeKey (parcelKey n (b / v.parcelBlocks)) (b % v.parcelBlocks / v.stripe)

/-- The first block of a stripe. -/
def Volume.firstOf (v : Volume) (key : Nat) : Nat := keyParcel (key / 256) * v.parcelBlocks + key % 256 * v.stripe

/-- The volume of a stripe. -/
def stripeVol (s : State) (key : Nat) : Option Volume := getVol s (keyVol (key / 256))

/-- The tag of the block at position x of strip i: 64 · x + i. -/
def blockTag (x i : Nat) : Nat := 64 * x + i

/-- The tag of block q of a stripe, in volume order. -/
def Volume.tagOf (v : Volume) (q : Nat) : Nat := blockTag (q % v.strip) (q / v.strip)

/-- The volume order of a data tag. -/
def Volume.blockOf (v : Volume) (t : Nat) : Nat := t % 64 * v.strip + t / 64

/-- A block of zeros with its protection bytes (R156). -/
def zeroBlock (v : Volume) : List Byte :=
  zeros 4096 ++ zeroPi v.piBytes (if v.piBytes = 0 then [] else guardBytes v.piBytes (zeros 4096))

/-- The zero-mask group of a stripe is set, or its parcel has no place (R254). -/
def groupZero (e : LEntry) (key : Nat) : Bool := !e.placed || e.zeroMask.getLsbD (key % 256 / 8)

/-- A family of the running image; a family of none when the image lacks it. -/
def familyOf (s : State) (n : Nat) : Family :=
  ((s.image.map (·.families)).getD []).find? (fun f => f.id == n) |>.getD
    { id := n, kind := 4, kMax := 0, mMax := 0, stripMask := 0, localGroups := 0, matrix := [], groupMap := [] }

/-! ### Members (R248, R369, R367) -/

/-- The slot serves reads and writes: JOINED or in the pool (R255). -/
def slotServes (s : State) (n : Nat) : Bool := (getSlot s n).state == .joined || (getSlot s n).state == .pool

/-- Where member i of an entry lies: slot and run (R248). -/
def memberAt (s : State) (e : LEntry) (i : Nat) : Nat × Nat :=
  match e.relocs.find? (fun r => r.valid && r.member == i) with
  | some r => (r.slot, r.run)
  | none => (nth 0 (getPg s e.pg).slots i, e.pslot)

/-- Member i is erased: its blocks must be reconstructed (R369). -/
def memberErased (s : State) (e : LEntry) (i : Nat) : Bool :=
  match e.reloc i with
  | some r => !r.valid || !slotServes s r.slot
  | none => (getPg s e.pg).failed.getLsbD i || !slotServes s (nth 0 (getPg s e.pg).slots i)

/-- A failed drive is a survivor of last resort: failed with WHY 5, 6 or 7 and present (R367, R390). -/
def lastResort (s : State) (n : Nat) : Bool :=
  let r := getSlot s n
  r.state == .failed && 5 ≤ r.failWhy && (slotDrive s n).isSome

/-- The erased members of an entry. -/
def erasedOf (s : State) (v : Volume) (e : LEntry) : List Nat := (List.range (v.k + v.m)).filter (memberErased s e)

/-- Drive LBA of position x of strip i in stripe j (R248). -/
def stripLba (s : State) (v : Volume) (e : LEntry) (j i x : Nat) : Nat :=
  4194304 + 1024 * (memberAt s e i).2 + v.strip * j + x

/-! ### Protection bytes on the drives (R412) -/

/-- The drive keeps 8-byte protection information in the first bytes of its metadata. -/
def piFirstOn (s : State) (slot : Nat) : Bool := (slotDrive s slot).any fun d => d.2.info.piFmt != 0 && d.2.info.piFirst

/-- The 4,112 bytes that a block takes on a drive. -/
def packBlock (first : Bool) (p : Nat) (b : List Byte) : List Byte :=
  let pi := slice b 4096 p
  takePad 4096 b ++ (if first && p == 8 then pi ++ zeros 8 else zeros (16 - p) ++ pi)

/-- A block read back from its 4,112 bytes. -/
def unpackBlock (first : Bool) (p : Nat) (raw : List Byte) : List Byte :=
  takePad 4096 raw ++ (if first && p == 8 then slice raw 4096 8 else slice raw (4112 - p) p)

/-- The largest transfer to a drive in LBAs: min(MDTS, 1 MiB) (R407). -/
def maxLbas (s : State) (slot : Nat) : Nat :=
  match slotDrive s slot with
  | none => 256
  | some d => if d.2.info.mdts = 0 then 256 else min 256 (2 ^ d.2.info.mdts)

/-! ### Drive transfers of strips -/

/-- Ascending positions as runs (first, length). -/
def runsOf : List Nat → List (Nat × Nat)
  | [] => []
  | x :: r =>
    match runsOf r with
    | (y, n) :: t => if x + 1 = y then (x, n + 1) :: t else (x, 1) :: (y, n) :: t
    | [] => [(x, 1)]

/-- A run cut into pieces of at most `mx` (R407). -/
def cutLen (mx : Nat) : Nat → Nat × Nat → List (Nat × Nat)
  | 0, _ => []
  | fuel + 1, (a, n) => if n = 0 then [] else (a, min mx n) :: cutLen mx fuel (a + min mx n, n - mx)

/-- The pieces of some positions on a slot. -/
def piecesOf (s : State) (slot : Nat) (xs : List Nat) : List (Nat × Nat) :=
  (runsOf xs).flatMap fun r => cutLen (maxLbas s slot) (r.2 + 1) r

/-- A transfer of strip i carries the volume's protection bytes where it is a data strip, for the drive to check (R413). -/
def withPi (v : Volume) (i : Nat) (w : Work) : Work :=
  match w with
  | .leg l => .leg l
  | .sub d => .sub { d with pi := if i < v.k then v.piBytes else 0 }

/-- Reads of positions of strip i (R98, R407). -/
def readsOf (s : State) (v : Volume) (e : LEntry) (j i : Nat) (xs : List Nat) : List Work :=
  let slot := (memberAt s e i).1
  (piecesOf s slot xs).map fun r =>
    withPi v i (driveSub (blockTag r.1 i) slot .read (stripLba s v e j i r.1) r.2 false [] (4112 * r.2))

/-- The drive reports a volatile write cache, so its strip writes carry FUA (R332). -/
def fuaOn (s : State) (slot : Nat) : Bool := (slotDrive s slot).any fun d => d.2.info.vwc

/-- Writes of blocks at positions of strip i of a parcel's place; `at_` is the slot and run (R332, R407, R412). A write whose
source lies in the waystation reserves its buffer: parity always, and data where `way` says so (R98). -/
def writesAt (s : State) (v : Volume) (way : Bool) (at_ : Nat × Nat) (j i : Nat) (bs : Tab (List Byte)) : List Work :=
  let first := piFirstOn s at_.1
  (piecesOf s at_.1 (bs.map (·.1))).map fun r =>
    withPi v i (driveSub (blockTag r.1 i) at_.1 .write (4194304 + 1024 * at_.2 + v.strip * j + r.1) r.2 (fuaOn s at_.1)
      ((List.range r.2).flatMap fun q => packBlock first v.piBytes (tabGet [] bs (r.1 + q)))
      (if way || decide (v.k ≤ i) then 4112 * r.2 else 0))

/-- Writes of blocks of strip i in stripe j of a placed entry, data from cache pages. -/
def writesOf (s : State) (v : Volume) (e : LEntry) (j i : Nat) (bs : Tab (List Byte)) : List Work :=
  writesAt s v false (memberAt s e i) j i bs

/-- Bytes as drive LBAs with their zero metadata (R410). -/
def lbaData (bs : List Byte) : List Byte :=
  (List.range (ceilDiv bs.length 4096)).flatMap fun i => packBlock false 0 (slice bs (4096 * i) 4096)

/-- Writes of consecutive bytes to a drive's reserved area. -/
def areaWrites (s : State) (slot lba : Nat) (bs : List Byte) (fua : Bool) : List Work :=
  let n := ceilDiv bs.length 4096
  (cutLen (maxLbas s slot) (n + 1) (0, n)).map fun r =>
    driveSub r.1 slot .write (lba + r.1) r.2 fua (lbaData (slice bs (4096 * r.1) (4096 * r.2))) 0

/-! ### Plans -/

/-- A plan. -/
def getJob (s : State) (id : Nat) : Option Job := tabFind s.jobs id

/-- A plan changed. -/
def modJob (id : Nat) (f : Job → Job) (s : State) : State :=
  match getJob s id with
  | none => s
  | some j => { s with jobs := tabInsert s.jobs id (f j) }

/-- A plan ends: its waystation buffers are released (R98). -/
def endJob (id : Nat) (s : State) : State :=
  match getJob s id with
  | none => s
  | some j =>
    { s with jobs := tabErase s.jobs id, drone := { s.drone with wayUsed := s.drone.wayUsed - j.reserve } }

/-- A plan ends, and its waystation buffers stay reserved under the plan that uses them next (R98). -/
def passBuffers (old new : Nat) (s : State) : State :=
  match getJob s old with
  | none => s
  | some j =>
    let t := modJob new (fun x => { x with reserve := x.reserve + j.reserve }) s
    { t with jobs := tabErase t.jobs old }

/-- More work for a plan. -/
def moreWork (id : Nat) (ws : List Work) (s : State) : State :=
  match getJob s id with
  | none => s
  | some j => queueWorks id j.cls j.zr ws (modJob id (fun x => { x with left := x.left + ws.length }) s)

/-- The work of a plan leaves the queue and the next caravan, and the plan with it (R96, R98). -/
def cancelJob (id : Nat) (s : State) : State :=
  let placed := s.drone.next.filter fun w => w.job == id
  endJob id (dropWork (fun w => w.job == id) (placed.foldl refund s))

/-- A plan started on a stripe that wants some blocks, some of which are known to be bad or known. -/
def wantJob (p : Purpose) (cls : WorkClass) (zr : Bool) (red : Nat) (want failed : List Nat) (got : Tab (List Byte))
    (s : State) : Nat × State :=
  let r := newJob p cls zr red [] s
  (r.1, modJob r.1 (fun j => { j with want := want, failed := failed, got := got }) r.2)

/-! ### Legs (R87, R222, R224) -/

/-- The bytes of a stored block as reed legs take it, a multiple of 512 (R218, R222). DESIGN CHOICE (log 22): protection bytes
are padded with zeros to 512. -/
def Volume.legBytes (v : Volume) : Nat := if v.piBytes = 0 then 4096 else 4608

/-- The bytes of each input of a leg on one block position: the largest multiple of 512 that keeps its source within the
limit of R87. -/
def chunkLen (s : State) (total inputs : Nat) : Nat := max 512 (min total (legMax s / (512 * max 1 inputs) * 512))

/-- A block cut into the chunks of its legs. -/
def cutBlock (c total : Nat) (b : List Byte) : List (List Byte) :=
  (List.range (ceilDiv total c)).map fun q => slice (takePad total b) (q * c) (min c (total - q * c))

/-- The reed legs of one block position: an operation over blocks with coefficient rows; `dst` are the tags of the outputs,
and `pages` is how many of the inputs lie in cache pages, in HBM (R87). -/
def reedLegs (s : State) (v : Volume) (op : ReedOp) (x : Nat) (ins coeffs : List (List Byte)) (dst : List Nat) (pages : Nat)
    (clusters : BitVec 12) : List Work :=
  let c := chunkLen s v.legBytes ins.length
  let cuts := ins.map (cutBlock c v.legBytes)
  (List.range (ceilDiv v.legBytes c)).map fun q =>
    let n := min c (v.legBytes - q * c)
    .leg { Leg.blank with
      kind := .reed, op := op, tag := 16 * x + q, clusters := clusters, bank := bufferBank s clusters x
      ins := cuts.map fun l => nth [] l q
      coeffs := coeffs, dst := dst.map fun t => 16 * t + q, outs := dst.map fun _ => []
      cost := reedCost n ins.length, hbm := pages * n }

/-- The drive clusters of a stripe (R89). -/
def stripeClusters (s : State) (v : Volume) (e : LEntry) : BitVec 12 :=
  clustersOf s ((List.range (v.k + v.m)).map fun i => (memberAt s e i).1)

/-- How many strips of a list have their block at a position in a cache page. -/
def pagesAmong (pages : List Nat) (x : Nat) (strips : List Nat) : Nat :=
  (strips.filter fun i => pages.contains (blockTag x i)).length

/-- DECODE legs for some strips at a position from their survivors (R226, R227). -/
def decodeLegs (s : State) (v : Volume) (e : LEntry) (x : Nat) (j : Job) (surv outs : List Nat) : List Work :=
  let fam := familyOf s v.family
  reedLegs s v .decode x (surv.map fun i => tabGet [] j.got (blockTag x i))
    (outs.map fun i => decodeRow fam v.k v.m surv i) (outs.map (blockTag x)) (pagesAmong j.pages x surv) (stripeClusters s v e)

/-- ENCODE legs at a position, COPY legs for a mirror (R217, R222). -/
def encodeLegs (s : State) (v : Volume) (x : Nat) (got : Tab (List Byte)) (pages : List Nat) (clusters : BitVec 12) :
    List Work :=
  let fam := familyOf s v.family
  let n := pagesAmong pages x (List.range v.k)
  let ins := (List.range v.k).map fun i => tabGet [] got (blockTag x i)
  let outs := (List.range v.m).map fun i => blockTag x (v.k + i)
  if fam.kind = 5 then reedLegs s v .copy x ins (outs.map fun _ => [1]) outs n clusters
  else reedLegs s v .encode x ins (genMatrix fam v.k v.m) outs n clusters

/-- UPDATE legs at a position for some changed strips with their old blocks and their new ones from cache pages (R222). -/
def updateLegs (s : State) (v : Volume) (x : Nat) (changed : List (Nat × List Byte × List Byte)) (old : List (List Byte))
    (clusters : BitVec 12) : List Work :=
  let c := genMatrix (familyOf s v.family) v.k v.m
  let ins := (changed.flatMap fun p => [p.2.1, p.2.2]) ++ old
  let rows := (List.range v.m).map fun i =>
    (changed.flatMap fun p => [nth 0 (nth [] c i) p.1, nth 0 (nth [] c i) p.1]) ++ unitRow v.m i
  reedLegs s v .update x ins rows ((List.range v.m).map fun i => blockTag x (v.k + i)) changed.length clusters

/-- CHECK legs at a position over all k + m strips (R222, R223). -/
def checkLegs (s : State) (v : Volume) (x : Nat) (got : Tab (List Byte)) (clusters : BitVec 12) : List Work :=
  let fam := familyOf s v.family
  let ins := (List.range (v.k + v.m)).map fun i => tabGet [] got (blockTag x i)
  let rows := (List.range v.m).map fun i => nth [] (genMatrix fam v.k v.m) i ++ unitRow v.m i
  reedLegs s v .check x ins rows [] 0 clusters

/-- Leg outputs joined to blocks: chunk after chunk under each tag. -/
def joinOuts (outs : Tab (List Byte)) : Tab (List Byte) :=
  outs.foldl (fun t p => tabInsert t (p.1 / 16) (tabGet [] t (p.1 / 16) ++ p.2)) []

/-- The outputs of a plan's finished legs become blocks it has; a block of which a leg was abandoned does not. -/
def takeOuts (v : Volume) (j : Job) : Job :=
  { j with
    got := ((joinOuts j.outs).filter fun p => v.legBytes ≤ p.2.length).foldl (fun t p =>
      tabInsert t p.1 (p.2.take (4096 + v.piBytes))) j.got
    outs := [] }

/-- One part of a plan has ended. -/
def partDone (id : Nat) (s : State) : State := modJob id (fun j => { j with left := j.left - 1 }) s

/-- A reed leg has finished: its outputs go to its plan, or the position a CHECK found different. -/
def legOutputs (l : Leg) (s : State) : State :=
  partDone l.job (modJob l.job (fun j =>
    if l.op = .check then { j with lost := if l.diff then addOnce j.lost (l.tag / 16) else j.lost }
    else { j with outs := (l.dst.zip l.outs).foldl (fun t p => tabInsert t p.1 p.2) j.outs }) s)

/-! ### Reading around failures (R226, R369, R371) -/

/-- What a plan needs next at a block position: blocks to read (strip, position), blocks beyond recovery, and a decode. -/
structure Need where
  reads  : List (Nat × Nat)
  lost   : List Nat
  decode : List Work
deriving DecidableEq, Repr

/-- Nothing needed. -/
def Need.none_ : Need := { reads := [], lost := [], decode := [] }

/-- Two needs together. -/
def Need.add (a b : Need) : Need :=
  { reads := a.reads ++ b.reads, lost := a.lost ++ b.lost, decode := a.decode ++ b.decode }

/-- The strips that cannot be read at a position: erased members and media errors; a survivor of last resort counts as
readable only where the others have rank below k (R367, R371). -/
def erasedAt (s : State) (v : Volume) (e : LEntry) (j : Job) (x : Nat) : List Nat :=
  let bad := fun i => j.failed.contains (blockTag x i)
  let er := (List.range (v.k + v.m)).filter fun i => memberErased s e i || bad i
  if recoverable (familyOf s v.family) v.k v.m er then er
  else er.filter fun i => bad i || !lastResort s (memberAt s e i).1

/-- What a plan needs at position x: each block it wants and lacks is read from its member, or decoded from the
survivors, which are read first; with survivors of rank below k it is lost (R369, R371). -/
def needAt (s : State) (v : Volume) (e : LEntry) (j : Job) (x : Nat) : Need :=
  let missing := (List.range (v.k + v.m)).filter fun i =>
    j.want.contains (blockTag x i) && (tabFind j.got (blockTag x i)).isNone && !j.lost.contains (blockTag x i)
  let er := erasedAt s v e j x
  let direct := missing.filter fun i => !er.contains i
  let dec := missing.filter er.contains
  if dec.isEmpty then { Need.none_ with reads := direct.map fun i => (i, x) }
  else if !recoverable (familyOf s v.family) v.k v.m er then
    { reads := direct.map (fun i => (i, x)), lost := dec.map (blockTag x), decode := [] }
  else
    let surv := selectSurvivors (familyOf s v.family) v.k v.m er
    let lack := surv.filter fun i => (tabFind j.got (blockTag x i)).isNone
    if lack.isEmpty && direct.isEmpty then { Need.none_ with decode := decodeLegs s v e x j surv dec }
    else { Need.none_ with reads := (lack ++ direct.filter fun i => !lack.contains i).map fun i => (i, x) }

/-- The block positions of some tags. -/
def tagPositions (ts : List Nat) : List Nat := sortBy (fun a b => decide (a ≤ b)) (ts.map (· / 64)).eraseDups

/-- All that a plan needs next. -/
def needOf (s : State) (v : Volume) (e : LEntry) (j : Job) : Need :=
  (tagPositions j.want).foldl (fun a x => a.add (needAt s v e j x)) Need.none_

/-- A DECODE key looked up in the decode row cache: a miss computes the rows and enters them (R228). DESIGN CHOICE (log 76): with all
4,096 entries in use it takes the place of the one that was entered first. -/
def touchRows (key : Nat × Nat × Nat × List Nat) (s : State) : State :=
  if s.reeds.dmxKeys.contains key then s
  else
    { s with reeds := { s.reeds with
      dmxKeys := (if s.reeds.dmxKeys.length < 4096 then s.reeds.dmxKeys else s.reeds.dmxKeys.drop 1) ++ [key]
      dmxMisses := sat 0xFFFFFFFF (s.reeds.dmxMisses + 1) } }

/-- The erased sets that a plan decodes now, for the decode row cache. -/
def decodeKeys (s : State) (v : Volume) (e : LEntry) (j : Job) : List (Nat × Nat × Nat × List Nat) :=
  ((tagPositions j.want).filter fun x => !(needAt s v e j x).decode.isEmpty).map fun x =>
    (v.family, v.k, v.m, erasedAt s v e j x)

/-- A plan that reads whole strips: a rebuild reads strip j of each survivor (R374), a migration and a scrub likewise. -/
def readsStrips (p : Purpose) : Bool :=
  match p with
  | .rebuildRead _ | .moveRead _ | .scrubRead _ | .scrubAgain _ | .verifyRead _ _ _ => true
  | _ => false

/-- Whether the blocks at a position are read one by one: there is a block to reconstruct there, which takes the same
block position of the survivors (R369), unless the plan reads whole strips and no read has failed at it (R371). -/
def readAlone (s : State) (v : Volume) (e : LEntry) (j : Job) (x : Nat) : Bool :=
  (!readsStrips j.purpose || j.failed.any fun t => t / 64 == x) &&
    (erasedAt s v e j x).any fun i => j.want.contains (blockTag x i)

/-- The reads of some positions of strip i: runs, but for the positions that are read alone. -/
def planReads (s : State) (v : Volume) (e : LEntry) (st : Nat) (j : Job) (i : Nat) (xs : List Nat) : List Work :=
  readsOf s v e st i (xs.filter fun x => !readAlone s v e j x) ++
    (xs.filter (readAlone s v e j)).flatMap fun x => readsOf s v e st i [x]

/-- A plan that reads a stripe as a whole, or decodes blocks of it, holds back while strip writes of a destage of the stripe
are in flight: what it read would be neither the old stripe nor the new (R155). -/
def fetchHeld (s : State) (v : Volume) (e : LEntry) (j : Job) (key : Nat) : Bool :=
  ((tabGet { intents := [] } s.cache.stripes key).intents.any fun i => i.phase == .writing || i.phase == .zeroing) &&
    (readsStrips j.purpose || j.purpose == .repair key ||
      (tagPositions j.want).any fun x => (erasedAt s v e j x).any fun i => j.want.contains (blockTag x i))

/-- A plan that destage writes of the stripe wait for, as `fetchHeld` holds plans back behind them (R155, R158): it has read some
of the stripe and not all it needs, or still compares what it read. -/
def fetchOpen (s : State) (key : Nat) : Bool :=
  match stripeVol s key with
  | none => false
  | some v => s.jobs.any fun p => match p.2.purpose with
    | .readPart _ _ k => k == key &&
        (tagPositions p.2.want).any fun x => (erasedAt s v (getEntry s (key / 256)) p.2 x).any fun i => p.2.want.contains (blockTag x i)
    | .verifyRead _ _ k => k == key
    | .verifyCheck _ _ k => k == key
    | .scrubRead k => k == key
    | .scrubCheck k => k == key
    | .scrubAgain k => k == key
    | .repair k => k == key && p.2.left != 0
    | _ => false

/-- What a repair of the stripe has read and not yet entered in the cache is read again behind a destage (R155, R372). -/
def forgetRepairs (key : Nat) (s : State) : State :=
  { s with jobs := tabMap (fun _ j => if j.purpose = .repair key then { j with got := [], outs := [], lost := [] } else j) s.jobs }

/-- The next round of reads and decodes of a plan on a stripe; `true` when it has every block it wants or knows it lost. -/
def advanceFetch (id key : Nat) (s : State) : Bool × State :=
  match getJob s id, stripeVol s key with
  | some j0, some v =>
    let j := takeOuts v j0
    let e := getEntry s (key / 256)
    if fetchHeld s v e j key then (false, s)
    else
      let n := needOf s v e j
      let reads := (List.range (v.k + v.m)).flatMap fun i =>
        planReads s v e (key % 256) j i ((n.reads.filter fun p => p.1 == i).map (·.2))
      let s1 := modJob id (fun _ => { j with lost := j.lost ++ n.lost }) ((decodeKeys s v e j).foldl (fun t k => touchRows k t) s)
      if reads.isEmpty && n.decode.isEmpty then (true, s1) else (false, moreWork id (reads ++ n.decode) s1)
  | _, _ => (true, s)

/-- The stripe that a plan works on. -/
def Purpose.stripe? : Purpose → Option Nat
  | .readPart _ _ k => some k
  | .verifyRead _ _ k => some k
  | .verifyCheck _ _ k => some k
  | .repair k => some k
  | .destageRead k _ => some k
  | .destageEnc k _ => some k
  | .destageWrite k _ => some k
  | .wtLog k _ => some k
  | .rebuildRead k => some k
  | .rebuildWrite k => some k
  | .moveRead k => some k
  | .moveEnc k => some k
  | .moveWrite k => some k
  | .scrubRead k => some k
  | .scrubCheck k => some k
  | .scrubAgain k => some k
  | .parity _ k => some k
  | _ => none

/-- A successful read delivers its blocks to its plan; a read of no stripe delivers its bytes as they are. -/
def storeRead (d : Sub) (data : List Byte) (s : State) : State :=
  match getJob s d.job with
  | none => s
  | some j =>
    match j.purpose.stripe?.bind (stripeVol s) with
    | none => modJob d.job (fun j => { j with got := tabInsert j.got d.tag data }) s
    | some v =>
      let first := piFirstOn s d.slot
      modJob d.job (fun j => { j with got := (List.range d.nlb).foldl (fun t r =>
        tabInsert t (d.tag + 64 * r) (unpackBlock first v.piBytes (slice data (4112 * r) 4112))) j.got }) s

/-- The tags that a drive command covers. -/
def Sub.tags (d : Sub) : List Nat := (List.range d.nlb).map fun r => d.tag + 64 * r

/-- A failed read: its blocks count as erased at their positions (R364, R371). -/
def failRead (d : Sub) (s : State) : State := modJob d.job (fun j => { j with failed := j.failed ++ d.tags }) s

/-- The tags of a plan that its drives reported as media errors, members in service only (R371). -/
def mediaTags (s : State) (key : Nat) (j : Job) : List Nat :=
  j.failed.filter fun t => !memberErased s (getEntry s (key / 256)) (t % 64)

/-- The remaining redundancy of a parcel (R221), for the order of R101. -/
def parcelRed (s : State) (pk : Nat) : Nat :=
  match getVol s (keyVol pk) with
  | none => 0
  | some v => redundancy (familyOf s v.family) v.k v.m (erasedOf s v (getEntry s pk))

/-- In-step input made by this unit: it takes the next ISEQ and, with a mirrored partner, goes out as an INPUT frame
(R457). -/
def inStep (w : InStep) (s : State) : State :=
  let s1 := { s with pair := { s.pair with iseq := s.pair.iseq + 1 } }
  if s.pair.mirrored then emit (.frame s.drone.count (.input s1.pair.iseq w)) s1 else s1

end Sys2Proof.Machine
end

