-- ==== Sys2Proof/Machine/Lost.lean ====
section
/-! DEFINITION. The lost-block list (R379 to R382): coverage, additions, removals and merges. -/

namespace Sys2Proof.Machine

open Sys2Proof

/-- The entry covers block b of a volume (R379). -/
def Lost.covers (l : Lost) (vol b : Nat) : Bool :=
  if l.span then
    (decide (l.volume < vol) || (l.volume == vol && decide (l.first ≤ b))) &&
      (decide (vol < l.volLast) || (vol == l.volLast && decide (b ≤ l.last)))
  else
    l.volume == vol && decide (l.first ≤ b) && decide ((b - l.first) / l.stride < l.count) &&
      decide ((b - l.first) % l.stride < l.run)

/-- Block b of a volume is in the lost-block list; a block beyond the volume's end never is. -/
def isLost (s : State) (vol b : Nat) : Bool :=
  (getVol s vol).any (fun v => decide (b < v.size)) && s.array.lost.any fun l => l.covers vol b

/-- A run of lost blocks as a pattern entry with COUNT 1 (R380). -/
def Lost.runEntry (cause vol first n : Nat) : Lost :=
  { span := false, cause := cause, volume := vol, volLast := vol, first := first, count := 1, last := 0, run := n, stride := n }

/-- Lost blocks of a volume, ascending, as one entry for each contiguous run (R380). -/
def runEntries (cause vol : Nat) (bs : List Nat) : List Lost := (runsOf bs).map fun r => Lost.runEntry cause vol r.1 r.2

/-- One data strip of a whole parcel (R380). -/
def stripEntry (cause vol : Nat) (v : Volume) (p i : Nat) : Lost where
  span := false
  cause := cause
  volume := vol
  volLast := vol
  first := p * v.parcelBlocks + i * v.strip
  count := 256
  last := 0
  run := v.strip
  stride := v.stripe

/-- One block position of one stripe (R380). -/
def positionEntry (cause vol : Nat) (v : Volume) (key x : Nat) : Lost where
  span := false
  cause := cause
  volume := vol
  volLast := vol
  first := v.firstOf key + x
  count := v.k
  last := 0
  run := 1
  stride := v.strip

/-- The last block an entry covers in its last volume. -/
def Lost.lastBlock (l : Lost) : Nat := if l.span then l.last else l.first + (l.count - 1) * l.stride + l.run - 1

/-- Every block of a pattern entry. -/
def Lost.blocks (l : Lost) : List Nat :=
  (List.range l.count).flatMap fun r => (List.range l.run).map fun q => l.first + r * l.stride + q

/-- The order of R382: (VOLUME, first covered block). -/
def lostLe (a b : Lost) : Bool := decide (a.volume < b.volume) || (a.volume == b.volume && decide (a.first ≤ b.first))

/-- d of R382: how far apart two adjacent entries lie. -/
def lostGap (a b : Lost) : Int := ((b.volume : Int) - a.volLast) * 2 ^ 48 + b.first - a.lastBlock

/-- Adjacent entries. -/
def pairsOf : List Lost → List (Lost × Lost)
  | a :: b :: r => (a, b) :: pairsOf (b :: r)
  | _ => []

/-- The gap between two entries holds a block that the command causing the merge writes. -/
def gapWritten (w : Option (Nat × Nat × Nat)) (p : Lost × Lost) : Bool :=
  w.any fun x =>
    let after := decide (p.1.volLast < x.1) || (p.1.volLast == x.1 && decide (p.1.lastBlock + 1 < x.2.1 + x.2.2))
    let before := decide (x.1 < p.2.volume) || (x.1 == p.2.volume && decide (x.2.1 < p.2.first))
    after && before

/-- Two entries as one span (R382), with CAUSE 6 (R379). -/
def joinLost (a b : Lost) : Lost :=
  let later := decide (a.volLast < b.volLast) || (a.volLast == b.volLast && decide (a.lastBlock ≤ b.lastBlock))
  { span := true, cause := 6, volume := a.volume, first := a.first, count := 0, run := 0, stride := 0
    volLast := if later then b.volLast else a.volLast
    last := if later then b.lastBlock else a.lastBlock }

/-- merge() of R382. -/
def mergeLost (w : Option (Nat × Nat × Nat)) (s : State) : State :=
  let ps := pairsOf s.array.lost
  let free := ps.filter fun p => !gapWritten w p
  match leastBy (fun a b : Lost × Lost => decide (lostGap a.1 a.2 < lostGap b.1 b.2)) (if free.isEmpty then ps else free) with
  | none => s
  | some p =>
    raise 0xBA5 { s with array := { s.array with
      lostVer := s.array.lostVer + 1
      lost := insertBy lostLe (joinLost p.1 p.2) ((s.array.lost.erase p.1).erase p.2)
      widened := true
      merges := sat 0xFFFFFFFF (s.array.merges + 1) } }

/-- An entry put into the list, after a merge when it is full (R379, R382). -/
def insertLost (w : Option (Nat × Nat × Nat)) (s : State) (l : Lost) : State :=
  let t := if s.array.lost.length < 4096 then s else mergeLost w s
  { t with array := { t.array with lost := insertBy lostLe l t.array.lost, lostVer := t.array.lostVer + 1 } }

/-- A loss recorded (R379, R380): blocks already covered add no entry; the addition is an in-step input. -/
def addLost (w : Option (Nat × Nat × Nat)) (ls : List Lost) (s : State) : State :=
  if ls.all fun l => l.blocks.all fun b => isLost s l.volume b then s
  else raise 0xBA4 (ls.foldl (fun t l => inStep (.lost l) (insertLost w t l)) s)

/-! ### Removal (R381) -/

/-- A pattern entry without blocks a to z − 1: up to four pieces. -/
def Lost.cutPattern (l : Lost) (a z : Nat) : List Lost :=
  let before := if a < l.first + l.run then 0 else min l.count ((a - l.first - l.run) / l.stride + 1)
  let upto := if z ≤ l.first then 0 else min l.count (ceilDiv (z - l.first) l.stride)
  if upto ≤ before then [l]
  else
    let begin_ := l.first + before * l.stride
    let last := l.first + (upto - 1) * l.stride
    let p1 := if before = 0 then [] else [{ l with count := before }]
    let p2 := if begin_ < a then [{ l with first := begin_, count := 1, run := a - begin_ }] else []
    let p3 := if z < last + l.run then [{ l with first := z, count := 1, run := last + l.run - z }] else []
    let p4 := if upto < l.count then [{ l with first := l.first + upto * l.stride, count := l.count - upto }] else []
    p1 ++ p2 ++ p3 ++ p4

/-- The last block number of any volume. -/
def lastLba : Nat := 2 ^ 48 - 1

/-- A span without blocks a to z − 1 of a volume: up to two spans. -/
def Lost.cutSpan (l : Lost) (vol a z : Nat) : List Lost :=
  let left := if l.volume < vol ∨ (l.volume = vol ∧ l.first < a) then
      if a = 0 then [{ l with volLast := vol - 1, last := lastLba }] else [{ l with volLast := vol, last := a - 1 }]
    else []
  let right := if vol < l.volLast ∨ (vol = l.volLast ∧ z ≤ l.last) then
      if lastLba < z then [{ l with volume := vol + 1, first := 0 }] else [{ l with volume := vol, first := z }]
    else []
  left ++ right

/-- An entry without blocks a to z − 1 of a volume. -/
def Lost.cut (vol a z : Nat) (l : Lost) : List Lost :=
  if l.span then
    if (decide (l.volume < vol) || (l.volume == vol && decide (l.first < z))) &&
        (decide (vol < l.volLast) || (vol == l.volLast && decide (a ≤ l.last))) then
      (l.cutSpan vol a z)
    else [l]
  else if l.volume = vol then l.cutPattern a z
  else [l]

/-- LOST_BLOCK_REMOVE (R381): blocks a to a + n − 1 of a volume leave the list; a piece that the full list has no room
for merges it first. -/
def removeLost (vol a n : Nat) (s : State) : State :=
  if n = 0 then s
  else
    let keep := s.array.lost.filter fun l => l.cut vol a (a + n) == [l]
    let cut := (s.array.lost.filter fun l => l.cut vol a (a + n) != [l]).flatMap (Lost.cut vol a (a + n))
    if keep.length = s.array.lost.length then s
    else cut.foldl (insertLost (some (vol, a, n))) { s with array := { s.array with lost := keep, lostVer := s.array.lostVer + 1 } }

/-- Entries that cover at least one block of a volume within its size (R379, R173 LOST). -/
def lostEntries (s : State) (vol : Nat) (size : Nat) : Nat :=
  (s.array.lost.filter fun l =>
    if l.span then (l.volume < vol || (l.volume == vol && decide (l.first < size))) && decide (vol ≤ l.volLast)
    else l.volume == vol && decide (l.first < size)).length

/-- An entry's 32 bytes (R379). -/
def lostBytes (l : Lost) : List Byte :=
  leBytes 1 (if l.span then 1 else 0) ++ leBytes 1 l.cause ++ leBytes 2 l.volume ++ leBytes 2 l.volLast ++ zeros 2 ++
    leBytes 6 l.first ++ leBytes 2 l.count ++ leBytes 6 l.last ++ zeros 2 ++ leBytes 4 l.run ++ leBytes 4 l.stride

end Sys2Proof.Machine
end

