-- ==== Sys2Proof/Machine/Cache.lean ====
section
/-! DEFINITION. Write cache and journal (10): dirty load and limit, intents and their records, journal appends, the dirty
ceiling, write-through, and the JRN registers. -/

namespace Sys2Proof.Machine

open Sys2Proof

/-! ### Capacities (R39, R325, R327, R354) -/

/-- Slots that a dump uses: in service and JOINED or in the pool (R353). -/
def vaultSlots (s : State) : List Nat := (knownSlots s).filter (slotServes s)

/-- The vault capacity V in bytes (R354). -/
def vaultBytes (s : State) : Nat := (vaultSlots s).length * 2816 * 1048576

/-- Journal head slots (R327). -/
def headSlots (s : State) : Nat :=
  match s.image with
  | none => 0
  | some im => im.part.srJhead * 16384

/-- Records of the HBM journal ring (R327). -/
def ringSize (s : State) : Nat :=
  match s.image with
  | none => 0
  | some im => im.part.hbJournal * 4194304

/-- CACH of the running image. -/
def cachOf (s : State) : Cach :=
  match s.image with
  | none => { dumpRateMbs := 0, coalesceTicks := 0, destageStartPct := 100, destageHighPct := 100 }
  | some im => im.cach

/-- Places that a record takes in the ring (R328). -/
def JRec.size : JRec → Nat
  | .ledger _ => 2
  | _ => 1

/-- Records of the live portion (R333). -/
def ringUsed (s : State) : Nat := sumBy JRec.size s.cache.ring

/-- The ring has room for n records beyond those waiting (R333). -/
def ringRoom (s : State) (n : Nat) : Bool := decide (ringUsed s + sumBy JRec.size s.cache.appendQ + n ≤ ringSize s)

/-! ### Dirty load, limit and level (R324, R325) -/

/-- A stripe's descriptor. -/
def getDesc (s : State) (key : Nat) : StripeDesc := tabGet { intents := [] } s.cache.stripes key

/-- A stripe's descriptor replaced. -/
def setDesc (key : Nat) (d : StripeDesc) (s : State) : State :=
  { s with cache := { s.cache with stripes := tabPut { intents := [] } s.cache.stripes key d } }

/-- Protection bytes per page of a stripe's volume. -/
def piOf (s : State) (key : Nat) : Nat := ((stripeVol s key).map (·.piBytes)).getD 0

/-- Bytes that an intent pins under D (R324): its pages but those held for write-through writes only, and its survivors. -/
def intentBytes (pi : Nat) (i : Intent) : Nat :=
  ((i.blocks.filter fun b => !i.wtOnly.contains b.1).length + i.survivors.length) * (4096 + pi)

/-- The dirty load D (R324). -/
def dirtyLoad (s : State) : Nat :=
  sumBy (fun p : Nat × StripeDesc => sumBy (intentBytes (piOf s p.1)) p.2.intents + 64) s.cache.stripes +
    64 * (ringUsed s + sumBy JRec.size s.cache.appendQ)

/-- The ceiling is treated as zero (R33): held, or its stamp has not advanced for 16 edges. -/
def ceilHeld (s : State) : Bool := s.cache.stale || decide (16 ≤ s.cache.staleEdges)

/-- The dirty limit L (R325). -/
def dirtyLimit (s : State) : Nat :=
  min (if ceilHeld s then 0 else s.cache.ceiling) (min (s.cache.sizeMib * 1048576) (vaultBytes s))

/-- The dirty level (R325). -/
def dirtyLevel (s : State) : Nat := if dirtyLimit s = 0 then 100 else 100 * dirtyLoad s / dirtyLimit s

/-! ### Intents (R328 to R331) -/

/-- A blank OPEN intent of a stripe. -/
def Intent.fresh (jseq tick : Nat) (gen : BitVec 32) (outside : Bool) : Intent where
  root := jseq
  jseq := jseq
  prev := 0
  method := .open_
  phase := .open_
  wt := false
  degraded := false
  zgroup := false
  oldGen := gen
  newGen := gen
  stripMask := 0
  tick := tick
  blocks := []
  zeros := []
  survivors := []
  outside := outside
  wtOnly := []
  eligible := false
  allMark := false
  lostVer := 0
  iseq := 0
  attempt := 0
  replay := false

/-- The journal record of an intent (R328). -/
def Intent.record (key : Nat) (i : Intent) : IntentRec where
  jseq := i.jseq
  method := i.method
  wt := i.wt
  degraded := i.degraded
  zgroup := i.zgroup
  stripe := key
  oldGen := i.oldGen
  newGen := i.newGen
  stripMask := i.stripMask
  prev := i.prev
  tick := i.tick

/-- LOCATOR of a journal record (R328). -/
def locatorBytes (key : Nat) : List Byte := leBytes 8 (keyParcel (key / 256) + key % 256 * 2 ^ 40)

/-- The code of a METHOD (R328). -/
def Method.code : Method → Nat
  | .open_ => 0
  | .full => 1
  | .rmw => 2
  | .recon => 3

/-- The index of a stripe's descriptor. -/
def descIndex (s : State) (key : Nat) : Nat := (s.cache.stripes.map (·.1)).idxOf key

/-- The 64 bytes of an intent record (R328). -/
def intentRecBytes (s : State) (r : IntentRec) : List Byte :=
  let body := leBytes 8 r.jseq ++ leBytes 1 0x80 ++ leBytes 1 r.method.code ++ leBytes 2 (keyVol (r.stripe / 256)) ++
    leBytes 4 ((if r.wt then 1 else 0) + (if r.degraded then 2 else 0) + (if r.zgroup then 4 else 0)) ++
    locatorBytes r.stripe ++ leBytes 4 r.oldGen.toNat ++ leBytes 4 r.newGen.toNat ++ leBytes 4 r.stripMask.toNat ++
    leBytes 4 (descIndex s r.stripe) ++ leBytes 8 r.prev ++ leBytes 6 r.tick ++ zeros 6
  body ++ leBytes 4 (crc32c body).toNat

/-- A survivor's block number in a PAGE frame carries this mark: survivors are pinned with the intent and not among its
dirty blocks (R337). DESIGN CHOICE (log 54). -/
def survivorMark : Nat := 65536

/-- Blocks, zero blocks and survivors of an intent as PAGE frames (R346). A PAGE frame without data says that the descriptor
marks the block zero (R323). DESIGN CHOICE (log 54). -/
def blockFrames (tick key jseq : Nat) (blocks : Tab CBlock) (zs : List Nat) (survivors : Tab CBlock) : List Output :=
  (blocks.map fun p => .frame tick (.page key p.1 jseq p.2.data p.2.pi)) ++
    (zs.map fun z => .frame tick (.page key z jseq [] [])) ++
    survivors.map fun p => .frame tick (.page key (survivorMark + p.1) jseq p.2.data p.2.pi)

/-- A record and the pages it names as frames (R346). -/
def recFrames (s : State) (r : JRec) : List Output :=
  .frame s.drone.count (.jrec r) :: match r with
    | .intent i => ((getDesc s i.stripe).intents.filter fun x => x.jseq == i.jseq).flatMap fun x =>
        blockFrames s.drone.count i.stripe i.jseq x.blocks x.zeros x.survivors
    | _ => []

/-- A record put at the end of the append queue (R327); a mirrored partner gets it with its pages (R346). -/
def append (r : JRec) (s : State) : State :=
  let s1 := putRec r s
  if s1.pair.mirrored then emits (recFrames s1 r) s1 else s1

/-- A JSEQ taken (R328). -/
def takeJseq (s : State) : Nat × State :=
  (s.cache.nextJseq, { s with cache := { s.cache with nextJseq := s.cache.nextJseq + 1 } })

/-- Live intents (R327). -/
def liveIntents (s : State) : Nat := sumBy (fun p : Nat × StripeDesc => p.2.intents.length) s.cache.stripes

/-- The intent of a stripe with a root JSEQ changed. -/
def modIntent (key root : Nat) (f : Intent → Intent) (s : State) : State :=
  setDesc key { intents := (getDesc s key).intents.map fun i => if i.root = root then f i else i } s

/-- The intent of a stripe with a root JSEQ. -/
def findIntent (s : State) (key root : Nat) : Option Intent := (getDesc s key).intents.find? fun i => i.root == root

/-- The intent that a new block joins: the last live one while it is OPEN (R331). -/
def joinable (s : State) (key : Nat) : Option Intent := (getDesc s key).intents.getLast?.filter fun i => i.phase == .open_

/-- The bytes that entering blocks into a stripe adds to D (R325): pages for blocks `bs` (by block number) that lie in no page
under D, records and descriptor when it opens an intent. -/
def addedBytes (s : State) (key : Nat) (bs : List Nat) : Nat :=
  let page := 4096 + piOf s key
  match joinable s key with
  | some i => page * (bs.filter fun b => (tabFind i.blocks b).isNone || i.wtOnly.contains b).length
  | none => page * bs.length + 64 + if (getDesc s key).intents.isEmpty then 64 else 0

/-- The stripe needs a new journal head slot (R327). -/
def needsSlot (s : State) (key : Nat) : Bool := (joinable s key).isNone

/-- Blocks and zero blocks enter a stripe (R323, R330, R331): they join the OPEN intent, or a new one is created. `outside` says
that the write is carried out as in write-through: its pages are held outside D, but for those that already lay under D
(R326, R344). Answers the intent's root JSEQ. DESIGN CHOICE (log 80): an OPEN intent that such a write joins carries WT, and a
page that a later write in write-back overwrites comes under D. -/
def enterStripe (key : Nat) (blocks : Tab CBlock) (zs : List Nat) (eligible outside : Bool) (s : State) : Nat × State :=
  let put := fun (i : Intent) =>
    { i with
      blocks := blocks.foldl (fun t p => tabInsert t p.1 p.2) (i.blocks.filter fun p => !zs.contains p.1)
      zeros := (i.zeros.filter fun z => (tabFind blocks z).isNone) ++ zs.filter fun z => !i.zeros.contains z
      outside := i.outside || outside
      wtOnly := (i.wtOnly.filter fun b => (tabFind blocks b).isNone && !zs.contains b) ++
        if outside then (blocks.map (·.1)).filter fun b => (tabFind i.blocks b).isNone || i.wtOnly.contains b else []
      eligible := i.eligible || eligible }
  match joinable s key with
  | some i =>
    let s1 := modIntent key i.root put s
    (i.root, if s1.pair.mirrored then emits (blockFrames s1.drone.count key i.jseq blocks zs []) s1 else s1)
  | none =>
    let r := takeJseq s
    let i := put (Intent.fresh r.1 s.drone.count (getEntry s (key / 256)).gen outside)
    (r.1, append (.intent (i.record key)) (setDesc key { intents := (getDesc s key).intents ++ [i] } r.2))

/-- A live intent that holds block q of a stripe: the newest counts. -/
def holderOf (s : State) (key q : Nat) : Option Intent :=
  ((getDesc s key).intents.filter fun i => (tabFind i.blocks q).isSome || i.zeros.contains q).getLast?

/-- Block q of a stripe as the write cache holds it (R154): data with protection bytes, none when it is not dirty. -/
def cachedBlock (s : State) (v : Volume) (key q : Nat) : Option (List Byte) :=
  match holderOf s key q with
  | none => none
  | some i =>
    match tabFind i.blocks q with
    | some b => some (b.data ++ b.pi)
    | none => some (zeroBlock v)

/-- An OPEN intent left with no block to write retires with no strip write (R339, R578). -/
def retireEmpty (key root : Nat) (s : State) : State :=
  let r := takeJseq s
  append (.retire r.1 key (((findIntent s key root).map (·.jseq)).getD root))
    (modIntent key root (fun i => { i with phase := .retiring, blocks := [], zeros := [] }) r.2)

/-- The blocks of a stripe from q on for n discarded from its OPEN intents (R165, R339). -/
def discardBlocks (key q n : Nat) (s : State) : State :=
  (getDesc s key).intents.foldl (fun t i =>
    if i.phase != .open_ then t
    else
      let gone := fun b => decide (q ≤ b) && decide (b < q + n)
      let j := { i with blocks := i.blocks.filter fun p => !gone p.1, zeros := i.zeros.filter fun z => !gone z }
      let u := modIntent key i.root (fun _ => j) t
      if j.blocks.isEmpty && j.zeros.isEmpty then retireEmpty key i.root u else u) s

/-- The stripe's intent must have retired before a write-through completion: none with that root is left. -/
def rootRetired (s : State) (root : Nat) : Bool :=
  s.cache.stripes.all fun p => p.2.intents.all fun i => i.root != root

/-- Completion conditions of R159, R347, R461: the intent is durable here, and in pair mode at the partner, with the input
`iseq` applied (0: none to wait for); an ACTIVE unit without a mirrored partner relies on a durable LOCAL round. -/
def protected_ (s : State) (jseq iseq : Nat) : Bool :=
  decide (jseq ≤ s.cache.durJseq) &&
    (if s.pair.mirrored then decide (jseq ≤ s.pair.ackJseq) && decide (iseq ≤ s.pair.ackIseq)
     else s.sampled.claim.unit != .active || s.pair.loc)

/-! ### Journal appends (R327, R328, R330, R333) -/

/-- The JSEQ of a record: 0 where it has none. -/
def JRec.jseq : JRec → Nat
  | .intent r => r.jseq
  | .retire j _ _ => j
  | _ => 0

/-- The record is live in the ring (R333). -/
def recLive (s : State) : JRec → Bool
  | .intent r => s.cache.stripes.any fun p => p.2.intents.any fun i =>
      i.jseq == r.jseq || (i.prev == r.jseq && decide (s.cache.durJseq < i.jseq))
  | .ledger r => decide (s.ledger.logSeq < r.seq)
  | _ => false

/-- The tail advances past records that are no longer live (R333). -/
def advanceTail (s : State) : State := { s with cache := { s.cache with ring := s.cache.ring.dropWhile fun r => !recLive s r } }

/-- A batch starts: at most 512 records, by a journal-class HBM transfer (R87, R327). -/
def startBatch (s : State) : State :=
  let n := min 512 s.cache.appendQ.length
  if s.cache.batch ≠ 0 ∨ n = 0 then s
  else
    let bytes := 64 * sumBy JRec.size (s.cache.appendQ.take n)
    plan .journal .journal false 0
      [.leg { Leg.blank with kind := .hbm, hbm := bytes, epong := if s.pair.mirrored then bytes else 0 }]
      { s with cache := { s.cache with batch := n } }

/-- Intents whose retire record is durable are gone: their slots are free and their pages unpinned (R330). -/
def dropRetired (rs : List JRec) (s : State) : State :=
  rs.foldl (fun t r => match r with
    | .retire _ key old =>
      setDesc key { intents := (getDesc t key).intents.filter fun i => i.jseq != old || i.phase != .retiring } t
    | _ => t) s

/-- DESTAGE_ALL reads 0 once every marked stripe has retired (R360); JRN_CLEAN when D reaches zero after it (R361). -/
def checkClean (s : State) : State :=
  let marked := s.cache.stripes.any fun p => p.2.intents.any (·.allMark)
  let s1 := { s with cache := { s.cache with destageAll := s.cache.destageAll && marked } }
  if s.cache.cleanWait && decide (dirtyLoad s = 0) then raise 0xB0D { s1 with cache := { s1.cache with cleanWait := false } }
  else s1

/-- The ledger records among some journal records. -/
def ledgerRecs (rs : List JRec) : List LRec :=
  rs.filterMap fun r => match r with
    | .ledger l => some l
    | _ => none

/-- The batch in progress becomes durable: its records join the ring behind padding at the wrap point, retired intents
go (R327, R328, R330), and its ledger records wait for their copy to the on-drive log (R281). -/
def endBatch (s : State) : State :=
  let rs := s.cache.appendQ.take s.cache.batch
  let size := ringSize s
  let step := fun (a : List JRec × Nat) (r : JRec) =>
    if r.size = 2 ∧ a.2 % size = size - 1 then (a.1 ++ [.padding, r], (a.2 + 3) % size)
    else (a.1 ++ [r], (a.2 + r.size) % size)
  let w := rs.foldl step ([], s.cache.ringPos)
  let s2 := { s with cache := { s.cache with
    appendQ := s.cache.appendQ.drop s.cache.batch, batch := 0, ring := s.cache.ring ++ w.1, ringPos := w.2
    durJseq := maxBy id (s.cache.durJseq :: rs.map JRec.jseq) } }
  checkClean (advanceTail (dropRetired rs { s2 with ledger := { s2.ledger with log := s2.ledger.log ++ ledgerRecs rs } }))

/-- The plan of the batch in progress. -/
def batchJob (s : State) : Option (Nat × Job) := s.jobs.find? fun p => p.2.purpose == .journal

/-- The leg of a plan that runs now, if any. -/
def runningLeg (s : State) (job : Nat) : Option Leg := s.drone.running.find? fun l => l.job == job

/-- JOURNAL_APPEND_DONE (R327): the transfer of the batch in progress has completed. -/
def execJournalAppendDone (s : State) : Host.Outcome State Fault Refusal :=
  match batchJob s with
  | none => .next s
  | some (id, j) =>
    if !serving s then .next s
    else
      match runningLeg s id with
      | some l => .next (endBatch (endJob id (stopLeg l.id s)))
      | none => if j.left = 0 then .next (endBatch (endJob id s)) else .next s

/-! ### The dirty ceiling and write-through (R32, R33, R343, R345) -/

/-- The two drives of the write-through log (R344). -/
def logDrives (s : State) : List Nat :=
  match vaultSlots s with
  | [] => []
  | [a] => [a]
  | a :: b :: r => [a, ((b :: r).find? fun x => plcCluster s x != plcCluster s a).getD b]

/-- A condition of R343 holds. -/
def wtWanted (s : State) : Bool :=
  s.cache.ceilLow || ceilHeld s || s.cache.permanent || s.cache.reload3 || s.cache.wtForce

/-- The cache enters write-through (R343, R344). -/
def enterWt (s : State) : State :=
  raise 0xB00 { s with cache := { s.cache with wt := true, wtCnt := s.cache.wtCnt + 1, wtDrives := logDrives s } }

/-- The cache returns to write-back (R343, R345). -/
def exitWt (s : State) : State := raise 0xB01 { s with cache := { s.cache with wt := false } }

/-- JRN_WT_EXIT (R345): no condition of R343 holds any more. -/
def execJrnWtExit (s : State) : Host.Outcome State Fault Refusal :=
  if serving s && s.cache.wt && !wtWanted s then .next (exitWt s) else .next s

/-- The ceiling is held at zero (R33). -/
def holdCeiling (s : State) : State :=
  if s.cache.stale then s else raise 0xB02 { s with cache := { s.cache with stale := true, freshSeen := 0 } }

/-- JRN_CEIL_STALE (R33): the stamp has not advanced for 16 consecutive edges. -/
def execJrnCeilStale (s : State) : Host.Outcome State Fault Refusal :=
  if serving s && decide (16 ≤ s.cache.staleEdges) then .next (holdCeiling s) else .next s

/-- DIRTY_CEILING_LATCH (R32, R33): the most recent value latched, its freshness counted. -/
def latchCeiling (s0 : State) : State :=
  let s := if 16 ≤ s0.cache.staleEdges then holdCeiling s0 else s0
  let c := s.cache
  let fresh := c.hemStamp != c.stamp
  let seen := if fresh then c.freshSeen + 1 else 0
  { s with cache := { c with
    ceiling := c.hemCeiling
    stamp := c.hemStamp
    staleEdges := if fresh then 0 else c.staleEdges + 1
    freshSeen := seen
    stale := c.stale && seen < 2 } }

/-- The first condition of R343 with its end under R345, judged at a latch. -/
def judgeCeiling (s : State) : State :=
  let d := dirtyLoad s
  let l := dirtyLimit s
  let c := s.cache
  if l < d then { s with cache := { c with ceilLow := true, lowEdges := 0 } }
  else if !c.ceilLow then s
  else if 8 * d ≤ 7 * l then
    { s with cache := { c with lowEdges := c.lowEdges + 1, ceilLow := c.lowEdges + 1 < 1024 } }
  else { s with cache := { c with lowEdges := 0 } }

/-- The mode after a latch (R343): a change takes effect at the edge. -/
def judgeMode (s : State) : State :=
  if wtWanted s then if s.cache.wt then s else enterWt s
  else if s.cache.wt then exitWt s
  else s

/-- Sampled retirements take effect (R39, R40): the cache size, and permanent write-through. -/
def sampleCache (s : State) : State :=
  let mib := match s.image with
    | none => 0
    | some im => cacheMib im s.sampled.pcRetire
  let s1 := { s with cache := { s.cache with sizeMib := mib } }
  if s.sampled.wtPerm && !s.cache.permanent then raise 0xB03 { s1 with cache := { s1.cache with permanent := true } }
  else s1

/-! ### JRN registers (R360) -/

/-- A fence holder's JRN_CTL write (R360). -/
def jrnWritable (s : State) (f : Nat) : Bool := pfFull s f && fenceHolder s

/-- WT_FORCE written (R343). -/
def setWtForce (on : Bool) (s : State) : State := { s with cache := { s.cache with wtForce := on } }

/-- JRN_WT_FORCE (R343, R360). -/
def execJrnWtForce (f : Nat) (on : Bool) (s : State) : Host.Outcome State Fault Refusal :=
  if jrnWritable s f then .next (setWtForce on s) else .next s

/-- DESTAGE_ALL set: every dirty stripe becomes eligible (R334, R360). -/
def destageAll (s : State) : State :=
  checkClean { s with cache := { s.cache with
    destageAll := true
    cleanWait := true
    stripes := tabMap (fun _ (d : StripeDesc) =>
      { intents := d.intents.map fun i => { i with eligible := true, allMark := true } }) s.cache.stripes } }

/-- JRN_DESTAGE_ALL (R334, R360). -/
def execJrnDestageAll (f : Nat) (s : State) : Host.Outcome State Fault Refusal :=
  if jrnWritable s f then .next (destageAll s) else .next s

/-- JRN_CTL written: WT_FORCE and DESTAGE_ALL. -/
def writeJrnCtl (w : Word) (s : State) : State :=
  if !fenceHolder s then s
  else
    let t := setWtForce (bit w 0) s
    if bit w 1 then destageAll t else t

/-- JRN_STAT.MODE (R348, R356, R579). -/
def jrnMode (s : State) : Nat :=
  if dumping s then 2
  else if s.loader.state == .running && !restoreEnded s then 3
  else if s.cache.wt then 1 else 0

/-- A JRN register as it reads, by offset (R360). -/
def jrnRead (s : State) (off : Nat) : Word :=
  let c := s.cache
  let running := s.image.isSome
  if off = 0x00 then
    put (jrnMode s) 0 ||| putB c.ceilLow 2 ||| putB (c.stale || ceilHeld s) 3 ||| putB c.permanent 4 ||| putB c.reload3 5 |||
      putB c.slotsFull 6 ||| putB c.ringFull 7
  else if off = 0x08 then
    if running then put (dirtyLoad s % 2 ^ 48) 0 ||| put (sat 127 (dirtyLevel s)) 48 else 0
  else if off = 0x10 then put (sat (2 ^ 48 - 1) c.ceiling) 0 ||| put (c.stamp % 65536) 48
  else if off = 0x18 then put c.sizeMib 0 ||| put ((vaultSlots s).length * 2816) 32
  else if off = 0x20 then put (liveIntents s) 0 ||| put (headSlots s) 20
  else if off = 0x28 then put c.durJseq 0
  else if off = 0x30 then put (ringUsed s) 0 ||| put (ringSize s) 32
  else if off = 0x38 then put (c.vault.epoch % 2 ^ 32) 0 ||| put c.vault.state 32 ||| put c.vault.half 35 ||| putB c.vault.held 36
  else if off = 0x40 then put (sat 0xFFFFFFFF c.vault.timeUs) 0 ||| put (sat 0xFFFFFFFF c.vault.mib) 32
  else if off = 0x48 then c.lostCnt
  else if off = 0x50 then c.wtCnt
  else if off = 0x58 then putB c.wtForce 0 ||| putB c.destageAll 1
  else 0

end Sys2Proof.Machine
end

