-- ==== Sys2Proof/Machine/Destage.lean ====
section
/-! DEFINITION. Destage (R334 to R338, R578, R581) and block repair (R372). -/

namespace Sys2Proof.Machine

open Sys2Proof

/-! ### Eligibility and order (R334, R375) -/

/-- The blocks an intent writes: dirty and zero blocks, by block number, ascending. -/
def Intent.dirty (i : Intent) : List Nat := sortBy (fun a b => decide (a ≤ b)) (i.blocks.map (·.1) ++ i.zeros)

/-- The tick of an intent's oldest dirty block. -/
def Intent.oldest (i : Intent) : Nat := i.blocks.foldl (fun a p => min a p.2.accepted) (if i.zeros.isEmpty then 2 ^ 64 else i.tick)

/-- Data blocks of a stripe. -/
def stripeBlocks (s : State) (key : Nat) : Nat := ((stripeVol s key).map Volume.stripe).getD 0

/-- Every data block of the stripe is dirty. -/
def fullStripe (s : State) (key : Nat) (i : Intent) : Bool := i.dirty.length == stripeBlocks s key

/-- COALESCE_TICKS have passed since the oldest dirty block (R334). -/
def coalesced (s : State) (i : Intent) : Bool := decide (i.oldest + (cachOf s).coalesceTicks ≤ s.drone.count)

/-- An OPEN intent is eligible for destage (R334). -/
def eligible (s : State) (key : Nat) (i : Intent) : Bool :=
  i.eligible || fullStripe s key i || coalesced s i || decide ((cachOf s).destageHighPct ≤ dirtyLevel s)

/-- No destage is planned for the parcel: it is MOVING (R275), or its rebuild has issued RELOC_START (R375). -/
def destageHeld (s : State) (pk : Nat) : Bool :=
  (getEntry s pk).moving || s.array.active.any fun r => r.key == pk && r.started

/-- The unit restores though it is not fence holder yet: in SALVAGE, or having found its own reservation at power-up
(R474, R476, R486). -/
def restorer (s : State) : Bool :=
  s.pair.claim.unit == .salvage || (s.pair.claim.unit == .standbyJoining && s.pair.powerOwn)

/-- The unit decides ledger changes: fence holder, or restoring (R267, R474). -/
def decides (s : State) : Bool := fenceHolder s || restorer s

/-- The data plane may plan destages: fence holder or restoring unit, no dump, restore far enough and not paused (R349, R356,
R459, R555). -/
def destages (s : State) : Bool :=
  serving s && decides s && !dumping s &&
    (restoreEnded s || (!s.cache.vault.paused && (s.cache.vault.restore == .destage || s.cache.vault.restore == .replay)))

/-- A destage of another stripe of the same zero-mask group is in flight and one of the two writes zeros over the whole
group (R338): the two go one after the other, so that neither zeroes what the other writes. -/
def groupBusy (s : State) (key : Nat) (i : Intent) : Bool :=
  s.cache.stripes.any fun p => p.1 != key && p.1 / 8 == key / 8 && p.2.intents.any fun j =>
    j.phase != .open_ && (j.zgroup || i.zgroup || groupZero (getEntry s (key / 256)) key)

/-- The OPEN intent of a stripe whose destage may be planned. -/
def plannable (s : State) (key : Nat) : Option Intent :=
  match (getDesc s key).intents with
  | [] => none
  | i :: _ =>
    if i.phase == .open_ && eligible s key i && !destageHeld s (key / 256) && !groupBusy s key i && (stripeVol s key).isSome then some i else none

/-- A full stripe comes first, then the stripe with the oldest dirty block (R334). -/
def planBefore (s : State) (a b : Nat × Intent) : Bool :=
  let fa := fullStripe s a.1 a.2
  let fb := fullStripe s b.1 b.2
  (fa && !fb) || (fa == fb && decide (a.2.oldest < b.2.oldest))

/-- The stripe is the next that the cache plans (R334). -/
def nextToPlan (s : State) (key : Nat) (i : Intent) : Bool :=
  s.cache.stripes.all fun p => match plannable s p.1 with
    | none => true
    | some j => !planBefore s (p.1, j) (key, i)

/-- COALESCE_EXPIRY (R334). -/
def execCoalesceExpiry (stripe : Nat) (s : State) : Host.Outcome State Fault Refusal :=
  match (getDesc s stripe).intents.getLast? with
  | none => .next s
  | some i =>
    if serving s && i.phase == .open_ && coalesced s i then
      .next (modIntent stripe i.root (fun x => { x with eligible := true }) s)
    else .next s

/-! ### Planning (R330, R336 to R338) -/

/-- The block positions within a strip at which a stripe has dirty blocks. -/
def dirtyPositions (v : Volume) (i : Intent) : List Nat :=
  sortBy (fun a b => decide (a ≤ b)) (i.dirty.map (· % v.strip)).eraseDups

/-- The method of a destage (R336, R337, R338); a destage planned again after an RMW that met lost blocks uses RECON. In a set
zero-mask group there is nothing to read for an RMW (R338). DEDUCED (log 81). -/
def methodOf (s : State) (v : Volume) (e : LEntry) (key : Nat) (i : Intent) : Method :=
  let d := i.dirty.length
  let r := (dirtyPositions v i).length
  if i.replay || !(erasedOf s v e).isEmpty then .recon
  else if d = v.k * v.strip then .full
  else if !groupZero e key && i.attempt = 0 && 2 * d + v.m * r < v.k * r then .rmw
  else .recon

/-- The blocks a destage reads (R336, R338): tags. -/
def destageWants (v : Volume) (i : Intent) : List Nat :=
  let xs := dirtyPositions v i
  let dirty := i.dirty.map v.tagOf
  match i.method with
  | .rmw => dirty ++ xs.flatMap fun x => (List.range v.m).map fun p => blockTag x (v.k + p)
  | .recon => if i.zgroup then [] else
      (xs.flatMap fun x => (List.range v.k).map (blockTag x)).filter fun t => !dirty.contains t
  | _ => []

/-- STRIP_MASK (R336, R337, R338). -/
def stripMaskOf (s : State) (v : Volume) (e : LEntry) (i : Intent) : BitVec 32 :=
  let strips := (List.range (v.k + v.m)).filter fun x =>
    (i.zgroup || decide (v.k ≤ x) || i.dirty.any fun q => q / v.strip == x) && !memberErased s e x
  strips.foldl (fun a x => a ||| BitVec.ofNat 32 (2 ^ x)) 0

/-- The superseding intent appended (R330); it carries WT where a write carried out as in write-through dirtied the stripe (R326,
R344), and again where it supersedes one that does. It is an in-step input (R457). -/
def supersede (key root : Nat) (s : State) : State :=
  match findIntent s key root with
  | none => s
  | some i =>
    let r := takeJseq s
    let j := { i with
      jseq := r.1, prev := i.jseq, tick := s.drone.count, newGen := (getEntry s (key / 256)).gen
      wt := i.outside || i.wt }
    inStep (.destage key r.1) (append (.intent (j.record key)) (modIntent key root (fun _ => j) r.2))

/-- The plan of a destage's reads begins. -/
def startGather (key root : Nat) (want : List Nat) (s : State) : State :=
  let r := wantJob (.destageRead key root) .foreground false 0 want [] [] s
  (advanceFetch r.1 key r.2).2

/-- The blocks of a torn destage that may hold old or new content: its dirty blocks and the parity at its positions (R341). -/
def tornTags (v : Volume) (i : Intent) : List Nat :=
  i.dirty.map v.tagOf ++ (dirtyPositions v i).flatMap fun x => (List.range v.m).map fun p => blockTag x (v.k + p)

/-- A replay rewrite (R340, R341): a RECON destage under a new superseding intent with the same STRIP_MASK, from its pinned
survivors where it has them. -/
def replayDestage (key : Nat) (i : Intent) (v : Volume) (s : State) : State :=
  let j := { i with method := .recon, phase := .gathering }
  let s1 := supersede key i.root (modIntent key i.root (fun _ => j) s)
  let got := i.survivors.foldl (fun (t : Tab (List Byte)) p => tabInsert t (v.tagOf p.1) (p.2.data ++ p.2.pi)) []
  let r := wantJob (.destageRead key i.root) .foreground false 0 (destageWants v j) (tornTags v j) got s1
  (advanceFetch r.1 key (modJob r.1 (fun x => { x with pages := i.survivors.map fun p => v.tagOf p.1 }) r.2)).2

/-- A destage planned (R336): the superseding intent is appended at once, except that a degraded stripe's survivors are
pinned first (R337). Without the parcel's ledger page it waits for that (R295). -/
def planDestage (key : Nat) (i : Intent) (s0 : State) : State :=
  let a := smcAsk (key / 256) 1 .foreground s0
  let s := a.2
  match stripeVol s key with
  | none => s
  | some v =>
    let e := getEntry s (key / 256)
    if !a.1 then s
    else if !e.placed then retireEmpty key i.root s
    else if i.replay then replayDestage key i v s
    else
      let m := methodOf s v e key i
      let deg := !(erasedOf s v e).isEmpty
      let j := { i with method := m, degraded := deg, zgroup := groupZero e key, phase := .gathering }
      let j2 := { j with stripMask := stripMaskOf s v e j }
      let s1 := modIntent key i.root (fun _ => j2) s
      startGather key i.root (destageWants v j2) (if deg then s1 else supersede key i.root s1)

/-- DESTAGE_PLAN (R336). -/
def execDestagePlan (stripe : Nat) (s : State) : Host.Outcome State Fault Refusal :=
  match plannable s stripe with
  | none => .next s
  | some i => if destages s && nextToPlan s stripe i then .next (planDestage stripe i s) else .next s

/-! ### Repairs counted (R362 WHY 6, R371) -/

/-- A drive to be declared failed at the next edge, with its cause (R362). -/
def wantDeclare (slot why : Nat) (s : State) : State :=
  { s with array := { s.array with declare := s.array.declare ++ [(slot, why)] } }

/-- A block repair on a drive: more than 256 within 86,400 s are a cause of failure (R362). -/
def countRepair (slot : Nat) (s : State) : State :=
  let recent := s.array.repairs.filter fun p => decide (s.drone.count < p.2 + 86400000000000 / tickNs s)
  let all := recent ++ [(slot, s.drone.count)]
  let t := { s with array := { s.array with repairs := all } }
  if 256 < (all.filter fun p => p.1 == slot).length then wantDeclare slot 6 t else t

/-- The repairs of some blocks of a stripe counted on their drives. -/
def countRepairs (key : Nat) (tags : List Nat) (s : State) : State :=
  tags.foldl (fun t g => countRepair (memberAt t (getEntry t (key / 256)) (g % 64)).1 t) s

/-! ### Encoding (R222, R336, R338, R460) -/

/-- A block as the cache accepts it. -/
def cblockOf (v : Volume) (tick : Nat) (b : List Byte) : CBlock :=
  { data := b.take 4096, pi := slice b 4096 v.piBytes, accepted := tick }

/-- The new value of block q under an intent: dirty, zero, or zero in a set zero-mask group. -/
def newBlock (v : Volume) (i : Intent) (q : Nat) : Option (List Byte) :=
  match tabFind i.blocks q with
  | some b => some (b.data ++ b.pi)
  | none => if i.zeros.contains q || i.zgroup then some (zeroBlock v) else none

/-- The positions whose parity a destage encodes: the r positions; for ZGROUP on a volume with protection information
every position, and one more that stands for the other stripes of the group (R338, R414). -/
def encodePositions (v : Volume) (i : Intent) : List Nat :=
  if i.zgroup && v.piBytes != 0 then List.range (v.strip + 1) else dirtyPositions v i

/-- The blocks that parity is encoded from: the new values over what was read. -/
def encodeInputs (v : Volume) (i : Intent) (got : Tab (List Byte)) : Tab (List Byte) :=
  (encodePositions v i).foldl (fun t x => (List.range v.k).foldl (fun t d =>
    if x = v.strip then tabInsert t (blockTag x d) (zeroBlock v)
    else match newBlock v i (d * v.strip + x) with
      | some b => tabInsert t (blockTag x d) b
      | none => t) t) got

/-- Changed strips at a position that one UPDATE leg takes: at most 32 inputs with the m parities (R222). -/
def updateGroup (v : Volume) : Nat := max 1 ((32 - v.m) / 2)

/-- UPDATE legs of one round: at each position the next group of changed strips. -/
def updateRound (s : State) (v : Volume) (i : Intent) (got : Tab (List Byte)) (clusters : BitVec 12) (stage : Nat) : List Work :=
  (dirtyPositions v i).flatMap fun x =>
    let ds := ((List.range v.k).filter fun d => i.dirty.contains (d * v.strip + x)).drop (stage * updateGroup v)
    let ch := (ds.take (updateGroup v)).map fun d =>
      (d, tabGet [] got (blockTag x d), (newBlock v i (d * v.strip + x)).getD [])
    if ch.isEmpty then []
    else updateLegs s v x ch ((List.range v.m).map fun p => tabGet [] got (blockTag x (v.k + p))) clusters

/-- The blocks that a RMW or RECON destage read go to a mirrored partner before its parity legs (R460). -/
def sendInputs (key : Nat) (got : Tab (List Byte)) (s : State) : State :=
  if s.pair.mirrored then emits (got.map fun p => .frame s.drone.count (.dinput key p.1 p.2)) s else s

/-- The blocks of a stripe that a destage takes from cache pages: dirty ones and pinned survivors (R337). -/
def intentPages (v : Volume) (i : Intent) : List Nat := (i.blocks.map (·.1) ++ i.survivors.map (·.1)).map v.tagOf

/-- The parity legs of a destage start; the waystation buffers of its reads, under plan `id`, stay until they have ended. -/
def startEncode (id key root : Nat) (got : Tab (List Byte)) (s : State) : State :=
  match findIntent s key root, stripeVol s key with
  | some i, some v =>
    let cl := stripeClusters s v (getEntry s (key / 256))
    let s0 := modIntent key root (fun x => { x with phase := .superseding }) (sendInputs key got s)
    if i.method = .rmw then
      let r := wantJob (.destageEnc key root) .foreground false 0 [] [] got s0
      passBuffers id r.1 (moreWork r.1 (updateRound s0 v i got cl 0) r.2)
    else
      let ins := encodeInputs v i got
      let r := wantJob (.destageEnc key root) .foreground false 0 [] [] ins s0
      passBuffers id r.1 (moreWork r.1 ((encodePositions v i).flatMap fun x => encodeLegs s0 v x ins (intentPages v i) cl) r.2)
  | _, _ => endJob id s

/-- A destage goes back to be planned again, from its OPEN state (R233, R581). -/
def replan (key root attempt : Nat) (s : State) : State :=
  modIntent key root (fun i => { i with
    phase := .open_, eligible := true, method := if i.method = .open_ then .open_ else i.method
    survivors := if i.replay then i.survivors else [], attempt := i.attempt + attempt }) s

/-- The destage's retirement waits for the lost-block list as it is now (R581). -/
def awaitLost (key root : Nat) (s : State) : State :=
  modIntent key root (fun i => { i with lostVer := s.array.lostVer, iseq := s.pair.iseq }) s

/-- The blocks that a RECON destage lost (R581): taken as zero, written and listed with CAUSE 8. -/
def loseBlocks (key root : Nat) (v : Volume) (ts : List Nat) (s : State) : State :=
  let qs := sortBy (fun a b => decide (a ≤ b)) ((ts.filter fun t => t % 64 < v.k).map v.blockOf)
  if qs.isEmpty then s
  else
    awaitLost key root (addLost none (runEntries 8 (keyVol (key / 256)) (qs.map (· + v.firstOf key)))
      (modIntent key root (fun i => { i with zeros := i.zeros ++ qs }) s))

/-- The positions that a replay could not obtain: every data block there is listed (R341); what is missing is taken as
zero. -/
def losePositions (key root : Nat) (v : Volume) (ts : List Nat) (s : State) : State :=
  let xs := tagPositions ts
  let qs := (ts.filter fun t => t % 64 < v.k).map v.blockOf
  if xs.isEmpty then s
  else
    let s1 := modIntent key root (fun i => { i with zeros := i.zeros ++ qs }) s
    let s2 := awaitLost key root (addLost none (xs.map (positionEntry 4 (keyVol (key / 256)) v key)) s1)
    raise 0xB0C { s2 with cache := { s2.cache with lostCnt := s2.cache.lostCnt + BitVec.ofNat 64 (xs.length * v.k) } }

/-- The blocks that a destage had to decode after media errors are written as dirty blocks are; each that it would not otherwise
write counts as a block repair (R581). -/
def healBlocks (key root : Nat) (v : Volume) (i : Intent) (j : Job) (s : State) : State :=
  let heal := (mediaTags s key j).filter fun t =>
    t % 64 < v.k && (tabFind j.got t).isSome && !i.dirty.contains (v.blockOf t)
  countRepairs key heal (modIntent key root (fun i => { i with
    blocks := heal.foldl (fun b t => tabInsert b (v.blockOf t) (cblockOf v s.drone.count (tabGet [] j.got t))) i.blocks }) s)

/-- The survivors of a degraded stripe pinned, and the superseding intent appended (R337), its STRIP_MASK with the blocks that the
reads added. DESIGN CHOICE (log 81): a superseding intent already appended when a read adds a block (R581) is not renewed. -/
def pinSurvivors (key root : Nat) (v : Volume) (got : Tab (List Byte)) (s : State) : State :=
  let ks := got.filter fun p => p.1 % 64 < v.k
  supersede key root (modIntent key root (fun i => { i with
    stripMask := stripMaskOf s v (getEntry s (key / 256)) i
    survivors := ks.foldl (fun t p => tabInsert t (v.blockOf p.1) (cblockOf v s.drone.count p.2)) [] }) s)

/-- A destage's reads are complete (R336, R337, R581). -/
def gathered (id key root : Nat) (s : State) : State :=
  match getJob s id, findIntent s key root, stripeVol s key with
  | some j, some i, some v =>
    if i.replay then startEncode id key root j.got (losePositions key root v j.lost s)
    else if !i.degraded && !(erasedOf s v (getEntry s (key / 256))).isEmpty then replan key root 0 (endJob id s)
    else if i.method = .rmw && !j.lost.isEmpty then replan key root 1 (endJob id s)
    else
      let s2 := healBlocks key root v i j (loseBlocks key root v j.lost s)
      let s3 := if i.degraded then pinSurvivors key root v j.got s2 else s2
      startEncode id key root j.got s3
  | _, _, _ => endJob id s

/-- DESTAGE reads advance (R336, R581). -/
def runDestageRead (id key root : Nat) (s : State) : State :=
  let r := advanceFetch id key s
  if r.1 then gathered id key root r.2 else r.2

/-! ### Strip writes (R330, R332, R338, R344, R460) -/

/-- The write-through log entry of a destage: the superseding intent and the new data, with FUA on each log drive
(R344). -/
def logWorks (s : State) (v : Volume) (i : Intent) (key : Nat) : List Work :=
  let n := i.blocks.length + 1
  let data := packBlock false 0 (takePad 4096 (intentRecBytes s (i.record key))) ++ i.blocks.flatMap fun p => packBlock false v.piBytes (p.2.data ++ p.2.pi)
  s.cache.wtDrives.flatMap fun x =>
    (cutLen (maxLbas s x) (n + 1) (0, n)).map fun r =>
      driveSub r.1 x .write (1048832 + (s.cache.wtPos + r.1) % 261888) r.2 true (slice data (4112 * r.1) (4112 * r.2)) 0

/-- The write-through log entry is written once (R344). -/
def startLog (key root : Nat) (v : Volume) (i : Intent) (s : State) : State :=
  let drives := if s.cache.wtDrives.isEmpty then logDrives s else s.cache.wtDrives
  let s1 := { s with cache := { s.cache with wtDrives := drives } }
  let ws := logWorks s1 v i key
  plan (.wtLog key root) .foreground false 0 ws
    { s1 with cache := { s1.cache with wtPos := (s1.cache.wtPos + i.blocks.length + 1) % 261888 } }

/-- A write-through log entry is durable. -/
def logged (id key root : Nat) (s : State) : State :=
  let j := ((findIntent s key root).map (·.jseq)).getD 0
  endJob id { s with cache := { s.cache with wtLog := addOnce s.cache.wtLog j } }

/-- A strip write may be issued: the superseding record is durable, its write-through log entry too, the partner has
acknowledged it, or LOCAL is durable (R330, R344, R460, R461). -/
def mayWrite (s : State) (i : Intent) : Bool :=
  decide (i.jseq ≤ s.cache.durJseq) && (!i.wt || s.cache.wtLog.contains i.jseq) &&
    (if s.pair.mirrored then decide (i.jseq ≤ s.pair.ackJseq) else s.sampled.claim.unit != .active || s.pair.loc)

/-- NVMe Write Zeroes over a range of a member (R338). -/
def zeroSub (slot run off n : Nat) : List Work :=
  if n = 0 then [] else [driveSub 0 slot .writeZeroes (4194304 + 1024 * run + off) n false [] 0]

/-- The zeros of R338 on member x: the other stripes of the group, and what its own stripe does not write. -/
def groupWrites (s : State) (v : Volume) (e : LEntry) (key : Nat) (got : Tab (List Byte)) (xs : List Nat) (x : Nat) : List Work :=
  let m := memberAt s e x
  let j := key % 256
  let j0 := j / 8 * 8
  if v.piBytes = 0 then
    zeroSub m.1 m.2 (v.strip * j0) (v.strip * (j - j0)) ++ zeroSub m.1 m.2 (v.strip * (j + 1)) (v.strip * (j0 + 7 - j)) ++
      (runsOf ((List.range v.strip).filter fun p => !xs.contains p)).flatMap fun r =>
        zeroSub m.1 m.2 (v.strip * j + r.1) r.2
  else
    let z := if x < v.k then zeroBlock v else tabGet [] got (blockTag v.strip x)
    ((List.range 8).filter fun q => j0 + q != j).flatMap fun q =>
      writesAt s v false m (j0 + q) x ((List.range v.strip).map fun p => (p, z))

/-- The strip writes of a destage (R336, R337, R338): dirty blocks and parity at the r positions, nothing on erased
members. -/
def stripWrites (s : State) (v : Volume) (e : LEntry) (key : Nat) (i : Intent) (got : Tab (List Byte)) : List Work :=
  let all := i.zgroup && v.piBytes != 0
  let xs := if all then List.range v.strip else dirtyPositions v i
  ((List.range (v.k + v.m)).filter fun x => !memberErased s e x).flatMap fun x =>
    let ps := if x < v.k then xs.filter fun p => all || i.dirty.contains (x * v.strip + p) else xs
    let bs := ps.map fun p => (p, if x < v.k then (newBlock v i (x * v.strip + p)).getD [] else tabGet [] got (blockTag p x))
    writesOf s v e (key % 256) x bs ++ (if i.zgroup then groupWrites s v e key got ps x else [])

/-- The parity outputs of a destage enter the digest of the tick (R464). -/
def noteParity (v : Volume) (i : Intent) (got : Tab (List Byte)) (s : State) : State :=
  let bytes := (List.range v.m).flatMap fun p => (dirtyPositions v i).flatMap fun x => tabGet [] got (blockTag x (v.k + p))
  { s with pair := { s.pair with digest := { s.pair.digest with parity := s.pair.digest.parity ++ [(i.jseq, bytes)] } } }

/-- The strip writes are issued. -/
def startWrites (id key root : Nat) (v : Volume) (i : Intent) (got : Tab (List Byte)) (s : State) : State :=
  plan (.destageWrite key root) .foreground false 0 (stripWrites s v (getEntry s (key / 256)) key i got)
    (forgetRepairs key (modIntent key root (fun x => { x with phase := .writing }) (endJob id s)))

/-- The parity legs of a destage have finished: the next round of an UPDATE, else the log entry and the strip writes as
soon as they may be issued. `stage` 100 says that the parity is complete, 101 that the log entry is being written. -/
def runDestageEnc (id key root : Nat) (s : State) : State :=
  match getJob s id, findIntent s key root, stripeVol s key with
  | some j0, some i, some v =>
    let j := takeOuts v j0
    let next := if i.method = .rmw && j.stage < 100 then
        updateRound s v i j.got (stripeClusters s v (getEntry s (key / 256))) (j.stage + 1)
      else []
    if !next.isEmpty then moreWork id next (modJob id (fun _ => { j with stage := j.stage + 1 }) s)
    else
      let s1 := if j.stage < 100 then noteParity v i j.got (modJob id (fun _ => { j with stage := 100 }) s) else s
      if mayWrite s1 i && !fetchOpen s1 key then startWrites id key root v i j.got s1
      else if i.wt && j.stage < 101 then startLog key root v i (modJob id (fun _ => { j with stage := 101 }) s1)
      else s1
  | _, _, _ => endJob id s

/-! ### Retirement (R330, R338, R581) -/

/-- The plan of a stripe's strip writes. -/
def writeJob (s : State) (key root : Nat) : Option (Nat × Job) := s.jobs.find? fun p => p.2.purpose == .destageWrite key root

/-- The write-through log entry of an intent is freed (R344). -/
def freeLog (jseq : Nat) (s : State) : State := { s with cache := { s.cache with wtLog := s.cache.wtLog.erase jseq } }

/-- The retire record of a destage appended (R330). -/
def retireIntent (key : Nat) (i : Intent) (s : State) : State :=
  let r := takeJseq s
  freeLog i.jseq (append (.retire r.1 key i.jseq) (modIntent key i.root (fun x => { x with phase := .retiring }) r.2))

/-- The ZERO_MASK change that clears the bit of a stripe's group (R338). -/
def clearGroup (key : Nat) (s : State) : State :=
  changeEntry .zeroMask (key / 256) (fun e => { e with zeroMask := e.zeroMask &&& ~~~ BitVec.ofNat 32 (2 ^ (key % 256 / 8)) }) [] s

/-- A ZERO_MASK change of the parcel is not durable yet. -/
def maskPending (s : State) (pk : Nat) : Bool :=
  s.cache.appendQ.any fun r => match r with
    | .ledger l => l.type == .zeroMask && parcelKey l.volume l.key == pk
    | _ => false

/-- The lost-block entries that a destage added are durable, at a mirrored partner too (R379, R581). -/
def listedSafely (s : State) (i : Intent) : Bool :=
  i.lostVer == 0 || (decide (i.lostVer ≤ s.array.lostDur) && protected_ s 0 i.iseq)

/-- INTENT_RETIRE's effect (R330, R338, R581): every strip write of the destage is durable, and so are the lost-block entries it
added; under ZGROUP the ledger change comes first, and the retire record only after it is durable. -/
def retireStep (key : Nat) (s : State) : State :=
  match (getDesc s key).intents with
  | [] => s
  | i :: _ =>
    match i.phase with
    | .writing =>
      match writeJob s key i.root with
      | none => s
      | some (id, j) =>
        if j.left ≠ 0 ∨ !listedSafely s i then s
        else if i.zgroup then clearGroup key (modIntent key i.root (fun x => { x with phase := .zeroing }) (endJob id s))
        else retireIntent key i (endJob id s)
    | .zeroing => if maskPending s (key / 256) then s else retireIntent key i s
    | _ => s

/-- INTENT_RETIRE (R330). -/
def execIntentRetire (stripe : Nat) (s : State) : Host.Outcome State Fault Refusal :=
  if serving s && !dumping s then .next (retireStep stripe s) else .next s

/-! ### Block repair (R371, R372) -/

/-- A repair of the positions of some blocks of a stripe begins: every data block at those positions is obtained, those of
`tags` that are not known by decoding. `zero` puts zeros in blocks beyond recovery (R385, step 5). -/
def startRepair (key : Nat) (cls : WorkClass) (tags : List Nat) (zero : Bool) (known : Tab (List Byte)) (s : State) : State :=
  match stripeVol s key with
  | none => s
  | some v =>
    let want := (tagPositions tags).flatMap fun x => (List.range v.k).map (blockTag x)
    let r := wantJob (.repair key) cls false 0 want (tags.filter fun t => (tabFind known t).isNone) known s
    let s1 := if zero then modJob r.1 (fun j => { j with stage := 1 }) r.2 else r.2
    (advanceFetch r.1 key s1).2

/-- Blocks enter the cache as a WRITE of them would in the mode in force (R325, R326, R344, R372); `none` while they do not
fit. -/
def enterAsWrite (key : Nat) (bs : Tab CBlock) (s : State) : Option State :=
  let add := addedBytes s key (bs.map (·.1))
  let big := decide (dirtyLimit s < add)
  let out := s.cache.wt || big
  if !out && decide (dirtyLimit s < dirtyLoad s + add) then none
  else if needsSlot s key && headSlots s ≤ liveIntents s then none
  else if !ringRoom s 2 then none
  else some (enterStripe key bs [] out out s).2

/-- A repair has its blocks: those not dirty enter the write cache; a position with a lost block is left alone unless
zeros stand for it (R371, R372, R385). -/
def runRepair (id key : Nat) (s : State) : State :=
  let r := advanceFetch id key s
  if !r.1 then r.2
  else
    match getJob r.2 id, stripeVol r.2 key with
    | some j, some v =>
      let good := fun x => j.stage = 1 || (List.range v.k).all fun i => !j.lost.contains (blockTag x i)
      let ts := (tagPositions j.want).filter good |>.flatMap fun x => (List.range v.k).map (blockTag x)
      let bs := (ts.filter fun t => (holderOf r.2 key (v.blockOf t)).isNone).foldl (fun (b : Tab CBlock) t =>
        tabInsert b (v.blockOf t) (cblockOf v r.2.drone.count ((tabFind j.got t).getD (zeroBlock v)))) []
      if bs.isEmpty || !(getEntry r.2 (key / 256)).placed then endJob id r.2
      else
        match enterAsWrite key bs r.2 with
        | none => r.2
        | some u => endJob id u
    | _, _ => endJob id r.2

end Sys2Proof.Machine
end

