-- ==== Sys2Proof/Machine/Operands.lean ====
section
/-! DEFINITION. Operand forms: how the bytes of a submission entry, a scatter element, a DMA descriptor and the other
records read from outside are read. -/

namespace Sys2Proof.Machine

open Sys2Proof

/-- A submission entry read from its 64 bytes (R117). -/
def parseEntry (bs : List Byte) : Entry where
  opcode := field bs 0x00 1
  flags := BitVec.ofNat 8 (field bs 0x01 1)
  cmdId := BitVec.ofNat 16 (field bs 0x02 2)
  volume := field bs 0x04 2
  lba := field bs 0x08 6
  blocks := field bs 0x10 4
  sgCount := field bs 0x14 2
  dataPtr := fieldW bs 0x18
  piPtr := fieldW bs 0x20
  param := slice bs 0x28 16

/-- FLAGS.FUA (R117). -/
def Entry.fua (e : Entry) : Bool := e.flags.getLsbD 0

/-- FLAGS.SGL (R117). -/
def Entry.sgl (e : Entry) : Bool := e.flags.getLsbD 1

/-- A scatter list element (R118): address, length, CHAIN. -/
def parseSg (bs : List Byte) : Word × Nat × Bool :=
  (fieldW bs 0, field bs 8 4, (BitVec.ofNat 32 (field bs 12 4)).getLsbD 0)

/-- n bytes of host memory at an address, of what a command's operand gives of it. DESIGN CHOICE (log 71): memory that the
operand does not give reads as zeros. -/
def hostBytes (mem : List HostFrag) (a : Word) (n : Nat) : List Byte :=
  match mem.find? fun f => decide ((a - f.1).toNat + n ≤ f.2.length) with
  | none => zeros n
  | some f => slice f.2 (a - f.1).toNat n

/-- The data elements of the scatter list of `n` elements at an address and of the lists chained to it, in list order, for
`need` bytes (R118). A CHAIN element ends its list. DESIGN CHOICE (log 36): the first argument bounds the elements read, so a
cyclic chain, a host error (R178), ends. -/
def sgWalk (mem : List HostFrag) : Nat → Nat → Word → Nat → List SgElem
  | 0, _, _, _ => []
  | fuel + 1, n, a, need =>
    if n = 0 ∨ need = 0 then []
    else
      let x := parseSg (hostBytes mem a 16)
      if x.2.2 then sgWalk mem fuel x.2.1 x.1 need
      else (x.1, x.2.1) :: sgWalk mem fuel (n - 1) (a + 16) (need - x.2.1)

/-- The bytes of some segments of host memory, in order. -/
def gather (mem : List HostFrag) : List SgElem → Nat → List Byte
  | [], need => zeros need
  | (a, n) :: r, need => hostBytes mem a (min n need) ++ gather mem r (need - n)

/-- A DMA descriptor read from its 64 bytes at an address (R186, R187). -/
def parseDesc (a : Word) (bs : List Byte) : Desc :=
  let c := fieldW bs 0x18
  { addr := a
    next := fieldW bs 0x00
    src := fieldW bs 0x08
    dst := fieldW bs 0x10
    l0 := bits c 0 16
    l1 := bits c 16 12
    l2 := bits c 28 12
    esize := bits c 40 6 + 1
    srcSpace := bits c 46 2
    dstSpace := bits c 48 2
    crcSpace := bits c 50 2
    barrier := bit c 52
    intHalf := bit c 53
    intFull := bit c 54
    crcEn := bit c 55
    crc64 := bit c 56
    crcChain := bit c 57
    srcS := [0x20, 0x24, 0x28].map fun o => BitVec.ofNat 32 (field bs o 4)
    dstS := [0x2C, 0x30, 0x34].map fun o => BitVec.ofNat 32 (field bs o 4)
    crcAddr := fieldW bs 0x38 }

/-- A descriptor that R188 refuses: a reserved bit of NEXT or CTRL is nonzero, or a space code is 3. -/
def descInvalid (bs : List Byte) : Bool :=
  let n := fieldW bs 0x00
  let c := fieldW bs 0x18
  bits n 0 6 != 0 || bits c 58 6 != 0 || bits c 46 2 == 3 || bits c 48 2 == 3 || bits c 50 2 == 3

end Sys2Proof.Machine
end

