-- ==== Sys2Proof/Machine/Dma.lean ====
section
/-! DEFINITION. The DMA engine (06): descriptors, loops, bursts, CRC, write completion, pause, hand-over, bus errors. -/

namespace Sys2Proof.Machine

open Sys2Proof

/-! ### Channels (R182 to R185) -/

/-- A utility channel: 224 to 255 (R182). -/
def isUtility (ch : Nat) : Bool := 224 ≤ ch && ch < 256

/-- The PF of a utility channel: 0 for 224 to 239, 128 for 240 to 255 (R182). -/
def chanPf (ch : Nat) : Nat := if ch < 240 then 0 else 128

/-- A channel's registers at reset (R214). -/
def chanReset (ch : Nat) : Chan := Chan.reset (if isUtility ch then chanPf ch else 0)

/-- A channel. -/
def getChan (s : State) (ch : Nat) : Chan := tabGet (chanReset ch) s.dma.chans ch

/-- A channel replaced. -/
def setChan (ch : Nat) (c : Chan) (s : State) : State :=
  { s with dma := { s.dma with chans := tabPut (chanReset ch) s.dma.chans ch c } }

/-- A channel changed by a function. -/
def modChan (ch : Nat) (f : Chan → Chan) (s : State) : State := setChan ch (f (getChan s ch)) s

/-- The number that stands for the firmware where a row names the function that writes: the firmware owns channels 0 to 223
(R182). DESIGN CHOICE (log 34). -/
def firmware : Nat := 256

/-- A write by a function, or by the firmware, reaches the channel's registers (R182, R183). -/
def chanOpen (s : State) (f ch : Nat) : Bool :=
  if f = firmware then serving s && decide (ch < 224) else pfFull s f && isUtility ch && chanPf ch == f

/-- The limit of a space for a channel, none where the space is not permitted (R184). -/
def spaceLimit (s : State) (ch space : Nat) : Option Nat :=
  if space = 0 then some (2 ^ 64)
  else if space = 1 then if isUtility ch then none else some (wayBytes s)
  else if space = 2 then some (if isUtility ch then 0x4000000 else 0xC00000000)
  else none

/-- The space check of an access (R185). -/
def spaceOk (s : State) (ch space : Nat) (a : Word) (n : Nat) : Bool :=
  match spaceLimit s ch space with
  | none => false
  | some l => decide (a.toNat + n ≤ l) || space == 0

/-- Where a channel's HBM addresses begin (R184): a firmware channel reaches all of HBM, a utility channel its PF's scratch
area. DESIGN CHOICE (log 13): the two areas are the last 128 MiB of the 48 GiB. -/
def scratchBase (ch : Nat) : Nat :=
  if isUtility ch then if chanPf ch = 128 then 0xBFC000000 else 0xBF8000000 else 0

/-- The function whose memory is a channel's host space (R184, R214). -/
def chanFunc (ch : Nat) (c : Chan) : Nat := if isUtility ch then chanPf ch else c.func

/-! ### Elements and bursts (R189, R190) -/

/-- N = L0 · L1 · L2 (R189). -/
def Desc.count (d : Desc) : Nat := d.l0 * d.l1 * d.l2

/-- The indices (i0, i1, i2) of the n-th element (R189). -/
def Desc.indices (d : Desc) (n : Nat) : Nat × Nat × Nat :=
  (n % d.l0, n / d.l0 % d.l1, n / (d.l0 * d.l1))

/-- A base plus the steps of an element's indices, modulo 2^64 (R189). -/
def stepSum (base : Word) (steps : List (BitVec 32)) (i : Nat × Nat × Nat) : Word :=
  let st := fun k => (nth 0 steps k).signExtend 64
  base + BitVec.ofNat 64 i.1 * st 0 + BitVec.ofNat 64 i.2.1 * st 1 + BitVec.ofNat 64 i.2.2 * st 2

/-- The source address of the n-th element (R189). -/
def Desc.srcAddr (d : Desc) (n : Nat) : Word := stepSum d.src d.srcS (d.indices n)

/-- The destination address of the n-th element (R189). -/
def Desc.dstAddr (d : Desc) (n : Nat) : Word := stepSum d.dst d.dstS (d.indices n)

/-- How many further elements join a burst that starts at `a` and holds `k` elements so far (R190): consecutive
addresses, at most 512 bytes, no crossing of a 4 KiB boundary. -/
def burstMore (addr : Nat → Word) (esize : Nat) (a : Word) (n last : Nat) : Nat → Nat → Nat
  | 0, k => k
  | fuel + 1, k =>
    if n + k < last ∧ addr (n + k) = a + BitVec.ofNat 64 (k * esize) ∧ (k + 1) * esize ≤ 512 ∧
        a.toNat % 4096 + (k + 1) * esize ≤ 4096 then
      burstMore addr esize a n last fuel (k + 1)
    else k

/-- The number of elements of the burst that starts at element `n` of `last` (R190): at least one. -/
def burstLen (addr : Nat → Word) (esize n last : Nat) : Nat := burstMore addr esize (addr n) n last 512 1

/-! ### Positions -/

/-- DMA_REMAIN of the next element to be read: zero once every element has been read (R214). -/
def remainOf (d : Desc) (n : Nat) : Nat × Nat × Nat :=
  if d.count ≤ n then (0, 0, 0)
  else (d.l0 - (d.indices n).1, d.l1 - (d.indices n).2.1, d.l2 - (d.indices n).2.2)

/-- The descriptor being read: the last of the active ones. -/
def Chan.run (c : Chan) : Option DescRun := c.active.getLast?

/-- The position registers brought to the descriptor that is being read (R202, R214); DMA_CUR names one that is being
fetched. -/
def Chan.syncPos (c : Chan) : Chan :=
  match c.run with
  | none => c
  | some r =>
    { c with
      cur := (c.toFetch.or c.fetching).getD r.desc.addr
      remain := remainOf r.desc r.readN
      srcCur := if r.desc.count ≤ r.readN then c.srcCur else r.desc.srcAddr r.readN
      dstCur := if r.desc.count ≤ r.readN then c.dstCur else r.desc.dstAddr r.readN
      crc := r.crc }

/-- The last of a channel's active descriptors changed. -/
def modLast (f : DescRun → DescRun) : List DescRun → List DescRun
  | [] => []
  | [r] => [f r]
  | r :: rest => r :: modLast f rest

/-- An active descriptor that has not ended, changed. -/
def modRun (seq : Nat) (f : DescRun → DescRun) (c : Chan) : Chan :=
  { c with active := c.active.map fun r => if r.seq = seq && !r.ended then f r else r }

/-- The descriptor that issued writes or reads, unless it has ended. -/
def Chan.runOf (c : Chan) (seq : Nat) : Option DescRun := c.active.find? fun r => r.seq == seq && !r.ended

/-- A descriptor that has ended, or whose rest is abandoned: nothing of it is left to do. -/
def DescRun.close (r : DescRun) : DescRun :=
  { r with
    readN := r.desc.count, gotN := r.desc.count, wroteN := r.desc.count, movedN := r.desc.count, buf := []
    crcSent := true, crcDone := true, ended := true }

/-- The position moved back to an element (R208): one whose read has not completed, or, with the CRC before it, one not
behind the last issued write; what was read from it on is discarded. -/
def DescRun.retreat (n : Nat) (crc : Word) (r : DescRun) : DescRun :=
  if r.gotN ≤ n then { r with readN := min r.readN n }
  else { r with readN := n, gotN := n, wroteN := n, movedN := min r.movedN n, buf := [], crc := crc }

/-- The channel's position moved back to an element of the descriptor being read (R207, R208): later reads are not done,
later writes that are issued will be issued again. -/
def Chan.retreat (n : Nat) (crc : Word) (c : Chan) : Chan :=
  let seq := (c.run.map (·.seq)).getD 0
  { c with
    active := modLast (DescRun.retreat n crc) c.active
    reads := c.reads.filter fun x => decide (x.first < n)
    writes := c.writes.map fun w => if w.seq = seq && !w.store && decide (n ≤ w.first) then { w with stale := true } else w }

/-! ### Legs of a channel (R200, R203) -/

/-- The channel that a unit of work is a burst group of. -/
def Work.chan? : Work → Option Nat
  | .leg l => l.chan
  | .sub _ => none

/-- The channel's legs end where they are: no more of their bursts are placed (R203). -/
def endGroup (ch : Nat) (s : State) : State :=
  { s with drone := { s.drone with
      queued := s.drone.queued.filter fun w => w.chan? != some ch
      next := s.drone.next.filter fun w => w.chan? != some ch
      running := s.drone.running.filter fun l => l.chan != some ch } }

/-! ### Faults (R207 to R211) -/

/-- A channel's event source raised when a condition holds (R213). -/
def chanEvent (c : Bool) (ch : Nat) (s : State) : State := raiseIf c (0x800 + ch) s

/-- HALTED entered once the issued writes have responded (R207, R210): FAULT is set, and DONE with it when the faulting
descriptor has ended. -/
def enterHalted (ch : Nat) (s : State) : State :=
  let c := getChan s ch
  chanEvent c.faultEn ch
    (setChan ch { c.syncPos with
      state := .halted, halting := false, fault := true, done := c.done || c.endToo } s)

/-- The fault registers latched (R207). DESIGN CHOICE (log 34): a further error while the channel already drains for a fault
latches nothing. -/
def latchFault (wr : Bool) (kind cause space : Nat) (addr desc : Word) (endToo : Bool) (c : Chan) : Chan :=
  if c.halting then c
  else
    { c with
      faultAddr := addr, faultWrite := wr, faultKind := kind, faultCause := cause, faultSpace := space, faultOther := 0
      faultDesc := desc, halting := true, fresh := true, endToo := endToo }

/-- The address of a 32-byte beat of an access (R207). -/
def beatAddr (a : Word) (beat : Nat) : Word := BitVec.ofNat 64 (a.toNat / 32 * 32 + 32 * beat)

/-- The first beat of an access that fails the space check (R185): its first, or the one at the space's limit. -/
def badBeat (s : State) (ch space : Nat) (a : Word) : Word :=
  match spaceLimit s ch space with
  | none => beatAddr a 0
  | some l => if a.toNat < l then BitVec.ofNat 64 l else beatAddr a 0

/-- A fault of the descriptor being read, whose position goes back to element `n` (R207, R208); the channel's leg ends. -/
def faultAt (ch : Nat) (wr : Bool) (kind cause space : Nat) (addr : Word) (r : DescRun) (n : Nat) (crc : Word)
    (s : State) : State :=
  endGroup ch (modChan ch (fun c =>
    { (latchFault wr kind cause space addr r.desc.addr false c).retreat n crc with fetching := none, toFetch := none }) s)

/-- A fault of a descriptor that has ended with it (R210): the channel's position is that of the later descriptor, whose reads
without an issued write are done again, or the fetch of NEXT. -/
def faultEnded (ch kind cause space : Nat) (addr : Word) (r : DescRun) (s : State) : State :=
  endGroup ch (modChan ch (fun c =>
    let d := { latchFault true kind cause space addr r.desc.addr true (modRun r.seq DescRun.close c) with
      done := c.done || c.halting, fetching := none, toFetch := c.toFetch.or c.fetching }
    match d.run with
    | none => d
    | some x => if x.ended then d else d.retreat x.wroteN x.crc) s)

/-- A fault of a descriptor fetch (R185, R188, R207): it is made again on a resume. -/
def faultFetch (ch cause : Nat) (addr a : Word) (s : State) : State :=
  endGroup ch (modChan ch (fun c =>
    { latchFault false 1 cause c.listSpace addr a false c with fetching := none, toFetch := some a }) s)

/-- The other utility channels of the PF that a bus error stops under COMPAT4200 (R211). -/
def compatStops (s : State) (ch : Nat) : List Nat :=
  ((List.range 16).map fun i => (if ch < 240 then 224 else 240) + i).filter fun x =>
    x != ch && ((getChan s x).state == .run || (getChan s x).state == .pausing) && !(getChan s x).halting

/-- The channel is stopped because of another channel's bus error (R211): it drains as for a pause. DESIGN CHOICE (log 34):
DIR, KIND, SPACE and DMA_FAULT_DESC are zero. -/
def compatStop (by_ : Nat) (s : State) (ch : Nat) : State :=
  endGroup ch (modChan ch (fun c => { latchFault false 0 7 0 0 0 false c with faultOther := by_, fresh := false }) s)

/-- The global copy that governs a utility channel (R215). -/
def dmaGlob (s : State) (pf : Nat) : DmaGlobal := if pf = 0 then s.dma.glob0 else s.dma.glob1

/-- A global copy replaced. -/
def setDmaGlob (pf : Nat) (g : DmaGlobal) (s : State) : State :=
  if pf = 0 then { s with dma := { s.dma with glob0 := g } } else { s with dma := { s.dma with glob1 := g } }

/-! ### Reads and writes -/

/-- Bytes of a space the model holds: HBM (R184). -/
def hbmBytes (s : State) (ch : Nat) (a : Word) (n : Nat) : List Byte := memReadN s.mem (scratchBase ch + a.toNat) n

/-- HBM with the issued writes of a channel applied (R192). -/
def hbmWithWrites (s : State) (ch : Nat) : Memory :=
  (getChan s ch).writes.foldl (fun m w =>
    if w.space = 2 then memWriteN m (scratchBase ch + w.addr.toNat) w.data else m) s.mem

/-- A source byte from HBM (R192): the value at the burst's issue or with the issued writes applied; where they differ
a free choice takes one of them. -/
def mixBytes (n : Nat) : List Byte → List Byte → List Byte
  | a :: as, b :: bs => (if a = b then a else if (Config.freeWord n).getLsbD 0 then a else b) :: mixBytes (n + 1) as bs
  | _, _ => []

/-- A write issued on a channel; a host write leaves the device now, an HBM write lands when it responds (R193). -/
def issueWrite (ch : Nat) (w : DmaWrite) (s : State) : State :=
  let c := getChan s ch
  let s1 := setChan ch { c with writes := c.writes ++ [w] } s
  if w.space = 0 then emit (dataOut s1 (chanFunc ch c) w.addr w.data) s1 else s1

/-- The running CRC over source bytes (R198): CRC32C in the low half, or CRC64. -/
def crcRun (c64 : Bool) (w : Word) (bs : List Byte) : Word :=
  if c64 then crc64From w bs else (crc32cFrom (w.setWidth 32) bs).setWidth 64

/-- The value a descriptor's CRC starts from (R198): all ones, or the running value left by the previous descriptor. DESIGN
CHOICE (log 34): a value left by the other algorithm is cut to 32 bits or extended with zeros. -/
def crcStart (d : Desc) (prev : Word) : Word :=
  let w := if d.crcChain then prev else BitVec.allOnes 64
  if d.crc64 then w else (w.setWidth 32).setWidth 64

/-- The length of the next write burst (R190). DESIGN CHOICE (log 34): it ends where a burst group ends. -/
def DescRun.burst (r : DescRun) : Nat :=
  let stop := (r.ends.find? fun e => decide (r.wroteN < e)).getD r.desc.count
  burstLen r.desc.dstAddr r.desc.esize r.wroteN (min stop r.desc.count)

/-- The descriptor with a write burst of `k` elements issued: the CRC runs over them (R198), and the CRC at the start of a
burst group is kept (R108). -/
def DescRun.wrote (k : Nat) (data : List Byte) (r : DescRun) : DescRun :=
  let n := r.wroteN + k
  let crc := if r.desc.crcEn then crcRun r.desc.crc64 r.crc data else r.crc
  { r with
    wroteN := n, buf := r.buf.drop data.length, crc := crc
    marks := if r.ends.contains n then r.marks ++ [(n, crc)] else r.marks
    ends := r.ends.filter fun e => decide (n < e) }

/-- The write bursts that the read elements complete are issued in element order (R190); `all` issues the rest as well
(a pause or a fault). A burst that fails the space check faults (R185). -/
def issueWrites (all : Bool) (ch : Nat) : Nat → State → State
  | 0, s => s
  | fuel + 1, s =>
    let c := getChan s ch
    match c.run with
    | none => s
    | some r =>
      let d := r.desc
      let n := r.burst
      let have_ := r.gotN - r.wroteN
      if have_ = 0 ∨ (!all ∧ have_ < n) then s
      else
        let k := min n have_
        let a := d.dstAddr r.wroteN
        let data := r.buf.take (k * d.esize)
        if !spaceOk s ch d.dstSpace a (k * d.esize) then
          faultAt ch true 0 5 d.dstSpace (badBeat s ch d.dstSpace a) r r.wroteN r.crc s
        else
          let w : DmaWrite := {
            seq := r.seq, store := false, first := r.wroteN, count := k, space := d.dstSpace, addr := a, data := data
            crc := r.crc, stale := false }
          issueWrites all ch fuel
            (issueWrite ch w (setChan ch (Chan.syncPos { c with active := modLast (DescRun.wrote k data) c.active }) s))

/-- A descriptor fetch issued, or a fault when its space check fails (R185, R195). -/
def issueFetchDesc (ch : Nat) (a : Word) (s : State) : State :=
  let c := getChan s ch
  if spaceOk s ch c.listSpace a 64 then
    emit (.descFetch ch a) (setChan ch { c with toFetch := none, fetching := some a, cur := a } s)
  else faultFetch ch 5 (badBeat s ch c.listSpace a) a (setChan ch { c with cur := a } s)

/-- One read burst issued from the position of the descriptor being read (R190), or a fault (R185). -/
def issueRead (ch : Nat) (s : State) : State :=
  let c := getChan s ch
  match c.run with
  | none => s
  | some r =>
    let d := r.desc
    if d.count ≤ r.readN then s
    else
      let k := burstLen d.srcAddr d.esize r.readN d.count
      let a := d.srcAddr r.readN
      if !spaceOk s ch d.srcSpace a (k * d.esize) then
        faultAt ch false 0 5 d.srcSpace (badBeat s ch d.srcSpace a) r r.readN r.crc s
      else
        let rd : DmaRead := {
          first := r.readN, count := k, space := d.srcSpace, addr := a, bytes := k * d.esize
          was := if d.srcSpace = 2 then hbmBytes s ch a (k * d.esize) else [] }
        emit (.dmaRead ch a (k * d.esize))
          (setChan ch (Chan.syncPos { c with
            reads := c.reads ++ [rd]
            active := modLast (fun r => { r with readN := r.readN + k }) c.active }) s)

/-- The channel may issue a read: it runs, with elements of the descriptor left. -/
def Chan.mayRead (c : Chan) : Bool :=
  c.state == .run && !c.halting && c.run.any fun r => decide (r.readN < r.desc.count)

/-- Read bursts issued one after another up to element `last`. -/
def issueReads (ch last : Nat) : Nat → State → State
  | 0, s => s
  | n + 1, s =>
    let c := getChan s ch
    if c.mayRead && c.run.any (fun r => decide (r.readN < last)) then issueReads ch last n (issueRead ch s) else s

/-- Read bursts issued against the pacing requests that a paced channel has not yet used (R201). -/
def pacedReads (ch : Nat) : Nat → State → State
  | 0, s => s
  | n + 1, s =>
    let c := getChan s ch
    if c.mode && c.mayRead && c.paceCnt != 0 then
      pacedReads ch n (issueRead ch (setChan ch { c with paceCnt := c.paceCnt - 1 } s))
    else s

/-! ### Burst groups (R87, R191, R200) -/

/-- The end of a burst group from element `n` on: at most 64 bursts and `left` bytes (R87). -/
def groupEnd (d : Desc) : Nat → Nat → Nat → Nat
  | 0, n, _ => n
  | fuel + 1, n, left =>
    let k := burstLen d.srcAddr d.esize n d.count
    if d.count ≤ n ∨ left < k * d.esize then n else groupEnd d fuel (n + k) (left - k * d.esize)

/-- The burst groups from element `n` on that carry at most `left` bytes, each at most 32 KiB (R87, R191). -/
def groupSpans (d : Desc) : Nat → Nat → Nat → List (Nat × Nat)
  | 0, _, _ => []
  | fuel + 1, n, left =>
    let e := groupEnd d 64 n (min 32768 left)
    if e ≤ n then [] else (n, e) :: groupSpans d fuel e (left - (e - n) * d.esize)

/-- A burst group leg (R87, R200), charged for the bytes of its elements; it names the descriptor and its elements. -/
def groupLeg (ch : Nat) (r : DescRun) (span : Nat × Nat) : Work :=
  let d := r.desc
  let n := (span.2 - span.1) * d.esize
  .leg { Leg.blank with
    kind := .dma, chan := some ch, cost := n, dst := [r.seq, span.1, span.2]
    hostIn := if d.srcSpace = 0 then n else 0
    hostOut := if d.dstSpace = 0 then n else 0
    hbm := (if d.srcSpace = 2 then n else 0) + if d.dstSpace = 2 then n else 0 }

/-- Burst groups of the channel wait for their caravan. -/
def groupWaits (s : State) (ch : Nat) : Bool := (s.drone.queued ++ s.drone.next).any fun w => w.chan? == some ch

/-- The burst groups of one tick queued for a channel in software start that has elements left to read and no group waiting
(R191, R200). PRESUMED (log 34): a firmware channel's legs are foreground, for no rule says which work its list serves. -/
def wantLeg (ch : Nat) (s : State) : State :=
  let c := getChan s ch
  match c.run with
  | none => s
  | some r =>
    if c.mayRead && !c.mode && !groupWaits s ch then
      queueWorks 0 .foreground false ((groupSpans r.desc 4096 r.readN (32 * slotBudget s)).map (groupLeg ch r)) s
    else s

/-! ### The course of a list -/

/-- The CRC store of a descriptor whose data writes have all responded (R198), or its fault (R185). -/
def issueStore (ch : Nat) (r : DescRun) (s : State) : State :=
  let d := r.desc
  let n := if d.crc64 then 8 else 4
  if spaceOk s ch d.crcSpace d.crcAddr n then
    issueWrite ch { seq := r.seq, store := true, first := d.count, count := 0, space := d.crcSpace,
                    addr := d.crcAddr, data := leBytes n r.crc.toNat, crc := r.crc, stale := false }
      (modChan ch (modRun r.seq fun x => { x with crcSent := true }) s)
  else faultEnded ch 2 5 d.crcSpace (badBeat s ch d.crcSpace d.crcAddr) r s

/-- The end of a descriptor: HALF for one with no elements, then DONE, with the events its flags ask (R196, R197). -/
def endDesc (ch : Nat) (r : DescRun) (s : State) : State :=
  let zero := r.desc.count = 0
  let s1 := modChan ch (fun c =>
    { modRun r.seq (fun x => { x with ended := true }) c with half := c.half || zero, done := true }) s
  chanEvent r.desc.intFull ch (chanEvent (decide zero && r.desc.intHalf) ch s1)

/-- Every descriptor that has finished its writes gets its CRC store or its end, oldest first (R196, R198), also while the
channel drains. -/
def finishDescs (ch : Nat) : List DescRun → State → State
  | [], s => s
  | r :: rest, s =>
    let d := r.desc
    if r.ended || decide (r.movedN < d.count) then finishDescs ch rest s
    else if d.crcEn && !r.crcSent then finishDescs ch rest (issueStore ch r s)
    else if d.crcEn && !r.crcDone then finishDescs ch rest s
    else finishDescs ch rest (endDesc ch r s)

/-- A list started at an address (R199, R204): with PAUSE = 1 the channel enters PAUSED without a read. -/
def startList (ch : Nat) (a : Word) (s : State) : State :=
  let c := getChan s ch
  let c1 := { c with
    active := [], reads := [], writes := [], fetching := none, prevCrc := BitVec.allOnes 64, crc := BitVec.allOnes 64
    cur := a, remain := (0, 0, 0), halting := false, fresh := false }
  if c.pause then setChan ch { c1 with state := .paused, toFetch := some a } s
  else issueFetchDesc ch a (setChan ch { c1 with state := .run } s)

/-- A list end (R195): LIST_END and its event, then IDLE or the hand-over to a committed list (R204). -/
def endList (ch : Nat) (s : State) : State :=
  let c := getChan s ch
  let s1 := chanEvent c.endEn ch (setChan ch { c with listEnd := true, active := [], state := .idle } s)
  match c.shSlot with
  | none => s1
  | some a => startList ch a (modChan ch (fun x => { x with shSlot := none }) s1)

/-- The descriptor whose elements have all been written is followed by its NEXT (R194) or by the list end (R195). -/
def followOn (ch : Nat) (r : DescRun) (s : State) : State :=
  let c := getChan s ch
  if r.desc.next = 0 then
    if c.active.all (·.ended) && c.writes.isEmpty && (c.state == .run || c.state == .pausing) then endList ch s else s
  else if c.state == .run && c.fetching.isNone && (!r.desc.barrier || r.ended) then issueFetchDesc ch r.desc.next s
  else s

/-- A channel that is not draining for a fault goes on: the fetch it owes, reads, or what follows the descriptor. -/
def goOn (ch : Nat) (s : State) : State :=
  let c := getChan s ch
  if c.halting then s
  else
    match c.toFetch with
    | some a => if c.state == .run then issueFetchDesc ch a s else s
    | none =>
      match c.run with
      | none => s
      | some r =>
        if r.readN < r.desc.count then pacedReads ch 64 (wantLeg ch s)
        else if r.wroteN < r.desc.count then s
        else followOn ch r s

/-- A stop that drains (a pause, a fault) lets what has been read be written (R202, R208). -/
def drain (ch : Nat) (s : State) : State :=
  let c := getChan s ch
  if c.reads.isEmpty && (c.state == .pausing || c.halting) then issueWrites true ch 512 s else s

/-- A draining channel with nothing outstanding enters HALTED (R207); one that R211 stops waits for its fetch as well. -/
def settleHalt (ch : Nat) (s : State) : State :=
  let c := getChan s ch
  if c.halting && c.writes.isEmpty && c.reads.isEmpty && c.fetching.isNone then enterHalted ch s else s

/-- Every utility channel that a bus error of `ch` stops under COMPAT4200 (R211), and FIRST_CH. -/
def compatSpread (ch : Nat) (s : State) : State :=
  let pf := chanPf ch
  if isUtility ch && (dmaGlob s pf).compat4200 then
    let l := compatStops s ch
    let s1 := l.foldl (compatStop ch) (setDmaGlob pf { dmaGlob s pf with firstCh := ch } s)
    l.foldl (fun x y => settleHalt y (finishDescs y (getChan (drain y x) y).active (drain y x))) s1
  else s

/-- A fault that has just been latched spreads under COMPAT4200 (R211). -/
def spreadFault (ch : Nat) (s : State) : State :=
  let c := getChan s ch
  if c.fresh then compatSpread ch (setChan ch { c with fresh := false } s) else s

/-- A channel taken as far as what has responded allows: read data written out, descriptors ended, the next one fetched
(R194), the list ended (R195), a fault spread (R211) and HALTED entered (R207). -/
def advance (ch : Nat) (s : State) : State :=
  let a := drain ch s
  settleHalt ch (spreadFault ch (drain ch (goOn ch (finishDescs ch (getChan a ch).active a))))

/-! ### Commands -/

/-- DMA_START (R199): START written while IDLE. -/
def execDmaStart (f ch : Nat) (s : State) : Host.Outcome State Fault Refusal :=
  let c := getChan s ch
  if chanOpen s f ch && c.state == .idle then .next (advance ch (startList ch c.listHead s)) else .next s

/-- PAUSE written 1 (R202, R203): a running channel stops issuing reads, and its leg ends at its last issued burst. -/
def pauseChan (ch : Nat) (s : State) : State :=
  let c := getChan s ch
  let s1 := setChan ch { c with pause := true, state := if c.state == .run then .pausing else c.state } s
  advance ch (if c.state == .run then endGroup ch s1 else s1)

/-- DMA_PAUSE (R202, R203). -/
def execDmaPause (f ch : Nat) (s : State) : Host.Outcome State Fault Refusal :=
  if chanOpen s f ch && !(getChan s ch).pause then .next (pauseChan ch s) else .next s

/-- PAUSE written 0 (R202): a channel in PAUSING or PAUSED returns to RUN. -/
def unpauseChan (ch : Nat) (s : State) : State :=
  let c := getChan s ch
  if c.state == .pausing || c.state == .paused then advance ch (setChan ch { c with pause := false, state := .run } s)
  else setChan ch { c with pause := false } s

/-- DMA_UNPAUSE (R202). -/
def execDmaUnpause (f ch : Nat) (s : State) : Host.Outcome State Fault Refusal :=
  if chanOpen s f ch && (getChan s ch).pause then .next (unpauseChan ch s) else .next s

/-- DMA_PAUSED (R202): nothing issued is outstanding, so PAUSING becomes PAUSED. -/
def execDmaPaused (ch : Nat) (s : State) : Host.Outcome State Fault Refusal :=
  let c := getChan s ch
  if c.state == .pausing && c.reads.isEmpty && c.writes.isEmpty && c.fetching.isNone && !c.halting then
    .next (setChan ch { c.syncPos with state := .paused } s)
  else .next s

/-- A fetched descriptor becomes the one being read (R186, R198). -/
def takeDesc (ch : Nat) (d : Desc) (s : State) : State :=
  let c := getChan s ch
  let prev := (c.run.map (·.crc)).getD c.prevCrc
  let st := if d.crcEn then crcStart d prev else prev
  let r : DescRun := {
    seq := (c.run.map (·.seq + 1)).getD 0, desc := d, readN := 0, gotN := 0, wroteN := 0, movedN := 0, buf := [], crc := st
    marks := [(0, st)], ends := [], crcSent := false, crcDone := false, half := false, ended := false }
  setChan ch (Chan.syncPos { c with fetching := none, active := (c.active.filter fun x => !x.ended) ++ [r] }) s

/-- DESCRIPTOR_FETCH (R186, R188): the fetch in flight completes; an invalid descriptor faults with cause 0x6. -/
def execDescriptorFetch (ch : Nat) (bytes : List Byte) (s : State) : Host.Outcome State Fault Refusal :=
  let c := getChan s ch
  match c.fetching with
  | none => .next s
  | some a =>
    let bs := if c.listSpace = 2 then hbmBytes s ch a 64 else takePad 64 bytes
    .next (advance ch (if descInvalid bs then faultFetch ch 6 a a s else takeDesc ch (parseDesc a bs) s))

/-- A pacing request counted, up to 64 unused ones (R201). -/
def paceChan (src : Nat) (s : State) (ch : Nat) : State :=
  let c := getChan s ch
  if c.mode && c.paceSrc == src then advance ch (setChan ch { c with paceCnt := min 64 (c.paceCnt + 1) } s) else s

/-- PACING_REQUEST (R201): every channel paced by the source uses or counts it. -/
def execPacingRequest (src : Nat) (s : State) : Host.Outcome State Fault Refusal :=
  .next ((s.dma.chans.map (·.1)).foldl (paceChan src) s)

/-- The oldest read burst's bytes arrive (R190, R192): the write bursts they complete are issued. -/
def readDone (ch : Nat) (rd : DmaRead) (data : List Byte) (s : State) : State :=
  let c := getChan s ch
  let now := memReadN (hbmWithWrites s ch) (scratchBase ch + rd.addr.toNat) rd.bytes
  let bs := if rd.space = 2 then mixBytes s.free rd.was now else takePad rd.bytes data
  issueWrites false ch 512 (setChan ch { c with
    reads := c.reads.tail
    active := modLast (fun r => { r with gotN := r.gotN + rd.count, buf := r.buf ++ bs }) c.active }
    { s with free := if rd.space = 2 then s.free + rd.bytes else s.free })

/-- DMA_READ_COMPLETION (R190, R192): the oldest outstanding read burst completes. -/
def execDmaReadCompletion (ch : Nat) (data : List Byte) (s : State) : Host.Outcome State Fault Refusal :=
  match (getChan s ch).reads with
  | [] => .next s
  | rd :: _ => .next (advance ch (readDone ch rd data s))

/-- The elements of a responded data write have moved, and HALF is reported when half of them have (R196); a write that will
be issued again moves none. -/
def movedWrite (ch : Nat) (w : DmaWrite) (s : State) : State :=
  let c := getChan s ch
  match c.runOf w.seq with
  | none => s
  | some r =>
    let m := if w.stale then r.movedN else max r.movedN (w.first + w.count)
    let half := !r.half && decide (0 < r.desc.count) && decide (ceilDiv r.desc.count 2 ≤ m)
    chanEvent (half && r.desc.intHalf) ch (setChan ch
      { modRun w.seq (fun x => { x with movedN := m, half := x.half || half }) c with half := c.half || half } s)

/-- The oldest issued write responds (R193, R196, R198): HBM bytes land; its elements, or the CRC store, are done. -/
def writeDone (ch : Nat) (w : DmaWrite) (s : State) : State :=
  let s1 := modChan ch (fun c => { c with writes := c.writes.tail }) s
  let s2 := if w.space = 2 then { s1 with mem := memWriteN s1.mem (scratchBase ch + w.addr.toNat) w.data } else s1
  if w.store then modChan ch (modRun w.seq fun x => { x with crcDone := true }) s2 else movedWrite ch w s2

/-- DMA_WRITE_RESPONSE (R193 to R196): the oldest issued write responds, and the channel goes on. -/
def execDmaWriteResponse (ch : Nat) (s : State) : Host.Outcome State Fault Refusal :=
  match (getChan s ch).writes with
  | [] => .next s
  | w :: _ => .next (advance ch (writeDone ch w s))

/-- A commit (R204 to R206): into the pending slot, or a start when IDLE; `late` when it met a list end in its cycle. -/
def commitList (ch : Nat) (late : Bool) (s : State) : State :=
  let c := getChan s ch
  if c.state == .idle then
    let s1 := startList ch c.nextSh (setChan ch { c with lateCommit := c.lateCommit || late } s)
    advance ch (chanEvent (late && c.lateEn) ch s1)
  else if c.shSlot.isSome || late then setChan ch { c with shRefused := true } s
  else setChan ch { c with shSlot := some c.nextSh } s

/-- DMA_SH_COMMIT (R204 to R206): `sameCycle` says that the commit lands in the core cycle of a list end, which then uses
the state before the commit. -/
def execDmaShCommit (f ch : Nat) (sameCycle : Bool) (s : State) : Host.Outcome State Fault Refusal :=
  if chanOpen s f ch then .next (commitList ch sameCycle s) else .next s

/-- A bus error on the oldest read burst: every element before the burst is written, none from it on (R207, R208). -/
def readError (ch cause beat : Nat) (rd : DmaRead) (s : State) : State :=
  match (getChan s ch).run with
  | none => s
  | some r => faultAt ch false 0 cause rd.space (beatAddr rd.addr beat) r rd.first r.crc s

/-- A bus error on the oldest issued write (R207, R208, R210): a descriptor whose last beat or CRC store it was has ended with
it. DEDUCED (log 34): so has one behind which a later descriptor is being read; otherwise the position goes back to the
burst's first element. -/
def writeError (ch cause beat : Nat) (w : DmaWrite) (s : State) : State :=
  let s1 := modChan ch (fun c => { c with writes := c.writes.tail }) s
  let c := getChan s1 ch
  match c.runOf w.seq with
  | none => s1
  | some r =>
    let kind := if w.store then 2 else 0
    let later := c.run.any fun x => x.seq != w.seq
    if later || decide (r.desc.count ≤ w.first + w.count) then
      faultEnded ch kind cause w.space (beatAddr w.addr beat) r s1
    else if w.stale then
      modChan ch (latchFault true kind cause w.space (beatAddr w.addr beat) r.desc.addr false) s1
    else faultAt ch true kind cause w.space (beatAddr w.addr beat) r w.first w.crc s1

/-- DMA_BUS_ERROR (R207 to R211): an error on the oldest read, the oldest write or the fetch in flight. -/
def execDmaBusError (ch : Nat) (write : Bool) (kind cause beat : Nat) (s : State) : Host.Outcome State Fault Refusal :=
  let c := getChan s ch
  if kind = 1 then
    match c.fetching with
    | none => .next s
    | some a => .next (advance ch (faultFetch ch cause (beatAddr a beat) a s))
  else if write then
    match c.writes with
    | [] => .next s
    | w :: _ => .next (advance ch (writeError ch cause beat w s))
  else
    match c.reads with
    | [] => .next s
    | rd :: _ => .next (advance ch (readError ch cause beat rd s))

/-- The state a channel leaves HALTED for: PAUSED when PAUSE was written meanwhile (R203). -/
def leaveHalted (ch : Nat) (s : State) : State :=
  advance ch (modChan ch (fun c => { c with state := if c.pause then .paused else .run }) s)

/-- A list ended without LIST_END; a pending commit is cancelled (R209). -/
def abortList (ch : Nat) (s : State) : State :=
  endGroup ch (modChan ch (fun c => { c with
    state := .idle, active := [], reads := [], writes := [], fetching := none, toFetch := none
    shCancel := c.shCancel || c.shSlot.isSome, shSlot := none }) s)

/-- Resume (R209): from the element named under R208, or the descriptor fetch again. -/
def resumeChan (ch : Nat) (s : State) : State := leaveHalted ch s

/-- Skip (R209, R210): the rest of the faulting descriptor is abandoned without CRC store or DONE, and NEXT follows; one that
has ended with the fault is left behind already. After a fetch fault a skip acts as abort. DESIGN CHOICE (log 34): after a
stop with CAUSE 0x7 the descriptor being read is abandoned. -/
def skipChan (ch : Nat) (s : State) : State :=
  let c := getChan s ch
  if c.faultKind = 1 then abortList ch s
  else if c.endToo then leaveHalted ch s
  else leaveHalted ch (setChan ch (Chan.syncPos { c with active := modLast DescRun.close c.active }) s)

/-- FAULT_ACT_RESUME (R209). -/
def execFaultActResume (f ch : Nat) (s : State) : Host.Outcome State Fault Refusal :=
  if chanOpen s f ch && (getChan s ch).state == .halted then .next (resumeChan ch s) else .next s

/-- FAULT_ACT_SKIP (R209). -/
def execFaultActSkip (f ch : Nat) (s : State) : Host.Outcome State Fault Refusal :=
  if chanOpen s f ch && (getChan s ch).state == .halted then .next (skipChan ch s) else .next s

/-- FAULT_ACT_ABORT (R209). -/
def execFaultActAbort (f ch : Nat) (s : State) : Host.Outcome State Fault Refusal :=
  if chanOpen s f ch && (getChan s ch).state == .halted then .next (abortList ch s) else .next s

/-! ### Legs, resets and registers -/

/-- A burst group leg starts with its caravan behind what the channel has read: its bursts issue (R87, R200). What the
channel still keeps of groups that have ended is forgotten. -/
def startGroup (s : State) (l : Leg) : State :=
  match l.chan, l.dst with
  | some ch, [seq, first, last] =>
    let c := getChan s ch
    if c.mayRead && c.run.any (fun r => r.seq == seq && r.readN == first) then
      let open_ := (s.drone.running.filter fun x => x.chan == some ch).map fun x => nth 0 x.dst 1
      let s1 := setChan ch { c with active := modLast (fun r =>
        { r with
          ends := r.ends ++ [last]
          marks := r.marks.filter fun m => open_.all fun f => decide (f ≤ m.1) }) c.active } s
      advance ch (issueReads ch last 64 s1)
    else advance ch s
  | _, _ => s

/-- A group that hung runs again from its start (R108): the channel's position goes back, and the groups behind it are placed
again. -/
def rewindGroup (l : Leg) (s : State) : State :=
  match l.chan, l.dst with
  | some ch, [seq, first, _] =>
    let s1 := endGroup ch s
    modChan ch (fun c =>
      match c.runOf seq, c.run with
      | some r, some x =>
        if x.seq = seq ∧ first < r.readN then
          Chan.syncPos (c.retreat first (((r.marks.find? fun m => m.1 == first).map (·.2)).getD r.crc))
        else c
      | _, _ => c) s1
  | _, _ => s

/-- A second hang of a burst group halts its channel with CAUSE 0x9 at the group's first element (R108). -/
def hangGroup (l : Leg) (s : State) : State :=
  match l.chan with
  | none => s
  | some ch =>
    let s1 := rewindGroup l s
    match (getChan s1 ch).run with
    | none => s1
    | some r =>
      let n := nth 0 l.dst 1
      let a := if n < r.desc.count then beatAddr (r.desc.srcAddr n) 0 else 0
      advance ch (faultAt ch false 0 9 r.desc.srcSpace a r r.readN r.crc s1)

/-- A PF's utility channels aborted with no event, their registers at reset (R212). -/
def resetChans (pf : Nat) (s : State) : State :=
  (List.range 16).foldl (fun t i => endGroup ((if pf = 0 then 224 else 240) + i) t)
    { s with
      dma := { s.dma with
        chans := s.dma.chans.filter fun p => !(isUtility p.1 && chanPf p.1 == pf)
        glob0 := if pf = 0 then Dma.reset.glob0 else s.dma.glob0
        glob1 := if pf = 0 then s.dma.glob1 else Dma.reset.glob1 } }

/-- DMA_STAT.STATE (R214). -/
def ChanState.code : ChanState → Nat
  | .idle => 0
  | .run => 1
  | .pausing => 2
  | .paused => 3
  | .halted => 4

/-- A channel register as it reads, by offset from the channel's base (R214). -/
def chanRead (ch : Nat) (c : Chan) (off : Nat) : Word :=
  if off = 0x00 then putB (c.state != .idle) 0 ||| putB c.pause 1
  else if off = 0x08 then
    putB c.mode 0 ||| put c.paceSrc 8 ||| put c.listSpace 16 ||| putB c.endEn 24 ||| putB c.faultEn 25 |||
      putB c.lateEn 26 ||| put (chanFunc ch c) 32
  else if off = 0x10 then
    put c.state.code 0 ||| putB c.shSlot.isSome 3 ||| putB c.half 4 ||| putB c.done 5 ||| putB c.listEnd 6 |||
      putB c.fault 7 ||| putB c.lateCommit 8 ||| putB c.shRefused 9 ||| putB c.shCancel 10
  else if off = 0x18 then c.listHead
  else if off = 0x20 then c.nextSh
  else if off = 0x30 then c.cur
  else if off = 0x38 then put c.remain.1 0 ||| put c.remain.2.1 16 ||| put c.remain.2.2 28
  else if off = 0x40 then c.srcCur
  else if off = 0x48 then c.dstCur
  else if off = 0x50 then c.crc
  else if off = 0x58 then c.faultAddr
  else if off = 0x60 then
    putB c.faultWrite 0 ||| put c.faultKind 1 ||| put c.faultCause 4 ||| put c.faultSpace 8 ||| put c.faultOther 16
  else if off = 0x68 then c.faultDesc
  else if off = 0x70 then put c.paceCnt 0
  else 0

/-- An address field of 64-byte aligned descriptors: bits [5:0] read as zero (R214). -/
def descAddr (w : Word) : Word := w &&& ~~~ (63 : Word)

/-- DMA_CFG written (R214): while the channel is not IDLE only bits [26:24]; utility channels have MODE, PACE_SRC and FUNC
fixed. -/
def writeDmaCfg (ch : Nat) (w : Word) (c : Chan) : Chan :=
  let c1 := { c with endEn := bit w 24, faultEn := bit w 25, lateEn := bit w 26 }
  if c.state != .idle then c1
  else if isUtility ch then { c1 with listSpace := bits w 16 2 }
  else { c1 with mode := bit w 0, paceSrc := bits w 8 5, listSpace := bits w 16 2, func := bits w 32 8 }

/-- The FAULT_ACT field of a DMA_CTL write (R209). -/
def faultAct (ch act : Nat) (s : State) : State :=
  if (getChan s ch).state != .halted then s
  else if act = 1 then resumeChan ch s
  else if act = 2 then skipChan ch s
  else if act = 3 then abortList ch s
  else s

/-- A write of DMA_CTL (R199, R202, R203, R209): PAUSE as written first, then FAULT_ACT; START counts where the write finds
the channel IDLE. -/
def writeDmaCtl (ch : Nat) (w : Word) (s : State) : State :=
  let c := getChan s ch
  let p := c.pause
  let s1 := if bit w 1 && !p then pauseChan ch s else if !bit w 1 && p then unpauseChan ch s else s
  if bit w 0 && c.state == .idle then advance ch (startList ch c.listHead s1) else faultAct ch (bits w 2 2) s1

/-- A write of a utility channel's register by its PF (R214). -/
def chanWrite (ch off : Nat) (w : Word) (s : State) : State :=
  if off = 0x00 then writeDmaCtl ch w s
  else if off = 0x08 then modChan ch (writeDmaCfg ch w) s
  else if off = 0x10 then
    modChan ch (fun c => { c with
      half := c.half && !bit w 4, done := c.done && !bit w 5, listEnd := c.listEnd && !bit w 6
      fault := c.fault && !bit w 7, lateCommit := c.lateCommit && !bit w 8, shRefused := c.shRefused && !bit w 9
      shCancel := c.shCancel && !bit w 10 }) s
  else if off = 0x18 then modChan ch (fun c => { c with listHead := descAddr w }) s
  else if off = 0x20 then modChan ch (fun c => { c with nextSh := descAddr w }) s
  else if off = 0x28 then commitList ch false s
  else s

/-- DMA_GSTAT of a PF (R215). -/
def dmaGstat (s : State) (pf : Nat) : Word :=
  let stopped := (List.range 16).any fun i =>
    let c := getChan s ((if pf = 0 then 224 else 240) + i)
    c.state == .halted && c.faultCause == 7
  putB stopped 0 ||| put (dmaGlob s pf).firstCh 8

end Sys2Proof.Machine
end

