-- ==== Sys2Proof/Machine/Events.lean ====
section
/-! DEFINITION. The event unit (R506 to R510, R543, R574): MSI-X delivery with coalescing, the management log and alerts,
masks. -/

namespace Sys2Proof.Machine

open Sys2Proof

/-! ### MSI-X (R507 to R509) -/

/-- The spacing of a coalescing class in ticks (R507). -/
def spacing (coal : Nat) : Nat := nth 0 [0, 4, 16, 64, 256, 1024, 4096, 16384] coal

/-- A vector's key: function · 2,048 + vector. -/
def vecKey (f v : Nat) : Nat := f * 2048 + v

/-- The sources pending for a vector (R507). -/
def pendingFor (s : State) (f v : Nat) : List Nat :=
  (s.events.pendMsix.map (·.1)).filter fun src => (route s src).func == f && (route s src).vector == v

/-- The source is masked by EVT_MASK (R508). -/
def evtMasked (s : State) (src : Nat) : Bool := tabGet false s.events.mask src

/-- The spacing that governs a vector: that of the lowest COAL class among its pending sources (R507). -/
def vecSpacing (s : State) (ps : List Nat) : Nat :=
  match leastBy (fun a b => decide (a < b)) (ps.map fun src => (route s src).coal) with
  | none => 0
  | some c => spacing c

/-- A message for a vector may go at this edge (R507). -/
def messageDue (s : State) (f v : Nat) : Bool :=
  let ps := pendingFor s f v
  let gap := (tabFind s.events.lastMsg (vecKey f v)).all fun t => decide (t + vecSpacing s ps ≤ s.drone.count)
  (getFunc s f).msixEn && ps.any (fun src => !evtMasked s src) && gap

/-- The message of a vector, as its MSI-X table entry gives it (R143, R507). -/
def msixMessage (s : State) (f v : Nat) : Output :=
  let e := tabGet (0, 0) (getFunc s f).table v
  .msix f v e.1 e.2 false

/-- The vector or its function is masked in the MSI-X table. -/
def vecMasked (s : State) (f v : Nat) : Bool := (getFunc s f).msixMask || tabGet true (getFunc s f).vecMask v

/-- MSIX_MESSAGE (R507): one message for a vector clears the marks of its unmasked pending sources; where the vector is
masked, the PBA holds the message. -/
def sendMessage (f v : Nat) (s : State) : State :=
  let ps := (pendingFor s f v).filter fun src => !evtMasked s src
  let s1 := { s with events := { s.events with
    pendMsix := s.events.pendMsix.filter fun p => !ps.contains p.1
    lastMsg := tabInsert s.events.lastMsg (vecKey f v) s.drone.count } }
  if vecMasked s f v then
    let x := getFunc s1 f
    setFunc f { x with pba := tabPut false x.pba v true } s1
  else emit (msixMessage s f v) s1

/-- The vectors that have pending sources, as (function, vector). -/
def pendingVectors (s : State) : List (Nat × Nat) :=
  (s.events.pendMsix.map fun p => ((route s p.1).func, (route s p.1).vector)).eraseDups

/-- A vector's message sent when it is due. -/
def deliverVector (s : State) (fv : Nat × Nat) : State :=
  if messageDue s fv.1 fv.2 then sendMessage fv.1 fv.2 s else s

/-- The messages of an edge (R507). -/
def deliverMsix (s : State) : State := (pendingVectors s).foldl deliverVector s

/-- The pending marks of the sources routed to a function discarded and its PBA cleared (R509). -/
def discardPending (f : Nat) (s : State) : State :=
  let x := getFunc s f
  setFunc f { x with pba := [] }
    { s with events := { s.events with pendMsix := s.events.pendMsix.filter fun p => (route s p.1).func != f } }

/-- MSIX_DISABLE (R509). -/
def execMsixDisable (f : Nat) (s : State) : Host.Outcome State Fault Refusal :=
  let x := getFunc s f
  .next (discardPending f (setFunc f { x with msixEn := false } s))

/-- A message held in the PBA sent when its vector is no longer masked (R507). -/
def releasePba (f v : Nat) (s : State) : State :=
  let x := getFunc s f
  if tabGet false x.pba v && !vecMasked s f v && x.msixEn then
    emit (msixMessage s f v) (setFunc f { x with pba := tabPut false x.pba v false } s)
  else s

/-- A vector's mask bit written in its MSI-X table entry (R143, R507). -/
def setVecMask (f v : Nat) (masked : Bool) (s : State) : State :=
  let x := getFunc s f
  releasePba f v (setFunc f { x with vecMask := tabPut true x.vecMask v masked } s)

/-- MSI-X enabled with the function not masked: the messages held for unmasked vectors are sent (R507). -/
def unmaskFunc (f : Nat) (s : State) : State :=
  let x := getFunc s f
  (x.pba.map (·.1)).foldl (fun t v => releasePba f v t) (setFunc f { x with msixEn := true, msixMask := false } s)

/-- MSIX_UNMASK (R507): the host unmasks a function (no vector named), or a vector of it. -/
def execMsixUnmask (f : Nat) (vector : Option Nat) (s : State) : Host.Outcome State Fault Refusal :=
  match vector with
  | none => .next (unmaskFunc f s)
  | some v => if barSeen s f && decide (v < (ringEnt s f).vectors) then .next (setVecMask f v false s) else .next s

/-- The bits of EVT_MASK word `w` that a PF may change: sources with TO_MSIX = 1 whose FUNC is on its port (R508). -/
def maskBits (s : State) (f w : Nat) : List Nat :=
  ((List.range 64).map fun b => 64 * w + b).filter fun src => (route s src).toMsix && portOf (route s src).func == portOf f

/-- A write of EVT_MASK[w] by a PF (R508). -/
def writeEvtMask (f w : Nat) (value : Word) (s : State) : State :=
  { s with events := { s.events with
      mask := (maskBits s f w).foldl (fun m src => tabPut false m src (bit value (src - 64 * w))) s.events.mask } }

/-- EVT_MASK_WRITE (R508). -/
def execEvtMaskWrite (f w : Nat) (value : Word) (s : State) : Host.Outcome State Fault Refusal :=
  if pfSeen s f && decide (w < 64) then .next (writeEvtMask f w value s) else .next s

/-- EVT_STAT[w] written (R518): each 1 clears its bit. -/
def writeEvtStat (w : Nat) (value : Word) (s : State) : State :=
  { s with events := { s.events with
      stat := s.events.stat.filter fun p => !(p.1 / 64 == w && bit value (p.1 % 64)) } }

/-- A word of a sparse bit set: EVT_STAT[w], EVT_MASK[w] (R518). -/
def setWord (t : Tab Bool) (w : Nat) : Word :=
  (t.filter fun p => p.1 / 64 == w && p.2).foldl (fun a p => a ||| putB true (p.1 % 64)) 0

/-! ### The management log and alerts (R510, R543) -/

/-- A log record's 16 bytes (R510): source, count, tick. -/
def logRecord (r : Nat × Nat × Nat) : List Byte := leBytes 2 r.1 ++ leBytes 2 r.2.1 ++ zeros 4 ++ leBytes 8 r.2.2

/-- The number of the next record: numbered from 0 at device reset (R510). -/
def nextRecord (s : State) : Nat := s.events.logBase + s.events.written

/-- A record with a number, if it is still in the log (R510). -/
def logFind (s : State) (n : Nat) : Option (Nat × Nat × Nat) :=
  let first := nextRecord s - s.events.log.length
  if n < first then none else s.events.log[n - first]?

/-- The alerts after a new record (R543): owed to every endpoint, at once for sources 0xC00 and 0xC08. -/
def oweAlerts (src : Nat) (as : List Alert) : List Alert :=
  as.map fun a => { a with owed := true, urgent := a.urgent || src == 0xC00 || src == 0xC08 }

/-- One record entered in the log (R510): the oldest of 1,024 is overwritten. -/
def logWrite (s : State) (p : Nat × Pend) : State :=
  { s with
    events := { s.events with
      log := (s.events.log ++ [(p.1, p.2.count, p.2.tick)]).drop (s.events.log.length + 1 - 1024)
      written := s.events.written + 1 }
    mgmt := { s.mgmt with alerts := oweAlerts p.1 s.mgmt.alerts } }

/-- A notification may be sent to an endpoint now (R543). -/
def alertDue (clock : Nat) (a : Alert) : Bool :=
  a.owed && (a.urgent || a.sentAt.all fun t => decide (t + 10000000 ≤ clock))

/-- A notification sent to an endpoint (R543): the newest record's number. -/
def notify (s : State) (a : Alert) : State :=
  emit (.notify a.eid (nextRecord s - 1)) { s with mgmt := { s.mgmt with
    alerts := s.mgmt.alerts.map fun x =>
      if x.eid = a.eid ∧ x.smbus = a.smbus then { x with owed := false, urgent := false, sentAt := some s.clock } else x } }

/-- EVENT_NOTIFY (R543): due notifications are sent over PCIe; one owed over SMBus holds MGMT_ALERT_N low. -/
def notifyStep (s : State) : State :=
  let due := s.mgmt.alerts.filter (alertDue s.clock)
  let s1 := (due.filter fun a => !a.smbus).foldl notify s
  if due.any (·.smbus) then { s1 with mgmt := { s1.mgmt with alertPin := false } } else s1

/-- The pending marks in the order of their records: HLT_MGMT_RESET first (R510). -/
def logOrder (t : Tab Pend) : List (Nat × Pend) := t.filter (fun p => p.1 == 0xC0B) ++ t.filter fun p => p.1 != 0xC0B

/-- MGMT_LOG_RECORD (R510): at an edge one record for each source pending toward the management plane, then alerts. -/
def logPending (s : State) : State :=
  if mgmtUp s then
    notifyStep ((logOrder s.events.pendMgmt).foldl logWrite { s with events := { s.events with pendMgmt := [] } })
  else s

/-- SMBUS_ALERT_RESPONSE (R543): the Alert Response Address is answered, MGMT_ALERT_N is released and the owed
notifications are sent. -/
def execSmbusAlertResponse (s : State) : Host.Outcome State Fault Refusal :=
  if mgmtUp s && !s.mgmt.alertPin then
    .next ((s.mgmt.alerts.filter fun a => a.smbus && a.owed).foldl notify
      { s with mgmt := { s.mgmt with alertPin := true } })
  else .next s

/-- A write of EVT_LOG_SEL (R518): the record is copied, zeros where it is not in the log. -/
def selectLog (n : Nat) (s : State) : State :=
  { s with events := { s.events with
      logSel := n
      logData := match logFind s n with
        | none => zeros 16
        | some r => logRecord r } }

/-- The EVENTS target: record n at offset 16 · (n mod 1,024) (R522). -/
def eventsTarget (s : State) : List Byte :=
  let n := s.events.log.length
  let first := nextRecord s - n
  (List.range 1024).flatMap fun i =>
    let k := first + (i + 1024 - first % 1024) % 1024
    match logFind s k with
    | none => zeros 16
    | some r => logRecord r

/-- R574: at APPLY the MSI-X marks and PBAs are discarded and the table entries that either image lacks are reset. -/
def swapRouting (old new : Option Image) (s : State) : State :=
  let vec := fun (im : Option Image) f => match im with
    | none => 0
    | some i => (tabGet { firstGroup := 0, groups := 0, cseraiShare := 0, vectors := 0 } i.ring f).vectors
  { s with
    events := { s.events with pendMsix := [] }
    host := { s.host with funcs := tabMap (fun f x =>
      { x with pba := [], table := x.table.filter (fun p => p.1 < min (vec old f) (vec new f)),
               vecMask := x.vecMask.filter fun p => p.1 < min (vec old f) (vec new f) }) s.host.funcs } }

/-- An EVT register as it reads, by offset in the block (R518). -/
def evtRead (s : State) (off : Nat) : Word :=
  if off < 0x200 then setWord s.events.stat (off / 8)
  else if off < 0x400 then setWord s.events.mask ((off - 0x200) / 8)
  else if off = 0x400 then put (s.events.written % 2 ^ 32) 0
  else if off = 0x408 then put s.events.logSel 0
  else if off = 0x410 then fieldW s.events.logData 0
  else if off = 0x418 then fieldW s.events.logData 8
  else 0

end Sys2Proof.Machine
end

