-- ==== Sys2Proof/Machine/Commands.lean ====
section
/-! DEFINITION. The command decoder and the ten commands (05): decoding, reads, writes, volumes, statuses. -/

namespace Sys2Proof.Machine

open Sys2Proof

/-! ### Decoding (R127, R149, R150) -/

/-- The opcode modifies data (R149). -/
def modifies (op : Nat) : Bool := op == 2 || op == 3 || op == 4

/-- The opcode is a volume command. -/
def isVolOp (op : Nat) : Bool := decide (0x40 ≤ op)

/-- The opcode is one of R149. -/
def knownOp (op : Nat) : Bool := [1, 2, 3, 4, 5, 7, 0x40, 0x41, 0x42, 0x43].contains op

/-- The status that the decoder's checks set; none when the command is executed (R150). DESIGN CHOICE (log 36): a READ, WRITE
or VERIFY with BLOCKS above 4,096 that passes them, a host error (R178), is executed as a command of that length. -/
def decodeStatus (s : State) (f : Nat) (e : Entry) : Option Nat :=
  if !knownOp e.opcode || (isVolOp e.opcode && !isPf f) then some 1
  else if isVolOp e.opcode then none
  else
    match getVol s e.volume with
    | none => some 9
    | some v =>
      if v.owner ≠ f then some 9
      else if v.state = .deleting ∨ v.state = .offline then some 2
      else if e.opcode = 5 then none
      else if e.blocks = 0 then some 0
      else if v.size < e.lba + e.blocks then some 3
      else if modifies e.opcode ∧ v.state = .readOnly then some 8
      else none

/-- A command changed. -/
def modCmd (seq : Nat) (f : Cmd → Cmd) (s : State) : State :=
  { s with host := { s.host with cmds := s.host.cmds.map fun c => if c.seq = seq then f c else c } }

/-- A command finishes with a status and result; a discarded one leaves no completion (R131, R135). -/
def finishCmd (seq st : Nat) (res : Word) (s : State) : State :=
  match findCmd s seq with
  | none => s
  | some c =>
    if c.phase.result?.isSome then s
    else if c.discard then dropCmd seq s
    else modCmd seq (fun c => { c with phase := .finished st res })
      { s with host := { s.host with finish := s.host.finish ++ [seq] } }

/-- The parcels that a command's range touches, by key, ascending. -/
def cmdParcels (v : Volume) (e : Entry) : List Nat :=
  if e.blocks = 0 then []
  else
    let a := e.lba / v.parcelBlocks
    let z := (e.lba + e.blocks - 1) / v.parcelBlocks
    (List.range (z + 1 - a)).map fun i => parcelKey e.volume (a + i)

/-- The command covers every block that the volume has in a parcel. -/
def coversParcel (v : Volume) (e : Entry) (pk : Nat) : Bool :=
  let a := keyParcel pk * v.parcelBlocks
  decide (e.lba ≤ a) && decide (min v.size (a + v.parcelBlocks) ≤ e.lba + e.blocks)

/-- The parcels that a command places when the decoder accepts it (R263): unplaced ones that a WRITE touches, or a
WRITE_ZEROES does not cover whole. -/
def placesParcels (s : State) (v : Volume) (e : Entry) : List Nat :=
  (cmdParcels v e).filter fun k => !(getEntry s k).placed &&
    (e.opcode == 2 || (e.opcode == 3 && !coversParcel v e k))

/-- First-write placements of an accepted command (R263, R267); `false` when a parcel has no place (R164). -/
def placeAll (v : Volume) : List Nat → State → Bool × State
  | [], s => (true, s)
  | k :: r, s =>
    let x := firstPlace k v (smcAsk k 2 .foreground s).2
    if x.1 then placeAll v r x.2 else (false, x.2)

/-- A command's input to the partner, and its placements (R161, R457). -/
def acceptData (seq : Nat) (e : Entry) (f : Nat) (s : State) : State :=
  match getVol s e.volume with
  | none => s
  | some v =>
    let s1 := inStep (.data e f [] []) s
    let r := placeAll v (placesParcels s1 v e) s1
    modCmd seq (fun c => { c with iseq := r.2.pair.iseq, noCapacity := !r.1 }) r.2

/-! ### Volume commands: order and checks (R169 to R174) -/

/-- The command is a volume command of a volume, accepted earlier and not finished (R174). -/
def earlierVolCmd (s : State) (c : Cmd) : Bool :=
  s.host.cmds.any fun d => decide (d.seq < c.seq) && isVolOp d.entry.opcode && d.entry.volume == c.entry.volume &&
    d.phase.result?.isNone

/-- The family's limits admit K, M and STRIP_LOG (R5, R219, reason 0x14). -/
def shapeOk (fam : Family) (k m l : Nat) : Bool :=
  decide (1 ≤ k) && decide (k ≤ fam.kMax) && decide (1 ≤ m) && decide (m ≤ fam.mMax) && decide (l ≤ 6) &&
    fam.stripMask.getLsbD l && (fam.kind != 3 || (k == fam.kMax && m == fam.mMax)) && (fam.kind != 5 || k == 1)

/-- The function has rings (R169, reason 0x12). -/
def hasGroups (s : State) (f : Nat) : Bool := decide (0 < (ringEnt s f).groups)

/-- The volume that VOL_CREATE describes (R168). -/
def newVolume (e : Entry) : Volume where
  size := e.lba + 1
  family := field e.param 0 1
  k := field e.param 1 1
  m := field e.param 2 1
  stripLog := field e.param 3 1
  piBytes := field e.param 4 1
  fdLevel := field e.param 5 1
  fdMin := field e.param 6 1
  state := .online
  owner := field e.param 7 1

/-- The first refusal reason of VOL_CREATE (R169), by the families at its decode (R80). -/
def createRefusal (s : State) (c : Cmd) : Option Nat :=
  let v := newVolume c.entry
  if (getVol s c.entry.volume).isSome then some 0x10
  else if portOf v.owner ≠ portOf c.func ∨ !hasGroups s v.owner then some 0x12
  else
    match c.fams.filter fun x => x.id == v.family with
    | [] => some 0x13
    | fam :: _ =>
      if !shapeOk fam v.k v.m v.stripLog then some 0x14
      else if v.piBytes ≠ 0 ∧ v.piBytes ≠ 8 ∧ v.piBytes ≠ 16 then some 0x15
      else if v.fdLevel < 1 ∨ (placOf s).fdDepth < v.fdLevel ∨ v.fdMin < 1 ∨ v.k + v.m < v.fdMin then some 0x16
      else if spanOf s v.fdLevel (poolSlots s) < v.fdMin then some 0x17
      else none

/-- The volume exists and belongs to the PF's port (R169, reason 0x11). -/
def volMine (s : State) (f : Nat) (n : Nat) : Bool := (getVol s n).any fun v => portOf v.owner == portOf f

/-- The first refusal reason of a volume command (R169). -/
def volRefusal (s : State) (c : Cmd) : Option Nat :=
  if c.entry.opcode = 0x40 then createRefusal s c
  else if !volMine s c.func c.entry.volume then some 0x11
  else if c.entry.opcode = 0x42 ∧ (getVol s c.entry.volume).any (fun v => v.state == .readOnly) then some 0x18
  else if c.entry.opcode = 0x43 ∧ c.entry.sgl then some 0x19
  else none

/-- HALT holds modifying and volume commands while the partner of an ACTIVE unit is not mirrored (R462). -/
def haltHolds (s : State) : Bool := s.pair.halt && !s.pair.mirrored && s.sampled.claim.unit == .active

/-- A volume command cannot take effect yet (R169, R174, R462): HALT holds it, a volume command accepted before it has not
taken effect, or one that deletes its volume has not completed. -/
def effectHeld (s : State) (c : Cmd) : Bool :=
  haltHolds s || s.host.cmds.any fun d => decide (d.seq < c.seq) && isVolOp d.entry.opcode &&
    d.entry.volume == c.entry.volume && d.phase.result?.isNone &&
    (d.parts == 0 || (d.entry.opcode == 0x41 && d.verdict.all fun v => v.1 == 0))

/-- The dirty bytes of a volume: the pages of its live intents, those that hold write-through data among them (R173). -/
def volDirty (s : State) (n : Nat) (v : Volume) : Nat :=
  sumBy (fun p : Nat × StripeDesc =>
    if keyVol (p.1 / 256) = n then sumBy (fun i => i.blocks.length * (4096 + v.piBytes)) p.2.intents else 0) s.cache.stripes

/-- The 64-byte volume record (R173). -/
def volRecord (s : State) (n : Nat) (v : Volume) : List Byte :=
  let placed := (s.ledger.entries.filter fun p => keyVol p.1 == n && p.2.placed && decide (keyParcel p.1 < v.parcels)).length
  takePad 17 (volBytes (some v)) ++ zeros 7 ++ leBytes 8 v.parcels ++ leBytes 8 placed ++ leBytes 8 (lostEntries s n v.size) ++
    leBytes 8 (volDirty s n v) ++ zeros 8

/-- The placed parcels that a deleted volume of this number has left to compaction are released before a new volume takes the
number. DESIGN CHOICE (log 36): the spec does not say what becomes of them. -/
def releaseLeft (n : Nat) (s : State) : State :=
  ((s.ledger.entries.filter fun p => keyVol p.1 == n && p.2.placed).map (·.1)).foldl (fun t k => releaseParcel k t) s

/-- What a volume command does at the point at which it takes effect (R168 to R172): create, DELETING, the new size with
blocks that it adds out of the lost-block list (R381). -/
def volEffect (e : Entry) (s : State) : State :=
  match e.opcode, getVol s e.volume with
  | 0x40, _ => changeVol e.volume (some (newVolume e)) (releaseLeft e.volume s)
  | 0x41, some v => changeVol e.volume (some { v with state := .deleting }) s
  | 0x42, some v => removeLost e.volume v.size (e.lba + 1 - v.size) (changeVol e.volume (some { v with size := e.lba + 1 }) s)
  | _, _ => s

/-- A volume command whose turn has come takes effect, or is refused (R169, R170, R174): the states and sizes that later
commands meet are those it leaves. -/
def takeEffect (c : Cmd) (s : State) : State :=
  if c.parts ≠ 0 ∨ effectHeld s c then s
  else
    match volRefusal s c with
    | some r => modCmd c.seq (fun x => { x with parts := 1, verdict := some (1, BitVec.ofNat 64 r) }) s
    | none =>
      let v := getVol s c.entry.volume
      let s1 := volEffect c.entry s
      modCmd c.seq (fun x => { x with
        parts := 1, oldSize := (v.map (·.size)).getD 0, lseq := s1.ledger.seq
        record := (v.map (volRecord s c.entry.volume)).getD [] }) s1

/-- A volume command accepted: an in-step input, which takes effect at once where no earlier one holds it (R170, R174). -/
def acceptVolume (seq : Nat) (e : Entry) (f : Nat) (s : State) : State :=
  let s1 := inStep (.volume e f) s
  let s2 := modCmd seq (fun c => { c with iseq := s1.pair.iseq }) s1
  match findCmd s2 seq with
  | none => s2
  | some c => takeEffect c s2

/-- A command as the decoder makes it. -/
def Cmd.make (seq ring f : Nat) (e : Entry) (reserved : Bool) (sq : BitVec 17) (fams : List Family) : Cmd where
  seq := seq
  ring := ring
  func := f
  entry := e
  reserved := reserved
  sq := sq
  phase := .decoded
  discard := false
  parts := 0
  sg := []
  lost := []
  abandoned := []
  hostErr := false
  guardErr := false
  noCapacity := false
  iseq := 0
  jseq := 0
  roots := []
  listed := 0
  lseq := 0
  resolved := []
  clean := false
  fams := fams
  oldSize := 0
  record := []
  verdict := none

/-- The intents that hold a volume's dirty blocks, by their first JSEQ. -/
def volRoots (s : State) (n : Nat) : List Nat :=
  (s.cache.stripes.filter fun p => keyVol (p.1 / 256) == n).flatMap fun p => p.2.intents.map (·.root)

/-- COMMAND_DECODE (R150): the checks set a status, or the command is accepted; a FLUSH notes what its volume has in the
cache (R166). -/
def decodeCmd (c : Cmd) (s : State) : State :=
  let s1 := { s with host := { s.host with cmds := s.host.cmds ++ [c], nextSeq := c.seq + 1 } }
  match decodeStatus s1 c.func c.entry with
  | some st => finishCmd c.seq st 0 s1
  | none =>
    if modifies c.entry.opcode then acceptData c.seq c.entry c.func s1
    else if isVolOp c.entry.opcode then acceptVolume c.seq c.entry c.func s1
    else if c.entry.opcode = 5 then modCmd c.seq (fun x => { x with roots := volRoots s1 c.entry.volume }) s1
    else s1

/-- An entry fetch completes (R127): RNG_SQ_CI passes the entry and the command goes to the decoder. -/
def entryFetched (f r : Nat) (bs : List Byte) (s : State) : State :=
  let q := getRing s r
  match q.fetchRes with
  | [] => s
  | res :: rest =>
    decodeCmd (Cmd.make s.host.nextSeq r f (parseEntry bs) res q.sqCi ((s.image.map (·.families)).getD []))
      (setRing r { q with fetchRes := rest, sqCi := idxNext q.depth q.sqCi } s)

/-- ENTRY_FETCH_DONE (R127, R150). -/
def execEntryFetchDone (ring : Nat) (bytes : List Byte) (s : State) : Host.Outcome State Fault Refusal :=
  match ringOwner s ring with
  | none => .next s
  | some f => if serving s then .next (entryFetched f ring bytes s) else .next s

/-! ### Ends of commands (R157, R159, R176) -/

/-- The status of R176 and the lost-block report of R157. -/
def endStatus (c : Cmd) : Nat × Word :=
  let lost := (c.lost ++ c.abandoned).eraseDups
  if c.hostErr then (6, 0)
  else if c.guardErr then (5, 0)
  else if c.noCapacity then (0x0A, 0)
  else
    match lost with
    | [] => (0, 0)
    | x :: r => (4, BitVec.ofNat 64 (r.foldl min x + lost.length * 2 ^ 32))

/-- The lost blocks that a command has met are listed durably: in the home copies, and at the partner (R379). -/
def listDurable (s : State) (c : Cmd) : Bool := c.listed == 0 || (decide (c.listed ≤ s.array.lostDur) && protected_ s 0 c.iseq)

/-- A command ends with the status its execution has met; one that met lost blocks waits until their entries are durable (R379). -/
def endCmd05 (seq : Nat) (s : State) : State :=
  match findCmd s seq with
  | none => s
  | some c =>
    if !listDurable s c then modCmd seq (fun c => { c with phase := .running, clean := true }) s
    else finishCmd seq (endStatus c).1 (endStatus c).2 s

/-- Ledger changes up to a sequence number are in protected HBM (R281). -/
def ledgerDurable (s : State) (n : Nat) : Bool :=
  s.cache.appendQ.all fun r => match r with
    | .ledger l => decide (n < l.seq)
    | _ => true

/-- The plans of a command. -/
def cmdJobs (s : State) (seq : Nat) : List Nat :=
  (s.jobs.filter fun p => match p.2.purpose with
    | .readPart q _ _ => q == seq
    | .readOut q => q == seq
    | .hostOut q => q == seq
    | .writeIn q => q == seq
    | .verifyRead q _ _ => q == seq
    | .verifyCheck q _ _ => q == seq
    | _ => false).map (·.1)

/-- A VOL_QUERY has moved its record, or could not (R163, R173, R176). -/
def endQuery (seq : Nat) (s : State) : State :=
  modCmd seq (fun c => { c with verdict := some (endStatus c) }) s

/-- HOST_MEMORY_ERROR's effect (R163, R176): before its blocks have entered the cache a command's work is dropped and it
ends with status 6. -/
def hostError (seq : Nat) (s : State) : State :=
  match findCmd s seq with
  | none => s
  | some c =>
    if c.phase.result?.isSome || !(([1, 2, 0x43]).contains c.entry.opcode) || c.clean || c.verdict.isSome then s
    else
      let t := modCmd seq (fun c => { c with hostErr := true }) ((cmdJobs s seq).foldl (fun t i => cancelJob i t) s)
      if c.entry.opcode = 0x43 then endQuery seq t else endCmd05 seq t

/-- HOST_MEMORY_ERROR (R163). -/
def execHostMemoryError (cmd : Nat) (s : State) : Host.Outcome State Fault Refusal :=
  if serving s then .next (hostError cmd s) else .next s

/-! ### Reading (R154 to R158, R369, R371) -/

/-- The lookups of a command's parcels on port 0 (R292); `true` when all have been answered. -/
def lookupAll (seq : Nat) (ks : List Nat) (s : State) : Bool × State :=
  ks.foldl (fun (a : Bool × State) k =>
    if (findCmd a.2 seq).any fun c => c.resolved.contains k then a
    else
      let waiting := a.2.smc.fills.any (fun f => f.waiters.any fun w => w.1 == .cmd seq && parcelKey f.vol w.2 == k) ||
        a.2.smc.parked.any fun p => p.who == .cmd seq && parcelKey p.vol p.parcel == k
      if waiting then (false, a.2)
      else
        let r := smcLookup (keyVol k) (keyParcel k) 0 false (.cmd seq) a.2
        match r.1 with
        | .hit => (a.1, modCmd seq (fun c => { c with resolved := addOnce c.resolved k }) r.2)
        | _ => (false, r.2)) (true, s)

/-- The block numbers of a command within its volume. -/
def cmdBlocks (e : Entry) : List Nat := (List.range e.blocks).map (· + e.lba)

/-- The stripes of a command, by key, ascending. -/
def cmdStripes (v : Volume) (e : Entry) : List Nat :=
  if e.blocks = 0 then []
  else
    let a := e.lba / v.stripe
    let z := (e.lba + e.blocks - 1) / v.stripe
    (List.range (z + 1 - a)).map fun i => v.stripeOf e.volume ((a + i) * v.stripe)

/-- A command's blocks in a stripe, by number within the stripe. -/
def stripeShare (v : Volume) (e : Entry) (key : Nat) : List Nat :=
  let f := v.firstOf key
  let a := max e.lba f
  let z := min (e.lba + e.blocks) (f + v.stripe)
  (List.range (z - a)).map fun i => a + i - f

/-- A block that needs no drive: dirty in the cache, lost, or never written (R154, R156, R157, R338). -/
def knownBlock (s : State) (v : Volume) (key q : Nat) : Option (Option (List Byte)) :=
  match cachedBlock s v key q with
  | some b => some (some b)
  | none =>
    if isLost s (keyVol (key / 256)) (v.firstOf key + q) then some none
    else if groupZero (getEntry s (key / 256)) key then some (some (zeroBlock v))
    else none

/-- One stripe of a READ begins: known blocks go to the parent plan by index, the others are fetched (R369). -/
def readStripe (seq parent : Nat) (v : Volume) (e : Entry) (s : State) (key : Nat) : State :=
  let idx := fun q => v.firstOf key + q - e.lba
  let qs := stripeShare v e key
  let s1 := qs.foldl (fun t q => match knownBlock s v key q with
    | some (some b) => modJob parent (fun j => { j with
        got := tabInsert j.got (idx q) b
        pages := if (cachedBlock s v key q).isSome then addOnce j.pages (idx q) else j.pages }) t
    | some none => modCmd seq (fun c => { c with
        lost := c.lost ++ [idx q], listed := s.array.lostVer, iseq := max c.iseq s.pair.iseq }) t
    | none => t) s
  let want := (qs.filter fun q => (knownBlock s v key q).isNone).map v.tagOf
  if want.isEmpty then s1
  else
    let r := wantJob (.readPart seq (v.firstOf key) key) .foreground false 0 want [] [] s1
    (advanceFetch r.1 key (modJob parent (fun j => { j with left := j.left + 1 }) r.2)).2

/-- The DMA legs of some blocks of `unit` bytes to or from the host, at most 32 KiB each; `cached` says which of them lie in
cache pages, whose bytes are charged to HBM too (R87, R88). -/
def hostLegs (s : State) (out : Bool) (unit : Nat) (cached : List Bool) : List Work :=
  let per := max 1 (legMax s / unit)
  (List.range (ceilDiv cached.length per)).map fun i =>
    let g := (cached.drop (per * i)).take per
    let n := unit * g.length
    .leg { Leg.blank with
      kind := .dma, hostIn := if out then 0 else n, hostOut := if out then n else 0, hbm := unit * (g.filter id).length }

/-- The HBM transfer batches that take some bytes from the waystation to cache pages, and those that mirror them to the
partner, at most 64 KiB each (R87). -/
def pageLegs (bytes : Nat) (mirror : Bool) : List Work :=
  (cutLen 65536 (bytes + 1) (0, bytes)).flatMap fun r =>
    .leg { Leg.blank with kind := .hbm, hbm := r.2 } ::
      if mirror then [.leg { Leg.blank with kind := .hbm, hbm := r.2, epong := r.2 }] else []

/-- The host buffers of a command: the elements of its scatter lists, or one contiguous buffer (R117, R118). -/
def cmdBuffers (e : Entry) (mem : List HostFrag) : List SgElem :=
  if e.sgl then sgWalk mem (8192 * e.blocks + 65536) e.sgCount e.dataPtr (4096 * e.blocks) else [(e.dataPtr, 4096 * e.blocks)]

/-- A READ launched once its entries are known; its parts share one place in the queue (R100). -/
def launchRead (c : Cmd) (v : Volume) (s : State) : State :=
  withPlace (some s.drone.nextId) (fun t =>
    let r := wantJob (.readOut c.seq) .foreground false 0 [] [] [] t
    (cmdStripes v c.entry).foldl (readStripe c.seq r.1 v c.entry)
      (modCmd c.seq (fun c => { c with phase := .running }) r.2)) s

/-- One stripe of a VERIFY begins: all strips at the command's positions (R158); lost blocks are noted. -/
def verifyStripe (seq : Nat) (v : Volume) (e : Entry) (s : State) (key : Nat) : State :=
  let qs := stripeShare v e key
  let lost := qs.filter fun q => isLost s e.volume (v.firstOf key + q)
  let s1 := if lost.isEmpty then s else modCmd seq (fun c => { c with
    lost := c.lost ++ lost.map (fun q => v.firstOf key + q - e.lba), listed := s.array.lostVer, iseq := max c.iseq s.pair.iseq }) s
  if groupZero (getEntry s (key / 256)) key then s1
  else
    let xs := (qs.map (· % v.strip)).eraseDups
    let want := xs.flatMap fun x => (List.range (v.k + v.m)).map (blockTag x)
    let r := wantJob (.verifyRead seq (v.firstOf key) key) .foreground false 0 want [] [] s1
    (advanceFetch r.1 key (modCmd seq (fun c => { c with parts := c.parts + 1 }) r.2)).2

/-- A stripe has a destage planned or in flight. -/
def inFlight (s : State) (key : Nat) : Bool := (getDesc s key).intents.any fun i => i.phase != .open_ && i.phase != .retiring

/-- A VERIFY launched; its parts share one place in the queue (R100). -/
def launchVerify (c : Cmd) (v : Volume) (s : State) : State :=
  let s1 := withPlace (some s.drone.nextId) (fun t => (cmdStripes v c.entry).foldl (verifyStripe c.seq v c.entry)
    (modCmd c.seq (fun c => { c with phase := .running }) t)) s
  if (findCmd s1 c.seq).any fun c => c.parts = 0 then endCmd05 c.seq s1 else s1

/-- A resize that has taken effect still discards or zeroes blocks of a later command (R172). -/
def resizeBars (s : State) (c : Cmd) : Bool :=
  s.host.cmds.any fun d => decide (d.seq < c.seq) && d.entry.opcode == 0x42 && d.entry.volume == c.entry.volume &&
    d.phase.result?.isNone && d.parts != 0 && d.verdict.isNone &&
    decide (min d.oldSize (d.entry.lba + 1) < c.entry.lba + c.entry.blocks) &&
    decide (c.entry.lba < max d.oldSize (d.entry.lba + 1))

/-- A READ or VERIFY goes on once every entry it needs has been looked up. -/
def tryRead (seq : Nat) (s : State) : State :=
  match findCmd s seq with
  | none => s
  | some c =>
    match getVol s c.entry.volume with
    | none => finishCmd seq 9 0 s
    | some v =>
      let r := lookupAll seq (cmdParcels v c.entry) s
      if !r.1 || resizeBars s c then modCmd seq (fun c => { c with phase := .waiting }) r.2
      else if c.entry.opcode = 1 then launchRead c v r.2
      else launchVerify c v r.2

/-- A command waits for its row: just decoded, with an opcode. -/
def ready05 (s : State) (seq op : Nat) : Option Cmd :=
  (findCmd s seq).filter fun c => c.phase == .decoded && c.entry.opcode == op

/-- READ (R154), with the host memory that holds its scatter lists. -/
def execRead (cmd : Nat) (mem : List HostFrag) (s : State) : Host.Outcome State Fault Refusal :=
  match ready05 s cmd 1 with
  | none => .next s
  | some c =>
    if serving s then .next (tryRead cmd (modCmd cmd (fun x => { x with sg := cmdBuffers c.entry mem }) s)) else .next s

/-- VERIFY (R158). -/
def execVerify (cmd : Nat) (s : State) : Host.Outcome State Fault Refusal :=
  match ready05 s cmd 7 with
  | none => .next s
  | some _ => if serving s then .next (tryRead cmd s) else .next s

/-- Lost blocks met by a command: its report, and the list (R157, R371, R379). -/
def meetLost (seq : Nat) (v : Volume) (e : Entry) (key : Nat) (tags : List Nat) (s : State) : State :=
  let bs := sortBy (fun a b => decide (a ≤ b)) ((tags.filter fun t => t % 64 < v.k).map fun t => v.firstOf key + v.blockOf t)
  if bs.isEmpty then s
  else
    let mine := bs.filter fun b => decide (e.lba ≤ b) && decide (b < e.lba + e.blocks)
    let s1 := addLost none (runEntries 1 (keyVol (key / 256)) bs) s
    modCmd seq (fun c => { c with lost := c.lost ++ mine.map (· - e.lba), listed := s1.array.lostVer, iseq := s1.pair.iseq }) s1

/-- The plan of a READ that collects its blocks. -/
def outJob (s : State) (seq : Nat) : Option Nat := (s.jobs.find? fun p => p.2.purpose == .readOut seq).map (·.1)

/-- A stripe of a READ goes on; when it has its blocks they go to the parent plan, and damage met is repaired (R371). -/
def runReadPart (id seq first key : Nat) (s : State) : State :=
  let r := advanceFetch id key s
  if !r.1 then r.2
  else
    match getJob r.2 id, findCmd r.2 seq, stripeVol r.2 key, outJob r.2 seq with
    | some j, some c, some v, some parent =>
      let have_ := j.want.filter fun t => (tabFind j.got t).isSome
      let s1 := modJob parent (fun p => { p with
        left := p.left - 1
        got := have_.foldl (fun g t => tabInsert g (first + v.blockOf t - c.entry.lba) (tabGet [] j.got t)) p.got })
        (passBuffers id parent r.2)
      let bad := mediaTags s1 key j
      let s2 := countRepairs key bad (meetLost seq v c.entry key j.lost s1)
      if bad.isEmpty then s2 else startRepair key .foreground bad false j.got s2
    | _, _, _, _ => endJob id r.2

/-- Every part of a READ has its blocks: they move to the host (R154, R370). -/
def runReadOut (id seq : Nat) (s : State) : State :=
  match getJob s id with
  | none => s
  | some j =>
    let p := ((findCmd s seq).bind fun c => (getVol s c.entry.volume).map (·.piBytes)).getD 0
    moreWork id (hostLegs s true (4096 + p) (j.got.map fun b => j.pages.contains b.1))
      (modJob id (fun x => { x with purpose := .hostOut seq }) s)

/-- The host buffer pieces of n bytes from an offset. -/
def sgPieces : List SgElem → Nat → List Byte → List (Word × List Byte)
  | [], _, _ => []
  | (a, n) :: r, off, bs =>
    if bs.isEmpty then []
    else if n ≤ off then sgPieces r (off - n) bs
    else (a + BitVec.ofNat 64 off, bs.take (n - off)) :: sgPieces r 0 (bs.drop (n - off))

/-- The blocks of a READ written to host memory, protection information to PI_PTR (R117, R154, R156). DESIGN CHOICE (log 36),
for host errors of R178: PI_PTR 0 on a volume with protection information is an address like any other, PI_PTR has no effect
on one without, and SG_COUNT none without SGL. -/
def deliver (s : State) (c : Cmd) (p : Nat) (got : Tab (List Byte)) : List Output :=
  got.flatMap fun b =>
    (sgPieces c.sg (4096 * b.1) (b.2.take 4096)).map (fun x => dataOut s c.func x.1 x.2) ++
      if p = 0 then [] else [dataOut s c.func (c.entry.piPtr + BitVec.ofNat 64 (p * b.1)) (slice b.2 4096 p)]

/-- The data of a READ or VOL_QUERY is in host memory: the command ends. -/
def runHostOut (id seq : Nat) (s : State) : State :=
  match getJob s id, findCmd s seq with
  | some j, some c =>
    if c.entry.opcode = 0x43 then
      endQuery seq (emits [dataOut s c.func c.entry.dataPtr (tabGet [] j.got 0)] (endJob id s))
    else endCmd05 seq (emits (deliver s c (((getVol s c.entry.volume).map (·.piBytes)).getD 0) j.got) (endJob id s))
  | _, _ => endJob id s

/-- One part of a VERIFY ends. -/
def verifyPart (seq : Nat) (s : State) : State :=
  let s1 := modCmd seq (fun c => { c with parts := c.parts - 1 }) s
  if (findCmd s1 seq).any fun c => c.parts = 0 then endCmd05 seq s1 else s1

/-- A stripe of a VERIFY has its blocks: lost ones are reported, media errors repaired, the others checked (R158). -/
def runVerifyRead (id seq first key : Nat) (s : State) : State :=
  let r := advanceFetch id key s
  if !r.1 then r.2
  else
    match getJob r.2 id, findCmd r.2 seq, stripeVol r.2 key with
    | some j, some c, some v =>
      let bad := mediaTags r.2 key j
      let s1 := countRepairs key bad (meetLost seq v c.entry key j.lost r.2)
      let s2 := if bad.isEmpty then s1 else startRepair key .foreground bad false j.got s1
      let xs := (tagPositions j.want).filter fun x => (List.range (v.k + v.m)).all fun i => !j.lost.contains (blockTag x i)
      let legs := xs.flatMap fun x => checkLegs s2 v x j.got (stripeClusters s2 v (getEntry s2 (key / 256)))
      moreWork id legs (modJob id (fun _ => { j with purpose := .verifyCheck seq first key, lost := [] }) s2)
    | _, _, _ => verifyPart seq (endJob id r.2)

/-- The data blocks at some positions whose stored guard is wrong (R158, R385). -/
def guardSuspects (v : Volume) (j : Job) (xs : List Nat) : List Nat :=
  if v.piBytes = 0 then []
  else xs.flatMap fun x => ((List.range v.k).map (blockTag x)).filter fun t =>
    match tabFind j.got t with
    | none => false
    | some b => !guardOk v.piBytes (b.take 4096) (slice b 4096 v.piBytes)

/-- A difference repaired: suspect data blocks are decoded; with none, parity is made again from the data as read (R385). -/
def repairDiffs (key : Nat) (cls : WorkClass) (v : Volume) (j : Job) (suspects : List Nat) (s : State) : State :=
  let clean := j.lost.filter fun x => !(suspects.any fun t => t / 64 == x)
  let s1 := if suspects.isEmpty then s
    else startRepair key cls suspects true (j.got.filter fun p => !suspects.contains p.1) s
  if clean.isEmpty then s1 else startRepair key cls (clean.map fun x => blockTag x 0) true
    (j.got.filter fun p => p.1 % 64 < v.k) s1

/-- The CHECK of a VERIFY has ended: differences are repaired (R158). -/
def runVerifyCheck (id seq key : Nat) (s : State) : State :=
  match getJob s id, stripeVol s key with
  | some j, some v =>
    let s1 := endJob id s
    let bad := guardSuspects v j (tagPositions j.want)
    verifyPart seq (if j.lost.isEmpty && bad.isEmpty then s1 else repairDiffs key .foreground v j bad s1)
  | _, _ => verifyPart seq (endJob id s)

/-! ### Writing (R159 to R165, R325, R326, R462) -/

/-- A plan that brings in a WRITE's data. -/
def inJob (s : State) (seq : Nat) : Option (Nat × Job) := s.jobs.find? fun p => p.2.purpose == .writeIn seq

/-- The command still has to take effect on the cache: no intent of its own yet. -/
def notEntered (c : Cmd) : Bool := c.phase.result?.isNone && !c.clean

/-- An earlier accepted command modifies blocks of this one and has not taken effect (R161, R172). -/
def mustWait (s : State) (c : Cmd) : Bool :=
  resizeBars s c || s.host.cmds.any fun d => decide (d.seq < c.seq) && modifies d.entry.opcode && notEntered d &&
    d.entry.volume == c.entry.volume && decide (d.entry.lba < c.entry.lba + c.entry.blocks) &&
    decide (c.entry.lba < d.entry.lba + d.entry.blocks)

/-- A zero-mask group of a parcel (that of a stripe's key) that a command covers whole (R254). -/
def groupCovered (v : Volume) (e : Entry) (key : Nat) : Bool :=
  let a := v.firstOf (key / 8 * 8)
  decide (e.lba ≤ a) && decide (min v.size (a + 8 * v.stripe) ≤ e.lba + e.blocks)

/-- The stripes of a command that it dirties: not those of a group that a WRITE_ZEROES or DEALLOCATE covers whole (R254). -/
def dirtied (v : Volume) (e : Entry) : List Nat :=
  if e.opcode = 2 then cmdStripes v e else (cmdStripes v e).filter fun k => !groupCovered v e k

/-- A parcel's ZERO_MASK with the groups that a command covers whole (R254). -/
def maskSet (v : Volume) (e : Entry) (s : State) (pk : Nat) : BitVec 32 :=
  ((List.range 32).filter fun g => groupCovered v e (stripeKey pk (8 * g))).foldl (fun (m : BitVec 32) g =>
    m ||| BitVec.ofNat 32 (2 ^ g)) (getEntry s pk).zeroMask

/-- The parcels whose ZERO_MASK a command changes, each by one ledger record. -/
def masksSet (s : State) (v : Volume) (e : Entry) : List Nat :=
  if e.opcode = 2 then []
  else (cmdParcels v e).filter fun pk => (getEntry s pk).placed && maskSet v e s pk != (getEntry s pk).zeroMask

/-- The OPEN intents that the whole groups of a command leave with no block to write: each is retired by a record (R165). -/
def emptied (s : State) (v : Volume) (e : Entry) : Nat :=
  if e.opcode = 2 then 0 else ((cmdStripes v e).filter fun k => groupCovered v e k && (joinable s k).isSome).length

/-- What a modifying command adds to D (R325): its pages and descriptors, 64 bytes for each journal record. -/
def cmdAdds (s : State) (v : Volume) (e : Entry) : Nat :=
  sumBy (fun k => addedBytes s k (if e.opcode = 2 then stripeShare v e k else [])) (dirtied v e) +
    128 * (masksSet s v e).length + 64 * emptied s v e

/-- Bytes that admitted commands will still add (R325). -/
def pendingAdds (s : State) : Nat :=
  sumBy (fun p : Nat × Job => match p.2.purpose with
    | .writeIn _ => p.2.red
    | _ => 0) s.jobs

/-- Journal head slots that a command needs (R327, R333). -/
def slotsNeeded (s : State) (v : Volume) (e : Entry) : Nat := ((dirtied v e).filter (needsSlot s)).length

/-- A command that waits for a journal head slot or for room in the ring says so once (R333). -/
def noteFull (slots ring : Bool) (s : State) : State :=
  let c := s.cache
  raiseIf (ring && !c.ringFull) 0xB05 (raiseIf (slots && !c.slotsFull) 0xB04
    { s with cache := { c with slotsFull := c.slotsFull || slots, ringFull := c.ringFull || ring } })

/-- Blocks enter the cache for a stripe of a command: zero blocks for a group that is not covered whole. -/
def enterShare (v : Volume) (e : Entry) (got : Tab (List Byte)) (elig out : Bool) (a : List Nat × State) (key : Nat) :
    List Nat × State :=
  let qs := stripeShare v e key
  let s := a.2
  let blocks := qs.foldl (fun (t : Tab CBlock) q =>
    tabInsert t q (cblockOf v s.drone.count (tabGet [] got (v.firstOf key + q - e.lba)))) []
  let r := if e.opcode = 2 then enterStripe key blocks [] elig out s else enterStripe key [] qs elig out s
  (addOnce a.1 r.1, r.2)

/-- A destage is in flight in a zero-mask group that a WRITE_ZEROES or DEALLOCATE covers whole: the command waits for its end,
for its blocks can no longer be discarded. DESIGN CHOICE (log 36). -/
def groupsBusy (s : State) (v : Volume) (e : Entry) : Bool :=
  e.opcode != 2 && (s.cache.stripes.map (·.1)).any fun k =>
    keyVol (k / 256) == e.volume && groupCovered v e k && inFlight s k

/-- The whole groups of a parcel set in its ZERO_MASK, the dirty blocks of their stripes discarded (R165, R254); a parcel
whose mask is full waits for release (R279). -/
def setGroups (v : Volume) (e : Entry) (s : State) (pk : Nat) : State :=
  let gs := (List.range 32).filter fun g => groupCovered v e (stripeKey pk (8 * g))
  let ent := getEntry s pk
  let mask := maskSet v e s pk
  let s1 := gs.foldl (fun t g => (List.range 8).foldl (fun t j =>
    discardBlocks (stripeKey pk (8 * g + j)) 0 v.stripe t) t) s
  if ent.placed && mask != ent.zeroMask then changeEntry .zeroMask pk (fun x => { x with zeroMask := mask }) [] s1
  else if ent.placed && mask == BitVec.allOnes 32 then toCompact pk s1
  else s1

/-- A modifying command takes effect (R159, R165, R326, R344, R381): its blocks are in the cache from here on. DESIGN CHOICE
(log 36): the mode at this point decides when it completes, for a WRITE that entered the cache in write-back too when
write-through begins before it has completed. -/
def enterCmd (c : Cmd) (v : Volume) (got : Tab (List Byte)) (big : Bool) (s : State) : State :=
  let e := c.entry
  let out := s.cache.wt || big
  let elig := out || (e.opcode = 2 && e.fua)
  let s0 := removeLost e.volume e.lba e.blocks s
  let s1 := if e.opcode = 2 then s0 else (cmdParcels v e).foldl (setGroups v e) s0
  let r := (dirtied v e).foldl (enterShare v e got elig out) ([], s1)
  let jseq := maxBy id r.1
  modCmd c.seq (fun c => { c with
    clean := true, phase := .running, jseq := jseq, lseq := r.2.ledger.seq
    roots := if elig then r.1 else [] }) r.2

/-- A parcel that has lost its place since the command was accepted is placed again before data enters (R578). -/
def placeAgain (c : Cmd) (v : Volume) (s : State) : Bool × State := placeAll v (placesParcels s v c.entry) s

/-- The verdict on a modifying command at a compilation (R161, R325, R326, R333, R462): it fits, fits only outside D, or
waits. -/
inductive Admit where
  | now
  | oversize
  | later (slots ring : Bool)
deriving DecidableEq, Repr

/-- Admission of a modifying command. -/
def admission (s : State) (c : Cmd) (v : Volume) : Admit :=
  let add := cmdAdds s v c.entry
  let need := slotsNeeded s v c.entry
  let slots := decide (headSlots s < liveIntents s + need)
  let ring := !ringRoom s (need + 2 * (masksSet s v c.entry).length + emptied s v c.entry)
  if mustWait s c || haltHolds s || groupsBusy s v c.entry then .later false false
  else if slots || ring then .later slots ring
  else if s.cache.wt then .now
  else if dirtyLimit s < add then .oversize
  else if dirtyLimit s < dirtyLoad s + pendingAdds s + add then .later false false
  else .now

/-- A WRITE's data legs are admitted (R87, R325): to the waystation, on to cache pages and to a mirrored partner. `stage` 1: in
transfer, 2: in transfer outside D. -/
def admitIn (id : Nat) (c : Cmd) (v : Volume) (big : Bool) (s : State) : State :=
  let unit := 4096 + v.piBytes
  moreWork id (hostLegs s false unit (List.replicate c.entry.blocks false) ++ pageLegs (unit * c.entry.blocks) s.pair.mirrored)
    (modJob id (fun j => { j with
      stage := if big then 2 else 1, red := if big || c.noCapacity then 0 else cmdAdds s v c.entry }) s)

/-- A modifying command tried at a compilation. A WRITE that has no place for its blocks still moves its data, for a host
memory error or a wrong guard comes before status 0x0A (R176). -/
def tryWrite (seq : Nat) (s : State) : State :=
  match findCmd s seq with
  | none => s
  | some c =>
    if c.phase.result?.isSome || c.clean then s
    else if c.noCapacity && c.entry.opcode != 2 then endCmd05 seq s
    else
      match getVol s c.entry.volume with
      | none => finishCmd seq 9 0 s
      | some v =>
        let r := lookupAll seq (cmdParcels v c.entry) (modCmd seq (fun c => { c with phase := .waiting }) s)
        if !r.1 then r.2
        else
          match (if c.noCapacity then Admit.now else admission r.2 c v), inJob r.2 seq with
          | .later a b, _ => noteFull a b r.2
          | a, some (id, j) => if j.stage = 0 then admitIn id c v (a == .oversize) r.2 else r.2
          | a, none => if c.entry.opcode = 2 then r.2 else enterCmd c v [] (a == .oversize) r.2

/-- WRITE (R159): its data and protection information as host memory holds them, through its scatter lists (R118). -/
def startWrite (c : Cmd) (lists mem : List HostFrag) (s : State) : State :=
  let n := c.entry.blocks
  let p := ((getVol s c.entry.volume).map (·.piBytes)).getD 0
  let data := gather mem (cmdBuffers c.entry lists) (4096 * n)
  let pi := hostBytes mem c.entry.piPtr (p * n)
  let got := (List.range n).map fun i => (i, slice data (4096 * i) 4096 ++ slice pi (p * i) p)
  tryWrite c.seq (wantJob (.writeIn c.seq) .foreground false 0 [] [] got s).2

/-- WRITE (R159), with the host memory that holds its scatter lists and that which holds its data and protection information. -/
def execWrite (cmd : Nat) (lists data : List HostFrag) (s : State) : Host.Outcome State Fault Refusal :=
  match ready05 s cmd 2 with
  | none => .next s
  | some c => if serving s then .next (startWrite c lists data s) else .next s

/-- WRITE_ZEROES (R165). -/
def execWriteZeroes (cmd : Nat) (s : State) : Host.Outcome State Fault Refusal :=
  match ready05 s cmd 3 with
  | none => .next s
  | some c => if serving s then .next (tryWrite c.seq s) else .next s

/-- DEALLOCATE (R165). -/
def execDeallocate (cmd : Nat) (s : State) : Host.Outcome State Fault Refusal :=
  match ready05 s cmd 4 with
  | none => .next s
  | some c => if serving s then .next (tryWrite c.seq s) else .next s

/-- A WRITE's data is in the waystation: the guards are checked (R162), and the blocks enter the cache (R163). -/
def runWriteIn (id seq : Nat) (s : State) : State :=
  match getJob s id, findCmd s seq with
  | some j, some c =>
    if j.stage = 0 then s
    else
      match getVol s c.entry.volume with
      | none => finishCmd seq 9 0 (endJob id s)
      | some v =>
        if j.got.any fun b => !guardOk v.piBytes (b.2.take 4096) (slice b.2 4096 v.piBytes) then
          endCmd05 seq (modCmd seq (fun c => { c with guardErr := true }) (endJob id s))
        else if c.noCapacity then endCmd05 seq (endJob id s)
        else
          let r := placeAgain c v (endJob id s)
          if !r.1 then endCmd05 seq (modCmd seq (fun c => { c with noCapacity := true }) r.2)
          else enterCmd c v j.got (j.stage = 2) r.2
  | _, _ => endJob id s

/-- FLUSH (R166): complete at once while the cache is protected, else once what its volume held dirty at its decode is on the
drives. -/
def flushVol (seq : Nat) (s : State) : State :=
  if !s.cache.wt then finishCmd seq 0 0 s else modCmd seq (fun c => { c with phase := .running, clean := true }) s

/-- FLUSH (R166). -/
def execFlush (cmd : Nat) (s : State) : Host.Outcome State Fault Refusal :=
  match ready05 s cmd 5 with
  | none => .next s
  | some _ => if serving s then .next (flushVol cmd s) else .next s

/-- A modifying command or FLUSH that has taken effect may complete (R159, R166, R344). -/
def mayComplete (s : State) (c : Cmd) : Bool :=
  c.clean && c.phase == .running && (c.roots.all (rootRetired s) || (c.entry.opcode == 5 && !s.cache.wt)) &&
    (c.entry.opcode == 5 || (protected_ s c.jseq (if c.jseq = 0 then c.iseq else 0) && ledgerDurable s c.lseq))

/-! ### Volume commands (R168 to R174) -/

/-- Earlier commands that a DELETE, or a shrink on the blocks it removes, waits for have not finished (R171, R172). -/
def earlierData (s : State) (c : Cmd) (from_ : Nat) : Bool :=
  s.host.cmds.any fun d => decide (d.seq < c.seq) && d.entry.volume == c.entry.volume && d.phase.result?.isNone &&
    (c.entry.opcode == 0x41 || (!isVolOp d.entry.opcode && d.entry.opcode != 5 && decide (from_ < d.entry.lba + d.entry.blocks)))

/-- The stripes of a volume with live intents from a block on. -/
def dirtyStripes (s : State) (vol : Nat) (v : Volume) (from_ : Nat) : List Nat :=
  (s.cache.stripes.filter fun p => keyVol (p.1 / 256) == vol && decide (from_ < v.firstOf p.1 + v.stripe)).map (·.1)

/-- The dirty data from a block on discarded (R171, R172, R339). -/
def discardFrom (vol : Nat) (v : Volume) (from_ : Nat) (s : State) : State :=
  (dirtyStripes s vol v from_).foldl (fun t k => discardBlocks k (from_ - v.firstOf k) v.stripe t) s

/-- The ZERO_MASK of a placed parcel with the bits set of the groups that lie wholly from a block on; a parcel that lies so
itself goes to compaction (R156, R171, R172, R279). -/
def zeroFrom (v : Volume) (from_ : Nat) (s : State) (k : Nat) : State :=
  let ent := getEntry s k
  let gs := (List.range 32).filter fun g => decide (from_ ≤ v.firstOf (stripeKey k (8 * g)))
  let mask := gs.foldl (fun (m : BitVec 32) g => m ||| BitVec.ofNat 32 (2 ^ g)) ent.zeroMask
  let s1 := if mask = ent.zeroMask then s else changeEntry .zeroMask k (fun x => { x with zeroMask := mask }) [] s
  if gs.length = 32 then toCompact k s1 else s1

/-- The placed parcels of a volume with blocks from a number on. -/
def parcelsFrom (s : State) (vol : Nat) (v : Volume) (from_ : Nat) : List Nat :=
  (s.ledger.entries.filter fun p =>
    keyVol p.1 == vol && p.2.placed && decide (from_ < (keyParcel p.1 + 1) * v.parcelBlocks)).map (·.1)

/-- The placed parcels of a volume that lie wholly from a block on (R172). -/
def parcelsBeyond (s : State) (vol : Nat) (v : Volume) (from_ : Nat) : List Nat :=
  (parcelsFrom s vol v from_).filter fun k => decide (from_ ≤ keyParcel k * v.parcelBlocks)

/-- The end of a volume: its VOLUME record is logged; the table keeps it, DELETING, until the command completes (R170, R171). -/
def logDelete (n : Nat) (s : State) : State :=
  logRec { seq := s.ledger.seq + 1, type := .volume, volume := n, key := 0, payload := volBytes none } s

/-- A volume command's work is done: what is left is that its changes become durable and the standby applies them. -/
def volDone (seq : Nat) (s : State) : State :=
  modCmd seq (fun c => { c with clean := true, lseq := s.ledger.seq, verdict := some (0, 0) }) s

/-- A DELETE or shrink goes on (R171, R172, R339, R381): earlier commands end, dirty data is discarded, destages in flight
finish, then the parcels go. -/
def runRemoval (c : Cmd) (v : Volume) (from_ : Nat) (s : State) : State :=
  if earlierData s c from_ then s
  else
    let s1 := removeLost c.entry.volume from_ (2 ^ 48 - from_) (discardFrom c.entry.volume v from_ s)
    let keep := dirtyStripes s1 c.entry.volume v from_
    if c.entry.opcode = 0x41 && !keep.isEmpty then s1
    else if c.entry.opcode = 0x42 && keep.any (inFlight s1) then s1
    else
      let s2 := (parcelsBeyond s1 c.entry.volume v from_).foldl (zeroFrom v from_) s1
      volDone c.seq (if c.entry.opcode = 0x41 then logDelete c.entry.volume s2 else s2)

/-- The blocks that a grow adds to the zero-mask group in which the volume ended, as a WRITE_ZEROES (R156, R172). -/
def growEntry (v : Volume) (c : Cmd) : Entry :=
  let g := 8 * v.stripe
  { c.entry with opcode := 3, lba := c.oldSize, blocks := min v.size (ceilDiv c.oldSize g * g) - c.oldSize }

/-- The group in which the volume ended is placed and not zero: what earlier sizes left behind its end is to be zeroed. -/
def growDirty (s : State) (v : Volume) (c : Cmd) : Bool :=
  (cmdStripes v (growEntry v c)).any fun k => (getEntry s (k / 256)).placed && !groupZero (getEntry s (k / 256)) k

/-- A grow goes on (R156, R172): of what earlier sizes of the volume may have written, whole zero-mask groups are set and zeros enter
the cache for the rest. DESIGN CHOICE (log 36): the spec does not say how the added blocks come to read as zeros. -/
def runGrow (c : Cmd) (v : Volume) (s : State) : State :=
  if c.clean then modCmd c.seq (fun x => { x with verdict := some (0, 0) }) s
  else
    let s1 := (parcelsFrom s c.entry.volume v c.oldSize).foldl (zeroFrom v c.oldSize) s
    if !growDirty s1 v c then volDone c.seq s1
    else
      let d := { c with entry := growEntry v c }
      match admission s1 d v with
      | .later a b => noteFull a b s1
      | a => enterCmd d v [] (a == .oversize) s1

/-- A VOL_QUERY moves its record to DATA_PTR (R173). -/
def runQuery (c : Cmd) (s : State) : State :=
  if c.phase = .waiting then
    let r := wantJob (.hostOut c.seq) .foreground false 0 [] [] [(0, c.record)] s
    moreWork r.1 (hostLegs s true 64 [false]) (modCmd c.seq (fun c => { c with phase := .running }) r.2)
  else s

/-- A volume command that has taken effect goes on, in the order of the volume's commands (R174). -/
def runVolume (seq : Nat) (s : State) : State :=
  match findCmd s seq with
  | none => s
  | some c =>
    if c.parts = 0 ∨ c.verdict.isSome ∨ (c.entry.opcode ≠ 0x43 ∧ earlierVolCmd s c) then s
    else
      match c.entry.opcode, getVol s c.entry.volume with
      | 0x41, some v => runRemoval c v 0 s
      | 0x42, some v =>
        let n := c.entry.lba + 1
        if n < c.oldSize then runRemoval c v n s else runGrow c { v with size := n } s
      | 0x43, _ => runQuery c s
      | _, _ => volDone seq s

/-- A volume command completes once the volume commands before it have, the standby has applied it and its changes are durable
(R159, R174, R281); from then on a deleted volume's number names none (R171). -/
def endVolume (seq : Nat) (s : State) : State :=
  match findCmd s seq with
  | none => s
  | some c =>
    match c.verdict with
    | none => s
    | some v =>
      if c.phase.result?.isSome || earlierVolCmd s c || !ledgerDurable s c.lseq || !c.roots.all (rootRetired s) ||
          (c.jseq != 0 && !protected_ s c.jseq 0) || (s.pair.mirrored && decide (s.pair.ackIseq < c.iseq)) then s
      else finishCmd seq v.1 v.2 (if c.entry.opcode = 0x41 ∧ v.1 = 0 then applyVolume c.entry.volume none s else s)

/-- A volume command tried: its turn, its work, its end (R174). -/
def tryVolume (seq : Nat) (s : State) : State :=
  match (findCmd s seq).filter fun c => c.phase.result?.isNone with
  | none => s
  | some c => endVolume seq (runVolume seq (takeEffect c s))

/-- VOL_CREATE (R168). -/
def execVolCreate (cmd : Nat) (s : State) : Host.Outcome State Fault Refusal :=
  match (findCmd s cmd).filter fun c => c.entry.opcode == 0x40 with
  | none => .next s
  | some _ => if serving s then .next (tryVolume cmd s) else .next s

/-- VOL_DELETE (R171). -/
def execVolDelete (cmd : Nat) (s : State) : Host.Outcome State Fault Refusal :=
  match (findCmd s cmd).filter fun c => c.entry.opcode == 0x41 with
  | none => .next s
  | some _ => if serving s then .next (tryVolume cmd s) else .next s

/-- VOL_RESIZE (R172). -/
def execVolResize (cmd : Nat) (s : State) : Host.Outcome State Fault Refusal :=
  match (findCmd s cmd).filter fun c => c.entry.opcode == 0x42 with
  | none => .next s
  | some _ => if serving s then .next (tryVolume cmd s) else .next s

/-- VOL_QUERY (R173). -/
def execVolQuery (cmd : Nat) (s : State) : Host.Outcome State Fault Refusal :=
  match ready05 s cmd 0x43 with
  | none => .next s
  | some _ => if serving s then .next (tryVolume cmd (modCmd cmd (fun c => { c with phase := .waiting }) s)) else .next s

/-! ### Retries at a compilation -/

/-- A command that waits, or whose end depends on others, tried again. -/
def retryCmd (s : State) (c : Cmd) : State :=
  if isVolOp c.entry.opcode then tryVolume c.seq s
  else
    match c.phase with
    | .finished _ _ => s
    | .decoded => s
    | .waiting => if modifies c.entry.opcode then tryWrite c.seq s else tryRead c.seq s
    | .running => if mayComplete s c then finishCmd c.seq (endStatus c).1 (endStatus c).2 s else s

/-- Every command that waits tried again in decoder order; the full marks of JRN_STAT follow what still waits (R333). -/
def retryCmds (s : State) : State :=
  (s.host.cmds.map (·.seq)).foldl (fun t n => match findCmd t n with
    | none => t
    | some c => retryCmd t c)
    { s with cache := { s.cache with
      slotsFull := s.cache.slotsFull && decide (headSlots s ≤ liveIntents s)
      ringFull := s.cache.ringFull && !ringRoom s 2 } }

/-! ### Function Level Reset (R135, R212, R509) and the fence (R140) -/

/-- The commands of a function at its reset: reads are cancelled, writes go on without a completion (R135). -/
def flrCmd (s : State) (c : Cmd) : State :=
  if modifies c.entry.opcode || (isVolOp c.entry.opcode && c.entry.opcode != 0x43) then
    modCmd c.seq (fun c => { c with discard := true }) s
  else dropCmd c.seq ((cmdJobs s c.seq).foldl (fun t i => cancelJob i t) s)

/-- FUNCTION_LEVEL_RESET's effect (R135): rings at their reset values, completions and pending events discarded, a PF's
utility channels aborted. -/
def resetFunction (f : Nat) (s : State) : State :=
  let rs := (ringsOf s f).map (·.1)
  let mine := s.host.cmds.filter fun c => c.func == f
  let s1 := mine.foldl flrCmd s
  let done := mine.filter fun c => c.phase.result?.isSome
  let s2 := done.foldl (fun t c => dropCmd c.seq t) s1
  let mine := fun (g : Nat) => ringOwner s (64 * g) == some f
  let s3 := { s2 with host := { s2.host with
    rings := s2.host.rings.filter fun p => !rs.contains p.1
    doorbells := s2.host.doorbells.filter fun g => !mine g
    rescan := s2.host.rescan.filter fun g => !mine g
    scan := s2.host.scan.filter fun sc => !mine sc.group
    flrDone := tabInsert s2.host.flrDone f (s2.clock + 100000000) } }
  let s4 := discardPending f s3
  let s5 := setFunc f { getFunc s4 f with msixEn := false, msixMask := false, table := [], vecMask := [], roEn := true } s4
  if isPf f then resetChans f s5 else s5

/-- FUNCTION_LEVEL_RESET (R135). -/
def execFunctionLevelReset (f : Nat) (s : State) : Host.Outcome State Fault Refusal :=
  if barOpen s f then .next (resetFunction f s) else .next s

/-- A reset ends when the function's commands have ended, 100 ms after it at the latest (R135). -/
def endFlrs (s : State) : State :=
  { s with host := { s.host with flrDone := s.host.flrDone.filter fun p =>
      (s.host.cmds.any fun c => c.func == p.1) && decide (s.clock < p.2) } }

/-- A DELETE that has only its completion left when it is aborted is carried out (R140, R171). -/
def endDelete (c : Cmd) (s : State) : State :=
  if c.entry.opcode = 0x41 ∧ c.verdict = some (0, 0) ∧ c.phase.result?.isNone then applyVolume c.entry.volume none s else s

/-- FENCE_LOST_ABORT (R140): every command fetched and not completed completes with status 0x07, and completions held are
rewritten. -/
def abortAll (s : State) : State :=
  let s1 := s.host.cmds.foldl (fun t c =>
    finishCmd c.seq 7 0 ((cmdJobs t c.seq).foldl (fun u i => cancelJob i u) (endDelete c t))) s
  { s1 with host := { s1.host with
    cmds := s1.host.cmds.map fun c => { c with phase := .finished 7 0 }
    rings := tabMap (fun _ q => { q with cserai := q.cserai.map fun x => { x with status := 7, result := 0 } }) s1.host.rings } }

end Sys2Proof.Machine
end

