-- ==== Sys2Proof/Machine/Home.lean ====
section
/-! DEFINITION. The ledger home (R282 to R284, and R379, R386 for what they put there): where its structures lie on the drives and
what bytes they have, the copy of the ledger log, page misses, the tier, and checkpoints. The places within the ledger home region
(R245) and the layouts that the spec leaves to the ledger engine are the model's. DESIGN CHOICE (log 19). -/

namespace Sys2Proof.Machine

open Sys2Proof

/-! ### Places (R245, R282) -/

/-- Some slots in an order in which those of domains not seen before, at the deepest level in use, come first. -/
def spreadSlots (s : State) (xs : List Nat) : List Nat :=
  let lvl := (placOf s).fdDepth
  let heads := xs.foldl (fun a x => if a.any fun y => domainOf s lvl y == domainOf s lvl x then a else a ++ [x]) []
  heads ++ xs.filter fun x => !heads.contains x

/-- The slots of a structure's three copies, in different domains where three exist (R282): those that hold it and still serve are
kept. -/
def homeSlots (s : State) (old : List Nat) : List Nat :=
  let keep := old.filter (slotServes s)
  (spreadSlots s (keep ++ (vaultSlots s).filter fun x => !keep.contains x)).take 3

/-- Where a home structure lies now. -/
def homeAt (s : State) (u : HomeUnit) : Option HomeLoc := (s.ledger.dir.find? fun d => d.1 == u).map (·.2)

/-- First LBA of a structure that is written: the log lies in a ring of 131,072 LBAs from 512 on, checkpoint roots take turns at two
places, then come the lost-block list and the pages, each at the place it was given first. -/
def homeLba (s : State) (u : HomeUnit) : Nat :=
  let old := (homeAt s u).map (·.lba)
  match u with
  | .page _ => old.getD (262912 + s.ledger.dirTop)
  | .log b => 512 + b % 131072
  | .root => if old = some 131584 then 197120 else 131584
  | .lost => 262656

/-- A structure of some LBAs gets its place, recorded in the directory. -/
def placeUnit (u : HomeUnit) (nlb : Nat) (s : State) : HomeLoc × State :=
  let old := homeAt s u
  let loc : HomeLoc := { lba := homeLba s u, nlb := nlb, slots := homeSlots s ((old.map (·.slots)).getD []) }
  let top := match u, old with
    | .page _, none => s.ledger.dirTop + 1
    | _, _ => s.ledger.dirTop
  (loc, { s with ledger := { s.ledger with dir := (s.ledger.dir.filter fun d => d.1 != u) ++ [(u, loc)], dirTop := top } })

/-! ### Bytes (R281, R282, R379) -/

/-- A ledger page: its 32-byte header and 127 entries (R282). -/
def pageBytes (s : State) (p : Nat) (seq : Nat) : List Byte :=
  let head := leBytes 2 (keyVol p) ++ zeros 6 ++ leBytes 8 (keyParcel p) ++ leBytes 8 seq
  let body := (List.range 127).flatMap fun i => entryBytes (getEntry s (parcelKey (keyVol p) (127 * keyParcel p + i)))
  head ++ leBytes 8 (crc64 (head ++ body)).toNat ++ body

/-- 32 records of the on-drive log; zeros where a record is not there. -/
def logBlock (s : State) (b : Nat) : List Byte :=
  (List.range 32).flatMap fun i => match s.ledger.log.find? fun r => r.seq == 32 * b + i with
    | none => zeros 128
    | some r => recBytes r

/-- A structure filled up to whole LBAs and closed by its CRC64. -/
def sealBytes (bs : List Byte) : List Byte :=
  let body := takePad (4096 * ceilDiv (bs.length + 8) 4096 - 8) bs
  body ++ leBytes 8 (crc64 body).toNat

/-- A place in the directory as a root holds it. -/
def locBytes (d : HomeUnit × HomeLoc) : List Byte :=
  (match d.1 with
    | .page p => leBytes 1 0 ++ leBytes 8 p
    | .log b => leBytes 1 1 ++ leBytes 8 b
    | .root => leBytes 1 2 ++ zeros 8
    | .lost => leBytes 1 3 ++ zeros 8) ++
    leBytes 8 d.2.lba ++ leBytes 8 d.2.nlb ++ takePad 6 (d.2.slots.flatMap (leBytes 2))

/-- A table as a root holds it: the number of its entries, then each with its key. -/
def tabBytes {α : Type} (f : α → List Byte) (t : Tab α) : List Byte := leBytes 4 t.length ++ t.flatMap fun p => leBytes 8 p.1 ++ f p.2

/-- A migration as a root holds it. -/
def migBytes (m : Migration) : List Byte := leBytes 4 m.pg ++ leBytes 3 m.run ++ leBytes 1 m.reason

/-- The used runs of a slot's extent map as a root holds them. -/
def mapBytes (r : SlotRec) : List Byte := leBytes 4 r.used.length ++ r.used.flatMap fun u => leBytes 3 u.1 ++ leBytes 3 u.2

/-- A checkpoint root: S, the PGT, the volume table, the migration table and the extent maps (R284), with the slots' SLOT records and
the page directory. -/
def rootBytes (s : State) (n : Nat) : List Byte :=
  sealBytes (ascii "LROT" ++ zeros 4 ++ leBytes 8 n ++ tabBytes pgBytes s.ledger.pgt ++ tabBytes (volBytes ∘ some) s.host.volumes ++
    tabBytes migBytes s.ledger.migs ++ tabBytes mapBytes s.ledger.slots ++
    (s.ledger.slots.flatMap fun p => leBytes 8 p.1 ++ takePad 96 (slotBytes p.2 (getStat s p.1))) ++
    leBytes 8 s.ledger.dirTop ++ leBytes 4 s.ledger.dir.length ++ s.ledger.dir.flatMap locBytes)

/-- The lost-block list (R379). -/
def lostHome (s : State) : List Byte := sealBytes (leBytes 8 s.array.lost.length ++ s.array.lost.flatMap lostBytes)

/-- The bytes that a structure has now. -/
def unitBytes (s : State) (u : HomeUnit) : List Byte :=
  match u with
  | .page p => pageBytes s p (((tabFind s.ledger.pages p).map (·.seq)).getD 0)
  | .log b => logBlock s b
  | .root => rootBytes s (s.ledger.ckptRun.getD s.ledger.ckptSeq)
  | .lost => lostHome s

/-- A copy of a structure has a valid CRC (R282, R283, R386). -/
def unitValid (u : HomeUnit) (bs : List Byte) : Bool :=
  match u with
  | .page p =>
    bs.length == 4096 && field bs 0 2 == keyVol p && field bs 8 8 == keyParcel p &&
      field bs 24 8 == (crc64 (bs.take 24 ++ bs.drop 32)).toNat
  | .log _ => (List.range 32).all fun i =>
      let r := slice bs (128 * i) 128
      (parseRec r).isSome || r.all (· == 0)
  | _ => decide (8 ≤ bs.length) && field bs (bs.length - 8) 8 == (crc64 (bs.take (bs.length - 8))).toNat

/-! ### Writing and reading the copies (R282) -/

/-- The writes of bytes to some slots at an LBA, with FUA where the drive has a volatile cache (R332, R407). -/
def copyWrites (s : State) (lba : Nat) (slots : List Nat) (bs : List Byte) : List Work :=
  slots.flatMap fun x => areaWrites s x lba bs (fuaOn s x)

/-- A write of the structure is in progress. -/
def unitBusy (s : State) (u : HomeUnit) : Bool :=
  s.jobs.any fun p => match p.2.purpose with
    | .homeWrite x _ => x == u
    | _ => false

/-- A scrub that reads the structure ends: its copies are written anew. -/
def forgetScrub (u : HomeUnit) (s : State) : State :=
  ((s.jobs.filter fun p => p.2.purpose == .homeScrub u).map (·.1)).foldl (fun t i => cancelJob i t) s

/-- All copies of a structure are written as it is now, by journal-class work; `n` says what they hold. Without a slot in service there
are no copies and the write ends at once. -/
def writeUnit (u : HomeUnit) (n : Nat) (s : State) : State :=
  let bs := unitBytes s u
  let r := placeUnit u (ceilDiv bs.length 4096) (forgetScrub u s)
  plan (.homeWrite u n) .journal false 0 (copyWrites r.2 r.1.lba r.1.slots bs) r.2

/-- The reads of every copy of a structure, tagged by copy and LBA. -/
def copyReads (s : State) (l : HomeLoc) : List Work :=
  (List.range l.slots.length).flatMap fun c =>
    let x := nth 0 l.slots c
    (cutLen (maxLbas s x) (l.nlb + 1) (0, l.nlb)).map fun r =>
      driveSub (65536 * c + r.1) x .read (l.lba + r.1) r.2 false [] 0

/-- Copy c of a structure as far as it has been read. -/
def copyRead (j : Job) (c : Nat) : List Byte :=
  (j.got.filter fun p => p.1 / 65536 == c).flatMap fun p =>
    (List.range (p.2.length / 4112)).flatMap fun i => slice p.2 (4112 * i) 4096

/-- Copy c has been read whole and its CRC is valid. -/
def copyGood (u : HomeUnit) (l : HomeLoc) (j : Job) (c : Nat) : Bool :=
  (copyRead j c).length == 4096 * l.nlb && unitValid u (copyRead j c)

/-! ### The on-drive ledger log (R281, R333) -/

/-- Records up to a SEQ are durable on drives. -/
def logDurable (n : Nat) (s : State) : State :=
  let new := s.ledger.log.filter fun r => decide (s.ledger.logSeq < r.seq) && decide (r.seq ≤ n)
  checkClean (advanceTail { s with ledger := { s.ledger with
    logSeq := max s.ledger.logSeq n, logBytes := s.ledger.logBytes + 128 * new.length } })

/-- The records that are durable in the journal and not yet on drives are copied there, up to 512 at a time (R281). A unit that does not
decide writes no drive: it counts them as copied by the fence holder (DESIGN CHOICE, log 19). -/
def copyLog (s : State) : State :=
  let new := (s.ledger.log.filter fun r => decide (s.ledger.logSeq < r.seq)).take 512
  if new.isEmpty then s
  else
    let n := maxBy LRec.seq new
    if !decides s then logDurable n s
    else if s.jobs.any (fun p => match p.2.purpose with
      | .homeWrite (.log _) _ => true
      | _ => false) then s
    else
      let a := (new.map fun r => r.seq / 32).eraseDups.foldl (fun (a : List Work × State) b =>
        let r := placeUnit (.log b) 1 (forgetScrub (.log b) a.2)
        (a.1 ++ copyWrites r.2 r.1.lba r.1.slots (logBlock r.2 b), r.2)) ([], s)
      plan (.homeWrite (.log 0) n) .journal false 0 a.1 a.2

/-! ### Page misses (R283, R295) -/

/-- The admission class of the work that waits for a page; foreground for a command or a preload (R295). The rest of a page that a
drain or an offer made resident is read by journal-class work (DESIGN CHOICE, log 19). -/
def missClass (s : State) (p : Nat) : WorkClass :=
  match s.smc.parked.find? fun x => pageOf (parcelKey x.vol x.parcel) == p with
  | none => .journal
  | some x => match x.who with
    | .internal c => c
    | _ => .foreground

/-- The pages to be read: those that lookups wait for, and the rest of those made resident by a drain (R283, R303). -/
def pagesWanted (s : State) : List Nat :=
  s.ledger.missing ++ ((s.ledger.pages.filter fun p => p.2.part.isSome).map (·.1)).filter fun p => !s.ledger.missing.contains p

/-- The plan that reads a page. -/
def pageJob (s : State) (p : Nat) : Option (Nat × Job) := s.jobs.find? fun j => j.2.purpose == .homeRead p

/-- The page is resident, whole (R283, R303). -/
def pageRead (p : Nat) (s : State) : State :=
  let x := tabGet { dirty := false, used := 0, seq := 0, since := 0, part := none } s.ledger.pages p
  { s with ledger := { s.ledger with
    missing := s.ledger.missing.erase p
    pages := tabInsert s.ledger.pages p { x with used := s.drone.count, part := none } } }

/-- The home reads of a page that is wanted begin. A unit that does not decide reads no drive for it: its pages are complete at once
(R459). -/
def readPage (s : State) (p : Nat) : State :=
  match homeAt s (.page p) with
  | none => pageRead p s
  | some l =>
    if !decides s then pageRead p s
    else if (pageJob s p).isSome || s.ledger.homeBad.contains p then s
    else plan (.homeRead p) (missClass s p) false 0 (copyReads s l) s

/-- Copy c of a page has arrived with a valid CRC (R283). -/
def copyArrived (p c : Nat) (s : State) : Bool :=
  (pageJob s p).any fun j => (homeAt s (.page p)).any fun l => decide (c < l.slots.length) && copyGood (.page p) l j.2 c

/-- The first copy of a page with a valid CRC has arrived (R283), or none has one: PLC_HOME_LOST, and the lookups that need it go on
waiting. -/
def pageArrived (p : Nat) (s : State) : State :=
  match pageJob s p, homeAt s (.page p) with
  | some (id, j), some l =>
    if (List.range l.slots.length).any (copyGood (.page p) l j) then pageRead p (cancelJob id s)
    else if j.left = 0 then
      raise 0xB89 (endJob id { s with ledger := { s.ledger with homeBad := s.ledger.homeBad ++ [p] } })
    else s
  | some (id, _), none => pageRead p (cancelJob id s)
  | none, _ => s

/-- PAGE_MISS_READ (R283): copy `copy` of a page has arrived, and it is the first with a valid CRC; else what has arrived decides. -/
def execPageMissRead (vol page copy : Nat) (s : State) : Host.Outcome State Fault Refusal :=
  let p := parcelKey vol page
  if !serving s then .next s
  else if copyArrived p copy s then .next (pageRead p ((pageJob s p).elim s fun j => cancelJob j.1 s))
  else .next (pageArrived p s)

/-- Every page whose home reads have brought an answer. -/
def settlePages (s : State) : State :=
  (s.jobs.filterMap fun j => match j.2.purpose with
    | .homeRead p => some p
    | _ => none).foldl (fun t p => pageArrived p t) s

/-! ### The tier (R37, R283) -/

/-- Pages that the tier holds: HB_LEDGER in pages of 4 KiB (R37, R283). -/
def tierPages (s : State) : Nat :=
  match s.image with
  | none => 0
  | some im => im.part.hbLedger * 65536

/-- Pages that are in use: ledger pages, the page directory at 16 bytes an entry and the extent maps (R280, R283). -/
def tierUsed (s : State) : Nat :=
  s.ledger.pages.length + ceilDiv s.ledger.dir.length 256 + sumBy (fun p : Nat × SlotRec => ceilDiv p.2.dataExt 32768) s.ledger.slots

/-- A dirty page is written to its home copies. -/
def writePage (p : Nat) (s : State) : State :=
  match tabFind s.ledger.pages p with
  | none => s
  | some x => if x.dirty && (x.part.isNone || s.ledger.homeBad.contains p) && !unitBusy s (.page p) then writeUnit (.page p) x.seq s else s

/-- The least recently used pages leave the tier until it is below 80 %: clean ones at once, dirty ones once they are written home
(R283). -/
def evictPages (s : State) : State :=
  let keep := (tierPages s * 80 - 1) / 100
  let old := (sortBy (fun a b : Nat × Page => decide (a.2.used ≤ b.2.used)) s.ledger.pages).take (tierUsed s - keep)
  let gone := (old.filter fun p => !p.2.dirty && p.2.part.isNone).map (·.1)
  let t := { s with ledger := { s.ledger with pages := s.ledger.pages.filter fun p => !gone.contains p.1 } }
  let u := (old.map (·.1)).foldl (fun t p => writePage p t) t
  { u with ledger := { u.ledger with aboveHigh := decide (keep < tierUsed u) } }

/-- TIER_HIGH_WATERMARK (R283): resident pages pass 90 % of the tier, and the eviction that brings it below 80 % begins or goes on. -/
def execTierHighWatermark (s : State) : Host.Outcome State Fault Refusal :=
  if serving s && (s.ledger.aboveHigh || decide (tierPages s * 90 < tierUsed s * 100)) then
    .next (evictPages { s with ledger := { s.ledger with aboveHigh := true } })
  else .next s

/-! ### Checkpoints (R284) -/

/-- A checkpoint is due (R284). -/
def checkpointDue (s : State) : Bool :=
  s.ledger.ckptRun.isNone &&
    (decide (s.ledger.ckptTick + 2 ^ 28 ≤ s.drone.count) || decide (268435456 ≤ s.ledger.logBytes))

/-- The whole merging buffer drained (R319, R350). -/
def drainAll (s : State) : State := (List.range s.smc.merge.length).foldl (fun t _ => drainMerge t) s

/-- The plans of a checkpoint that write its root and labels. -/
def ckptJobs (s : State) : List Nat :=
  (s.jobs.filter fun p => match p.2.purpose with
    | .homeWrite .root _ => true
    | .homeLabels => true
    | _ => false).map (·.1)

/-- A checkpoint starts with S the last sequence number: what the SMC's merging buffer holds goes to the pages. -/
def startCheckpoint (s0 : State) : State :=
  let s := drainAll ((ckptJobs s0).foldl (fun t i => cancelJob i t) s0)
  { s with ledger := { s.ledger with ckptRun := some s.ledger.seq, ckptStage := 0, ckptTick := s.drone.count, logBytes := 0 } }

/-- CHECKPOINT_START (R284). -/
def execCheckpointStart (s : State) : Host.Outcome State Fault Refusal :=
  if serving s && fenceHolder s && checkpointDue s then .next (startCheckpoint s) else .next s

/-- The pages with a change up to S that the home lacks (R284). -/
def pagesBefore (s : State) (n : Nat) : List Nat :=
  (s.ledger.pages.filter fun p => p.2.dirty && decide (p.2.since ≤ n)).map (·.1)

/-- Array identity of the running image (R577). -/
def arrayIdOf (s : State) : Word :=
  match s.image with
  | none => 0
  | some im => if im.pair.pairEn then im.pair.pairId else 0

/-- The root pointers of a label (R284, R398): where the root lies and S. -/
def rootPointers (s : State) : List Byte :=
  takePad 64 (match homeAt s .root with
    | none => []
    | some l => leBytes 8 l.lba ++ leBytes 8 l.nlb ++ leBytes 8 (s.ledger.ckptRun.getD s.ledger.ckptSeq) ++ l.slots.flatMap (leBytes 2))

/-- The drive label (R398): LBA 0 with its metadata. -/
def labelBytes (s : State) (slot : Nat) (serial : List Byte) : List Byte :=
  let body := ascii "DLBL" ++ leBytes 2 1 ++ leBytes 2 slot ++ leBytes 8 (arrayIdOf s).toNat ++
    leBytes 8 s.sampled.claim.claim.toNat ++ takePad 20 serial ++ zeros 4 ++ rootPointers s ++ zeros 8
  body ++ leBytes 8 (crc64 body).toNat ++ zeros (4112 - 128)

/-- The write of a slot's label (R398). -/
def labelWork (s : State) (slot : Nat) : Work :=
  driveSub 0 slot .write 0 1 (fuaOn s slot) (labelBytes s slot (getStat s slot).serial) 0

/-- A label write (R399): LBA 0 of a slot's drive, ahead of other work. -/
def writeLabel (slot : Nat) (s : State) : State := queueWorks 0 .journal false [labelWork s slot] s

/-- The labels of the drives in service point at the root; each rewrite is behind it completed by a Flush (R284, R408). -/
def writeLabels (s : State) : State :=
  plan .homeLabels .journal false 0 ((vaultSlots s).flatMap fun x => [labelWork s x, driveSub 0 x .flush 0 0 false [] 0]) s

/-- A checkpoint goes on: pages, then the root, then the labels (R284). -/
def stepCheckpoint (s : State) : State :=
  match s.ledger.ckptRun with
  | none => s
  | some n =>
    let ps := pagesBefore s n
    if !ps.isEmpty then ps.foldl (fun t p => writePage p t) s
    else if !(ckptJobs s).isEmpty then s
    else if s.ledger.ckptStage = 0 then writeUnit .root n s
    else if s.ledger.ckptStage = 1 then writeLabels s
    else s

/-- The checkpoint's pages, root and labels are durable. -/
def ckptOver (s : State) : Bool := s.ledger.ckptRun.isSome && s.ledger.ckptStage == 2

/-- A checkpoint completes (R284): PLC_CKPT is raised, and the log before S may be reused. -/
def endCheckpoint (n : Nat) (s : State) : State :=
  raise 0xB88 { s with ledger := { s.ledger with
    ckptRun := none, ckptStage := 0, ckptSeq := n
    log := s.ledger.log.filter fun r => decide (n < r.seq)
    dir := s.ledger.dir.filter fun d => match d.1 with
      | .log b => decide (n < 32 * b + 32)
      | _ => true } }

/-- PLC_CKPT (R284): every page changed up to S is durable, and the root is written. -/
def execPlcCkpt (s : State) : Host.Outcome State Fault Refusal :=
  match s.ledger.ckptRun with
  | none => .next s
  | some n => if serving s && ckptOver s then .next (endCheckpoint n s) else .next s

/-! ### What follows from a write (R282 to R284, R379) -/

/-- A page's copies are durable with the changes up to SEQ n. -/
def pageWritten (p n : Nat) (s : State) : State :=
  match tabFind s.ledger.pages p with
  | none => s
  | some x => { s with ledger := { s.ledger with
      pages := tabInsert s.ledger.pages p (if x.seq ≤ n then { x with dirty := false } else { x with since := n + 1 }) } }

/-- The copies of a structure are durable. -/
def runHomeWrite (id : Nat) (u : HomeUnit) (n : Nat) (s0 : State) : State :=
  let s := endJob id s0
  match u with
  | .page p => pageWritten p n s
  | .log _ => logDurable n s
  | .root => { s with ledger := { s.ledger with ckptStage := 1 } }
  | .lost => { s with array := { s.array with lostDur := n } }

/-- The labels point at the root. -/
def runHomeLabels (id : Nat) (s0 : State) : State :=
  let s := endJob id s0
  { s with ledger := { s.ledger with ckptStage := 2 } }

/-- The lost-block list goes to its home copies when it has changed (R379). -/
def copyLost (s : State) : State :=
  if s.array.lostDur = s.array.lostVer then s
  else if !decides s then { s with array := { s.array with lostDur := s.array.lostVer } }
  else if unitBusy s .lost then s
  else writeUnit .lost s.array.lostVer s

/-- What the ledger home has to do at an edge. -/
def homeWork (s : State) : State :=
  let a := copyLost (copyLog s)
  let b := stepCheckpoint ((pagesWanted a).foldl readPage a)
  if b.ledger.aboveHigh then evictPages b else b

/-- A unit that takes over the home writes it anew: every page that it holds is dirty, and the records behind the last checkpoint are
copied again, since it does not know what the other unit wrote (DESIGN CHOICE, log 19). -/
def takeHome (s : State) : State :=
  { s with ledger := { s.ledger with
    logSeq := s.ledger.ckptSeq, homeBad := []
    pages := s.ledger.entries.foldl (fun t e =>
      tabInsert t (pageOf e.1) { dirty := true, used := s.drone.count, seq := s.ledger.seq, since := 0, part := none }) s.ledger.pages } }

/-! ### Scrub of the home (R386) -/

/-- A scrub of a home structure begins: its copies are read. -/
def scrubUnit (u : HomeUnit) (s : State) : State :=
  match homeAt s u with
  | none => s
  | some l => plan (.homeScrub u) (.background .scrub) false 0 (copyReads s l) s

/-- The copies of a home structure have been read (R386): those whose CRC fails are written again from one that passes; without one
PLC_HOME_LOST is raised. -/
def runHomeScrub (id : Nat) (u : HomeUnit) (s0 : State) : State :=
  match getJob s0 id, homeAt s0 u with
  | some j, some l =>
    let s := endJob id s0
    let cs := List.range l.slots.length
    match cs.find? (copyGood u l j) with
    | none => raise 0xB89 s
    | some c =>
      let bad := (cs.filter fun x => !copyGood u l j x).map (nth 0 l.slots)
      if bad.isEmpty then s else queueWorks 0 (.background .scrub) false (copyWrites s l.lba bad (copyRead j c)) s
  | _, _ => endJob id s0

end Sys2Proof.Machine
end

