-- ==== Sys2Proof/Machine/Array.lean ====
section
/-! DEFINITION. The degraded array (11): failed drives, rebuild, migration copies, scrub, and their registers. -/

namespace Sys2Proof.Machine

open Sys2Proof

/-! ### Declaring a drive failed (R362 to R368, R376) -/

/-- A cause bit of DRV_SLOT_STAT set and the slot's event raised (R420): 0 ARRIVED, 1 READIED, 2 REFUSED, 3 DEPARTED,
4 FAILED, 5 RESV_CONFLICT, 6 DMA_REFUSED, 7 SMART_WARN. -/
def slotCause (slot n : Nat) (s : State) : State :=
  let x := getStat s slot
  raise (0x940 + slot) (setStat slot { x with causes := x.causes ||| BitVec.ofNat 8 (2 ^ n) } s)

/-- The rebuild queue's condition on one parcel (R373): placed, in a DEGRADED PG, with an erased member that no VALID
record on a serving slot covers. -/
def needsRebuild (s : State) (v : Volume) (e : LEntry) : Bool :=
  e.placed && (getPg s e.pg).state == .degraded && !(erasedOf s v e).isEmpty

/-- The failure tick of a parcel's earliest erased member. -/
def earliestFail (s : State) (v : Volume) (e : LEntry) : Nat :=
  let ts := (erasedOf s v e).map fun i => (getSlot s (memberAt s e i).1).failTick
  ts.foldl min (ts.headD 0)

/-- The rebuild queue in the order of R373. -/
def rebuildQueue (s : State) : List Nat :=
  let ks := s.ledger.entries.filter fun p => (getVol s (keyVol p.1)).any fun v => needsRebuild s v p.2
  let keyOf := fun (p : Nat × LEntry) =>
    [parcelRed s p.1, ((getVol s (keyVol p.1)).map fun v => earliestFail s v p.2).getD 0, p.2.pg, p.2.pslot]
  (sortBy (fun a b => !keyLt (keyOf b) (keyOf a)) ks).map (·.1)

/-- The changes of the queue raise RBLD_START and RBLD_DONE (R378). -/
def noteQueue (s : State) : State :=
  let now := !(rebuildQueue s).isEmpty
  raiseIf (s.array.queueWas && !now) 0xBA2 (raiseIf (now && !s.array.queueWas) 0xBA1
    { s with array := { s.array with queueWas := now } })

/-- The work of a parcel's rebuild. -/
def rebuildJobs (s : State) (pk : Nat) : List Nat :=
  (s.jobs.filter fun p => match p.2.purpose with
    | .rebuildRead k => k / 256 == pk
    | .rebuildWrite k => k / 256 == pk
    | _ => false).map (·.1)

/-- An active parcel leaves the rebuild without restart: it is formed again from the queue. -/
def dropRebuild (pk : Nat) (s : State) : State :=
  let s1 := (rebuildJobs s pk).foldl (fun t i => cancelJob i t) s
  { s1 with array := { s1.array with active := s1.array.active.filter fun r => r.key != pk } }

/-- Targets chosen and RELOC_START issued for each member (R270, R271), with whether one breaks the failure-domain minimum; none when
one has no target. -/
def startRelocs (pk : Nat) (v : Volume) : List Nat → Bool → State → Option (Bool × State)
  | [], short, s => some (short, s)
  | i :: r, short, s =>
    match relocTarget s pk v (getEntry s pk) i with
    | none => none
    | some (slot, run, x) => startRelocs pk v r (short || x) (startReloc pk i slot run s)

/-- A pending record's target breaks the failure-domain minimum (R271). -/
def pendingShort (s : State) (pk : Nat) (v : Volume) : Bool :=
  (getEntry s pk).relocs.any fun r => r.pending && relocShort s v (getEntry s pk) r.member r.slot

/-- Every erased member of an entry can be given a record (R271); otherwise the parcel is re-placed (R272). -/
def recordsFit (e : LEntry) (ms : List Nat) : Bool :=
  let used := (e.relocs.filter fun r => !ms.contains r.member).length
  decide (used + ms.length ≤ 2)

/-- The stripe of an active parcel. -/
def Rebuild.stripeKey (r : Rebuild) : Nat := Sys2Proof.Machine.stripeKey r.key r.stripe

/-- The blocks that a rebuild of a stripe wants: every position of each member being rebuilt. -/
def rebuildWants (v : Volume) (ms : List Nat) : List Nat :=
  (List.range v.strip).flatMap fun x => ms.map (blockTag x)

/-- The stripe of an active parcel is queued; stripes of set zero-mask groups are passed over (R374). -/
def rebuildStripe : Nat → Nat → State → State
  | 0, _, s => s
  | fuel + 1, pk, s =>
    match s.array.active.find? (fun r => r.key == pk), getVol s (keyVol pk) with
    | some r, some v =>
      if 256 ≤ r.stripe then s
      else if groupZero (getEntry s pk) (stripeKey pk r.stripe) then
        rebuildStripe fuel pk { s with array := { s.array with active := s.array.active.map fun x =>
          if x.key = pk then { x with stripe := x.stripe + 1 } else x } }
      else
        let red := parcelRed s pk
        withPlace none (fun s =>
          let w := wantJob (.rebuildRead (stripeKey pk r.stripe)) (.background .rebuild) (red == 0) red
            (rebuildWants v r.members) [] [] s
          (advanceFetch w.1 (stripeKey pk r.stripe) w.2).2) s
    | _, _ => s

/-- A parcel is skipped for this pass: no target (R378). -/
def skipParcel (pk : Nat) (s : State) : State :=
  raise 0xBA3 { s with array := { s.array with skipped := addOnce s.array.skipped pk } }

/-- The rebuild of a parcel's erased members from stripe 0 (R270 to R272, R374, R376): members without a pending record get a target and
RELOC_START; a parcel that would need a third record is re-placed; without a target it is skipped. -/
def formRebuild (pk : Nat) (v : Volume) (s : State) : State :=
  let e := getEntry s pk
  let ms := erasedOf s v e
  if !recordsFit e ms then queueReplace pk s
  else
    match startRelocs pk v (ms.filter fun i => !(e.reloc i).any (·.pending)) (pendingShort s pk v) s with
    | none => skipParcel pk s
    | some (short, t) =>
      rebuildStripe 257 pk { t with array := { t.array with
        active := t.array.active ++
          [{ key := pk, members := ms, short := short, stripe := 0, started := true, losses := [], lostVer := 0, iseq := 0 }] } }

/-- An active parcel starts again from stripe 0 for every erased member (R376). -/
def restartRebuild (pk : Nat) (s : State) : State :=
  match getVol s (keyVol pk) with
  | none => dropRebuild pk s
  | some v =>
    let t := formRebuild pk v (dropRebuild pk s)
    raiseIf (t.array.active.any fun r => r.key == pk) 0xBA6 t

/-- The records of an entry that name a failed slot are cleared, their runs released (R376, R277). -/
def clearReloc (slot : Nat) : Option Reloc → Option Reloc
  | some r => if r.slot = slot then none else some r
  | none => none

/-- An entry's records on a slot cleared by a ledger change. -/
def clearRelocs (slot pk : Nat) (s : State) : State :=
  changeEntry .relocStart pk (fun e => { e with reloc0 := clearReloc slot e.reloc0, reloc1 := clearReloc slot e.reloc1 }) [] s

/-- The parcels with a record on a slot. -/
def relocsOn (s : State) (slot : Nat) : List Nat :=
  (s.ledger.entries.filter fun p => p.2.relocs.any fun r => r.slot == slot).map (·.1)

/-- The records on a failed slot are cleared; active parcels that used the slot as target or survivor restart (R376). -/
def restartOn (slot : Nat) (s : State) : State :=
  let hit := (s.array.active.filter fun r =>
    let e := getEntry s r.key
    (getPg s e.pg).slots.contains slot || e.relocs.any fun x => x.slot == slot).map (·.key)
  let s1 := (relocsOn s slot).foldl (fun t k => clearRelocs slot k t) s
  hit.foldl (fun t k => restartRebuild k t) s1

/-- A drive command that will not complete: a read's blocks count as erased, a write is dropped (R337, R364). -/
def abandonSub (d : Sub) (s : State) : State :=
  let s1 := if d.op = .read then failRead d s else s
  if d.job = 0 then s1 else partDone d.job s1

/-- A submission leaves the set in flight, with its bytes (R96). -/
def dropInflight (d : Sub) (s : State) : State :=
  let s1 := { s with drone := { s.drone with inflight := s.drone.inflight.filter fun x => x.cid != d.cid } }
  match slotCluster s d.slot with
  | none => s1
  | some c => { s1 with drone := { s1.drone with
      buckets := modAt s1.drone.buckets c fun b => { b with inflight := b.inflight - d.charge } } }

/-- Everything posted to a slot's drive or waiting for it counts as failed (R364). -/
def dropSlotWork (slot : Nat) (s : State) : State :=
  let mine := fun (w : Work) => match w with
    | .leg _ => false
    | .sub d => d.slot == slot
  let out := s.drone.inflight.filter fun d => d.slot == slot
  let s1 := out.foldl (fun t d => abandonSub d (dropInflight d t)) s
  let placed := s1.drone.next.filter mine
  let waiting := (placed ++ s1.drone.queued.filter mine).filterMap fun w => match w with
    | .leg _ => none
    | .sub d => some d
  waiting.foldl (fun t d => abandonSub d t) (dropWork mine (placed.foldl refund s1))

/-- The controller of a failed drive: disabled for WHY 1 to 4, its queues kept for WHY 5 to 7 (R411). -/
def stopDrive (slot why : Nat) (s : State) : State :=
  match slotDrive s slot with
  | none => s
  | some (pos, d) =>
    if 5 ≤ why then s
    else { s with drives := { s.drives with drives := tabInsert s.drives.drives pos { d with ccEn := false, master := false } } }

/-- Every PG containing a slot sets the member's FAILED_MASK bit and enters DEGRADED (R364). -/
def degradePgs (slot : Nat) (s : State) : State :=
  ((usedPgs s).filter fun p => p.2.slots.contains slot).foldl (fun t p => changePg p.1 (fun x => { x with
    state := .degraded
    failed := x.failed ||| BitVec.ofNat 32 (2 ^ x.slots.idxOf slot) }) t) s

/-- RBLD_DRIVE_FAILED (R364): a slot's drive is declared failed. -/
def declareFailed (slot why : Nat) (s : State) : State :=
  let st := (getSlot s slot).state
  if st = .absent ∨ st = .failed then s
  else
    let s1 := changeSlot slot (fun r => { r with state := .failed, failWhy := why, failTick := s.drone.count })
      (fun x => { x with lastRes := decide (5 ≤ why), returned := false, failedSerial := x.serial }) s
    let s2 := degradePgs slot ((movesInto s1 slot).foldl (fun t k => abandonMove k t) s1)
    let s3 := stopDrive slot why (dropSlotWork slot (restartOn slot s2))
    let s4 := { s3 with
      cache := { s3.cache with wtDrives := if s3.cache.wtDrives.contains slot then logDrives s3 else s3.cache.wtDrives }
      array := { s3.array with repairs := s3.array.repairs.filter fun p => p.1 != slot } }
    noteQueue (slotCause slot 4 (raise 0xBA0 s4))

/-- The declarations known at an edge, in ascending slot order, each with its lowest cause (R362, R366). -/
def declareAll (s : State) : State :=
  let slots := sortBy (fun a b => decide (a ≤ b)) (s.array.declare.map (·.1)).eraseDups
  let why := fun n => (s.array.declare.filter fun p => p.1 == n).foldl (fun a p => min a p.2) 15
  if !fenceHolder s then { s with array := { s.array with declare := [] } }
  else slots.foldl (fun t n => declareFailed n (why n) t) { s with array := { s.array with declare := [] } }

/-- ACT = 1 written (R362 WHY 7, R368). -/
def orderFail (slot : Nat) (s : State) : State :=
  if (getSlot s slot).state = .absent ∨ (getSlot s slot).state = .failed then s
  else wantDeclare slot 7 s

/-- PLC_FAIL_CTL written for a slot (R368, R391): SLOT is kept and `act` done; on a unit that is not fence holder the write is discarded
and sets REFUSED. -/
def writeFailSlot (slot : Nat) (act : State → State) (s : State) : State :=
  if !fenceHolder s then refuseSlot slot s else act { s with array := { s.array with failSlot := slot } }

/-- FAIL_ORDER (R362, R368). -/
def execFailOrder (f slot : Nat) (s : State) : Host.Outcome State Fault Refusal :=
  if pfFull s f && slot < 384 then .next (writeFailSlot slot (orderFail slot) s) else .next s

/-! ### Rebuild (R270 to R272, R373 to R378) -/

/-- A queued parcel begins its rebuild (R374) once its ledger entry is at hand (R295). -/
def startParcel (pk : Nat) (s : State) : State :=
  match getVol s (keyVol pk) with
  | none => s
  | some v =>
    let a := smcAsk pk 1 (.background .rebuild) s
    if a.1 then formRebuild pk v a.2 else a.2

/-- The next parcel of the queue that may start: not active, moving, skipped or waiting for re-placement, with no destage
in flight (R374). -/
def nextParcel (s : State) : Option Nat :=
  (rebuildQueue s).find? fun k =>
    !(s.array.active.any fun r => r.key == k) && !(getEntry s k).moving && !s.array.skipped.contains k &&
      !s.ledger.replace.contains k && (List.range 256).all fun j => !inFlight s (stripeKey k j)

/-- REBUILD_PARCEL_START (R374). -/
def execRebuildParcelStart (s : State) : Host.Outcome State Fault Refusal :=
  if serving s && fenceHolder s && !dumping s && restoreEnded s && s.array.active.length < s.array.parallel then
    match nextParcel s with
    | none => .next s
    | some k => .next (noteQueue (startParcel k s))
  else .next s

/-- The rebuilt blocks of a stripe written to the members' targets. -/
def rebuildWrites (s : State) (v : Volume) (pk j : Nat) (ms : List Nat) (got : Tab (List Byte)) : List Work :=
  let e := getEntry s pk
  ms.flatMap fun i => match e.reloc i with
    | none => []
    | some r => writesAt s v true (r.slot, r.run) j i ((List.range v.strip).map fun x => (x, (tabFind got (blockTag x i)).getD (zeroBlock v)))

/-- The rebuild of a stripe goes on (R374). `stage` 0 obtains the erased blocks; where some are lost, 1 obtains the data
left at those positions and 2 encodes parity over zeros; then the targets are written. -/
def runRebuildRead (id key : Nat) (s : State) : State :=
  let pk := key / 256
  let r := advanceFetch id key s
  if !r.1 then r.2
  else
    match getJob r.2 id, stripeVol r.2 key, r.2.array.active.find? (fun a => a.key == pk) with
    | some j, some v, some a =>
      let xs := tagPositions j.lost
      if !xs.isEmpty && j.stage = 0 then
        let more := xs.flatMap fun x => (List.range v.k).map (blockTag x)
        let s1 := modJob id (fun _ => { j with stage := 1, want := j.want ++ more.filter fun t => !j.want.contains t }) r.2
        (advanceFetch id key s1).2
      else if !xs.isEmpty && j.stage = 1 then
        let got := xs.foldl (fun t x => (List.range v.k).foldl (fun t i =>
          if (tabFind t (blockTag x i)).isSome then t else tabInsert t (blockTag x i) (zeroBlock v)) t) j.got
        moreWork id (xs.flatMap fun x => encodeLegs r.2 v x got [] (stripeClusters r.2 v (getEntry r.2 pk)))
          (modJob id (fun _ => { j with stage := 2, got := got }) r.2)
      else
        let lost := xs.map fun x => (key % 256, x, (j.lost.filter fun t => t / 64 == x && decide (t % 64 < v.k)).map (· % 64))
        let s1 := countRepairs key (mediaTags r.2 key j) (endJob id r.2)
        let ws := rebuildWrites s1 v pk (key % 256) a.members j.got
        plan (.rebuildWrite key) j.cls j.zr j.red ws { s1 with array := { s1.array with
          active := s1.array.active.map fun x => if x.key = pk then { x with losses := x.losses ++ lost } else x } }
    | _, _, _ => endJob id r.2

/-- The noted losses of a parcel in the forms of R380: a data strip lost in all 256 stripes is one entry. -/
def lossEntries (v : Volume) (pk : Nat) (ls : List (Nat × Nat × List Nat)) : List Lost :=
  (List.range v.k).flatMap fun d =>
    let mine := ls.filter fun l => l.2.2.contains d
    if mine.length = 256 * v.strip then [stripEntry 2 (keyVol pk) v (keyParcel pk) d]
    else runEntries 2 (keyVol pk) (sortBy (fun a b => decide (a ≤ b)) (mine.map fun l =>
      v.firstOf (stripeKey pk l.1) + d * v.strip + l.2.1))

/-- The parcel's stripes are done: its losses are listed together (R374, R379). -/
def endStripes (pk : Nat) (s : State) : State :=
  match s.array.active.find? (fun r => r.key == pk), getVol s (keyVol pk) with
  | some r, some v =>
    if 256 ≤ r.stripe && !r.losses.isEmpty then
      let t := addLost none (lossEntries v pk r.losses) s
      { t with array := { t.array with active := t.array.active.map fun x =>
        if x.key = pk then { x with losses := [], lostVer := t.array.lostVer, iseq := t.pair.iseq } else x } }
    else s
  | _, _ => s

/-- A stripe of an active parcel is on its targets: the next one's work joins the queue (R374). -/
def rebuildNext (pk : Nat) (s : State) : State :=
  let s1 := { s with array := { s.array with active := s.array.active.map fun r =>
    if r.key = pk then { r with stripe := r.stripe + 1 } else r } }
  endStripes pk (rebuildStripe 257 pk s1)

/-- The plan of a parcel's target writes, when they have all completed. -/
def targetsDone (s : State) (pk : Nat) : Option Nat :=
  (s.jobs.find? fun p => p.2.left == 0 && match p.2.purpose with
    | .rebuildWrite k => k / 256 == pk
    | _ => false).map (·.1)

/-- REBUILD_STRIPE_DONE's effect (R374, R391). -/
def stripeDone (pk : Nat) (s : State) : State :=
  match targetsDone s pk, s.array.active.find? (fun r => r.key == pk), getVol s (keyVol pk) with
  | some id, some r, some v =>
    rebuildNext pk (endJob id { s with array := { s.array with
      rbldBytes := s.array.rbldBytes + BitVec.ofNat 64 (r.members.length * v.strip * 4096) } })
  | some id, _, _ => endJob id s
  | none, _, _ => s

/-- REBUILD_STRIPE_DONE (R374). -/
def execRebuildStripeDone (vol parcel : Nat) (s : State) : Host.Outcome State Fault Refusal :=
  if serving s then .next (stripeDone (parcelKey vol parcel) s) else .next s

/-- RELOC_DONE's effect (R271, R378): the records become VALID and the parcel leaves the rebuild. -/
def relocDone (pk : Nat) (s : State) : State :=
  let s1 := finishReloc pk (s.array.active.any fun r => r.key == pk && r.short) s
  noteQueue { s1 with array := { s1.array with active := s1.array.active.filter fun r => r.key != pk } }

/-- All 256 rebuilt strips are durable, and the losses are listed durably (R374, R379). -/
def rebuildOver (s : State) (r : Rebuild) : Bool :=
  decide (256 ≤ r.stripe) && r.losses.isEmpty && decide (r.lostVer ≤ s.array.lostDur) && (r.lostVer == 0 || protected_ s 0 r.iseq)

/-- RELOC_DONE (R271): all 256 rebuilt strips are durable and the losses listed. -/
def execRelocDone (vol parcel : Nat) (s : State) : Host.Outcome State Fault Refusal :=
  let k := parcelKey vol parcel
  match s.array.active.find? (fun r => r.key == k) with
  | none => .next s
  | some r => if serving s && fenceHolder s && rebuildOver s r then .next (relocDone k s) else .next s

/-- Skipped parcels are tried again after a run is freed or a slot joins the pool (R378), and so are home pages without a valid copy. -/
def unskip (s : State) : State :=
  { s with array := { s.array with skipped := [] }, ledger := { s.ledger with homeBad := [] } }

/-- The parcels with PENDING records restart from stripe 0 after a takeover or a reload (R377, R576). -/
def restartAll (s : State) : State :=
  let pend := ((s.ledger.entries.filter fun p => p.2.relocs.any (·.pending)).map (·.1))
  pend.foldl (fun t k => (getVol t (keyVol k)).elim t fun v => formRebuild k v t) { s with array := { s.array with active := [] } }

/-! ### Migration copies (R274, R275, R278) -/

/-- The plans of a parcel's copy. -/
def moveJobs (s : State) (pk : Nat) : List Nat :=
  (s.jobs.filter fun p => match p.2.purpose with
    | .moveRead k => k / 256 == pk
    | .moveEnc k => k / 256 == pk
    | .moveWrite k => k / 256 == pk
    | _ => false).map (·.1)

/-- A migration changed. -/
def modMig (pk : Nat) (f : Migration → Migration) (s : State) : State :=
  match tabFind s.ledger.migs pk with
  | none => s
  | some m => { s with ledger := { s.ledger with migs := tabInsert s.ledger.migs pk (f m) } }

/-- The copy of a parcel's next stripe is queued (R274) once the parcel's ledger entry is at hand (R295). -/
def copyStripe (pk : Nat) (s : State) : State :=
  match tabFind s.ledger.migs pk, getVol s (keyVol pk) with
  | some m, some v =>
    if 256 ≤ m.next then s
    else
      let want := (List.range v.strip).flatMap fun x => (List.range v.k).map (blockTag x)
      let a := smcAsk pk 3 (.background .migration) s
      if !a.1 then a.2
      else
        withPlace none (fun s =>
          let w := wantJob (.moveRead (stripeKey pk m.next)) (.background .migration) false (parcelRed s pk) want [] [] s
          (advanceFetch w.1 (stripeKey pk m.next) (modMig pk (fun m => { m with next := m.next + 1 }) w.2)).2) a.2
  | _, _ => s

/-- Every migration without work in progress goes on with its next stripe. -/
def copyAll (s : State) : State :=
  s.ledger.migs.foldl (fun t p => if (moveJobs t p.1).isEmpty then copyStripe p.1 t else t) s

/-- The copy of a stripe has its data: zeros stand for lost blocks, which are listed; parity is encoded (R274). -/
def runMoveRead (id key : Nat) (s : State) : State :=
  let r := advanceFetch id key s
  if !r.1 then r.2
  else
    match getJob r.2 id, stripeVol r.2 key with
    | some j, some v =>
      let lost := sortBy (fun a b => decide (a ≤ b)) (j.lost.map fun t => v.firstOf key + v.blockOf t)
      let got := j.lost.foldl (fun t x => tabInsert t x (zeroBlock v)) j.got
      let s1 := if lost.isEmpty then r.2 else addLost none (runEntries 1 (keyVol (key / 256)) lost) r.2
      let ws := (List.range v.strip).flatMap fun x => encodeLegs s1 v x got [] (stripeClusters s1 v (getEntry s1 (key / 256)))
      moreWork id ws (modJob id (fun _ => { j with purpose := .moveEnc key, got := got }) (countRepairs key (mediaTags s1 key j) s1))
    | _, _ => endJob id r.2

/-- The copy of a stripe is encoded: all k + m strips go to the target (R274), data from the buffers that the reads
reserved (R98). -/
def runMoveEnc (id key : Nat) (s : State) : State :=
  match getJob s id, stripeVol s key, tabFind s.ledger.migs (key / 256) with
  | some j0, some v, some m =>
    let j := takeOuts v j0
    let ws := (List.range (v.k + v.m)).flatMap fun i =>
      writesAt s v false (nth 0 (getPg s m.pg).slots i, m.run) (key % 256) i
        ((List.range v.strip).map fun x => (x, tabGet [] j.got (blockTag x i)))
    let w := newJob (.moveWrite key) (.background .migration) false j.red ws s
    passBuffers id w.1 w.2
  | _, _, _ => endJob id s

/-- The copy of a stripe is durable. -/
def runMoveWrite (id key : Nat) (s : State) : State :=
  let pk := key / 256
  copyStripe pk (modMig pk (fun m => { m with done := m.done + 1 }) (endJob id s))

/-- A migration is given up with its work (R278). -/
def giveUpMove (pk : Nat) (s : State) : State := abandonMove pk ((moveJobs s pk).foldl (fun t i => cancelJob i t) s)

/-- A cause of R278 holds for a parcel: dirty at the high level, a failed or draining target. -/
def moveFails (s : State) (pk : Nat) : Bool :=
  (tabFind s.ledger.migs pk).any fun m =>
    (decide ((cachOf s).destageHighPct ≤ dirtyLevel s) && moveDirty s pk) ||
      (getPg s m.pg).slots.any fun x => (getSlot s x).drain || !slotServes s x

/-- MOVE_ABANDON (R278). -/
def execMoveAbandon (vol parcel : Nat) (s : State) : Host.Outcome State Fault Refusal :=
  let k := parcelKey vol parcel
  if serving s && fenceHolder s && moveFails s k then .next (giveUpMove k s) else .next s

/-- The target strips of all 256 stripes are durable: the entry names the target, and a rebuild of the parcel has nothing left to do
(R276). -/
def endMove (k : Nat) (m : Migration) (s : State) : State := dropRebuild k (commitMove k m s)

/-- MOVE_COMMIT (R276): every target strip of the 256 stripes is durable. -/
def execMoveCommit (vol parcel : Nat) (s : State) : Host.Outcome State Fault Refusal :=
  let k := parcelKey vol parcel
  match tabFind s.ledger.migs k with
  | none => .next s
  | some m => if serving s && fenceHolder s && decide (256 ≤ m.done) then .next (endMove k m s) else .next s

/-- Every migration is given up (R278). -/
def giveUpMoves (s : State) : State := (s.ledger.migs.map (·.1)).foldl (fun t k => giveUpMove k t) s

/-! ### Scrub (R383 to R388) -/

/-- Drive space of a parcel in bytes. -/
def parcelSpace (v : Volume) : Nat := 256 * v.strip * (v.k + v.m) * 4096

/-- A new pass: every placed parcel in ascending order (R383), and every home structure (R386). -/
def newScrub (s : State) : Scrub :=
  let ks := (s.ledger.entries.filter fun p => p.2.placed).map (·.1)
  { parcels := ks, stripe := 0, again := [], homes := s.ledger.dir.map (·.1), second := false, checked := 0, began := s.clock, behind := false, nopace := false
    total := sumBy (fun k => ((getVol s (keyVol k)).map parcelSpace).getD 0) ks }

/-- A scrub counter (R391). -/
def scrubCount (n : Nat) (s : State) : State := { s with array := { s.array with scrubCnt := modAt s.array.scrubCnt n (· + 1) } }

/-- GEOM.SCRUB_PERIOD_H in ns. -/
def scrubPeriod (s : State) : Nat :=
  match s.image with
  | none => 336 * 3600000000000
  | some im => im.geom.scrubPeriodH * 3600000000000

/-- The pace limit allows another stripe (R383, R387). -/
def scrubPace (s : State) (x : Scrub) : Bool :=
  x.behind || x.nopace ||
    decide (x.checked * 1000 * scrubPeriod s ≤ x.total * (1000 * (s.clock - x.began) + scrubPeriod s))

/-- A scrub is at work on a stripe. -/
def scrubBusy (s : State) : Bool :=
  s.jobs.any fun p => match p.2.purpose with
    | .scrubRead _ => true
    | .scrubCheck _ => true
    | .scrubAgain _ => true
    | .homeScrub _ => true
    | _ => false

/-- Why a stripe is skipped (R384): 0 not skipped, 1 for a live intent, 2 for another cause. -/
def scrubSkip (s : State) (key : Nat) : Nat :=
  let e := getEntry s (key / 256)
  match stripeVol s key with
  | none => 2
  | some v =>
    if !(getDesc s key).intents.isEmpty then 1
    else if !(erasedOf s v e).isEmpty || groupZero e key || e.moving || e.relocs.any (·.pending) then 2
    else 0

/-- The CHECK of a stripe begins: all k + m strips are read (R383). -/
def checkStripe (key : Nat) (x : Scrub) (s : State) : State :=
  match stripeVol s key with
  | none => s
  | some v =>
    let want := (List.range v.strip).flatMap fun p => (List.range (v.k + v.m)).map (blockTag p)
    let y := { x with checked := x.checked + v.strip * (v.k + v.m) * 4096 }
    withPlace none (fun s =>
      let w := wantJob (.scrubRead key) (.background .scrub) false (parcelRed s (key / 256)) want [] []
        { s with array := { s.array with scrub := some y } }
      (advanceFetch w.1 key (scrubCount 0 w.2)).2) s

/-- The pass after its current stripe. -/
def Scrub.step (x : Scrub) : Scrub :=
  if 255 ≤ x.stripe then { x with parcels := x.parcels.drop 1, stripe := 0 } else { x with stripe := x.stripe + 1 }

/-- The next stripe of a pass that is not skipped is started; the pass ends behind its last one (R383, R384). -/
def scrubNext : Nat → Scrub → State → State
  | 0, x, s => { s with array := { s.array with scrub := some x } }
  | fuel + 1, x, s =>
    match x.parcels with
    | pk :: _ =>
      let key := stripeKey pk x.stripe
      let y := x.step
      let a := smcAsk pk 3 (.background .scrub) s
      match scrubSkip s key with
      | 0 => if a.1 then checkStripe key y a.2 else { a.2 with array := { a.2.array with scrub := some x } }
      | 1 => scrubNext fuel { y with again := y.again ++ [key] } s
      | _ => scrubNext fuel y (scrubCount 2 s)
    | [] =>
      match x.again with
      | key :: r =>
        let y := { x with again := r, second := true }
        let a := smcAsk (key / 256) 3 (.background .scrub) s
        match scrubSkip s key with
        | 0 => if a.1 then checkStripe key y a.2 else { a.2 with array := { a.2.array with scrub := some x } }
        | 1 => scrubNext fuel y (scrubCount 1 s)
        | _ => scrubNext fuel y (scrubCount 2 s)
      | [] => raise 0xBA7 { s with array := { s.array with scrub := none, passes := s.array.passes + 1 } }

/-- The pass goes on: a home structure is read (R386), or a stripe started while the pace allows (R383). -/
def scrubStep (x : Scrub) (s : State) : State :=
  match x.homes with
  | u :: r => scrubUnit u { s with array := { s.array with scrub := some { x with homes := r } } }
  | [] =>
    if !scrubPace s x then { s with array := { s.array with scrub := some x } }
    else scrubNext (512 * (x.parcels.length + 1) + x.again.length + 1) x s

/-- A scrub stripe started: of the current pass, or of a new one (R383, R387). DESIGN CHOICE (log 38): no pass begins while no parcel is
placed. -/
def startScrub (s : State) : State :=
  let x := (s.array.scrub.filter fun x => x.total != 0).getD (newScrub s)
  if x.total = 0 then { s with array := { s.array with scrub := none } } else scrubStep x s

/-- SCRUB_STRIPE_START (R383, R388). -/
def execScrubStripeStart (s : State) : Host.Outcome State Fault Refusal :=
  if serving s && fenceHolder s && !dumping s && restoreEnded s && !scrubBusy s then .next (startScrub s) else .next s

/-- A scrub read is complete: the CHECK legs of every position that has its blocks (R383). -/
def runScrubRead (id key : Nat) (s : State) : State :=
  let r := advanceFetch id key s
  if !r.1 then r.2
  else
    match getJob r.2 id, stripeVol r.2 key with
    | some j, some v =>
      let ok := (tagPositions j.want).filter fun x => (List.range (v.k + v.m)).all fun i =>
        !j.lost.contains (blockTag x i) && !j.failed.contains (blockTag x i)
      let ws := ok.flatMap fun x => checkLegs r.2 v x j.got (stripeClusters r.2 v (getEntry r.2 (key / 256)))
      moreWork id ws (modJob id (fun _ => { j with purpose := .scrubCheck key, lost := [], stage := 0 }) r.2)
    | _, _ => endJob id r.2

/-- The positions of a CHECK that need a second look: those that differ, and those with a media error. -/
def scrubDoubt (j : Job) : List Nat := (j.lost ++ j.failed.map (· / 64)).eraseDups

/-- All k + m blocks at the doubtful positions are read again (R385, step 1). -/
def checkAgain (id key : Nat) (v : Volume) (j : Job) (s : State) : State :=
  let want := (scrubDoubt j).flatMap fun x => (List.range (v.k + v.m)).map (blockTag x)
  let w := wantJob (.scrubAgain key) (.background .scrub) false j.red want [] [] (endJob id s)
  (advanceFetch w.1 key w.2).2

/-- What R385 does at one position whose second CHECK found a difference or a media error. -/
def judgePosition (key : Nat) (v : Volume) (j : Job) (s : State) (x : Nat) : State :=
  let tags := (List.range v.k).map (blockTag x)
  let bad := tags.filter fun t => j.failed.contains t
  let sus := bad
  let anyBad := !bad.isEmpty || (List.range v.m).any fun i => j.failed.contains (blockTag x (v.k + i))
  let t := tolerance (familyOf s v.family) v.m
  let known := j.got.filter fun p => p.1 / 64 == x && !sus.contains p.1
  if !j.lost.contains x && !anyBad then scrubCount 3 s
  else if sus.isEmpty then
    raise 0xBA9 (scrubCount 5 (startRepair key (.background .scrub) [blockTag x 0] true (known.filter fun p => p.1 % 64 < v.k) s))
  else
    let can := recoverable (familyOf s v.family) v.k v.m (sus.map (· % 64))
    let s1 := countRepairs key bad s
    if sus.length ≤ t then
      raise 0xBA8 (scrubCount 4 (startRepair key (.background .scrub) sus false known s1))
    else if can then startRepair key (.background .scrub) sus false known s1
    else
      startRepair key (.background .scrub) sus true known
        (addLost none (runEntries 3 (keyVol (key / 256)) (sortBy (fun a b => decide (a ≤ b)) (sus.map fun q => v.firstOf key + v.blockOf q))) s1)

/-- The second look at a stripe goes on: its reads, its CHECK (`stage` 1), its verdict (R385). -/
def runScrubAgain (id key : Nat) (s : State) : State :=
  match getJob s id, stripeVol s key with
  | some j0, some v =>
    if j0.stage = 0 then
      let r := advanceFetch id key s
      if !r.1 then r.2
      else
        match getJob r.2 id with
        | none => r.2
        | some j =>
          let ok := (tagPositions j.want).filter fun x => (List.range (v.k + v.m)).all fun i =>
            !j.lost.contains (blockTag x i) && !j.failed.contains (blockTag x i)
          let ws := ok.flatMap fun x => checkLegs r.2 v x j.got (stripeClusters r.2 v (getEntry r.2 (key / 256)))
          moreWork id ws (modJob id (fun _ => { j with lost := [], stage := 1 }) r.2)
    else (tagPositions j0.want).foldl (judgePosition key v j0) (endJob id s)
  | _, _ => endJob id s

/-- A CHECK of scrub has ended (R385). -/
def endCheck (id key : Nat) (s : State) : State :=
  match getJob s id, stripeVol s key with
  | some j, some v => if (scrubDoubt j).isEmpty then endJob id s else checkAgain id key v j s
  | _, _ => endJob id s

/-- SCRUB_CHECK_DONE (R385). -/
def execScrubCheckDone (vol parcel stripe : Nat) (s : State) : Host.Outcome State Fault Refusal :=
  let key := stripeKey (parcelKey vol parcel) stripe
  match s.jobs.find? fun p => p.2.left == 0 && p.2.purpose == .scrubCheck key with
  | none => .next s
  | some (id, _) => if serving s then .next (endCheck id key s) else .next s

/-- The pass is overdue (R387). -/
def scrubLate (s : State) (x : Scrub) : Bool := !x.behind && decide (scrubPeriod s ≤ s.clock - x.began)

/-- SCRUB_BEHIND's effect. -/
def markBehind (x : Scrub) (s : State) : State := raise 0xBAA { s with array := { s.array with scrub := some { x with behind := true } } }

/-- SCRUB_BEHIND (R387). -/
def execScrubBehind (s : State) : Host.Outcome State Fault Refusal :=
  match s.array.scrub with
  | none => .next s
  | some x => if serving s && scrubLate s x then .next (markBehind x s) else .next s

/-! ### Registers (R391) -/

/-- PLC_LOST_SEL written: the entry copied as one image. -/
def writeLostSel (w : Word) (s : State) : State :=
  let n := bits w 0 12
  { s with array := { s.array with lostSel := n, lostData := ((s.array.lost[n]?).map lostBytes).getD [] } }

/-- PLC_RBLD_CTL written: in force from the next compilation; 0 and 257 to 511 are not used (R18, R391). -/
def writeRbldCtl (w : Word) (s : State) : State :=
  let n := bits w 0 9
  if fenceHolder s && 1 ≤ n && n ≤ 256 then { s with array := { s.array with parallelNew := some n } } else s

/-- The written PARALLEL takes effect. -/
def adoptParallel (s : State) : State :=
  match s.array.parallelNew with
  | none => s
  | some n => { s with array := { s.array with parallel := n, parallelNew := none } }

/-- PLC_SLOT_FAIL[s] as it reads. -/
def slotFailWord (s : State) (n : Nat) : Word :=
  let r := getSlot s n
  let x := getStat s n
  put r.failWhy 0 ||| putB x.lastRes 4 ||| putB x.returned 5 ||| put (r.failTick % 2 ^ 48) 16

/-- PLC_RBLD_STAT as it reads. -/
def rbldStat (s : State) : Word :=
  let q := rebuildQueue s
  let reds := q.map (parcelRed s)
  put q.length 0 ||| put s.array.active.length 32 ||| put (reds.foldl min 15) 44 |||
    put (sat 65535 (reds.filter (· == 0)).length) 48

/-- A register of R391 as it reads, by offset in the PLC block. -/
def arrayRead (s : State) (off : Nat) : Word :=
  let a := s.array
  if off = 0x4000 then put (a.parallelNew.getD a.parallel) 0
  else if off = 0x4008 then rbldStat s
  else if off = 0x4010 then a.rbldBytes
  else if off = 0x4018 then put a.failSlot 0
  else if off = 0x4020 then put a.lost.length 0 ||| putB (a.lost.length == 4096) 13 ||| putB a.widened 14 ||| put a.merges 32
  else if off = 0x4028 then put a.lostSel 0
  else if off = 0x4030 then
    put a.passes 0 ||| (match a.scrub with
      | none => 0
      | some x => put (if x.total = 0 then 0 else min 1000 (1000 * x.checked / x.total)) 32 ||| putB x.behind 42)
  else if 0x4040 ≤ off ∧ off < 0x4060 then fieldW a.lostData (off - 0x4040)
  else if 0x4080 ≤ off ∧ off < 0x40B0 then nth 0 a.scrubCnt ((off - 0x4080) / 8)
  else if 0x5000 ≤ off ∧ off < 0x5C00 then slotFailWord s ((off - 0x5000) / 8)
  else 0

end Sys2Proof.Machine
end

