-- ==== Sys2Proof/Machine/Trials.lean ====
section
/-! DEFINITION. Trial modes (R511 to R515, R519): requests, refusals, ends, and when a reed trial strikes. -/

namespace Sys2Proof.Machine

open Sys2Proof

/-- A trial request or TRL_ARM value read by its fields (R519). -/
def parseTrial (w : Nat) : Trial where
  epong := w.testBit 0
  drv := w.testBit 1
  reed := w.testBit 2
  clusters := BitVec.ofNat 12 (w / 2 ^ 4)
  kind := w / 2 ^ 16 % 4
  dir := w.testBit 18
  rateLog := w / 2 ^ 20 % 32
  pair := w / 2 ^ 25 % 32
  engineB := w.testBit 30
  count := w / 2 ^ 32 % 65536

/-- A trial as TRL_ARM bits [47:0] lay it out (R519). -/
def trialWord (t : Trial) : Word :=
  putB t.epong 0 ||| putB t.drv 1 ||| putB t.reed 2 ||| put t.clusters.toNat 4 ||| put t.kind 16 ||| putB t.dir 18 |||
    put t.rateLog 20 ||| put t.pair 25 ||| putB t.engineB 30 ||| put t.count 32

/-- The TRIA section in force; nothing is allowed without an image (R64, R65). -/
def triaOf (s : State) : Tria :=
  match s.image with
  | none => { allowEpong := false, allowDrive := false, allowReed := false, clusterMask := 0 }
  | some im => im.tria

/-- PWR_FAIL_N is asserted or a dump is running (R511 reason 0x6). -/
def powerFailing (s : State) : Bool := s.cache.vault.failNow || dumping s

/-- The reason for which a request is refused, 0 when it is armed (R511). -/
def trialRefuse (s : State) (t : Trial) : Nat :=
  let a := triaOf s
  if (t.epong && !a.allowEpong) || (t.drv && !a.allowDrive) || (t.reed && !a.allowReed) then 1
  else if t.clusters &&& ~~~ a.clusterMask ≠ 0 then 2
  else if (t.epong && t.drv) || !(t.epong || t.drv || t.reed) then 3
  else if t.count = 0 ∨ 20 < t.rateLog then 4
  else if t.reed ∧ (17 < t.pair ∨ t.pair ∈ s.slotMap.retired) then 5
  else if powerFailing s then 6
  else if s.trials.arm.isSome then 7
  else 0

/-- The management plane's answer to a request (R511): TRL_ARM written, or refused with its reason. -/
def answerTrial (t : Trial) (s : State) : State :=
  let why := trialRefuse s t
  if why = 0 then
    { s with trials := { s.trials with
        arm := some t, seq := s.trials.seq + 1, announced := false, armBit := false, link := 0, reed := 0 } }
  else raise 0xF02 { s with trials := { s.trials with refuse := why, armBit := false } }

/-- TRL_ARM_REQUEST (R511): TRL_CTL.ARM submits TRL_REQ. -/
def execTrlArmRequest (f : Nat) (s : State) : Host.Outcome State Fault Refusal :=
  if pfSeen s f then .next (answerTrial (parseTrial s.trials.req.toNat) s) else .next s

/-- A trial ended (R515): TRL_ARM cleared with its cause. -/
def endTrial (why : Nat) (s : State) : State :=
  if s.trials.arm.isNone then s
  else raise 0xF01 { s with trials := { s.trials with arm := none, seq := s.trials.seq + 1, announced := false, why := why } }

/-- TRL_DISARM (R515). -/
def execTrlDisarm (f : Nat) (s : State) : Host.Outcome State Fault Refusal :=
  if pfSeen s f then .next (endTrial 1 s) else .next s

/-- TRL_FIRED has reached COUNT (R515). -/
def countReached (s : State) : Bool := s.trials.arm.any fun t => decide (t.count ≤ s.trials.link + s.trials.reed)

/-- The end of a trial by its count (R515, R520): the data plane has stopped at once. -/
def finishCount (s : State) : State := endTrial 2 (raise 0xF03 s)

/-- TRL_COUNT_DONE (R515). -/
def execTrlCountDone (s : State) : Host.Outcome State Fault Refusal :=
  if mgmtUp s && countReached s then .next (finishCount s) else .next s

/-- The data plane acts on the sampled trial while faults are left to inject (R511, R515). -/
def trialActs (s : State) : Option Trial :=
  match s.sampled.trial with
  | none => none
  | some t => if s.trials.stopped then none else some t

/-- One eligible unit in 2^RATE_LOG is struck (R512, R513): the first and then every 2^RATE_LOG-th. -/
def strikes (t : Trial) (n : Nat) : Bool := n % 2 ^ t.rateLog == 0

/-- A fault of the sampled trial injected: TRL_FIRED counts it unless a newer trial is armed, and the data plane stops at COUNT
(R25, R515). -/
def fired (reed : Bool) (s : State) : State :=
  let t := s.trials
  let shown := t.arm.isNone || t.announced
  { s with trials := { t with
    link := if shown && !reed then t.link + 1 else t.link
    reed := if shown && reed then t.reed + 1 else t.reed
    done := t.done + 1
    stopped := s.sampled.trial.any fun a => decide (a.count ≤ t.done + 1) } }

/-- A reed leg of a pair under trial counted; whether it is struck (R513). -/
def reedUnit (pair : Nat) (s : State) : Bool × State :=
  match trialActs s with
  | none => (false, s)
  | some t =>
    if t.reed ∧ t.pair = pair then
      let hit := strikes t s.trials.unitsR
      let s1 := { s with trials := { s.trials with unitsR := s.trials.unitsR + 1 } }
      (hit, if hit then fired true s1 else s1)
    else (false, s)

/-- A payload flit sent under an Epong trial counted; whether it is struck (R512). -/
def epongUnit (s : State) : Bool × State :=
  match trialActs s with
  | none => (false, s)
  | some t =>
    if t.epong then
      let hit := strikes t s.trials.unitsE
      let s1 := { s with trials := { s.trials with unitsE := s.trials.unitsE + 1 } }
      (hit, if hit then fired false s1 else s1)
    else (false, s)

/-- A TLP of a cluster under a drive trial counted; whether it is struck (R512). -/
def driveUnit (cluster : Nat) (s : State) : Bool × State :=
  match trialActs s with
  | none => (false, s)
  | some t =>
    if t.drv ∧ t.clusters.getLsbD cluster then
      let hit := strikes t s.trials.unitsD
      let s1 := { s with trials := { s.trials with unitsD := s.trials.unitsD + 1 } }
      (hit, if hit then fired false s1 else s1)
    else (false, s)

/-- A TLP at a cluster's transmitter (`rx` false) or receiver counted under a drive trial of that direction (R512): the kind
of the fault where it is struck. DESIGN CHOICE (log 61): a drive command counts as one TLP in each direction. -/
def strikeTlp (rx : Bool) (cluster : Nat) (s : State) : Option Nat × State :=
  match trialActs s with
  | none => (none, s)
  | some t =>
    if t.dir = rx then
      let u := driveUnit cluster s
      (if u.1 then some t.kind else none, u.2)
    else (none, s)

/-- The sampling of TRL_ARM at an edge (R25, R511): a trial takes effect, its units counted from here, with its event once. -/
def sampleTrial (s : State) : State :=
  let s1 := { s with sampled := { s.sampled with trial := s.trials.arm } }
  if s.trials.arm.isSome && !s.trials.announced then
    raise 0xF00 { s1 with trials := { s1.trials with
      announced := true, unitsE := 0, unitsD := 0, unitsR := 0, done := 0, stopped := false } }
  else s1

/-- A TRL register as it reads, by offset in the block (R519). -/
def trlRead (s : State) (off : Nat) : Word :=
  let t := s.trials
  if off = 0x00 then (t.arm.map trialWord).getD 0 ||| put t.seq.toNat 56
  else if off = 0x08 then t.req.setWidth 64
  else if off = 0x10 then putB t.armBit 0
  else if off = 0x18 then putB t.arm.isSome 0 ||| put t.refuse 4 ||| put t.why 8
  else if off = 0x20 then put t.link 0 ||| put t.reed 32
  else 0

end Sys2Proof.Machine
end

