-- ==== Sys2Proof/Machine/Reeds.lean ====
section
/-! DEFINITION. The reed pairs (07): segments and their compare, votes, suspects, retirement, known-vector tests, hung legs
and the REED registers. -/

namespace Sys2Proof.Machine

open Sys2Proof

/-! ### The slot map and retirement (R237 to R241) -/

/-- A pair's status. -/
def pairStat (s : State) (p : Nat) : PairStat := nth PairStat.reset s.reeds.stat p

/-- A pair's status changed. -/
def modPair (p : Nat) (f : PairStat → PairStat) (s : State) : State :=
  { s with reeds := { s.reeds with stat := modAt s.reeds.stat p f } }

/-- The slot a pair serves in a map. -/
def SlotMap.slotOf (m : SlotMap) (p : Nat) : Option Nat := (List.range 16).find? fun n => nth none m.pairs n == some p

/-- The spares of a map (R244). -/
def SlotMap.spares (m : SlotMap) : List Nat := (List.range 18).filter fun p => !m.pairs.contains (some p) && !m.retired.contains p

/-- A map with a pair retired: the lowest spare takes its slot, or the slot goes out of service (R238, R240). -/
def SlotMap.retire (m : SlotMap) (p : Nat) : SlotMap :=
  let r := { m with retired := addOnce m.retired p }
  match m.slotOf p with
  | none => r
  | some n => { r with pairs := modAt m.pairs n fun _ => r.spares.head? }

/-- Condemned pairs in the order in which the map takes them (R238): spares first, for no slot may get one, then by slot. -/
def retireOrder (m : SlotMap) (ps : List Nat) : List Nat :=
  let rank := fun p => ((m.slotOf p).map (· + 1)).getD 0
  sortBy (fun a b => decide (rank a ≤ rank b)) ps

/-- The management plane writes REED_SLOT_MAP from the map in force and the pairs condemned since; the promotion of the
last spare raises REED_SPARES_OUT and the SPARES reason (R237 to R240). -/
def writeSlotMap (s : State) : State :=
  let base := s.sampled.slotMap
  let m := (retireOrder base s.reeds.condemned).foldl SlotMap.retire base
  let used := decide (m.spares.length < base.spares.length) && m.spares.isEmpty && !s.reeds.sparesOut &&
    base.spares.any fun p => m.pairs.contains (some p)
  let s1 := { s with slotMap := { m with seq := s.slotMap.seq + 1 } }
  if used then setReason 0 (raise 0x905 { s1 with reeds := { s1.reeds with sparesOut := true } }) else s1

/-- GEOM.REED_WINDOW_S in ticks (R235). -/
def reedWindow (s : State) : Nat := ((s.image.map (·.geom.reedWindowS)).getD 0) * 1000000000 / tickNs s

/-- The slot is the last one in service (R241). -/
def lastSlot (s : State) (p : Nat) : Bool :=
  match s.slotMap.slotOf p with
  | none => false
  | some n => mapSlots s == [n]

/-! ### Votes: their places (R230) -/

/-- A leg back at its first segment. -/
def Leg.fresh (l : Leg) : Leg :=
  { l with
    segment := 0, diff := false, done := false, late := false
    outs := if l.op = .check then [[]] else l.dst.map fun _ => [] }

/-- A first-placed leg of the compilation in progress, or behind the seal of the next one (R91, R230). -/
def firstOpen (s : State) (w : Work) : Bool := isFirst w && s.drone.cut.all fun c => decide (c.nextId ≤ w.id)

/-- The cycles of vote re-runs and test legs that wait for a pair. -/
def firstCost (s : State) (p : Nat) : Nat :=
  sumBy (fun w => match w with
    | .leg l => if firstOpen s w && l.pair == some p then l.cost else 0
    | .sub _ => 0) s.drone.queued

/-- The voters of R230 in their order: spares by pair number, then other slots by slot number, each a pair with its slot;
pairs that mismatched or hung in this vote are not asked again (R232, R234). -/
def voters (s : State) (v : Vote) : List (Nat × Option Nat) :=
  let used := v.saved.map (·.1) ++ v.asked
  let sp := (sparePairs s).filter fun p => !s.reeds.condemned.contains p
  let sl := (slotsInService s).filter (· ≠ v.slot)
  (sp.map (fun p => (p, none)) ++ sl.filterMap fun n => (slotPair s n).map fun p => (p, some n)).filter fun x => !used.contains x.1

/-- A vote's re-run put on the first available voter (R230): in the caravan being compiled, or behind its seal in the next;
with no voter the vote is left without one. -/
def placeVote (s : State) (id : Nat) : State :=
  match s.reeds.votes.find? (fun v => v.leg.id == id && v.voter.isNone) with
  | none => s
  | some v =>
    if 2 ≤ v.tried then s
    else
      match (voters s v).find? fun x => firstCost s x.1 + v.leg.cost ≤ slotBudget s with
      | none => s
      | some (p, n) =>
        let w := Work.leg { v.leg.fresh with id := s.drone.nextId, counted := false, voteFor := some id, pair := some p, slot := n }
        requeue w { s with
          reeds := { s.reeds with votes := s.reeds.votes.map fun x => if x.leg.id = id then { x with voter := some p } else x }
          drone := { s.drone with nextId := s.drone.nextId + 1 } }

/-- A vote's re-run waits and may still be placed elsewhere. -/
def voteWaits (s : State) (id : Nat) : Bool :=
  s.drone.queued.any fun w => match w with
    | .leg l => l.voteFor == some id && firstOpen s w
    | .sub _ => false

/-- All votes whose re-run is neither running nor sealed are placed, in ascending slot order (R230). -/
def placeVotes (s : State) : State :=
  let again := (s.reeds.votes.filter fun v => v.voter.isNone || voteWaits s v.leg.id).map (·.leg.id)
  let s1 := dropWork (fun w => match w with
    | .leg l => l.voteFor.any again.contains && firstOpen s w
    | .sub _ => false) s
  let left := s1.reeds.votes.map fun v => if again.contains v.leg.id then { v with voter := none } else v
  let s2 := { s1 with reeds := { s1.reeds with votes := left } }
  ((sortBy (fun a b => decide (a.slot ≤ b.slot)) s2.reeds.votes).map (·.leg.id)).foldl placeVote s2

/-- A condemned pair gets no leg that the seal has not fixed (R237): its test leg is dropped, votes on it go elsewhere. -/
def withdrawPair (p : Nat) (s : State) : State :=
  placeVotes (dropWork (fun w => match w with
    | .leg l => l.op == .test && l.pair == some p && firstOpen s w
    | .sub _ => false) s)

/-! ### Condemning (R235 to R241) -/

/-- A pair condemned (R237): no legs are placed on it any more, the map is written and the retirement recorded in flash. -/
def condemn (p why : Nat) (s : State) : State :=
  if s.reeds.condemned.contains p || pairRetired s p || lastSlot s p then s
  else
    let s1 := modPair p (fun x => { x with retireWhy := why }) { s with
      reeds := { s.reeds with condemned := s.reeds.condemned ++ [p] }
      flash := { s.flash with health := { s.flash.health with
        retiredPairs := s.flash.health.retiredPairs ++ [(p, why)] } } }
    writeSlotMap (withdrawPair p s1)

/-- The tick of a fault still within the window (R235). -/
def within (s : State) (t : Option Nat) : Bool := t.any fun t => decide (s.drone.count ≤ t + reedWindow s)

/-- A confirmed fault of an engine (R235, R236, R241): suspect, or its pair condemned. -/
def confirmFault (p : Nat) (b : Bool) (s : State) : State :=
  let x := pairStat s p
  let second := within s (if b then x.suspectB else x.suspectA)
  let s1 := modPair p (fun x => { x with
    suspectA := if !b && !second then some s.drone.count else x.suspectA
    suspectB := if b && !second then some s.drone.count else x.suspectB
    faultA := if b then x.faultA else sat 255 (x.faultA + 1)
    faultB := if b then sat 255 (x.faultB + 1) else x.faultB })
    { s with health := { s.health with reedFaults := s.health.reedFaults + 1 } }
  if !second then s1 else condemn p (if b then 2 else 1) (raiseIf (lastSlot s p) 0x909 s1)

/-- A hang of a pair (R234, R235). -/
def countHang (p : Nat) (s : State) : State :=
  let second := within s (pairStat s p).hangAt
  let s1 := modPair p (fun x => { x with hung := sat 255 (x.hung + 1), hangAt := if second then x.hangAt else some s.drone.count }) s
  if second then condemn p 3 s1 else s1

/-- The in-service slot with the fewest clusters in its effective wiring, the lowest on a tie (R240). -/
def heirSlot (m : SlotMap) (w : List SlotWire) : Option Nat :=
  let n := fun i => ((List.range 12).filter fun c => (nth { clusters := 0, banks := 0 } w i).clusters.getLsbD c).length
  leastBy (fun a b => decide (n a < n b)) ((List.range 16).filter fun i => (nth none m.pairs i).isSome)

/-- The wiring of a slot that goes out of service passes to its heir (R240). -/
def passWiring (m : SlotMap) (w : List SlotWire) (n : Nat) : List SlotWire :=
  match heirSlot m w with
  | none => w
  | some h =>
    let own := nth { clusters := 0, banks := 0 } w n
    modAt w h fun x => { clusters := x.clusters ||| own.clusters, banks := x.banks ||| own.banks }

/-- The slots in service by one map and not by the next. -/
def lostSlots (old new : SlotMap) : List Nat :=
  (List.range 16).filter fun n => (nth none old.pairs n).isSome && (nth none new.pairs n).isNone

/-- The slots that a different pair serves. -/
def promotedSlots (old new : SlotMap) : List Nat :=
  (List.range 16).filter fun n => (nth none new.pairs n).isSome && nth none old.pairs n != nth none new.pairs n

/-- A reed trial ends with the pair that it names (R515). -/
def endPairTrial (gone : List Nat) (s : State) : State :=
  if s.trials.arm.any fun t => t.reed && gone.contains t.pair then endTrial 5 s else s

/-- The map sampled at an edge (R25, R237, R238, R240, R515): retirements take effect, with their events. -/
def sampleSlotMap (s : State) : State :=
  let old := s.sampled.slotMap
  let new := s.slotMap
  let gone := new.retired.filter fun p => !old.retired.contains p
  let lost := lostSlots old new
  let s1 := { s with
    sampled := { s.sampled with slotMap := new }
    reeds := { s.reeds with
      condemned := s.reeds.condemned.filter fun p => !new.retired.contains p
      wiring := lost.foldl (passWiring new) s.reeds.wiring } }
  endPairTrial gone
    (times lost.length (raise 0x906) (times (promotedSlots old new).length (raise 0x904) (times gone.length (raise 0x903) s1)))

/-- The retirements of the flash record applied again after reset, before the first image enters RUNNING (R237, R495): the map
holds them from its first tick on, and nothing retires anew. -/
def applyRetired (s : State) : State :=
  let ps := s.flash.health.retiredPairs
  let m := ps.foldl (fun m p => m.retire p.1) SlotMap.reset
  let s1 := ps.foldl (fun t p => modPair p.1 (fun x => { x with retireWhy := p.2 }) t) s
  let map := { m with seq := if ps.isEmpty then s.slotMap.seq else s.slotMap.seq + 1 }
  { s1 with slotMap := map, sampled := { s1.sampled with slotMap := map } }

/-- The effective wiring of an image under the retirements that the map in force shows (R49, R240). -/
def wiringOf (im : Image) (s : State) : List SlotWire :=
  let ps := s.flash.health.retiredPairs.filter fun p => s.sampled.slotMap.retired.contains p.1
  (ps.foldl (fun (a : SlotMap × List SlotWire) p =>
    let m := a.1.retire p.1
    (m, (lostSlots a.1 m).foldl (passWiring m) a.2)) (SlotMap.reset, im.geom.slotWire)).2

/-! ### Votes: their results (R229, R232, R234) -/

/-- A mismatching or hung leg goes to a vote; on a voter its saved copies join the vote it served (R229, R232, R234). -/
def toVote (l : Leg) (saved : List (Nat × Nat × List Byte × List Byte)) (forced : Option Bool) (s : State) : State :=
  let s1 := stopLeg l.id s
  match l.voteFor with
  | some id =>
    let hung := if saved.isEmpty then l.pair.toList else []
    placeVotes { s1 with reeds := { s1.reeds with votes := s1.reeds.votes.map fun v =>
      if v.leg.id = id then { v with saved := v.saved ++ saved, asked := v.asked ++ hung, tried := v.tried + 1, voter := none }
      else v } }
  | none =>
    placeVotes { s1 with reeds := { s1.reeds with votes := s1.reeds.votes ++
      [{ leg := l.fresh, tick := s.drone.count, slot := l.slot.getD 0, pair := l.pair.getD 0, saved := saved, forced := forced
         tried := 0, asked := [], voter := none }] } }

/-! ### Segments (R224, R225) -/

/-- Bytes xored with an error, byte by byte. -/
def xorErr : List Byte → List Byte → List Byte
  | [], _ => []
  | a, [] => a
  | a :: r, e :: t => (a ^^^ e) :: xorErr r t

/-- The outputs of a leg: a CHECK has one, its syndrome bits. -/
def Leg.outputs (l : Leg) : Nat := if l.op = .check then 1 else l.dst.length

/-- The bytes of each stream of a leg. -/
def Leg.len (l : Leg) : Nat := maxBy List.length l.ins

/-- The output segments of a leg (R224). -/
def Leg.segments (l : Leg) : Nat := ceilDiv l.len 64 * l.outputs

/-- Output segment n of a leg as a fault-free engine computes it (R217, R222, R224): 64 bytes, or a CHECK's syndrome bit. -/
def Leg.segmentOut (l : Leg) (n : Nat) : List Byte :=
  let pos := 64 * (n / l.outputs)
  let size := min 64 (l.len - pos)
  let ins := l.ins.map fun x => (x.drop pos).take 64
  if l.op = .check then
    [if l.coeffs.any fun c => (combine c ins size).any (· ≠ 0) then 1 else 0]
  else combine (nth [] l.coeffs (n % l.outputs)) ins size

/-- A leg has written all its outputs: they go to its plan; a vote's re-run waits for its result (R107, R231). -/
def finishLeg (l : Leg) (s : State) : State :=
  match l.voteFor with
  | some _ => modLeg l.id (fun _ => { l with done := true }) s
  | none => legOutputs l (stopLeg l.id s)

/-- Engine A's copy of a segment written (R225). -/
def writeSegment (l : Leg) (a : List Byte) (s : State) : State :=
  let l2 := { l with
    outs := modAt l.outs (l.segment % l.outputs) (· ++ a)
    diff := l.diff || (l.op == .check && a.any (· ≠ 0))
    segment := l.segment + 1 }
  if l2.segments ≤ l2.segment then finishLeg l2 s else modLeg l.id (fun _ => l2) s

/-- A forced mismatch flips one byte of the first segment of a leg under trial (R513); which byte and how is free. -/
def forcedError (s : State) (n : Nat) : List Byte × State :=
  let d := drawFree s
  let w := d.1.toNat
  (zeros (w % max 1 n) ++ [BitVec.ofNat 8 (1 + w / 64 % 255)], d.2)

/-- The engine that a running reed trial forces. -/
def forcedEngine (s : State) : Bool := s.sampled.trial.any (·.engineB)

/-- Both engines finish the next segment of a leg, with the errors they make (R225, R229). -/
def compareSegment (l : Leg) (errA errB : List Byte) (s : State) : State :=
  if l.segments ≤ l.segment then finishLeg l s
  else
    let u := if l.segment = 0 && l.voteFor.isNone then reedUnit (l.pair.getD 0) s else (false, s)
    let out := l.segmentOut l.segment
    let f := if u.1 then forcedError u.2 out.length else ([], u.2)
    let b := forcedEngine s
    let a1 := xorErr out (if b then errA else xorErr (takePad 64 errA) f.1)
    let b1 := xorErr out (if b then xorErr (takePad 64 errB) f.1 else errB)
    if a1 = b1 then writeSegment l a1 f.2
    else
      toVote l [(l.pair.getD 0, l.segment, a1, b1)] (if u.1 then some b else none)
        (raise 0x900 { f.2 with reeds := { f.2.reeds with mismatchCnt := f.2.reeds.mismatchCnt + 1 } })

/-- The leg that a pair runs now: pairs run their legs in the order of the caravan. -/
def pairLeg (s : State) (p : Nat) : Option Leg :=
  s.drone.running.find? fun l => l.kind == .reed && l.pair == some p && !l.done && l.op != .test

/-- REED_SEGMENT_COMPARE (R225, R229): a pair finishes a segment; `errA` and `errB` are what its engines' faults change. -/
def execReedSegmentCompare (pair : Nat) (errA errB : List Byte) (s : State) : Host.Outcome State Fault Refusal :=
  match pairLeg s pair with
  | none => .next s
  | some l => if serving s then .next (compareSegment l errA errB s) else .next s

/-- The rest of a leg without a fault. -/
def runOut : Nat → Nat → State → State
  | 0, _, s => s
  | fuel + 1, id, s =>
    match findLeg s id with
    | none => s
    | some l => if l.done then s else runOut fuel id (compareSegment l [] [] s)

/-- A leg that ends in its tick: what its pair has not compared yet compares equal. -/
def endReedLeg (s : State) (l : Leg) : State := runOut (l.segments - l.segment + 1) l.id s

/-! ### Results of votes (R231 to R234) -/

/-- The reference of a segment in a voter's outputs. -/
def refSegment (l : Leg) (n : Nat) : List Byte :=
  let o := nth [] l.outs (n % l.outputs)
  if l.op = .check then (o.drop n).take 1 else (o.drop (64 * (n / l.outputs))).take 64

/-- The engines that lost against a reference: A, B. -/
def losers (ref a b : List Byte) : Bool × Bool := (a != ref, b != ref)

/-- REED_VOTE_LOG written (R244). -/
def logVote (v : Vote) (voter outcome : Nat) (s : State) : State :=
  { s with reeds := { s.reeds with
    voteLog := { tick := v.tick % 2 ^ 48, slot := v.slot, pair := v.pair, voter := voter, outcome := outcome } } }

/-- One saved mismatch judged: each loss is a confirmed fault, but not the forced one (R231, R236, R513). -/
def judge (forced : Option Bool) (ref : Leg) (x : Nat × Nat × List Byte × List Byte) (s : State) : State :=
  let r := losers (refSegment ref x.2.1) x.2.2.1 x.2.2.2
  let hit := fun (b lost : Bool) (t : State) =>
    if lost && forced != some b then confirmFault x.1 b (raise 0x901 t) else t
  hit true r.2 (hit false r.1 s)

/-- OUTCOME of a decided vote (R244). -/
def outcomeOf (v : Vote) (ref : Leg) : Nat :=
  match v.forced, v.saved with
  | some _, _ => 3
  | none, (p, n, a, b) :: _ =>
    if p ≠ v.pair then 3
    else
      match losers (refSegment ref n) a b with
      | (true, true) => 2
      | (false, true) => 1
      | _ => 0
  | none, [] => 3

/-- A vote leaves the set. -/
def dropVote (id : Nat) (s : State) : State :=
  { s with reeds := { s.reeds with votes := s.reeds.votes.filter fun v => v.leg.id != id } }

/-- A vote decided by a voter that has run the leg (R231, R234). -/
def decideVote (v : Vote) (ref : Leg) (s : State) : State :=
  let p := ref.pair.getD 0x1F
  let s1 := modPair p (fun x => { x with votes := sat 255 (x.votes + 1) }) (dropVote v.leg.id (stopLeg ref.id s))
  let s2 := logVote v p (outcomeOf v ref) (legOutputs { ref with id := v.leg.id } s1)
  match v.saved with
  | [] => s2
  | x :: r => r.foldl (fun t y => judge none ref y t) (judge v.forced ref x s2)

/-- The block positions or tags that a leg covers, as data tags. -/
def Leg.covers (v : Volume) (l : Leg) : List Nat :=
  if l.op = .check then (List.range v.k).map (blockTag (l.tag / 16))
  else (l.dst.map (· / 16)).filter fun t => t % 64 < v.k

/-- A leg of a READ or VERIFY abandoned (R233): the command's blocks that it covered end with status 0x04, unlisted. -/
def abandonHost (seq first : Nat) (l : Leg) (s : State) : State :=
  match findCmd s seq with
  | none => s
  | some c =>
    match getVol s c.entry.volume with
    | none => s
    | some v =>
      let tags := l.covers v
      let bs := (tags.map fun t => first + v.blockOf t).filter fun b =>
        decide (c.entry.lba ≤ b) && decide (b < c.entry.lba + c.entry.blocks)
      let gone := fun t => if c.entry.opcode = 7 then tags.any (fun x => x / 64 == t / 64) else tags.contains t
      partDone l.job (modJob l.job (fun j => { j with want := j.want.filter fun t => !gone t })
        (modCmd seq (fun c => { c with abandoned := c.abandoned ++ bs.map (· - c.entry.lba) }) s))

/-- An abandoned leg's work as R233 orders it. -/
def abandonWork (l : Leg) (s : State) : State :=
  match getJob s l.job with
  | none => s
  | some j =>
    match j.purpose with
    | .readPart seq first _ => abandonHost seq first l s
    | .verifyRead seq first _ => abandonHost seq first l s
    | .verifyCheck seq first _ => abandonHost seq first l s
    | .destageRead key root => replan key root 0 (cancelJob l.job s)
    | .destageEnc key root => replan key root 0 (cancelJob l.job s)
    | .rebuildRead key => rebuildStripe 257 (key / 256) (cancelJob l.job s)
    | .moveRead key => copyStripe (key / 256) (modMig (key / 256) (fun m => { m with next := key % 256 }) (cancelJob l.job s))
    | .moveEnc key => copyStripe (key / 256) (modMig (key / 256) (fun m => { m with next := key % 256 }) (cancelJob l.job s))
    | .parity _ _ => queueWorks l.job j.cls j.zr [.leg { l.fresh with slot := none, pair := none, attempts := 0 }] s
    | _ => cancelJob l.job s

/-- A vote is undecided (R233): the leg is placed again as an ordinary leg, or abandoned after the third such attempt. -/
def undecided (v : Vote) (s : State) : State :=
  let s1 := raise 0x902 (logVote v 0x1F 3 (dropVote v.leg.id s))
  if v.leg.attempts < 3 then
    let l := { v.leg with attempts := v.leg.attempts + 1, avoid := v.leg.slot, slot := none, pair := none }
    requeue (.leg l) s1
  else abandonWork v.leg (raise 0x907 { s1 with reeds := { s1.reeds with failCnt := s1.reeds.failCnt + 1 } })

/-- VOTE_RESULT's effect: the vote is decided, or undecided for want of a voter. -/
def voteResult (s : State) (id : Nat) : State :=
  match s.reeds.votes.find? fun v => v.leg.id == id with
  | none => s
  | some v =>
    match s.drone.running.find? fun l => l.voteFor == some id with
    | some ref => if ref.done then decideVote v ref s else s
    | none => if v.voter.isNone then undecided v s else s

/-- VOTE_RESULT (R231 to R233): the result of the vote on a leg. -/
def execVoteResult (leg : Nat) (s : State) : Host.Outcome State Fault Refusal :=
  if serving s then .next (voteResult s leg) else .next s

/-- Every vote whose result is known is settled. -/
def settleVotes (s : State) : State := (s.reeds.votes.map (·.leg.id)).foldl voteResult s

/-! ### Known-vector tests (R493) -/

/-- A pair has a test leg queued, placed or running. -/
def testing (s : State) (p : Nat) : Bool :=
  (s.drone.next ++ s.drone.queued ++ s.drone.running.map Work.leg).any fun w => match w with
    | .leg l => l.op == .test && l.pair == some p
    | .sub _ => false

/-- A pair's last test is 10 s old. -/
def testAged (s : State) (p : Nat) : Bool := decide (10000000000 ≤ (s.drone.count - (pairStat s p).lastTest) * tickNs s)

/-- The pair is to be tested now: not retired, tests running (R492), aged, no test pending. -/
def testDue (s : State) (p : Nat) : Bool :=
  testsOn s && p < 18 && !pairRetired s p && !s.reeds.condemned.contains p && testAged s p && !testing s p

/-- A pair's test leg joins the queue, to be placed first on its slot: an ENCODE of 8 inputs of 512 bytes (R493). -/
def queueTest (p : Nat) (s : State) : State :=
  queueWorks 0 .foreground false [.leg { Leg.blank with
    kind := .reed, op := .test, pair := some p, slot := s.sampled.slotMap.slotOf p, cost := reedCost 512 8 }] s

/-- REED_TEST_DUE (R493). -/
def execReedTestDue (pair : Nat) (s : State) : Host.Outcome State Fault Refusal :=
  if serving s && testDue s pair then .next (queueTest pair s) else .next s

/-- A test leg ends (R236, R493): each engine's output as expected or not, and whether the two differ. -/
def testResult (l : Leg) (okA okB differ : Bool) (s : State) : State :=
  let p := l.pair.getD 0
  let u := reedUnit p (stopLeg l.id s)
  let b := forcedEngine s
  let badA := !okA || (u.1 && !b)
  let badB := !okB || (u.1 && b)
  let s1 := modPair p (fun x => { x with lastTest := s.drone.count }) u.2
  let s2 := if differ || u.1 then raise 0x900 { s1 with reeds := { s1.reeds with mismatchCnt := s1.reeds.mismatchCnt + 1 } } else s1
  let s3 := if badA || badB then raise 0x908 { s2 with health := { s2.health with testFails := s2.health.testFails + 1 } } else s2
  let s4 := if okA then s3 else confirmFault p false s3
  if okB then s4 else confirmFault p true s4

/-- REED_TEST_RESULT (R493): a running test leg of a pair completes. -/
def execReedTestResult (pair : Nat) (okA okB differ : Bool) (s : State) : Host.Outcome State Fault Refusal :=
  match s.drone.running.find? fun l => l.op == .test && l.pair == some pair with
  | none => .next s
  | some l => if serving s then .next (testResult l okA okB (differ || okA != okB) s) else .next s

/-! ### Hung legs (R108, R234) -/

/-- A second hang of a DMA leg: a utility channel halts; on a firmware channel the host command ends with status 0x06. -/
def hangDma (l : Leg) (s : State) : State :=
  let s1 := { s with health := { s.health with dmaHangs := s.health.dmaHangs + 1 } }
  match l.chan with
  | some _ => hangGroup l s1
  | none =>
    match (getJob s1 l.job).map Job.purpose with
    | some (Purpose.writeIn seq) => hostError seq s1
    | some (Purpose.hostOut seq) => hostError seq s1
    | _ => s1

/-- A hang of an HBM batch after its first re-run (R108): its pseudo-channel is retired and it waits for the new map, unless
the map in force names the channel already; a third is a fatal stop. -/
def hangHbm (l : Leg) (s : State) : State :=
  if l.reruns = 1 then
    requeue (.leg { l with reruns := if s.sampled.pcRetire.getLsbD l.pc then 3 else 2, late := false }) (retirePc l.pc s)
  else fatalStop s

/-- A leg cancelled as hung (R108, R234): a reed leg goes to a vote, another runs again from its start. -/
def hangLeg (s : State) (l : Leg) : State :=
  let s1 := raise 0xD01 { s with drone := { s.drone with hungCnt := s.drone.hungCnt + 1 } }
  if l.kind = .reed then
    if l.op = .test then countHang (l.pair.getD 0) (stopLeg l.id s1)
    else countHang (l.pair.getD 0) (toVote l [] none s1)
  else
    let s2 := stopLeg l.id s1
    if l.reruns = 0 then requeue (.leg { l with reruns := 1, late := false }) (rewindGroup l s2)
    else if l.kind = .dma then hangDma l s2
    else hangHbm l s2

/-- DRN_LEG_HUNG (R108): a leg carried over does not finish by the second edge after its own tick either, at which it is
cancelled. -/
def execDrnLegHung (leg : Nat) (s : State) : Host.Outcome State Fault Refusal :=
  match findLeg s leg with
  | none => .next s
  | some l => if serving s && !l.done && l.ownTick < s.drone.count then .next (delayLeg leg s) else .next s

/-- What is unfinished of the caravans before tick `now` (R106 to R108): a leg of the tick just ended has overrun, one carried
through it is hung; the others go on as the first of their resources. -/
def settleLegs (now : Nat) (s : State) : State :=
  let open_ := s.drone.running.filter fun l => !l.done
  let s1 := { s with drone := { s.drone with running := s.drone.running.map fun l => { l with late := false } } }
  (open_.filter fun l => decide (l.ownTick + 1 < now)).foldl hangLeg
    ((open_.filter fun l => decide (now ≤ l.ownTick + 1)).foldl countOverrun s1)

/-! ### Registers (R244) -/

/-- PAIR_s of a slot. -/
def pairField (s : State) (n : Nat) : Nat := (nth none s.slotMap.pairs n).getD 0x1F

/-- REED_PAIR_STAT[p] as it reads. -/
def pairStatWord (s : State) (p : Nat) : Word :=
  let x := pairStat s p
  let slot := s.slotMap.slotOf p
  let role := if pairRetired s p then 2 else if slot.isSome then 0 else 1
  put role 0 ||| put (if role = 0 then slot.getD 0 else 0) 4 ||| putB x.suspectA.isSome 8 ||| putB x.suspectB.isSome 9 |||
    putB (within s x.hangAt) 10 ||| put x.retireWhy 12 ||| put x.faultA 16 ||| put x.faultB 24 ||| put x.hung 32 |||
    put x.votes 40

/-- A REED register as it reads, by offset in the block (R244). -/
def reedRead (s : State) (off : Nat) : Word :=
  if off = 0x00 then (List.range 12).foldl (fun w n => w ||| put (pairField s n) (5 * n)) 0
  else if off = 0x08 then
    (List.range 4).foldl (fun w n => w ||| put (pairField s (12 + n)) (5 * n)) 0 |||
      s.slotMap.retired.foldl (fun w p => w ||| put 1 (20 + p)) 0 ||| put s.slotMap.seq.toNat 56
  else if off = 0x10 then
    put (mapSlots s).length 0 ||| put (sparePairs s).length 5 ||| put s.slotMap.retired.length 8 |||
      put (40 * (mapSlots s).length) 16 ||| putB s.reeds.sparesOut 32
  else if 0x40 ≤ off ∧ off < 0xD0 then pairStatWord s ((off - 0x40) / 8)
  else if off = 0x100 then
    let v := s.reeds.voteLog
    put v.tick 0 ||| put v.slot 48 ||| put v.pair 52 ||| put v.voter 57 ||| put v.outcome 62
  else if off = 0x108 then s.reeds.mismatchCnt
  else if off = 0x110 then s.reeds.failCnt
  else if off = 0x118 then put s.reeds.dmxKeys.length 0 ||| put s.reeds.dmxMisses 32
  else 0

end Sys2Proof.Machine
end

