-- ==== Sys2Proof/Machine/Drives.lean ====
section
/-! DEFINITION. The drive ports (12): clusters and links, bring-up, slot assignment, reservations seen, drive health reads,
timeouts, and the DRV registers. -/

namespace Sys2Proof.Machine

open Sys2Proof

/-! ### Clusters and links (R393, R394, R396, R553) -/

/-- A cluster. -/
def getClu (s : State) (c : Nat) : Cluster := nth Cluster.reset s.drives.clusters c

/-- A cluster changed. -/
def modClu (c : Nat) (f : Cluster → Cluster) (s : State) : State :=
  { s with drives := { s.drives with clusters := modAt s.drives.clusters c f } }

/-- The root ports that a bifurcation forms (R393). -/
def rootPorts (bifur : Nat) : Nat := 2 ^ bifur

/-- The width code that a bifurcation gives a root port (R419): 1 x2, 2 x4, 3 x8. -/
def portWidth (bifur : Nat) : Nat := 3 - bifur

/-- The speed code that DRV_CLU_CFG.MAX_SPEED and the sampled HLT_DEGRADE.CLU_CAP allow (R394, R498). -/
def portRate (s : State) (c : Nat) : Nat :=
  let m := 3 - (getClu s c).speed
  if s.sampled.cluCap.getLsbD c then min m 2 else m

/-- The links of a cluster run no faster than they may. -/
def limitRate (c : Nat) (s : State) : State :=
  modClu c (fun x => { x with rate := x.rate.map fun r => min r (portRate s c) }) s

/-- The drive at a position. -/
def getDrive (s : State) (pos : Nat) : Option Drive := tabFind s.drives.drives pos

/-- A drive changed. -/
def modDrive (pos : Nat) (f : Drive → Drive) (s : State) : State :=
  match getDrive s pos with
  | none => s
  | some d => { s with drives := { s.drives with drives := tabInsert s.drives.drives pos (f d) } }

/-- DRV_POS_MAP of a position. -/
def posMap (s : State) (pos : Nat) : PosMap := tabGet { slot := pos, valid := true } s.drives.posMap pos

/-- A claim seen: H of R466. -/
def seeClaim (c : Word) (s : State) : State :=
  if s.pair.high.toNat < c.toNat then { s with pair := { s.pair with high := c } } else s

/-! ### Departure (R397, R419) -/

/-- What was posted to a slot or placed for it gives back its cluster's bytes in flight before its drive is gone (R96). -/
def freeDriveBytes (slot : Nat) (s : State) : State :=
  let placed := s.drone.next.filter fun w => match w with
    | .leg _ => false
    | .sub d => d.slot == slot
  let s1 := takeBack placed s
  match slotCluster s1 slot with
  | none => s1
  | some c =>
    let n := sumBy (·.charge) (s1.drone.inflight.filter fun d => d.slot == slot)
    { s1 with drone := { s1.drone with buckets := modAt s1.drone.buckets c fun b => { b with inflight := b.inflight - n } } }

/-- A drive leaves its position (R397): DEPARTED, and for the fence holder a fatal status of the slot's drive. -/
def departDrive (pos : Nat) (s : State) : State :=
  match getDrive s pos with
  | none => s
  | some d =>
    let s1 := (d.slot.elim s fun n => freeDriveBytes n s)
    let s2 := { s1 with drives := { s1.drives with drives := tabErase s1.drives.drives pos } }
    match d.slot with
    | none => s2
    | some n => (if fenceHolder s2 then wantDeclare n 2 else id) (slotCause n 3 s2)

/-- The drives of a cluster, by position. -/
def cluDrives (s : State) (c : Nat) : List Nat := (s.drives.drives.filter fun p => p.1 / 32 == c).map (·.1)

/-- A cluster's links go down and its drives depart; every DRV_PERST_N of it falls at once (R419, R553). -/
def cluDown (c : Nat) (s : State) : State :=
  (cluDrives s c).foldl (fun t p => departDrive p t)
    (modClu c (fun x => { x with en := false, width := [0, 0, 0, 0], rate := [0, 0, 0, 0], perst := [false, false, false, false] }) s)

/-- A drive trial ends with a cluster that it names (R515). -/
def endClusterTrial (c : Nat) (s : State) : State :=
  if s.trials.arm.any fun t => t.drv && t.clusters.getLsbD c then endTrial 5 s else s

/-- A write of DRV_CLU_CFG (R18, R393, R394, R419). -/
def writeCluCfg (c : Nat) (w : Word) (s : State) : State :=
  let on := bit w 0
  let b := bits w 1 2
  let m := bits w 4 2
  let s1 := modClu c (fun x => { x with
    bifur := if x.en || b == 3 then x.bifur else b
    speed := if m = 3 then x.speed else m }) s
  if on then limitRate c (modClu c (fun x => { x with en := true }) s1)
  else if (getClu s1 c).en then endClusterTrial c (cluDown c s1) else s1

/-- DRV_PERST_RELEASE (R553): a formed root port of an enabled cluster, DRV_REFCLK stable for 100 ms. -/
def execDrvPerstRelease (cluster port : Nat) (s : State) : Host.Outcome State Fault Refusal :=
  let x := getClu s cluster
  if serving s && cluster < 12 && x.en && port < rootPorts x.bifur then
    .next (modClu cluster (fun x => { x with perst := modAt x.perst port fun _ => true }) s)
  else .next s

/-! ### Refusals and slots (R398 to R402) -/

/-- A drive whose bring-up stops, its controller disabled (R402, R403). -/
def haltDrive (pos : Nat) (st : BringUp) (s : State) : State :=
  modDrive pos (fun d => { d with step := st, ccEn := false }) s

/-- A refusal recorded at a slot: REFUSE and REFUSED (R402, R419). -/
def refuseAt (slot why : Nat) (s : State) : State := slotCause slot 2 (setStat slot { getStat s slot with refuse := why } s)

/-- DRIVE_REFUSE (R402, R419): bring-up stops with a reason, recorded in the drive's slot, or in that of DRV_POS_MAP before a slot
is known. -/
def refuseDrive (pos why : Nat) (s : State) : State :=
  let st := if why = 0xA then BringUp.unassigned else if why = 0xB then BringUp.foreign else .stopped
  refuseAt (((getDrive s pos).bind (·.slot)).getD (posMap s pos).slot) why (haltDrive pos st s)

/-- DATA_EXT of a drive (R246). -/
def dataExtOf (nsze : Nat) : Nat := min ((nsze - 4194304) / 1024) (2 ^ 24 - 1)

/-- The Host Identifier: the array identity and the unit's die identity (R4, R404, R577). -/
def hostIdentifier (s : State) : Word × Word := (arrayIdOf s, s.dieId)

/-- Host Identifier bytes (R404). -/
def hostIdBytes (h : Word × Word) : List Byte := leBytes 8 h.1.toNat ++ leBytes 8 h.2.toNat

/-- The two keys of a reservation command: the registrant's own or the preempted one, and the new one. -/
def keyBytes (a b : Word) : List Byte := leBytes 8 a.toNat ++ leBytes 8 b.toNat

/-- The data that an admin step carries: the Host Identifier (R404), or the keys of a Reservation Register or Acquire (R416). -/
def adminData (s : State) (st : BringUp) : List Byte :=
  match st with
  | .hostId => hostIdBytes (hostIdentifier s)
  | .register => keyBytes 0 s.pair.claim.claim
  | .acquire => keyBytes s.pair.claim.claim 0
  | _ => []

/-- The next admin step is issued. -/
def adminStep (pos : Nat) (st : BringUp) (s : State) : State :=
  emit (.admin pos st (adminData s st)) (modDrive pos (fun d => { d with step := st }) s)

/-- Bring-up behind the slot assignment: Host Identifier with a pair, then the queues (R403). -/
def afterSlot (pos : Nat) (s : State) : State := adminStep pos (if pairEn s then .hostId else .numQueues) s

/-- The ledger has been restored, so ledger changes may be made (R285, R579). -/
def ledgerOpen (s : State) : Bool := s.cache.vault.restore != .waiting

/-- The slot whose service state records a drive's serial as failed (R390). -/
def failedSlot (s : State) (serial : List Byte) : Option Nat :=
  (s.drives.slots.find? fun p => p.2.failedSerial == serial && (getSlot s p.1).state == .failed && !serial.isEmpty).map (·.1)

/-- The drive takes a slot (R399, R400): a SLOT change with its serial and cluster on the fence holder. -/
def takeSlot (pos slot : Nat) (s : State) : State :=
  match getDrive s pos with
  | none => s
  | some d =>
    if (slotDrive s slot).isSome then refuseAt slot 9 (haltDrive pos .stopped s)
    else
      let s1 := slotCause slot 0 (modDrive pos (fun x => { x with slot := some slot }) s)
      let known := (getStat s1 slot).serial == d.info.serial && (getStat s1 slot).cluster == some (pos / 32)
      let s2 := if decides s1 && !known && ledgerOpen s1 then
          changeSlot slot (fun r => { r with dataExt := dataExtOf d.info.nsze })
            (fun x => { x with serial := d.info.serial, cluster := some (pos / 32) }) s1
        else s1
      afterSlot pos s2

/-- A drive that was declared failed is back (R390): its slot stays FAILED; with WHY 1 to 4 it is not used at all. -/
def returnDrive (pos slot : Nat) (s : State) : State :=
  if (slotDrive s slot).isSome then refuseAt slot 9 (haltDrive pos .stopped s)
  else
    let s1 := raise 0xBAB (if decides s && ledgerOpen s then changeSlot slot id (fun x => { x with returned := true }) s
      else setStat slot { getStat s slot with returned := true } s)
    let s2 := slotCause slot 0 (modDrive pos (fun x => { x with slot := some slot }) s1)
    if (getSlot s2 slot).failWhy < 5 then haltDrive pos .stopped s2 else afterSlot pos s2

/-- The slot of an unlabelled drive: that of DRV_POS_MAP when VALID, else none (R399, step 3). -/
def mappedSlot (pos : Nat) (s : State) : State :=
  if (posMap s pos).valid then takeSlot pos (posMap s pos).slot s else refuseDrive pos 0xA s

/-- SLOT_ASSIGN (R399, R400, R390). -/
def assignSlot (pos : Nat) (s : State) : State :=
  match getDrive s pos with
  | none => s
  | some d =>
    match failedSlot s d.info.serial with
    | some n => returnDrive pos n s
    | none =>
      if !fenceHolder s then
        match s.drives.slots.find? fun p => p.2.serial == d.info.serial && !d.info.serial.isEmpty with
        | some (n, _) => takeSlot pos n s
        | none => refuseDrive pos 0xA s
      else
        match d.info.label_ with
        | some (n, a) => if a = arrayIdOf s then takeSlot pos n s else refuseDrive pos 0xB s
        | none => mappedSlot pos s

/-- Drives left UNASSIGNED are tried again: after a SLOT change on a unit that is not fence holder, or once it is (R400). -/
def assignWaiting (s : State) : State :=
  let ps := (s.drives.drives.filter fun p => p.2.step == .unassigned).map (·.1)
  let can := fun (t : State) (d : Drive) => fenceHolder t || t.drives.slots.any fun p => p.2.serial == d.info.serial
  ps.foldl (fun t p => match getDrive t p with
    | none => t
    | some d => if can t d then assignSlot p (modDrive p (fun x => { x with ccEn := true }) t) else t) s

/-! ### Bring-up (R402, R403, R415 to R417) -/

/-- A drive before anything is known of it. -/
def DriveInfo.blank : DriveInfo where
  serial := []
  wz := false
  resvOk := false
  vwc := false
  piFmt := 0
  piFirst := false
  mdts := 0
  nsze := 0
  dsm := false
  queues := 0
  depth := 0
  mqes := 0
  label_ := none

/-- DRIVE_BRING_UP (R403): CC.EN is set and CSTS.RDY awaited. -/
def bringUp (pos : Nat) (s : State) : State :=
  let d : Drive := {
    step := .waitRdy, info := DriveInfo.blank, slot := none, linkUp := true, downAt := 0, ccEn := true, master := true
    lastQ := 0, resv := 0 }
  emit (.admin pos .waitRdy []) { s with drives := { s.drives with drives := tabInsert s.drives.drives pos d } }

/-- The first requirement of R402 that the Identify data fails, behind 0x1. -/
def identRefusal (s : State) (i : DriveInfo) (active fmtOk piOk ptpl writeExcl : Bool) : Option Nat :=
  if !active then some 2
  else if !fmtOk then some 3
  else if i.nsze < 4195328 then some 4
  else if !i.wz then some 5
  else if i.mdts ≠ 0 ∧ 2 ^ i.mdts * 4096 < 65536 then some 6
  else if pairEn s && !(i.resvOk && ptpl && writeExcl) then some 7
  else if !piOk then some 8
  else none

/-- The drive's tag lets it join the pool (R255). -/
def joinedState (r : SlotRec) : SlotState := if r.tagValid then .pool else .joined

/-- A drive in service: its slot joins, and the record of a drive that failed there before no longer applies (R255, R367, R389). -/
def joinSlot (slot : Nat) (s : State) : State :=
  let r := getSlot s slot
  let old := r.state == .failed && (getStat s slot).failedSerial == (getStat s slot).serial
  if !decides s || !ledgerOpen s || old || r.state == .joined || r.state == .pool then s
  else unskip (changeSlot slot (fun r => { r with state := joinedState r }) (fun x => { x with lastRes := false, returned := false }) s)

/-- The drive's bring-up is complete (R403): no reason for a stop stands at its slot (R419). -/
def readyDrive (pos : Nat) (s : State) : State :=
  match getDrive s pos with
  | none => s
  | some d =>
    let s1 := modDrive pos (fun x => { x with step := .ready }) s
    match d.slot with
    | none => s1
    | some n =>
      let s2 := joinSlot n (slotCause n 1 (setStat n { getStat s1 n with refuse := 0 } s1))
      if decides s2 && d.info.label_.isNone && slotServes s2 n then writeLabel n s2 else s2

/-- A SMART log read (R362, R420): wear, and the warnings that fail a drive. -/
def readSmart (slot warning used : Nat) (s : State) : State :=
  let s1 := { s with ledger := { s.ledger with wearNow := tabInsert s.ledger.wearNow slot used } }
  let s2 := if warning % 256 = 0 then s1 else slotCause slot 7 s1
  if fenceHolder s && (BitVec.ofNat 8 warning &&& 0x1D) != 0 then wantDeclare slot 5 s2 else s2

/-- The holder is this unit by its Host Identifier, and its key (R404, R416). -/
def reportedBy (s : State) (h : Holder) : Word × Bool := (h.key, (h.pair, h.die) == hostIdentifier s)

/-- RESV of a report: no holder, this unit, a higher key, a lower or equal one (R417, R419). -/
def resvOf (s : State) (holder : Option Word) (own : Bool) : Nat :=
  match holder with
  | none => 0
  | some k => if own then 1 else if s.pair.claim.claim.toNat < k.toNat then 2 else 3

/-- The result of a Reservation Report kept for a drive and for the pair sequencer (R417, R466, R476). -/
def noteReport (pos : Nat) (holder : Option Word) (own : Bool) (s : State) : State :=
  let s1 := modDrive pos (fun d => { d with resv := resvOf s holder own }) s
  let s2 := (holder.elim s1 fun k => seeClaim k s1)
  match (getDrive s2 pos).bind (·.slot) with
  | none => s2
  | some n => { s2 with pair := { s2.pair with
      reports := (s2.pair.reports.filter fun r => r.1 != n) ++ [(n, own, holder.getD 0)] } }

/-- The drive's Identify Namespace data judged; the label is read next. -/
def identified (pos : Nat) (d : Drive) (i : DriveInfo) (active fmtOk piOk ptpl writeExcl : Bool) (s : State) : State :=
  match identRefusal s i active fmtOk piOk ptpl writeExcl with
  | some why => refuseDrive pos why (modDrive pos (fun x => { x with info := i }) s)
  | none => adminStep pos .label_ (modDrive pos (fun _ => { d with info := i }) s)

/-- A valid label of a drive with a serial number: SLOT, PAIR_ID and CLAIM (R398). SLOT is one of 0 to 383. -/
def parseLabel (serial bs : List Byte) : Option (Nat × Word × Word) :=
  if slice bs 0 4 = ascii "DLBL" ∧ field bs 4 2 = 1 ∧ crc64 (slice bs 0 0x78) = fieldW bs 0x78 ∧
      slice bs 0x18 20 = takePad 20 serial ∧ field bs 6 2 < 384 then
    some (field bs 6 2, fieldW bs 8, fieldW bs 0x10)
  else none

/-- One answer to a bring-up step (R403). A step that fails stops the bring-up: 0x7 for the Host Identifier, 0x2 for the
namespace, 0x1 otherwise. -/
def adminAnswer (pos : Nat) (d : Drive) (a : AdminAnswer) (s : State) : State :=
  let i := d.info
  match d.step, a with
  | .waitRdy, .rdy => adminStep pos .identCtrl s
  | .identCtrl, .identCtrl serial vwc mdts wz dsm resv hid mqes =>
    adminStep pos .identNs (modDrive pos (fun x => { x with info := { i with
      serial := takePad 20 serial, vwc := vwc, mdts := mdts, wz := wz, dsm := dsm, resvOk := resv && hid, mqes := mqes } }) s)
  | .identNs, .identNs active fmtOk nsze piFmt piOk piFirst ptpl we =>
    identified pos d { i with nsze := nsze, piFmt := piFmt, piFirst := piFirst } active fmtOk piOk ptpl we s
  | .label_, .label_ bytes =>
    let l := parseLabel i.serial bytes
    let s1 := modDrive pos (fun x => { x with info := { i with label_ := l.map fun l => (l.1, l.2.1) } }) s
    assignSlot pos (l.elim s1 fun l => if l.2.1 = arrayIdOf s then seeClaim l.2.2 s1 else s1)
  | .hostId, .ok => adminStep pos .numQueues s
  | .numQueues, .queues g => adminStep pos .cqs (modDrive pos (fun x => { x with info := { i with queues := min 64 g } }) s)
  | .cqs, .ok => adminStep pos .sqs s
  | .sqs, .ok =>
    adminStep pos (if pairEn s then .register else .smart)
      (modDrive pos (fun x => { x with info := { i with depth := min (i.mqes + 1) 256 } }) s)
  | .register, .ok => adminStep pos .report s
  | .report, .report holder =>
    let h := holder.map (reportedBy s)
    adminStep pos (if decides s && h.all (·.2) then .acquire else .smart)
      (noteReport pos (h.map (·.1)) ((h.map (·.2)).getD false) s)
  | .acquire, .ok => adminStep pos .smart (modDrive pos (fun x => { x with resv := 1 }) s)
  | .acquire, .conflict => adminStep pos .smart (d.slot.elim s fun n => slotCause n 5 s)
  | .smart, .smart w u => readyDrive pos (d.slot.elim s fun n => readSmart n w u s)
  | .identNs, .failed => refuseDrive pos 2 s
  | .hostId, .failed => refuseDrive pos 7 s
  | .unassigned, _ => s
  | .foreign, _ => s
  | .stopped, _ => s
  | .ready, _ => s
  | _, .failed => refuseDrive pos 1 s
  | _, _ => s

/-- ADMIN_COMPLETION (R403). -/
def execAdminCompletion (pos : Nat) (answer : AdminAnswer) (s : State) : Host.Outcome State Fault Refusal :=
  match getDrive s pos with
  | none => .next s
  | some d => if serving s then .next (adminAnswer pos d answer s) else .next s

/-- CAP_TO_EXPIRY (R402). -/
def execCapToExpiry (pos : Nat) (s : State) : Host.Outcome State Fault Refusal :=
  match getDrive s pos with
  | none => .next s
  | some d => if serving s && d.step == .waitRdy then .next (refuseDrive pos 1 s) else .next s

/-- A drive's link has been down for more than 100 ms (R397). -/
def linkGone (s : State) (d : Drive) : Bool := !d.linkUp && decide (100000000 < s.clock - d.downAt)

/-- A link reaches L0 at a position (R394, R396, R397): a drive that was gone for 100 ms or less is kept, a new one is
brought up. -/
def arrive (c r d width rate : Nat) (s : State) : State :=
  let pos := 32 * c + 8 * r + d
  let s1 := modClu c (fun x => { x with
    width := modAt x.width r fun _ => min (max 1 width) (portWidth x.bifur)
    rate := modAt x.rate r fun _ => min (max 1 rate) (portRate s c) }) s
  if 8 ≤ d then refuseAt (posMap s (32 * c + 8 * r)).slot 0xC s1
  else
    match getDrive s1 pos with
    | none => bringUp pos s1
    | some x =>
      if x.linkUp then s1
      else if linkGone s1 x then bringUp pos (departDrive pos s1)
      else modDrive pos (fun x => { x with linkUp := true }) s1

/-- DRIVE_ARRIVAL (R397). -/
def execDriveArrival (cluster port index width rate : Nat) (s : State) : Host.Outcome State Fault Refusal :=
  let x := getClu s cluster
  if serving s && cluster < 12 && x.en && port < rootPorts x.bifur && nth false x.perst port then
    .next (arrive cluster port index width rate s)
  else .next s

/-- DRIVE_LINK_DOWN (R397). -/
def execDriveLinkDown (pos : Nat) (s : State) : Host.Outcome State Fault Refusal :=
  match getDrive s pos with
  | none => .next s
  | some d =>
    if serving s && d.linkUp then .next (modDrive pos (fun x => { x with linkUp := false, downAt := s.clock }) s) else .next s

/-- DRIVE_DEPART (R397). -/
def execDriveDepart (pos : Nat) (s : State) : Host.Outcome State Fault Refusal :=
  match getDrive s pos with
  | none => .next s
  | some d => if serving s && linkGone s d then .next (departDrive pos s) else .next s

/-- CSTS of a ready drive read (R362, R411). -/
def pollCsts (d : Drive) (cfs : Bool) (s : State) : State :=
  match d.slot with
  | none => s
  | some n => if cfs && fenceHolder s then wantDeclare n 2 s else s

/-- CSTS_POLL (R411). -/
def execCstsPoll (pos : Nat) (cfs : Bool) (s : State) : Host.Outcome State Fault Refusal :=
  match getDrive s pos with
  | none => .next s
  | some d => if serving s && d.step == .ready then .next (pollCsts d cfs s) else .next s

/-- DRIVE_DMA_REFUSED (R408). -/
def execDriveDmaRefused (slot : Nat) (s : State) : Host.Outcome State Fault Refusal :=
  if serving s && (slotDrive s slot).isSome then .next (slotCause slot 6 s) else .next s

/-- SMART_POLL (R362). -/
def execSmartPoll (slot warning used : Nat) (s : State) : Host.Outcome State Fault Refusal :=
  match slotDrive s slot with
  | none => .next s
  | some (_, d) => if serving s && d.step == .ready then .next (readSmart slot warning used s) else .next s

/-! ### DRV_POS_MAP (R399, R419) -/

/-- A write of DRV_POS_MAP on the fence holder: SLOT and VALID, an UNASSIGNED drive assigned, a FOREIGN one adopted. SLOT
names a slot, so 384 to 511 leave it as it is. -/
def writePosMap (pos : Nat) (w : Word) (s : State) : State :=
  if !fenceHolder s then s
  else
    let m := posMap s pos
    let n := bits w 0 9
    let m2 : PosMap := { slot := if n < 384 then n else m.slot, valid := bit w 9 }
    let s1 := { s with drives := { s.drives with posMap := tabPut { slot := pos, valid := true } s.drives.posMap pos m2 } }
    match (getDrive s1 pos).map Drive.step with
    | some BringUp.unassigned => if bit w 9 then mappedSlot pos (modDrive pos (fun d => { d with ccEn := true }) s1) else s1
    | some BringUp.foreign =>
      if bits w 10 2 = 1 then
        mappedSlot pos (modDrive pos (fun d => { d with ccEn := true, info := { d.info with label_ := none } }) s1)
      else s1
    | _ => s1

/-! ### Timeouts and completions (R95, R99) -/

/-- A drive command is uncollected at its deadline (R99): the drive is to be declared failed; a unit that is not fence
holder only gives the command up. -/
def timeOut (d : Sub) (s : State) : State :=
  if fenceHolder s then wantDeclare d.slot 1 s else abandonSub d (dropInflight d s)

/-- DRIVE_COMMAND_TIMEOUT (R99). -/
def execDriveCommandTimeout (cid : Nat) (s : State) : Host.Outcome State Fault Refusal :=
  match s.drone.inflight.find? fun d => d.cid == cid with
  | none => .next s
  | some d => if serving s && d.deadline ≤ s.drone.count then .next (timeOut d s) else .next s

/-- A completion accepted belongs to the tick it is accepted in (R95). -/
def accept (cid status : Nat) (data : List Byte) (s : State) : State :=
  { s with drives := { s.drives with arrived := s.drives.arrived ++ [(cid, status, s.drone.count, data)] } }

/-- A received TLP corrupted with its CRC recomputed (R512): a byte of a read's data is flipped; of another command the
completion entry is hit, so its status is free. Which byte, and how, is free. -/
def corruptArrival (d : Sub) (status : Nat) (data : List Byte) (s : State) : State :=
  let w := drawFree s
  let n := w.1.toNat
  if data.isEmpty then accept d.cid (n % 2048) data w.2
  else accept d.cid status (data.modify (n % data.length) fun b => b ^^^ BitVec.ofNat 8 (1 + n / data.length % 255)) w.2

/-- A completion of a posted command reaches the device, past a receiver trial (R95, R512): kind 0 loses it, kind 2
corrupts it, the others deliver it as it is. -/
def arrival (d : Sub) (status : Nat) (data : List Byte) (s : State) : State :=
  let u := strikeTlp true ((slotCluster s d.slot).getD 12) s
  if u.1 = some 0 then u.2 else if u.1 = some 2 then corruptArrival d status data u.2 else accept d.cid status data u.2

/-- DRIVE_COMPLETION_ARRIVAL (R95). -/
def execDriveCompletionArrival (cid status : Nat) (data : List Byte) (s : State) : Host.Outcome State Fault Refusal :=
  match s.drone.inflight.find? fun d => d.cid == cid with
  | none => .next s
  | some d =>
    if serving s && !(s.drives.arrived.any fun a => a.1 == cid) then .next (arrival d status data s) else .next s

/-! ### A returned drive forgotten (R390) -/

/-- The record of a returned drive is removed and the drive admitted as a new one: relabelled, every extent free. -/
def forget (slot : Nat) (s : State) : State :=
  if !(getStat s slot).returned then s
  else
    let s1 := changeSlot slot (fun r => { r with state := .absent })
      (fun x => { x with serial := [], failedSerial := [], returned := false, lastRes := false }) s
    match slotDrive s1 slot with
    | none => s1
    | some (pos, d) =>
      if d.step = .ready then
        let s2 := changeSlot slot (fun r => { r with state := joinedState r, dataExt := dataExtOf d.info.nsze })
          (fun x => { x with serial := d.info.serial, cluster := some (pos / 32) }) s1
        queueWorks 0 .journal false [driveSub 0 slot .flush 0 0 false [] 0] (unskip (writeLabel slot s2))
      else
        emit (.admin pos .waitRdy []) (modDrive pos (fun x => { x with step := .waitRdy, ccEn := true, master := true, slot := none }) s1)

/-- FORGET_RETURNED (R390): PLC_FAIL_CTL with ACT = 2. -/
def execForgetReturned (f slot : Nat) (s : State) : Host.Outcome State Fault Refusal :=
  if pfFull s f && slot < 384 then .next (writeFailSlot slot (forget slot) s) else .next s

/-! ### Registers (R419) -/

/-- DRV_CLU_CFG[c] as it reads. -/
def cluCfgWord (x : Cluster) : Word := putB x.en 0 ||| put x.bifur 1 ||| put x.speed 4

/-- DRV_CLU_STAT[c] as it reads. -/
def cluStatWord (s : State) (c : Nat) : Word :=
  let x := getClu s c
  let ready := (s.drives.drives.filter fun p => p.1 / 32 == c && p.2.step == .ready && p.2.ccEn).length
  (List.range 4).foldl (fun w r => w ||| put (nth 0 x.width r) (2 * r) ||| put (nth 0 x.rate r) (2 * r + 8)) 0 |||
    put (min 4096 ((nth Bucket.reset s.drone.buckets c).inflight / 1024)) 32 ||| put ready 48

/-- STATE of DRV_POS_MAP: 0 empty, 1 slot assigned, 2 UNASSIGNED, 3 FOREIGN. -/
def posState (d : Option Drive) : Nat :=
  match d with
  | none => 0
  | some d => if d.slot.isSome then 1 else if d.step = .unassigned then 2 else if d.step = .foreign then 3 else 0

/-- DRV_POS_MAP[pos] as it reads. -/
def posMapWord (s : State) (pos : Nat) : Word :=
  let m := posMap s pos
  let d := getDrive s pos
  put m.slot 0 ||| putB m.valid 9 ||| put (posState d) 16 ||| put ((d.bind (·.slot)).getD 0x1FF) 18

/-- DRV_SLOT_STAT[s] as it reads. -/
def drvSlotWord (s : State) (n : Nat) : Word :=
  let x := getStat s n
  let shared := put x.refuse 36 ||| put x.causes.toNat 40
  match slotDrive s n with
  | none => put 0x1FF 0 ||| shared
  | some (pos, d) =>
    put pos 0 ||| putB true 9 ||| putB (d.step == .ready && d.ccEn) 10 ||| put d.resv 11 ||| putB d.info.vwc 13 |||
      put d.info.piFmt 14 ||| put d.info.queues 16 ||| put d.info.depth 24 ||| shared

/-- DRV_SLOT_SER[s] word w as it reads: the serial number of the slot's drive. -/
def slotSerWord (s : State) (n w : Nat) : Word :=
  match slotDrive s n with
  | none => 0
  | some (_, d) => fieldW (takePad 24 d.info.serial) (8 * w)

/-- A DRV register as it reads, by offset in the block (R419). -/
def drvRead (s : State) (off : Nat) : Word :=
  if off < 0x60 then cluCfgWord (getClu s (off / 8))
  else if 0x80 ≤ off ∧ off < 0xE0 then cluStatWord s ((off - 0x80) / 8)
  else if 0x1000 ≤ off ∧ off < 0x1C00 then posMapWord s ((off - 0x1000) / 8)
  else if 0x2000 ≤ off ∧ off < 0x2C00 then drvSlotWord s ((off - 0x2000) / 8)
  else if 0x4000 ≤ off ∧ off < 0x7000 ∧ off % 32 < 24 then slotSerWord s ((off - 0x4000) / 32) (off % 32 / 8)
  else 0

/-- The W1C causes of DRV_SLOT_STAT cleared (R419). -/
def clearCauses (n : Nat) (w : Word) (s : State) : State :=
  let x := getStat s n
  setStat n { x with causes := x.causes &&& ~~~ BitVec.ofNat 8 (bits w 40 8) } s

end Sys2Proof.Machine
end

