-- ==== Sys2Proof/Machine/Hem.lean ====
section
/-! DEFINITION. The hold-up energy monitor (13): sample conversion, estimates, anchors, disagreement, ceiling, learning,
restore, calibration and ship mode. Each sample stands for 1 ms. -/

namespace Sys2Proof.Machine

open Sys2Proof

/-! ### Sample conversion (R422) -/

/-- The source voltage in volts. -/
def hemVolts (vdiv : Nat) (v : BitVec 16) : Rat := (v.toNat : Rat) * vdiv / 64 / 1000

/-- The source current in amperes, positive into the source. -/
def hemAmps (shunt : Nat) (i : BitVec 16) : Rat := (i.toInt : Rat) * 3125 / shunt / 1000

/-- TRAW lies within −40 °C to 125 °C (R423). -/
def tempOk (t : BitVec 16) : Bool := 3200 ≤ t.toNat && t.toNat ≤ 56000

/-- TRAW lies within 10 °C to 45 °C (R439 code 0x1): T = TRAW / 320 − 50. -/
def tempMild (t : BitVec 16) : Bool := 19200 ≤ t.toNat && t.toNat ≤ 30400

/-- VRAW at full scale or IRAW at an end of its range (R423). -/
def railCode (v i : BitVec 16) : Bool := v == 0xFFFF || i == 0x7FFF || i == 0x8000

/-- A rational held between two bounds. -/
def clampR (lo hi x : Rat) : Rat := if x < lo then lo else if hi < x then hi else x

/-- The magnitude of a rational. -/
def absR (x : Rat) : Rat := if x < 0 then -x else x

/-! ### Sources (R425, R426) -/

/-- HEMD.CUTOFF_MV in volts. -/
def Hemd.vc (d : Hemd) : Rat := (d.cutoffMv : Rat) / 1000

/-- HEMD.FULL_MV in volts. -/
def Hemd.vf (d : Hemd) : Rat := (d.fullMv : Rat) / 1000

/-- OCV[n] in volts (R63). -/
def Hemd.ocvAt (d : Hemd) (n : Nat) : Rat := ((nth 0 d.ocv n : Nat) : Rat) / 1000

/-- The segment of the OCV table that holds a state of charge (R426). -/
def ocvSeg (s : Rat) : Nat := min 30 (s * 31).floor.toNat

/-- OCV(s): linear interpolation of OCV[n] at n / 31; beyond the ends its end segments run on (R426). -/
def ocv (d : Hemd) (s : Rat) : Rat :=
  let n := ocvSeg s
  d.ocvAt n + (d.ocvAt (n + 1) - d.ocvAt n) * (s * 31 - n)

/-- dOCV/ds at s (R427). -/
def ocvSlope (d : Hemd) (s : Rat) : Rat :=
  let n := ocvSeg s
  (d.ocvAt (n + 1) - d.ocvAt n) * 31

/-- The integral of OCV from 0 to s, for s in 0 to 1 (R426). -/
def ocvArea (d : Hemd) (s : Rat) : Rat :=
  let n := ocvSeg s
  let whole := (List.range n).foldl (fun a i => a + (d.ocvAt i + d.ocvAt (i + 1)) / 62) 0
  whole + (s - (n : Rat) / 31) * (d.ocvAt n + ocv d s) / 2

/-- The least s in 0 to 1 with OCV(s) ≥ y, searched upward from a segment; 1 where there is none. -/
def ocvInvFrom (d : Hemd) (y : Rat) : Nat → Nat → Rat
  | 0, _ => 1
  | fuel + 1, n =>
    if y ≤ d.ocvAt (n + 1) then ((n : Rat) + (y - d.ocvAt n) / (d.ocvAt (n + 1) - d.ocvAt n)) / 31
    else ocvInvFrom d y fuel (n + 1)

/-- The least s with OCV(s) = y, clamped to 0 and 1 (R427). -/
def ocvInv (d : Hemd) (y : Rat) : Rat := if y ≤ d.ocvAt 0 then 0 else ocvInvFrom d y 31 0

/-- The dump current I_d (R426). -/
def dumpAmps (d : Hemd) (h : Hem) : Rat := (h.dumpPower : Rat) / d.vc

/-- R_s · I_d (R426). -/
def dumpDrop (d : Hemd) (r0 r1 : Rat) (h : Hem) : Rat := (r0 + r1) * dumpAmps d h

/-- E(s) of an LI source with charge `bank` in coulombs (R426). -/
def liEnergy (d : Hemd) (bank r0 r1 : Rat) (h : Hem) (s : Rat) : Rat :=
  let drop := dumpDrop d r0 r1 h
  let sz := ocvInv d (d.vc + drop)
  if s ≤ sz then 0 else bank * (ocvArea d s - ocvArea d sz - drop * (s - sz))

/-- Q_full of an SC source (R425). -/
def scFull (d : Hemd) (bank : Rat) : Rat := bank * (d.vf - d.vc)

/-- E_cap of a source whose capacity is `bank` (farads, or coulombs) (R425, R426). -/
def capOf (d : Hemd) (bank r0 r1 : Rat) (h : Hem) : Rat :=
  if d.li then liEnergy d bank r0 r1 h 1 else bank * (d.vf * d.vf - d.vc * d.vc) / 2

/-- E_cap in force. -/
def ecap (d : Hemd) (h : Hem) : Rat := capOf d h.bank h.r0 h.r1 h

/-- The default bank (R425, R426). -/
def defaultBank (d : Hemd) : Rat :=
  if d.li then (d.capacityJ : Rat) / ocvArea d 1 else 2 * (d.capacityJ : Rat) / (d.vf * d.vf - d.vc * d.vc)

/-- I_C (R430). -/
def icOf (d : Hemd) (h : Hem) : Rat := (if d.li then h.bank else scFull d h.bank) / 3600

/-- Q of an SC source at rest voltage v: the charge whose energy is E_v (R425). -/
def scCharge (d : Hemd) (h : Hem) (v : Rat) : Rat := clampR 0 (scFull d h.bank) (h.bank * (v - d.vc))

/-- The voltage of the latest sample. -/
def Hem.volt (h : Hem) : Rat := hemVolts h.vdiv h.vraw

/-- The current of the latest sample. -/
def Hem.amp (d : Hemd) (h : Hem) : Rat := hemAmps d.shuntUohm h.iraw

/-- s_v: the state of charge that the voltage names (R427). -/
def socAt (d : Hemd) (h : Hem) (v i : Rat) : Rat := ocvInv d (v - h.r0 * i - h.v1)

/-- The count estimate E_q (R425, R427). -/
def estQ (d : Hemd) (h : Hem) : Rat :=
  if d.li then liEnergy d h.bank h.r0 h.r1 h h.soc
  else min (d.vc * h.q + h.q * h.q / (2 * h.bank)) (ecap d h)

/-- The voltage estimate E_v (R425, R427). -/
def estV (d : Hemd) (h : Hem) : Rat :=
  if d.li then liEnergy d h.bank h.r0 h.r1 h (socAt d h h.volt (h.amp d))
  else if h.volt ≤ d.vc then 0
  else min (h.bank * (h.volt * h.volt - d.vc * d.vc) / 2) (ecap d h)

/-- The count and the filter set from the voltage as at a first sample (R424, R427, R448). -/
def anchorVolt (d : Hemd) (h : Hem) : Hem :=
  if d.li then
    let h1 := { h with v1 := 0 }
    { h1 with soc := socAt d h1 h.volt (h.amp d), p00 := 1 / 100, p01 := 0, p11 := 1 / 10000 }
  else { h with q := scCharge d h h.volt }

/-- One filter step (R427). -/
def filterStep (d : Hemd) (h : Hem) : Hem :=
  let i := h.amp d
  let a : Rat := if h.tau = 0 then 0 else Config.expNeg (1 / 1000 / h.tau)
  let sp := h.soc + i / 1000 / h.bank
  let vp := a * h.v1 + h.r1 * (1 - a) * i
  let p00 := h.p00 + 1 / 10000000000
  let p01 := a * h.p01
  let p11 := a * a * h.p11 + 1 / 100000000
  let g := ocvSlope d sp
  let den := g * g * p00 + 2 * g * p01 + p11 + 25 / 1000000
  let k0 := (g * p00 + p01) / den
  let k1 := (g * p01 + p11) / den
  let e := h.volt - (ocv d sp + h.r0 * i + vp)
  { h with
    soc := clampR 0 1 (sp + k0 * e)
    v1 := vp + k1 * e
    p00 := (1 - k0 * g) * p00 - k0 * p01
    p01 := (1 - k0 * g) * p01 - k0 * p11
    p11 := (1 - k1) * p11 - k1 * g * p01 }

/-- The count or the filter after a sample (R425, R427). -/
def countStep (d : Hemd) (h : Hem) : Hem :=
  if d.li then filterStep d h else { h with q := clampR 0 (scFull d h.bank) (h.q + h.amp d / 1000) }

/-! ### Rest age, derating and guaranteed energy (R434, R435) -/

/-- The rest age in seconds (R435). -/
def restAgeS (clock : Nat) (h : Hem) : Nat := h.restAge + (clock - h.restAt) / 1000000000

/-- The derating d (R434): the age in days is counted continuously. -/
def derate (clock : Nat) (h : Hem) : Rat :=
  if h.fresh then
    let days : Rat := (h.restAge : Rat) / 86400 + ((clock - h.restAt : Nat) : Rat) / 86400000000000
    min (30 / 100) (max 0 (days - 7) / 100)
  else 30 / 100

/-- A condition of R423 for a sense fault holds. -/
def senseBad (clock : Nat) (h : Hem) : Bool :=
  10 ≤ h.railRun || (h.sampled && !tempOk h.traw) || 100000000 ≤ clock - h.sampleAt

/-- Ship mode (R447). -/
def inShip (h : Hem) : Bool := h.ship != 0

/-- E_g (R432, R434): zero during a sense fault or ship mode. -/
def guaranteed (clock : Nat) (h : Hem) : Rat :=
  if h.fault || senseBad clock h || inShip h then 0 else min h.eq h.ev * (1 - derate clock h)

/-- The estimates brought up to the count and the latest sample. -/
def estimate (clock : Nat) (d : Hemd) (h : Hem) : Hem :=
  let h1 := { h with eq := estQ d h, ev := estV d h }
  { h1 with eg := guaranteed clock h1 }

/-! ### Disagreement (R431, R433) -/

/-- DISAGREE after new estimates, with the event it raises (R431), and the 60 s window of R433. -/
def disagreeStep (d : Hemd) (h : Hem) : Hem × List Nat :=
  let big := 5 / 100 * ecap d h < absR (h.eq - h.ev)
  if big then
    if !h.disagree then ({ h with disagree := true, disAt := h.seq, disMin := h.ev, disMax := h.ev }, [0xAE0])
    else
      let lo := min h.disMin h.ev
      let hi := max h.disMax h.ev
      if ecap d h / 100 < hi - lo then ({ h with disAt := h.seq, disMin := h.ev, disMax := h.ev }, [])
      else ({ h with disMin := lo, disMax := hi }, [])
  else ({ h with disagree := false }, if h.disagree then [0xAE1] else [])

/-- The re-anchor of R433 is due. -/
def reanchorDue (h : Hem) : Bool := h.disagree && decide (h.disAt + 60000 ≤ h.seq)

/-- The count set to the voltage (R433). -/
def reanchor (clock : Nat) (d : Hemd) (h : Hem) : Hem × List Nat :=
  let h1 := if d.li then { h with soc := socAt d h h.volt (h.amp d), p00 := 1 / 10000, p01 := 0, p11 := 1 / 10000 }
    else { h with q := scCharge d h h.volt }
  disagreeStep d (estimate clock d h1)

/-! ### Learning (R439, R440) -/

/-- A condition of R439 failed in the open cycle: the lowest code is kept. -/
def failCycle (c : Bool) (code : Nat) (h : Hem) : Hem :=
  if c && h.open_.isSome then { h with bad := if h.bad = 0 then code else min h.bad code } else h

/-- The mean of a list of rationals. -/
def meanR (l : List Rat) : Rat := l.foldl (· + ·) 0 / l.length

/-- The new capacity estimate of a cycle (R440). -/
def newBank (d : Hemd) (a b : RestPoint) : Rat :=
  if d.li then absR ((b.count - a.count) / (b.soc - a.soc)) else absR ((b.count - a.count) / (b.volt - a.volt))

/-- The capacity that a bank gives lies within 0.5 to 1.2 times HEMD.CAPACITY_J (R439, R442). -/
def capInRange (d : Hemd) (c : Rat) : Bool :=
  decide ((d.capacityJ : Rat) / 2 ≤ c) && decide (c ≤ (d.capacityJ : Rat) * 12 / 10)

/-- The reject code of a cycle from `a` to `b`, 0 when it qualifies (R439). -/
def cycleCode (d : Hemd) (h : Hem) (a b : RestPoint) : Nat :=
  if h.bad ≠ 0 then h.bad
  else if (d.li ∧ absR (b.soc - a.soc) < 1 / 2) ∨ (¬d.li ∧ absR (b.count - a.count) < scFull d h.bank / 2) then 5
  else if (if d.li then b.soc = a.soc else b.volt = a.volt) then 6
  else if capInRange d (capOf d (newBank d a b) h.r0 h.r1 h) then 0
  else 6

/-- The learned state after a cycle from `a` to `b` (R439, R440), with the event. -/
def learn (d : Hemd) (a b : RestPoint) (h : Hem) : Hem × List Nat :=
  let code := cycleCode d h a b
  if code ≠ 0 then ({ h with reject := code }, [0xAE5])
  else
    let n := newBank d a b
    let old := h.restored || h.learnedSrc == 2
    ({ h with
      bank := if old then (3 * h.bank + n) / 4 else n
      r0 := if d.li ∧ h.steps ≠ [] then meanR h.steps else h.r0
      learnedSrc := 2
      everLearned := true
      learnCnt := min 255 (h.learnCnt + 1)
      learnTotal := h.learnTotal + 1 }, [0xAE4])

/-! ### Calibration (R444 to R446) -/

/-- A calibration runs. -/
def calRunning (h : Hem) : Bool := 1 ≤ h.cal && h.cal ≤ 3

/-- CAL as it reads: 6 after a refused request (R444). -/
def calShown (h : Hem) : Nat := if h.calRef then 6 else h.cal

/-- A running calibration aborted with a reason (R446), with the event. -/
def calAbort (why : Nat) (h : Hem) : Hem × List Nat :=
  if calRunning h then ({ h with cal := 5, calRef := false, calWhy := why, disch := false, calFrom := none }, [0xAEA])
  else (h, [])

/-- Phase 2 has reached its end (R444). -/
def dischargeOver (d : Hemd) (h : Hem) : Bool :=
  h.cal == 2 &&
    ((h.calFrom.any fun p =>
        if d.li then decide (55 / 100 ≤ p.held - h.soc)
        else decide (h.counted - p.count ≤ -(55 / 100 * scFull d h.bank))) ||
      decide (min h.eq h.ev ≤ 15 / 100 * ecap d h))

/-- The rest point that the latest sample is (R430). -/
def restPoint (tick : Nat) (d : Hemd) (h : Hem) : RestPoint :=
  { volt := h.volt, held := if d.li then h.soc else h.q, soc := socAt d h h.volt (h.amp d), count := h.counted, tick := tick }

/-- Rest has held for 1,800 intervals and no rest point was taken of it (R430). -/
def restDue (h : Hem) : Bool := decide (1800 ≤ h.restSecs) && !h.restDone

/-- A rest point taken (R430, R435, R439, R444): it ends the open cycle and opens the next, and moves a calibration on. -/
def takeRest (clock tick : Nat) (d : Hemd) (h : Hem) : Hem × List Nat :=
  let p := restPoint tick d h
  let h1 := { h with restDone := true, restAge := 0, restAt := clock, staleLearn := false }
  let (h2, e2) := match h1.open_ with
    | none => (h1, [])
    | some a => learn d a p h1
  let h3 := { h2 with open_ := if h.ship = 2 then none else some p, bad := 0, steps := [] }
  if h3.cal = 1 ∧ h3.calFull ∧ 95 / 100 * ecap d h3 ≤ h3.eq then
    ({ h3 with calFrom := some p }, 0xAE3 :: e2)
  else if h3.cal = 3 then ({ h3 with cal := 4, calRef := false, calFrom := none }, 0xAE3 :: e2 ++ [0xAE9])
  else (h3, 0xAE3 :: e2)

/-! ### Anchors (R428, R429) -/

/-- The full anchor of R428 is due. -/
def fullDue (d : Hemd) (h : Hem) : Bool :=
  !h.fullDone && h.taperAt.any fun t => decide (t + 1000 * d.taperHoldS ≤ h.seq)

/-- A full anchor (R428). -/
def fullAnchor (clock : Nat) (d : Hemd) (h : Hem) : Hem × List Nat :=
  let h1 := if d.li then { h with soc := 1, v1 := 0, p00 := 1 / 10000, p01 := 0, p11 := 1 / 10000 }
    else { h with q := scFull d h.bank }
  let (h2, e) := disagreeStep d (estimate clock d { h1 with fullDone := true, calFull := h1.calFull || h1.cal == 1 })
  (h2, 0xAE2 :: e)

/-- An empty anchor (R429). -/
def emptyAnchor (clock : Nat) (d : Hemd) (h : Hem) : Hem × List Nat :=
  let h1 := if d.li then { h with soc := ocvInv d (d.vc + dumpDrop d h.r0 h.r1 h) } else { h with q := 0 }
  disagreeStep d (estimate clock d h1)

/-! ### The sample (R421 to R424) -/

/-- The sense fault begun (R423, R446), with its events. -/
def beginFault (h : Hem) : Hem × List Nat :=
  if h.fault then (h, [])
  else
    let (h1, e) := calAbort 5 { h with fault := true, goodRun := 0, eg := 0 }
    (h1, 0xAEC :: e)

/-- Two steps that raise events, in order. -/
def andThen (f g : Hem → Hem × List Nat) (h : Hem) : Hem × List Nat :=
  let a := f h
  let b := g a.1
  (b.1, a.2 ++ b.2)

/-- A step taken when it is due. -/
def whenDue (c : Hem → Bool) (f : Hem → Hem × List Nat) (h : Hem) : Hem × List Nat := if c h then f h else (h, [])

/-- The rest age has passed 30 days (R435). -/
def staleDue (clock : Nat) (h : Hem) : Bool := !h.staleLearn && decide (2592000 < restAgeS clock h)

/-- STALE_LEARN set (R435). -/
def setStale (h : Hem) : Hem × List Nat := ({ h with staleLearn := true }, [0xAE6])

/-- JRN_WT_ENTER was observed during phase 2 (R446). -/
def wtAbortDue (h : Hem) : Bool := h.cal == 2 && h.calWt

/-- Phase 2 may start (R444, R445): the phase 1 rest point is taken, the ceiling that the cap first bounded has been latched, as the
next one written shows, and the cache is in write-back by its events. -/
def dischargeReady (h : Hem) : Bool := h.cal == 1 && h.calFrom.isSome && h.calCapAt.any (fun n => decide (n < h.stamp)) && !h.calWt

/-- Phase 2 begun: HU_DISCH asserted (R444). -/
def startDischarge (h : Hem) : Hem × List Nat := ({ h with cal := 2, calRef := false, disch := true }, [])

/-- Phase 2 ended: HU_DISCH released (R444). -/
def endDischarge (h : Hem) : Hem × List Nat := ({ h with cal := 3, calRef := false, disch := false }, [])

/-- HU_SHIP is to be asserted: JRN_CLEAN was observed after the request (R447). -/
def shipDue (h : Hem) : Bool := h.ship == 1 && h.cleanSeen

/-- HU_SHIP asserted (R447, R448). -/
def assertShip (h : Hem) : Hem × List Nat :=
  ({ h with ship := 2, shipPin := true, shipFell := false, open_ := none, eg := 0 }, [0xAEB])

/-- Whatever the latest sample made due and no event has carried out yet. -/
def settle (clock tick : Nat) (d : Hemd) (h : Hem) : Hem × List Nat :=
  andThen (whenDue (fun h => senseBad clock h) beginFault)
    (andThen (whenDue wtAbortDue (calAbort 2))
      (andThen (whenDue (fullDue d) (fullAnchor clock d))
        (andThen (whenDue (fun h => decide (10 ≤ h.emptyRun)) (emptyAnchor clock d))
          (andThen (whenDue restDue (takeRest clock tick d))
            (andThen (whenDue reanchorDue (reanchor clock d))
              (andThen (whenDue (staleDue clock) setStale)
                (andThen (whenDue dischargeReady startDischarge)
                  (andThen (whenDue (dischargeOver d) endDischarge) (whenDue shipDue assertShip))))))))) h

/-- The run counters of R423 after a sample, and the end of a sense fault. -/
def senseStep (v i t : BitVec 16) (h : Hem) : Hem :=
  let rail := if railCode v i then h.railRun + 1 else 0
  let good := if rail < 10 ∧ tempOk t then h.goodRun + 1 else 0
  { h with railRun := rail, goodRun := good, fault := h.fault && decide (good < 1000) }

/-- The 1 s interval after a sample: at its end the rest condition and condition 0x2 are judged (R430, R439). -/
def secondStep (d : Hemd) (h : Hem) : Hem :=
  let sec : Second := {
    n := h.second.n + 1, sumI := h.second.sumI + h.iraw.toInt, sumA := h.second.sumA + h.iraw.toInt.natAbs }
  if sec.n < 1000 then { h with second := sec }
  else
    let unit : Rat := 3125 / (d.shuntUohm : Rat) / 1000000
    let rest := absR ((sec.sumI : Rat) * unit) < icOf d h / 50
    failCycle (decide (icOf d h / 2 < (sec.sumA : Rat) * unit)) 2
      { h with
        second := { n := 0, sumI := 0, sumA := 0 }
        restSecs := if rest then h.restSecs + 1 else 0
        restDone := decide rest && h.restDone
        atRest := rest }

/-- The taper and empty conditions after a sample (R428, R429). -/
def anchorRuns (d : Hemd) (h : Hem) : Hem :=
  let i := h.amp d
  let taper := h.chg && decide (0 ≤ i) && decide (i < (d.taperMa : Rat) / 1000) && decide (98 / 100 * d.vf ≤ h.volt)
  { h with
    taperAt := if taper then some (h.taperAt.getD h.seq) else none
    fullDone := taper && h.fullDone
    emptyRun := if h.volt ≤ d.vc then h.emptyRun + 1 else 0 }

/-- A current step of the open cycle larger than I_C / 10 (R440). -/
def currentStep (d : Hemd) (h : Hem) : Hem :=
  let di := h.amp d - h.lastI
  let h1 := if d.li ∧ h.open_.isSome ∧ icOf d h / 10 < absR di then { h with steps := h.steps ++ [(h.volt - h.lastV) / di] }
    else h
  { h1 with lastI := h.amp d, lastV := h.volt }

/-- A sample processed with the running HEMD (R424, R425, R427, R431). `gap` is the time since the last sample. A condition of R439 that
fails at this sample aborts a calibration in phase 2 or 3 (R446). -/
def sampleStep (clock gap : Nat) (d : Hemd) (h : Hem) : Hem × List Nat :=
  let h1 := if h.sampled && decide (gap ≤ 100000000) then countStep d h else anchorVolt d h
  let h2 := currentStep d { h1 with counted := h1.counted + h1.amp d / 1000, sampled := true }
  let h3 := failCycle (decide (10000000000 < gap)) 3 (failCycle (!tempMild h.traw) 1 (secondStep d { h2 with bad := 0 }))
  let (h4, e4) := disagreeStep d (estimate clock d (anchorRuns d h3))
  let (h5, e5) := if (h4.cal = 2 ∨ h4.cal = 3) ∧ h4.bad ≠ 0 then calAbort 4 h4 else (h4, [])
  (failCycle (decide (h2.bad ≠ 0)) h2.bad h5, e4 ++ e5)

/-- The HEMD in force. -/
def hemdOf (s : State) : Option Hemd := s.image.map (·.hemd)

/-- A HEM step with its events raised. -/
def hemApply (f : Hem → Hem × List Nat) (s : State) : State :=
  (f s.hem).2.foldl (fun s e => raise e s) { s with hem := (f s.hem).1 }

/-- Whatever is due in the HEM carried out. -/
def settleHem (s : State) : State :=
  match hemdOf s with
  | none => s
  | some d => hemApply (settle s.clock s.drone.count d) s

/-- A sample taken in (R421): codes and run counters, and the estimates once an image gives HEMD. -/
def takeSample (v i t : BitVec 16) (s : State) : State :=
  let gap := s.clock - s.hem.sampleAt
  let h := senseStep v i t { s.hem with vraw := v, iraw := i, traw := t, seq := s.hem.seq + 1, sampleAt := s.clock }
  match hemdOf s with
  | none => { s with hem := h }
  | some d => hemApply (fun _ => sampleStep s.clock gap d h) s

/-- HEM_SAMPLE (R421): a 1 kHz sample. -/
def execHemSample (v i t : BitVec 16) (s : State) : Host.Outcome State Fault Refusal :=
  if mgmtUp s then .next (takeSample v i t (settleHem s)) else .next s

/-- A HEM event that happens when it is due: the step on the running HEMD, otherwise nothing. -/
def hemWhen (c : Hemd → Hem → Bool) (f : Hemd → Hem → Hem × List Nat) (s : State) : State :=
  match hemdOf s with
  | none => s
  | some d => if mgmtUp s && c d s.hem then hemApply (f d) s else s

/-- HEM_SENSE_FAULT (R423): a condition for a sense fault holds. -/
def execHemSenseFault (s : State) : Host.Outcome State Fault Refusal :=
  if mgmtUp s && senseBad s.clock s.hem && !s.hem.fault then .next (hemApply beginFault s) else .next s

/-- SAMPLE_GAP (R424): no sample for longer than 100 ms, so the count is set from the voltage at the next sample. -/
def execSampleGap (s : State) : Host.Outcome State Fault Refusal :=
  if mgmtUp s && decide (100000000 < s.clock - s.hem.sampleAt) then .next { s with hem := { s.hem with sampled := false } }
  else .next s

/-- HEM_FULL (R428). -/
def execHemFull (s : State) : Host.Outcome State Fault Refusal := .next (hemWhen fullDue (fullAnchor s.clock) s)

/-- EMPTY_ANCHOR (R429). -/
def execEmptyAnchor (s : State) : Host.Outcome State Fault Refusal :=
  .next (hemWhen (fun _ h => decide (10 ≤ h.emptyRun)) (emptyAnchor s.clock) s)

/-- HEM_REST (R430, R439, R444). -/
def execHemRest (s : State) : Host.Outcome State Fault Refusal :=
  .next (hemWhen (fun _ h => restDue h) (takeRest s.clock s.drone.count) s)

/-- REANCHOR (R433). -/
def execReanchor (s : State) : Host.Outcome State Fault Refusal :=
  .next (hemWhen (fun _ h => reanchorDue h) (reanchor s.clock) s)

/-- HEM_STALE_LEARN (R435). -/
def execHemStaleLearn (s : State) : Host.Outcome State Fault Refusal :=
  if mgmtUp s && staleDue s.clock s.hem then .next (hemApply setStale s) else .next s

/-! ### The ceiling (R342, R436) -/

/-- The latest E_g (R434, R436): as the last sample gave it, and zero at once in a sense fault or ship mode. -/
def latestEg (clock : Nat) (h : Hem) : Rat := if h.fault || senseBad clock h || inShip h then 0 else h.eg

/-- C of R342 with the caps of R436. -/
def ceilingOf (clock : Nat) (im : Image) (h : Hem) : Nat :=
  let eg := latestEg clock h
  if h.dumpPower = 0 ∨ eg ≤ (im.hemd.reserveJ : Rat) ∨ inShip h then 0
  else
    let c := ((im.cach.dumpRateMbs : Rat) * 1000000 *
      ((eg - (im.hemd.reserveJ : Rat)) / (h.dumpPower : Rat) - 150 / 1000)).floor.toNat
    if calRunning h then min c (h.calDirtyMax * 1048576) else c

/-- E_g is at or below HEMD.RESERVE_J (R436). -/
def hemLow (clock : Nat) (im : Image) (h : Hem) : Bool := decide (latestEg clock h ≤ (im.hemd.reserveJ : Rat))

/-- The stamp of the first ceiling that a calibration's cap bounds (R436, R445). -/
def capStamp (h : Hem) : Option Nat := if calRunning h && h.calCapAt.isNone then some (h.stamp + 1) else h.calCapAt

/-- DIRTY_CEILING_COMPUTE (R32, R436): the next value and stamp written, and HEM_LOW at the fall to the reserve. -/
def computeCeiling (s : State) : State :=
  match s.image with
  | none => { s with hem := { s.hem with ceil := 0, stamp := s.hem.stamp + 1 } }
  | some im =>
    let low := hemLow s.clock im s.hem
    raiseIf (low && !s.hem.low) 0xAED
      { s with hem := { s.hem with ceil := ceilingOf s.clock im s.hem, stamp := s.hem.stamp + 1, low := low, calCapAt := capStamp s.hem } }

/-! ### Calibration, charger and ship mode (R444 to R448) -/

/-- A calibration request (R444). -/
def requestCal (clock : Nat) (h : Hem) : Hem × List Nat :=
  if inShip h || h.fault || senseBad clock h || !h.chg || calRunning h then ({ h with calRef := true }, [0xAEA])
  else ({ h with cal := 1, calRef := false, calWhy := 0, calFull := false, calCapAt := none, calFrom := none }, [])

/-- CAL_REQ (R444). -/
def execCalReq (f : Nat) (s : State) : Host.Outcome State Fault Refusal :=
  if pfSeen s f then .next (hemApply (requestCal s.clock) s) else .next s

/-- CAL_ABORT (R446): the host aborts the calibration. -/
def execCalAbort (f : Nat) (s : State) : Host.Outcome State Fault Refusal :=
  if pfSeen s f then .next (hemApply (calAbort 1) s) else .next s

/-- CAL_DISCHARGE_START (R445). -/
def execCalDischargeStart (s : State) : Host.Outcome State Fault Refusal :=
  .next (hemWhen (fun _ h => dischargeReady h) (fun _ => startDischarge) s)

/-- CAL_DISCHARGE_END (R444). -/
def execCalDischargeEnd (s : State) : Host.Outcome State Fault Refusal :=
  .next (hemWhen dischargeOver (fun _ => endDischarge) s)

/-- Ship mode requested (R447). -/
def requestShip (h : Hem) : Hem := if h.ship = 0 then { h with ship := 1, cleanSeen := false, eg := 0 } else h

/-- SHIP_REQ (R447). -/
def execShipReq (f : Nat) (s : State) : Host.Outcome State Fault Refusal :=
  if pfSeen s f then .next { s with hem := requestShip s.hem } else .next s

/-- Ship mode left while HU_SHIP is not asserted (R447). -/
def cancelShip (h : Hem) : Hem := if h.ship = 1 then { h with ship := 0 } else h

/-- SHIP_CANCEL (R447). -/
def execShipCancel (f : Nat) (s : State) : Host.Outcome State Fault Refusal :=
  if pfSeen s f then .next { s with hem := cancelShip s.hem } else .next s

/-- HEM_SHIP (R447): JRN_CLEAN was observed after the request. -/
def execHemShip (s : State) : Host.Outcome State Fault Refusal :=
  if mgmtUp s && shipDue s.hem then .next (hemApply assertShip s) else .next s

/-- HU_SHIP released (R447, R448): the next sample sets count and filter, and the 30 % derating applies again. -/
def releaseShip (h : Hem) : Hem :=
  { h with ship := 0, shipPin := false, shipFell := false, sampled := false, fresh := false }

/-- HU_CHG_PRESENT changes (R439, R446, R447). -/
def chargerStep (level : Bool) (h : Hem) : Hem × List Nat :=
  if h.chg = level then (h, [])
  else
    let h1 := failCycle true 4 { h with chg := level, taperAt := if level then h.taperAt else none }
    let (h2, e) := calAbort 6 h1
    let h3 := if h2.ship = 2 then
        if level then (if h2.shipFell then releaseShip h2 else h2) else { h2 with shipFell := true }
      else h2
    (h3, 0xAEE :: e)

/-- HEM_CHG (R450): the level of HU_CHG_PRESENT changes. -/
def execHemChg (level : Bool) (s : State) : Host.Outcome State Fault Refusal :=
  if mgmtUp s then .next (hemApply (chargerStep level) s) else .next { s with hem := { s.hem with chg := level } }

/-! ### Records, images and registers (R438, R441, R442, R449) -/

/-- The learned state discarded for the defaults of an image (R438). -/
def hemDefaults (d : Hemd) (h : Hem) : Hem :=
  { h with
    bank := defaultBank d, r0 := 0, r1 := 0, tau := 0, sampled := false, restored := false, fresh := false, eg := 0
    learnedSrc := 0, everLearned := false, learnTotal := 0, open_ := none, bad := 0, steps := [] }

/-- The estimates and learned state survive a change of HEMD (R438). -/
def hemdSame (a b : Hemd) : Bool :=
  a.li == b.li && a.cutoffMv == b.cutoffMv && a.fullMv == b.fullMv && a.shuntUohm == b.shuntUohm

/-- An image enters RUNNING (R438): learned state kept or discarded, and HEM_CAL_DIRTY_MAX taken from HEMD. -/
def hemImage (old : Option Hemd) (d : Hemd) (h : Hem) : Hem :=
  let h1 := if old.any (hemdSame d) then h else hemDefaults d h
  { h1 with calDirtyMax := d.calDirtyMaxMib }

/-- The HEM state record (R441). -/
def hemRecord (clock : Nat) (d : Hemd) (h : Hem) : List Byte :=
  let scaled := fun (x : Rat) (k : Nat) => leBytes 4 (x * k).floor.toNat
  let body := ascii "HEMS" ++ leBytes 2 1 ++ leBytes 1 (if d.li then 1 else 0) ++ leBytes 1 (if h.everLearned then 1 else 0) ++
    scaled h.bank (if d.li then 1000 else 1000000) ++
    (if d.li then scaled h.r0 1000000 ++ scaled h.r1 1000000 ++ scaled h.tau 1000 else zeros 12) ++
    leBytes 4 (min 0xFFFFFFFF (restAgeS clock h)) ++ leBytes 4 h.learnTotal ++ zeros 28
  body ++ leBytes 4 (crc32c body).toNat

/-- The result of offering a record: 1 accepted, 2 to 5 the refusals of HEM_LEARN.RESTORE (R442). -/
def recordCheck (d : Hemd) (h : Hem) (r : List Byte) : Nat :=
  let bank : Rat := (field r 0x08 4 : Rat) / if d.li then 1000 else 1000000
  let r0 : Rat := (field r 0x0C 4 : Rat) / 1000000
  let r1 : Rat := (field r 0x10 4 : Rat) / 1000000
  if slice r 0 4 ≠ ascii "HEMS" ∨ field r 4 2 ≠ 1 ∨ field r 0x3C 4 ≠ (crc32c (slice r 0 0x3C)).toNat then 2
  else if field r 7 1 ≥ 2 ∨ slice r 0x20 28 ≠ zeros 28 then 5
  else if field r 6 1 ≠ (if d.li then 1 else 0) then 3
  else if capInRange d (capOf d bank r0 r1 h) then 1
  else 4

/-- A record offered to the HEM (R442, R443), with its event. -/
def offerRecord (clock : Nat) (d : Hemd) (r : List Byte) (h : Hem) : Hem × List Nat :=
  let c := recordCheck d h r
  if c ≠ 1 then ({ h with restoreRes := c }, [0xAE8])
  else
    ({ h with
      bank := (field r 0x08 4 : Rat) / if d.li then 1000 else 1000000
      r0 := if d.li then (field r 0x0C 4 : Rat) / 1000000 else 0
      r1 := if d.li then (field r 0x10 4 : Rat) / 1000000 else 0
      tau := if d.li then (field r 0x14 4 : Rat) / 1000 else 0
      restAge := field r 0x18 4
      restAt := clock
      learnTotal := field r 0x1C 4
      everLearned := field r 7 1 = 1
      restored := true
      fresh := true
      learnedSrc := 1
      restoreRes := 1 }, [0xAE7])

/-- A non-negative rational as a register field of n bits, rounded down, saturating. -/
def floorField (n : Nat) (x : Rat) : Nat := min (2 ^ n - 1) x.floor.toNat

/-- A HEM register as it reads, by offset in the block (R449). -/
def hemRead (s : State) (off : Nat) : Word :=
  let h := s.hem
  if off = 0x00 then putB (1 ≤ calShown h ∧ calShown h ≤ 3) 0 ||| putB (h.ship ≠ 0) 2
  else if off = 0x08 then
    putB ((hemdOf s).any (·.li)) 0 ||| putB h.restored 1 ||| putB h.disagree 2 ||| putB h.staleLearn 3 ||| putB h.fault 4 |||
      putB h.atRest 5 ||| putB h.chg 6 ||| putB h.disch 7 ||| put (calShown h) 8 ||| put h.ship 11 ||| put h.calWhy 16
  else if off = 0x10 then put h.dumpPower 0
  else if off = 0x18 then put h.calDirtyMax 0
  else if off = 0x20 then put h.vdiv 0
  else if off = 0x28 then put h.vraw.toNat 0 ||| put h.iraw.toNat 16 ||| put h.traw.toNat 32 ||| put (h.seq % 65536) 48
  else if off = 0x30 then put (floorField 20 h.eg) 0 ||| put (floorField 20 h.eq) 20 ||| put (floorField 20 h.ev) 40
  else if off = 0x38 then
    put (match hemdOf s with
      | none => 0
      | some d => if ecap d h = 0 then 0 else floorField 7 (100 * h.eg / ecap d h)) 0 |||
      put (floorField 10 (derate s.clock h * 1000)) 16 ||| put (min 0xFFFFFFFF (restAgeS s.clock h)) 32
  else if off = 0x40 then put (min (2 ^ 48 - 1) h.ceil) 0 ||| put (h.stamp % 65536) 48
  else if off = 0x48 then
    put (match hemdOf s with
      | none => 0
      | some d => floorField 20 (ecap d h)) 0 ||| put h.learnedSrc 20 ||| put h.learnCnt 24 ||| put h.reject 32 |||
      put h.restoreRes 36
  else 0

end Sys2Proof.Machine
end

