-- ==== Sys2Proof/Machine/Crypto.lean ====
section
/-! DEFINITION. SHA-384 and ECDSA over P-384 as FIPS 180-4 and FIPS 186 define them (PRESUMED, log entry 6: the spec
names the standards and gives no constants), and the signature block check of R68. -/

namespace Sys2Proof.Machine

open Sys2Proof

/-! ### SHA-384 -/

/-- The first n primes found among the numbers from c on, trying at most `fuel` numbers. -/
def primesFrom : Nat → Nat → Nat → List Nat → List Nat
  | 0, _, _, acc => acc
  | fuel + 1, n, c, acc =>
    if acc.length = n then acc
    else if acc.any fun p => c % p == 0 then primesFrom fuel n (c + 1) acc
    else primesFrom fuel n (c + 1) (acc ++ [c])

/-- The integer r-th root of v by bits from 2^(k-1) down. -/
def iroot (r v : Nat) : Nat → Nat → Nat
  | 0, acc => acc
  | k + 1, acc => if (acc + 2 ^ k) ^ r ≤ v then iroot r v k (acc + 2 ^ k) else iroot r v k acc

/-- The first 64 bits of the fractional part of the cube root of p. -/
def cubeFrac (p : Nat) : Word := BitVec.ofNat 64 (iroot 3 (p * 2 ^ 192) 72 0)

/-- The first 64 bits of the fractional part of the square root of p. -/
def sqrtFrac (p : Nat) : Word := BitVec.ofNat 64 (iroot 2 (p * 2 ^ 128) 72 0)

/-- The first 80 primes. -/
def primes80 : List Nat := primesFrom 420 80 2 []

/-- The round constants. -/
def shaK : List Word := primes80.map cubeFrac

/-- The eight working words. -/
structure Sha where
  a : Word
  b : Word
  c : Word
  d : Word
  e : Word
  f : Word
  g : Word
  h : Word
deriving DecidableEq, Repr

/-- The i-th initial word of SHA-384: the square root of the prime after the eight first. -/
def shaInitWord (i : Nat) : Word := sqrtFrac (nth 0 primes80 (8 + i))

/-- The initial hash of SHA-384. -/
def shaInit : Sha where
  a := shaInitWord 0
  b := shaInitWord 1
  c := shaInitWord 2
  d := shaInitWord 3
  e := shaInitWord 4
  f := shaInitWord 5
  g := shaInitWord 6
  h := shaInitWord 7

/-- Word by word addition. -/
def Sha.add (x y : Sha) : Sha where
  a := x.a + y.a
  b := x.b + y.b
  c := x.c + y.c
  d := x.d + y.d
  e := x.e + y.e
  f := x.f + y.f
  g := x.g + y.g
  h := x.h + y.h

/-- The digest bytes of SHA-384: six of the eight words. -/
def Sha.digest (x : Sha) : List Byte :=
  [x.a, x.b, x.c, x.d, x.e, x.f].flatMap fun w => (leBytes 8 w.toNat).reverse

/-- Rotation right. -/
def rotr (w : Word) (n : Nat) : Word := (w >>> n) ||| (w <<< (64 - n))

/-- The message schedule: n words from a window of sixteen. -/
def shaSchedule : Nat → List Word → List Word
  | n + 1, [w0, w1, w2, w3, w4, w5, w6, w7, w8, w9, w10, w11, w12, w13, w14, w15] =>
    w0 :: shaSchedule n [w1, w2, w3, w4, w5, w6, w7, w8, w9, w10, w11, w12, w13, w14, w15,
      w0 + (rotr w1 1 ^^^ rotr w1 8 ^^^ (w1 >>> 7)) + w9 + (rotr w14 19 ^^^ rotr w14 61 ^^^ (w14 >>> 6))]
  | _, _ => []

/-- The rounds, one for each constant and schedule word. -/
def shaRounds : List Word → List Word → Sha → Sha
  | k :: ks, w :: ws, ⟨a, b, c, d, e, f, g, h⟩ =>
    let t1 := h + (rotr e 14 ^^^ rotr e 18 ^^^ rotr e 41) + ((e &&& f) ^^^ (~~~ e &&& g)) + k + w
    let t2 := (rotr a 28 ^^^ rotr a 34 ^^^ rotr a 39) + ((a &&& b) ^^^ (a &&& c) ^^^ (b &&& c))
    shaRounds ks ws ⟨t1 + t2, a, b, c, d + t1, e, f, g⟩
  | _, _, h => h

/-- Big-endian 64-bit words of a byte string, n of them. -/
def beWords : Nat → List Byte → List Word
  | 0, _ => []
  | n + 1, bs => BitVec.ofNat 64 (beNat (bs.take 8)) :: beWords n (bs.drop 8)

/-- One block of 128 bytes. -/
def shaBlock (ks : List Word) (h : Sha) (blk : List Byte) : Sha :=
  h.add (shaRounds ks (shaSchedule 80 (beWords 16 blk)) h)

/-- n blocks. -/
def shaBlocks (ks : List Word) : Nat → Sha → List Byte → Sha
  | 0, h, _ => h
  | n + 1, h, bs => shaBlocks ks n (shaBlock ks h (bs.take 128)) (bs.drop 128)

/-- A message padded to whole blocks. -/
def shaPad (bs : List Byte) : List Byte :=
  let l := bs.length
  let z := (239 - l % 128) % 128
  bs ++ [0x80] ++ zeros z ++ (leBytes 16 (8 * l)).reverse

/-- The SHA-384 digest of a byte string, 48 bytes. -/
def sha384 (bs : List Byte) : List Byte :=
  (shaBlocks shaK ((shaPad bs).length / 128) shaInit (shaPad bs)).digest

/-! ### P-384 -/

/-- The field prime of P-384. -/
def p384 : Nat := 2 ^ 384 - 2 ^ 128 - 2 ^ 96 + 2 ^ 32 - 1

/-- The order of the base point. -/
def n384 : Nat := 0xffffffffffffffffffffffffffffffffffffffffffffffffc7634d81f4372ddf581a0db248b0a77aecec196accc52973

/-- The curve coefficient b (a is −3). -/
def b384 : Nat := 0xb3312fa7e23ee7e4988e056be3f82d19181d9c6efe8141120314088f5013875ac656398d8a2ed19d2a85c8edd3ec2aef

/-- The base point. -/
def g384 : Nat × Nat :=
  (0xaa87ca22be8b05378eb1c71ef320ad746e1d3b628ba79b9859f741e082542a385502f25dbf55296c3a545e3872760ab7,
   0x3617de4a96262c6f5d9e98bf9292dc29f8f41dbd289a147ce9da3113b5f0b8c00a60b1ce1d7e819d7a431d7c90ea0e5f)

/-- a^e mod m over the low k bits of e. -/
def powMod (m : Nat) : Nat → Nat → Nat → Nat
  | 0, _, _ => 1 % m
  | k + 1, a, e =>
    let h := powMod m k (a * a % m) (e / 2)
    if e % 2 = 1 then a * h % m else h

/-- The inverse modulo a prime. -/
def invMod (m a : Nat) : Nat := powMod m 384 (a % m) (m - 2)

/-- Subtraction modulo m. -/
def subMod (m a b : Nat) : Nat := (a % m + (m - b % m)) % m

/-- A point in Jacobian coordinates; Z = 0 is the point at infinity. -/
abbrev JPoint := Nat × Nat × Nat

/-- Doubling (a = −3). -/
def jDouble (q : JPoint) : JPoint :=
  let (x, y, z) := q
  let p := p384
  if z = 0 ∨ y = 0 then (1, 1, 0) else
  let z2 := z * z % p
  let m := 3 * (subMod p x z2) % p * ((x + z2) % p) % p
  let y2 := y * y % p
  let s := 4 * x % p * y2 % p
  let x3 := subMod p (m * m % p) (2 * s)
  (x3, subMod p (m * subMod p s x3 % p) (8 * (y2 * y2 % p)), 2 * y % p * z % p)

/-- Addition. -/
def jAdd (q r : JPoint) : JPoint :=
  let (x1, y1, z1) := q
  let (x2, y2, z2) := r
  let p := p384
  if z1 = 0 then r else if z2 = 0 then q else
  let a := z1 * z1 % p
  let b := z2 * z2 % p
  let u1 := x1 * b % p
  let u2 := x2 * a % p
  let s1 := y1 * z2 % p * b % p
  let s2 := y2 * z1 % p * a % p
  if u1 = u2 then (if s1 = s2 then jDouble q else (1, 1, 0)) else
  let h := subMod p u2 u1
  let w := subMod p s2 s1
  let h2 := h * h % p
  let h3 := h2 * h % p
  let v := u1 * h2 % p
  let x3 := subMod p (w * w % p) (h3 + 2 * v)
  (x3, subMod p (w * subMod p v x3 % p) (s1 * h3), h * z1 % p * z2 % p)

/-- k times a point over the low n bits of k. -/
def jMul : Nat → Nat → JPoint → JPoint
  | 0, _, _ => (1, 1, 0)
  | n + 1, k, q =>
    let h := jMul n (k / 2) (jDouble q)
    if k % 2 = 1 then jAdd q h else h

/-- The affine x coordinate of a point not at infinity. -/
def jX (q : JPoint) : Nat :=
  let zi := invMod p384 q.2.2
  q.1 * (zi * zi % p384) % p384

/-- The affine point lies on P-384. -/
def onCurve (x y : Nat) : Bool :=
  decide (x < p384) && decide (y < p384) &&
    decide (y * y % p384 = subMod p384 ((x * x % p384 * x + b384) % p384) (3 * x))

/-- ECDSA verification of (r, s) over a digest with public key (x, y). -/
def ecdsaOk (digest : List Byte) (r s x y : Nat) : Bool :=
  if r = 0 ∨ n384 ≤ r ∨ s = 0 ∨ n384 ≤ s ∨ onCurve x y = false then false else
  let w := invMod n384 s
  let e := beNat digest
  let q := jAdd (jMul 384 (e % n384 * w % n384) (g384.1, g384.2, 1)) (jMul 384 (r * w % n384) (x, y, 1))
  if q.2.2 = 0 then false else decide (jX q % n384 = r)

/-! ### The signature block (R67, R68) -/

/-- What the three checks of R68 say of a signature block: accepted, or the reason of the first that fails. -/
inductive SignCheck where
  | ok | badSlot | badKey | badSignature
deriving DecidableEq, Repr

/-- The checks of R68, in order, of a signature block (240 bytes, header included) over the covered bytes, against
slots of the wanted use. -/
def checkSign (keys : List KeySlot) (image : Bool) (covered block : List Byte) : SignCheck :=
  match keys[field block 0x10 1]? with
  | none => .badSlot
  | some k =>
    if k.state ≠ .programmed ∨ k.image ≠ image then .badSlot
    else if sha384 (slice block 0x80 97) ≠ k.hash then .badKey
    else if field block 0x80 1 = 4 ∧
        ecdsaOk (sha384 covered) (beNat (slice block 0x20 48)) (beNat (slice block 0x50 48))
          (beNat (slice block 0x81 48)) (beNat (slice block 0xB1 48)) then .ok
    else .badSignature

end Sys2Proof.Machine
end

