-- ==== Sys2Proof/Machine/ImageCheck.lean ====
section
/-! DEFINITION. The loader's checks of a structure image (R43 to R68, R70, R572): every check in the order in which the
loader makes it, the refusal it reports, and the image read from bytes that passed. -/

namespace Sys2Proof.Machine

open Sys2Proof

/-! ### Checks -/

/-- One check: the section and offset it reports, the bytes it needs (up to `need`), the reason, and whether it fails. -/
structure Check where
  sec    : Nat
  pos    : Nat
  need   : Nat
  reason : Nat
  bad    : Bool
deriving DecidableEq, Repr

/-- What the loader reports of a refused image: reason, section, offset (R69, R70). -/
structure ImgRefusal where
  reason : Nat
  sec    : Nat
  pos    : Nat
deriving DecidableEq, Repr

/-- A check on `n` bytes at `off` of the section that begins at `base`. -/
def chk (sec base off n reason : Nat) (bad : Bool) : Check :=
  { sec := sec, pos := base + off, need := base + off + n, reason := reason, bad := bad }

/-- A field of n bytes in its range (0x0C). -/
def rangeChk (sec base : Nat) (b : List Byte) (off n lo hi : Nat) : Check :=
  chk sec base off n 0x0C (field b off n < lo || hi < field b off n)

/-- Reserved bytes are zero (0x08, R46), each its own check. -/
def zeroChk (sec base : Nat) (b : List Byte) (off n : Nat) : List Check :=
  (List.range n).map fun i => chk sec base (off + i) 1 0x08 (field b (off + i) 1 != 0)

/-- Reserved bits of a byte are zero (0x08, R46). -/
def bitsChk (sec base : Nat) (b : List Byte) (off mask : Nat) : Check :=
  chk sec base off 1 0x08 (field b off 1 &&& mask != 0)

/-- The tags of R43 in the order of their index. -/
def sectionTags : List String :=
  ["HEAD", "GEOM", "PART", "RING", "CODE", "PLAC", "CACH", "EVNT", "PAIR", "HEMD", "TRIA", "SIGN"]

/-- The lengths of R43; CODE has its own. -/
def sectionLens (code : Nat) : List Nat := [64, 176, 48, 2064, code, 32, 32, 16400, 48, 112, 32, 240]

/-- The image offset at which a section begins, given CODE's length. -/
def sectionBase (code i : Nat) : Nat := sumBy id ((sectionLens code).take i)

/-- LENGTH is wrong for its section, not a multiple of 16, or passes IMG_LEN (R44, R572). -/
def lengthBad (sec base len imgLen : Nat) : Bool :=
  len % 16 != 0 || (sec != 4 && len != nth 0 (sectionLens 0) sec) || (sec == 4 && decide (len < 32)) ||
    (sec != 0 && decide (imgLen < base + len))

/-- The checks of a section header (R44). -/
def headerChk (sec base imgLen : Nat) (b : List Byte) : List Check :=
  let len := field b 4 4
  [ chk sec base 0 4 (if sec = 0 then 0x01 else 0x05) (slice b 0 4 != ascii (nth "" sectionTags sec)),
    chk sec base 4 4 0x06 (lengthBad sec base len imgLen),
    chk sec base 4 4 0x04 (sec == 11 && decide (base + len < imgLen)),
    chk sec base 8 2 0x07 (field b 8 2 != 1),
    chk sec base 10 2 0x07 (field b 10 2 != 0) ] ++ zeroChk sec base b 12 4

/-! ### Sections -/

/-- HEAD (R48). -/
def headChk (b : List Byte) : List Check :=
  let len := field b 0x18 4
  [ chk 0 0 0x10 4 0x01 (slice b 0x10 4 != ascii "NURN"),
    chk 0 0 0x14 2 0x02 (field b 0x14 2 != 1),
    chk 0 0 0x16 1 0x03 (field b 0x16 1 != 0x11) ] ++ zeroChk 0 0 b 0x17 1 ++
  [ chk 0 0 0x18 4 0x04 (decide (4194304 < len)),
    { sec := 0, pos := 4, need := 0x1C, reason := 0x06, bad := decide (len < 64) } ] ++ zeroChk 0 0 b 0x1C 4 ++
  [ chk 0 0 0x20 8 0x0C (field b 0x20 8 == 0) ] ++ zeroChk 0 0 b 0x30 16

/-- The SLOT_WIRE entries named so far: clusters and banks. -/
def wireUnion (b : List Byte) : Nat × Nat :=
  (List.range 16).foldl (fun a i => (a.1 ||| field b (0x28 + 8 * i) 2 % 4096, a.2 ||| field b (0x2C + 8 * i) 4)) (0, 0)

/-- One SLOT_WIRE entry (R49, R50, R572). -/
def wireChk (base : Nat) (b : List Byte) (i : Nat) : List Check :=
  let o := 0x28 + 8 * i
  [ chk 1 base o 2 0x0D (field b o 2 % 4096 == 0),
    chk 1 base o 2 0x0D (i == 15 && (wireUnion b).1 != 4095),
    bitsChk 1 base b (o + 1) 0xF0 ] ++ zeroChk 1 base b (o + 2) 2 ++
  [ chk 1 base (o + 4) 4 0x0D (field b (o + 4) 4 == 0),
    chk 1 base (o + 4) 4 0x0D (i == 15 && (wireUnion b).2 != 0xFFFFFFFF) ]

/-- GEOM (R49, R50). -/
def geomChk (base : Nat) (b : List Byte) : List Check :=
  rangeChk 1 base b 0x10 1 0 3 :: zeroChk 1 base b 0x11 3 ++
  [ rangeChk 1 base b 0x14 4 64 1048576, rangeChk 1 base b 0x18 4 60 31536000, rangeChk 1 base b 0x1C 4 500 30000,
    rangeChk 1 base b 0x20 4 24 8760 ] ++ zeroChk 1 base b 0x24 4 ++
  (List.range 16).flatMap (wireChk base b) ++ zeroChk 1 base b 0xA8 8

/-- The sum of 2-byte fields. -/
def sumFields (b : List Byte) (offs : List Nat) : Nat := sumBy (fun o => field b o 2) offs

/-- PART (R35, R37, R51). -/
def partChk (base : Nat) (b : List Byte) : List Check :=
  [ rangeChk 2 base b 0x10 2 48 104, rangeChk 2 base b 0x12 2 4 16, rangeChk 2 base b 0x14 2 4 4,
    rangeChk 2 base b 0x16 2 4 4, rangeChk 2 base b 0x18 2 8 32, rangeChk 2 base b 0x1A 2 16 32,
    chk 2 base 0x1A 2 0x0C (field b 0x1A 2 % 4 != 0),
    rangeChk 2 base b 0x1C 2 8 8,
    chk 2 base 0x1C 2 0x0D (sumFields b [0x10, 0x12, 0x14, 0x16, 0x18, 0x1A, 0x1C] != 160) ] ++ zeroChk 2 base b 0x1E 2 ++
  [ rangeChk 2 base b 0x20 2 32 172, rangeChk 2 base b 0x22 2 4 16, rangeChk 2 base b 0x24 2 8 32,
    rangeChk 2 base b 0x26 2 8 8,
    chk 2 base 0x26 2 0x0D (sumFields b [0x20, 0x22, 0x24, 0x26] != 192) ] ++ zeroChk 2 base b 0x28 8

/-- The RING entries from entry f on (R52, R53, R572): `b` begins at the entry, `seen` are the earlier group ranges,
`sum` the caravanserai shares so far. -/
def ringChk (base : Nat) : Nat → Nat → List (Nat × Nat) → Nat → List Byte → List Check
  | 0, _, _, _, _ => []
  | n + 1, f, seen, sum, b =>
    let o := 0x10 + 8 * f
    let first := field b 0 2
    let groups := field b 2 2
    let share := field b 4 2
    let vecs := field b 6 2
    let clash := seen.any fun r => decide (first < r.1 + r.2) && decide (r.1 < first + groups)
    [ chk 3 base o 2 0x0C (decide (1023 < first)),
      chk 3 base (o + 2) 2 0x0D (groups != 0 && (decide (1024 < first + groups) || clash)),
      chk 3 base (o + 2) 2 0x0D ((f == 0 || f == 128) && groups == 0),
      chk 3 base (o + 4) 2 0x0D (groups != 0 && share == 0),
      chk 3 base (o + 4) 2 0x0D (decide (sum ≤ 8192) && decide (8192 < sum + share)),
      chk 3 base (o + 6) 2 0x0C (decide (2048 < vecs)),
      chk 3 base (o + 6) 2 0x0D (groups != 0 && vecs == 0) ] ++
      ringChk base n (f + 1) (if groups = 0 then seen else (first, groups) :: seen) (sum + share) (b.drop 8)

/-- The length a family record must have (R54). -/
def recLen (kind kMax mMax : Nat) : Nat := (16 + mMax * kMax + (if kind = 3 then kMax else 0) + 15) / 16 * 16

/-- A family record read from its bytes (R54). -/
def parseFamily (b : List Byte) : Family :=
  let kMax := field b 2 1
  let mMax := field b 3 1
  { id := field b 0 1
    kind := field b 1 1
    kMax := kMax
    mMax := mMax
    stripMask := BitVec.ofNat 16 (field b 4 2)
    localGroups := field b 6 1
    matrix := slice b 0x10 (mMax * kMax)
    groupMap := if field b 1 1 = 3 then (slice b (0x10 + mMax * kMax) kMax).map (·.toNat) else [] }

/-- A local-parity row has a nonzero coefficient of data strip j outside the row's group (R55). -/
def strayCoeff (fam : Family) (j : Nat) : Bool :=
  (List.range fam.localGroups).any fun g => g != nth 0 fam.groupMap j && nth 0 fam.matrix (fam.kMax * g + j) != 0

/-- The fixed part of a family record at image offset `o` (R54, R55, R572): `stop` is where CODE ends, `last` says that
no record follows, `ids` are the identities before it. -/
def famHeadChk (o stop : Nat) (last : Bool) (ids : List Nat) (b : List Byte) : List Check :=
  let kind := field b 1 1
  let kMax := field b 2 1
  let mMax := field b 3 1
  let len := field b 0xA 2
  [ chk 4 o 0 1 0x0C (decide (15 < field b 0 1)),
    chk 4 o 0 1 0x0D (ids.contains (field b 0 1)),
    rangeChk 4 o b 1 1 1 5, rangeChk 4 o b 2 1 1 24,
    chk 4 o 2 1 0x0D (kind == 5 && kMax != 1),
    rangeChk 4 o b 3 1 1 8,
    chk 4 o 3 1 0x0D ((kind == 4 && mMax != 1) || (kind == 5 && decide (2 < mMax))),
    chk 4 o 4 2 0x0C (field b 4 2 == 0),
    bitsChk 4 o b 4 0x80, bitsChk 4 o b 5 0xFF,
    rangeChk 4 o b 6 1 (if kind = 3 then 1 else 0) (if kind = 3 then 4 else 0) ] ++ zeroChk 4 o b 7 1 ++
  [ chk 4 o 8 2 0x0C (field b 8 2 != 0x11D),
    chk 4 o 0xA 2 0x0C (len != recLen kind kMax mMax),
    chk 4 o 0xA 2 0x06 (decide (stop < o + len) || (last && o + len != stop)) ] ++ zeroChk 4 o b 0xC 4

/-- The rest of a family record (R54 to R56, R572): matrix, group map, padding, and the recoverability conditions,
reported at FAMILY_ID. -/
def famBodyChk (o : Nat) (b : List Byte) : List Check :=
  let fam := parseFamily b
  let n := fam.mMax * fam.kMax
  let len := recLen fam.kind fam.kMax fam.mMax
  let used := 16 + n + fam.groupMap.length
  ((List.range n).map fun i => chk 4 o (0x10 + i) 1 0x0D ((fam.kind == 4 || fam.kind == 5) && nth 0 fam.matrix i != 1)) ++
  ((List.range fam.groupMap.length).flatMap fun j =>
    [ chk 4 o (0x10 + n + j) 1 0x0C (decide (fam.localGroups ≤ nth 0 fam.groupMap j)),
      chk 4 o (0x10 + n + j) 1 0x0D (strayCoeff fam j) ]) ++
  zeroChk 4 o b used (len - used) ++
  [ { sec := 4, pos := o, need := o + len, reason := 0x0E, bad := !familyOk fam } ]

/-- The first check that fails of a list, when a transfer of `written` bytes (none: a flash copy) is read: a check that
needs a byte beyond it fails first with reason 0x14 (R70). `code` is CODE's length for the section of that offset. -/
def firstBad (written : Option Nat) (secOf : Nat → Nat) : List Check → Option ImgRefusal
  | [] => none
  | c :: r =>
    match written with
    | none => if c.bad then some { reason := c.reason, sec := c.sec, pos := c.pos } else firstBad written secOf r
    | some w =>
      if w < c.need then some { reason := 0x14, sec := secOf w, pos := w }
      else if c.bad then some { reason := c.reason, sec := c.sec, pos := c.pos }
      else firstBad written secOf r

/-- The family records from the one at image offset `o` on: the first refusal (R54 to R56). Each record is read only
after the one before it has passed. -/
def famRun (written : Option Nat) (secOf : Nat → Nat) (stop : Nat) : Nat → Nat → List Nat → List Byte → Option ImgRefusal
  | 0, _, _, _ => none
  | n + 1, o, ids, b =>
    match firstBad written secOf (famHeadChk o stop (n == 0) ids b) with
    | some e => some e
    | none =>
      match firstBad written secOf (famBodyChk o b) with
      | some e => some e
      | none =>
        let len := field b 0xA 2
        famRun written secOf stop n (o + len) (field b 0 1 :: ids) (b.drop len)

/-- PLAC (R57, R58). -/
def placChk (base : Nat) (b : List Byte) : List Check :=
  [ rangeChk 5 base b 0x10 2 0 1000, rangeChk 5 base b 0x12 2 0 1000, rangeChk 5 base b 0x14 2 0 1000,
    rangeChk 5 base b 0x16 2 0 1000,
    chk 5 base 0x16 2 0x0D (sumFields b [0x10, 0x12, 0x14, 0x16] == 0),
    rangeChk 5 base b 0x18 1 1 3 ] ++ zeroChk 5 base b 0x19 1 ++
  [ rangeChk 5 base b 0x1A 2 0 250, chk 5 base 0x1C 4 0x0C false ]

/-- CACH (R59). -/
def cachChk (base : Nat) (b : List Byte) : List Check :=
  [ rangeChk 6 base b 0x10 4 10000 370000, rangeChk 6 base b 0x16 1 5 95,
    rangeChk 6 base b 0x17 1 (field b 0x16 1 + 1) 99 ] ++ zeroChk 6 base b 0x18 8

/-- The EVNT entries from entry e on (R60, R61, R572); `ring` are the RING bytes from their first entry, `b` begins at
the entry. -/
def evntChk (base : Nat) (ring : List Byte) : Nat → Nat → List Byte → List Check
  | 0, _, _ => []
  | n + 1, e, b =>
    let o := 0x10 + 4 * e
    let v := field b 0 4
    let f := v % 256
    let vec := v / 256 % 2048
    let msix := v / 524288 % 2 == 1
    { sec := 7, pos := base + o, need := base + o + 3, reason := 0x0D, bad := msix && field ring (8 * f + 2) 2 == 0 } ::
    { sec := 7, pos := base + o + 1, need := base + o + 3, reason := 0x0D,
      bad := msix && decide (field ring (8 * f + 6) 2 ≤ vec) } ::
    chk 7 base (o + 3) 1 0x08 (v / 16777216 != 0) :: evntChk base ring n (e + 1) (b.drop 4)

/-- POST_SLOT i (R62, R572). -/
def postChk (base : Nat) (b : List Byte) (i : Nat) : List Check :=
  let n := field b 0x12 1
  let v := field b (0x14 + 2 * i) 2
  [ chk 8 base (0x14 + 2 * i) 2 0x0C (decide (i < n) && decide (383 < v)),
    chk 8 base (0x14 + 2 * i) 2 0x0D (decide (i < n) && (List.range i).any fun j => field b (0x14 + 2 * j) 2 == v),
    chk 8 base (0x14 + 2 * i) 2 0x0D (decide (n ≤ i) && v != 0xFFFF) ]

/-- PAIR (R62). -/
def pairChk (base : Nat) (b : List Byte) : List Check :=
  let en := field b 0x10 1
  let n := field b 0x12 1
  [ rangeChk 8 base b 0x10 1 0 1, rangeChk 8 base b 0x11 1 0 1,
    chk 8 base 0x12 1 0x0D (if en = 1 then n != 3 && n != 5 && n != 7 else n != 0) ] ++ zeroChk 8 base b 0x13 1 ++
  (List.range 7).flatMap (postChk base b) ++ zeroChk 8 base b 0x22 6 ++
  [ chk 8 base 0x28 8 0x0D (en == 1 && field b 0x28 8 == 0) ]

/-- OCV entry i of HEMD (R63, R572). -/
def ocvChk (base : Nat) (b : List Byte) (i : Nat) : Check :=
  let v := field b (0x30 + 2 * i) 2
  let li := field b 0x10 1 == 1
  chk 9 base (0x30 + 2 * i) 2 0x0D
    (if li then decide (0 < i) && decide (v ≤ field b (0x30 + 2 * (i - 1)) 2) else v != 0)

/-- HEMD (R63). -/
def hemdChk (base : Nat) (b : List Byte) : List Check :=
  rangeChk 9 base b 0x10 1 0 1 :: zeroChk 9 base b 0x11 1 ++
  [ chk 9 base 0x12 2 0x0C false,
    chk 9 base 0x14 2 0x0D (decide (field b 0x14 2 ≤ field b 0x12 2)),
    rangeChk 9 base b 0x16 2 1 3600,
    chk 9 base 0x18 4 0x0C (field b 0x18 4 == 0),
    chk 9 base 0x1C 4 0x0D (decide (field b 0x18 4 ≤ field b 0x1C 4)),
    chk 9 base 0x20 4 0x0C (field b 0x20 4 == 0),
    chk 9 base 0x24 4 0x0C (field b 0x24 4 == 0),
    chk 9 base 0x28 4 0x0C false ] ++ zeroChk 9 base b 0x2C 4 ++ (List.range 32).map (ocvChk base b)

/-- TRIA (R64, R66). -/
def triaChk (base : Nat) (b : List Byte) : List Check :=
  bitsChk 10 base b 0x10 0xF8 :: zeroChk 10 base b 0x11 3 ++
  [ chk 10 base 0x14 2 0x0D ((field b 0x14 2 % 4096 == 0) == (field b 0x10 1 / 2 % 2 == 1)),
    bitsChk 10 base b 0x15 0xF0 ] ++ zeroChk 10 base b 0x16 10

/-- SIGN up to the signature checks (R67). -/
def signChk (base : Nat) (b : List Byte) : List Check :=
  rangeChk 11 base b 0x10 1 0 3 :: zeroChk 11 base b 0x11 15 ++ zeroChk 11 base b 0xE1 15

/-- The three signature checks of R68, made once every structural check has passed. -/
def signatureRefusal (keys : List KeySlot) (base : Nat) (bs : List Byte) : Option ImgRefusal :=
  match checkSign keys true (bs.take base) (bs.drop base) with
  | .ok => none
  | .badSlot => some { reason := 0x0A, sec := 11, pos := base + 0x10 }
  | .badKey => some { reason := 0x0B, sec := 11, pos := base + 0x80 }
  | .badSignature => some { reason := 0x09, sec := 11, pos := base + 0x20 }

/-- The section that holds an offset of a transfer, by the lengths read so far (R70). -/
def sectionOf (code w : Nat) : Nat := ((List.range 12).filter fun i => i != 0 && decide (sectionBase code i ≤ w)).length

/-- The checks of the sections before CODE. -/
def checksBefore (bs : List Byte) : List Check :=
  let imgLen := field bs 0x18 4
  let at_ := fun i => bs.drop (sectionBase 0 i)
  headerChk 0 0 imgLen bs ++ headChk bs ++
    headerChk 1 64 imgLen (at_ 1) ++ geomChk 64 (at_ 1) ++
    headerChk 2 240 imgLen (at_ 2) ++ partChk 240 (at_ 2) ++
    headerChk 3 288 imgLen (at_ 3) ++ ringChk 288 256 0 [] 0 ((at_ 3).drop 16)

/-- The checks of CODE up to its records. -/
def codeChk (bs : List Byte) : List Check :=
  let b := bs.drop 2352
  headerChk 4 2352 (field bs 0x18 4) b ++ rangeChk 4 2352 b 0x10 1 1 16 :: zeroChk 4 2352 b 0x11 15

/-- The checks of the sections after CODE, whose length is `code`. -/
def checksAfter (code : Nat) (bs : List Byte) : List Check :=
  let imgLen := field bs 0x18 4
  let base := sectionBase code
  let at_ := fun i => bs.drop (base i)
  headerChk 5 (base 5) imgLen (at_ 5) ++ placChk (base 5) (at_ 5) ++
    headerChk 6 (base 6) imgLen (at_ 6) ++ cachChk (base 6) (at_ 6) ++
    headerChk 7 (base 7) imgLen (at_ 7) ++ evntChk (base 7) ((bs.drop 288).drop 16) 4096 0 ((at_ 7).drop 16) ++
    headerChk 8 (base 8) imgLen (at_ 8) ++ pairChk (base 8) (at_ 8) ++
    headerChk 9 (base 9) imgLen (at_ 9) ++ hemdChk (base 9) (at_ 9) ++
    headerChk 10 (base 10) imgLen (at_ 10) ++ triaChk (base 10) (at_ 10) ++
    headerChk 11 (base 11) imgLen (at_ 11) ++ signChk (base 11) (at_ 11)

/-- The structural checks in the order of R70: the first refusal. -/
def structureRefusal (written : Option Nat) (bs : List Byte) : Option ImgRefusal :=
  let code := field bs (2352 + 4) 4
  let early := fun w => if w < 2352 + 8 then sectionOf 4194304 w else sectionOf code w
  match firstBad written early (checksBefore bs) with
  | some e => some e
  | none =>
    match firstBad written early (codeChk bs) with
    | some e => some e
    | none =>
      match famRun written early (2352 + code) (field bs (2352 + 0x10) 1) (2352 + 32) [] (bs.drop (2352 + 32)) with
      | some e => some e
      | none => firstBad written early (checksAfter code bs)

/-- The loader's verdict on an image: the first refusal of R70, then the signature (R68). -/
def imageRefusal (keys : List KeySlot) (written : Option Nat) (bs : List Byte) : Option ImgRefusal :=
  match structureRefusal written bs with
  | some e => some e
  | none => signatureRefusal keys (sectionBase (field bs (2352 + 4) 4) 11) bs

/-! ### Reading an accepted image -/

/-- The SLOT_WIRE entries. -/
def parseWire (b : List Byte) : List SlotWire :=
  (List.range 16).map fun i =>
    { clusters := BitVec.ofNat 12 (field b (0x28 + 8 * i) 2), banks := BitVec.ofNat 32 (field b (0x2C + 8 * i) 4) }

/-- GEOM. -/
def parseGeom (b : List Byte) : Geom where
  tickSel := field b 0x10 1
  patience := field b 0x14 4
  reedWindowS := field b 0x18 4
  driveTimeoutMs := field b 0x1C 4
  scrubPeriodH := field b 0x20 4
  slotWire := parseWire b

/-- PART. -/
def parsePart (b : List Byte) : Part where
  srWaystation := field b 0x10 2
  srPgt := field b 0x12 2
  srRing := field b 0x14 2
  srSmc := field b 0x16 2
  srJhead := field b 0x18 2
  srReedbuf := field b 0x1A 2
  srEvent := field b 0x1C 2
  hbCache := field b 0x20 2
  hbJournal := field b 0x22 2
  hbLedger := field b 0x24 2
  hbFirmware := field b 0x26 2

/-- The RING entries from entry f on, those of all zeros left out. -/
def parseRing : Nat → Nat → List Byte → Tab RingEnt
  | 0, _, _ => []
  | n + 1, f, b =>
    let r := parseRing n (f + 1) (b.drop 8)
    if field b 0 8 = 0 then r
    else (f, { firstGroup := field b 0 2, groups := field b 2 2, cseraiShare := field b 4 2, vectors := field b 6 2 }) :: r

/-- The family records. -/
def parseFamilies : Nat → List Byte → List Family
  | 0, _ => []
  | n + 1, b => parseFamily b :: parseFamilies n (b.drop (field b 0xA 2))

/-- PLAC. -/
def parsePlac (b : List Byte) : Plac where
  wFill := field b 0x10 2
  wWear := field b 0x12 2
  wPort := field b 0x14 2
  wReed := field b 0x16 2
  fdDepth := field b 0x18 1
  sparePermille := field b 0x1A 2
  seed := BitVec.ofNat 32 (field b 0x1C 4)

/-- CACH. -/
def parseCach (b : List Byte) : Cach where
  dumpRateMbs := field b 0x10 4
  coalesceTicks := field b 0x14 2
  destageStartPct := field b 0x16 1
  destageHighPct := field b 0x17 1

/-- The EVNT entries from entry e on, those of all zeros left out. -/
def parseEvnt : Nat → Nat → List Byte → Tab EvntEnt
  | 0, _, _ => []
  | n + 1, e, b =>
    let r := parseEvnt n (e + 1) (b.drop 4)
    let v := field b 0 4
    if v = 0 then r
    else (e, { func := v % 256, vector := v / 256 % 2048, toMsix := v / 524288 % 2 = 1, toMgmt := v / 1048576 % 2 = 1,
               coal := v / 2097152 % 8 }) :: r

/-- PAIR. -/
def parsePair (b : List Byte) : PairSec where
  pairEn := field b 0x10 1 = 1
  policy := field b 0x11 1
  postCount := field b 0x12 1
  postSlot := (List.range 7).map fun i => field b (0x14 + 2 * i) 2
  pairId := fieldW b 0x28

/-- HEMD. -/
def parseHemd (b : List Byte) : Hemd where
  li := field b 0x10 1 = 1
  cutoffMv := field b 0x12 2
  fullMv := field b 0x14 2
  taperHoldS := field b 0x16 2
  capacityJ := field b 0x18 4
  reserveJ := field b 0x1C 4
  taperMa := field b 0x20 4
  shuntUohm := field b 0x24 4
  calDirtyMaxMib := field b 0x28 4
  ocv := (List.range 32).map fun i => field b (0x30 + 2 * i) 2

/-- TRIA. -/
def parseTria (b : List Byte) : Tria where
  allowEpong := field b 0x10 1 % 2 = 1
  allowDrive := field b 0x10 1 / 2 % 2 = 1
  allowReed := field b 0x10 1 / 4 % 2 = 1
  clusterMask := BitVec.ofNat 12 (field b 0x14 2)

/-- A digest as words of eight bytes. -/
def digestWords (d : List Byte) : List Word := (List.range 6).map fun i => fieldW d (8 * i)

/-- The digests of the sections that a pair shares: GEOM, PART, RING, CODE, PLAC, CACH, PAIR (R82, R478). -/
def sharedDigests (bs : List Byte) : List Word :=
  let code := field bs (2352 + 4) 4
  [1, 2, 3, 4, 5, 6, 8].flatMap fun i =>
    let a := sectionBase code i
    digestWords (sha384 ((bs.drop a).take (sectionBase code (i + 1) - a)))

/-- The image that accepted bytes spell (R43 to R67). -/
def parseImage (bs : List Byte) : Image :=
  let code := field bs (2352 + 4) 4
  let at_ := fun i => bs.drop (sectionBase code i)
  { imgId := fieldW bs 0x20
    imgLen := field bs 0x18 4
    buildTime := fieldW bs 0x28
    geom := parseGeom (at_ 1)
    part := parsePart (at_ 2)
    ring := parseRing 256 0 ((at_ 3).drop 16)
    families := parseFamilies (field (at_ 4) 0x10 1) ((at_ 4).drop 32)
    plac := parsePlac (at_ 5)
    cach := parseCach (at_ 6)
    evnt := parseEvnt 4096 0 ((at_ 7).drop 16)
    pair := parsePair (at_ 8)
    hemd := parseHemd (at_ 9)
    tria := parseTria (at_ 10)
    keySlot := field (at_ 11) 0x10 1
    digests := sharedDigests bs }

/-! ### Live requests (R78) -/

/-- The first section of a live request that R78 does not allow, with its reason: a section other than CODE or PLAC
differs (0x0F), an existing family or a PLAC field other than the weights changes (0x10). SIGN is not compared. -/
def liveRefusal (old new : Image) : Option (Nat × Nat) :=
  if old.geom ≠ new.geom then some (0x0F, 1)
  else if old.part ≠ new.part then some (0x0F, 2)
  else if old.ring ≠ new.ring then some (0x0F, 3)
  else if (old.families.all fun f => new.families.contains f) = false then some (0x10, 4)
  else if old.plac.fdDepth ≠ new.plac.fdDepth ∨ old.plac.sparePermille ≠ new.plac.sparePermille ∨
      old.plac.seed ≠ new.plac.seed then some (0x10, 5)
  else if old.cach ≠ new.cach then some (0x0F, 6)
  else if old.evnt ≠ new.evnt then some (0x0F, 7)
  else if old.pair ≠ new.pair then some (0x0F, 8)
  else if old.hemd ≠ new.hemd then some (0x0F, 9)
  else if old.tria ≠ new.tria then some (0x0F, 10)
  else none

end Sys2Proof.Machine
end

