-- ==== Sys2Proof/Machine/Mgmt.lean ====
section
/-! DEFINITION. The management plane (16): window contexts and targets, claims, commands, flash writes, firmware packages,
key orders, and MCTP. -/

namespace Sys2Proof.Machine

open Sys2Proof

/-! ### Contexts (R521, R527) -/

/-- The path of a context is open: the PF's port for 0 and 1, either port for 2, SMBus for 3 (R521). -/
def ctxOpen (s : State) (c : Nat) : Bool :=
  mgmtUp s && match c with
    | 0 => nth false s.pins.hpPerst 0
    | 1 => nth false s.pins.hpPerst 1
    | 2 => s.pins.hpPerst.any id
    | 3 => true
    | _ => false

/-- A context. -/
def getCtx (s : State) (c : Nat) : Ctx := nth Ctx.reset s.mgmt.ctxs c

/-- A context changed. -/
def modCtx (c : Nat) (f : Ctx → Ctx) (s : State) : State :=
  { s with mgmt := { s.mgmt with ctxs := modAt s.mgmt.ctxs c f } }

/-- A window access seen, so that the claim lives on (R527). -/
def touchCtx (c : Nat) (s : State) : State := modCtx c (fun x => { x with lastUse := s.clock }) s

/-- The size of a target, 0 where there is none (R522). -/
def targetSize (t : Nat) : Nat := nth 0 [0, 4194304, 6291456, 512, 64, 256, 16384, 524288, 256] t

/-- The target must be claimed and may be written (R522). -/
def writableTarget (t : Nat) : Bool := 1 ≤ t && t ≤ 4

/-- The FUSES target (R535). -/
def fusesTarget (s : State) : List Byte :=
  (List.range 4).flatMap fun n =>
    let k := nth { hash := [], state := .empty, image := false } s.mgmt.keys n
    let code := match k.state with
      | .empty => 0
      | .programmed => 1
      | .revoked => 2
      | .damaged => 3
    takePad 48 k.hash ++ leBytes 1 code ++ leBytes 1 (if k.image then 1 else 0) ++ zeros 14

/-- The bytes of a target as a context reads them, DIAG apart (R522). -/
def targetBytes (s : State) (c t : Nat) : List Byte :=
  match t with
  | 1 => s.mgmt.image
  | 2 => s.mgmt.firmware
  | 3 => s.mgmt.order
  | 4 => s.mgmt.hem
  | 5 => (getCtx s c).health
  | 6 => eventsTarget s
  | 8 => fusesTarget s
  | _ => []

/-- Bytes with a 32-bit word put at an offset, the gap before it zero. -/
def pokeWord (bs : List Byte) (off : Nat) (w : BitVec 32) : List Byte :=
  takePad off bs ++ leBytes 4 w.toNat ++ bs.drop (off + 4)

/-- A word stored in a staging area. -/
def pokeTarget (t off : Nat) (w : BitVec 32) (m : Mgmt) : Mgmt :=
  match t with
  | 1 => { m with image := pokeWord m.image off w }
  | 2 => { m with firmware := pokeWord m.firmware off w }
  | 3 => { m with order := pokeWord m.order off w }
  | 4 => { m with hem := pokeWord m.hem off w }
  | _ => m

/-- OFFSET after an access: it saturates at its field's maximum (R523). -/
def nextOffset (off : Nat) : Nat := min (off + 4) 0xFFFFFC

/-- A write of MGW_DATA by a context (R523, R525). DESIGN CHOICE (log 82): one to a read-only target is discarded and sets OVERRUN. -/
def writeData (c : Nat) (w : BitVec 32) (s : State) : State :=
  let x := getCtx s c
  let ok := x.offset < targetSize x.target && writableTarget x.target && x.claim == some x.target
  let s1 := touchCtx c (modCtx c (fun x => { x with offset := nextOffset x.offset }) s)
  if ok then
    modCtx c (fun y =>
        if x.runOpen && x.offset == x.written then { y with written := x.written + 4 } else { y with runOpen := false })
      { s1 with mgmt := pokeTarget x.target x.offset w s1.mgmt }
  else modCtx c (fun y => { y with overrun := true }) s1

/-- A read of MGW_DATA by a context (R523): the word read, and the state after it. The content of the DIAG log is not
given, so a word of it is a free value. DESIGN CHOICE (log 82): a writable target that the context has not claimed reads as it is. -/
def readData (c : Nat) (s : State) : BitVec 32 × State :=
  let x := getCtx s c
  let s1 := touchCtx c (modCtx c (fun x => { x with offset := nextOffset x.offset }) s)
  if targetSize x.target ≤ x.offset then (0, modCtx c (fun y => { y with overrun := true }) s1)
  else if x.target = 7 then
    let d := drawFree s1
    (d.1.truncate 32, d.2)
  else (BitVec.ofNat 32 (field (targetBytes s c x.target) x.offset 4), s1)

/-- MGW_DATA_WRITE (R523). -/
def execMgwDataWrite (ctx : Nat) (value : BitVec 32) (s : State) : Host.Outcome State Fault Refusal :=
  if ctxOpen s ctx then .next (writeData ctx value s) else .next s

/-- MGW_DATA_READ (R523): the word read stands in the context's reply. -/
def execMgwDataRead (ctx : Nat) (s : State) : Host.Outcome State Fault Refusal :=
  if ctxOpen s ctx then
    let r := readData ctx s
    .next (modCtx ctx (fun x => { x with reply := leBytes 4 r.1.toNat }) r.2)
  else .next s

/-! ### Claims (R526, R527) -/

/-- A target is held by another context, or a command is using it (R526). -/
def targetHeld (s : State) (c t : Nat) : Bool :=
  (List.range 4).any fun i =>
    let x := getCtx s i
    (i != c && x.claim == some t) || (x.busy && x.cmdTarget == some t)

/-- MGW_CTL.CLAIM written 1 (R526): refused with RESULT 3, or a claim that clears WRITTEN. DESIGN CHOICE (log 82): a claim takes the
place of one that the context holds on another target, a read-only target can be claimed, and one of no target has no effect. -/
def claimTarget (c : Nat) (s : State) : State :=
  let x := getCtx s c
  if targetSize x.target = 0 then s
  else if targetHeld s c x.target then modCtx c (fun x => { x with result := 3 }) s
  else modCtx c (fun x => { x with claim := some x.target, written := 0, runOpen := true }) s

/-- The claim of a context ends; the target's content is kept (R527). -/
def dropClaim (c : Nat) (s : State) : State := modCtx c (fun x => { x with claim := none, runOpen := false }) s

/-- MGW_CLAIM (R526). -/
def execMgwClaim (ctx : Nat) (s : State) : Host.Outcome State Fault Refusal :=
  if ctxOpen s ctx then .next (claimTarget ctx (touchCtx ctx s)) else .next s

/-- MGW_RELEASE (R527). -/
def execMgwRelease (ctx : Nat) (s : State) : Host.Outcome State Fault Refusal :=
  if ctxOpen s ctx then .next (dropClaim ctx (touchCtx ctx s)) else .next s

/-- A claim broken: CLAIM_LOST and MGW_CLAIM_BROKEN (R527). -/
def breakClaim (c : Nat) (s : State) : State :=
  raise 0xE0A (modCtx c (fun x => { x with claimLost := true }) (dropClaim c s))

/-- The claim of a context has lapsed: no window access for 10 s and no command (R527). -/
def claimLapsed (s : State) (c : Nat) : Bool :=
  let x := getCtx s c
  x.claim.isSome && !x.busy && decide (x.lastUse + 10000000000 ≤ s.clock)

/-- The claims that have lapsed broken (R527). -/
def breakClaims (s : State) : State := (List.range 4).foldl (fun t c => if claimLapsed t c then breakClaim c t else t) s

/-- MGW_CLAIM_BROKEN (R527). -/
def execMgwClaimBroken (ctx : Nat) (s : State) : Host.Outcome State Fault Refusal :=
  if mgmtUp s && claimLapsed s ctx then .next (breakClaim ctx s) else .next s

/-! ### Commands (R528) -/

/-- The target a command names (R528). -/
def cmdTargetOf (cmd : Nat) : Option Nat :=
  if cmd = 1 ∨ cmd = 2 ∨ cmd = 3 then some 1
  else if cmd = 4 then some 2
  else if cmd = 5 ∨ cmd = 6 then some 4
  else if cmd = 7 then some 3
  else none

/-- A command ends (R528): RESULT, the claim on its target released, MGW_CMD_DONE. -/
def endCmd (c res : Nat) (s : State) : State :=
  raise 0xE00 (modCtx c (fun x =>
    let drop := x.claim.isSome && x.claim == cmdTargetOf x.lastCmd
    { x with
      busy := false, result := res, cmdTarget := none, claim := if drop then none else x.claim
      runOpen := x.runOpen && !drop }) s)

/-- The command of a waiting context, if there is one, ends. -/
def endCmdOf (c : Option Nat) (res : Nat) (s : State) : State :=
  match c with
  | none => s
  | some c => endCmd c res s

/-- A command accepted: BUSY, RESULT 1, its target in use (R528). -/
def beginCmd (c cmd : Nat) (s : State) : State :=
  modCtx c (fun x => { x with busy := true, result := 1, cmdTarget := cmdTargetOf cmd }) s

/-- The result with which a command is turned away at once, 0 when it starts: the claim (2), then the state (8) (R528,
R534). DESIGN CHOICE (log 82): recovery comes first, with 8. -/
def cmdRefused (s : State) (c cmd : Nat) : Nat :=
  if s.mgmt.recovery && cmd != 4 && cmd != 8 then 8
  else if cmd != 8 && (getCtx s c).claim != cmdTargetOf cmd then 2
  else if (cmd == 2 || cmd == 5 || cmd == 6) && s.image.isNone then 8
  else 0

/-- A command written to MGW_CTL.CMD (R528): discarded while BUSY is 1, turned away, or begun with `act`. DESIGN CHOICE (log 82): LAST_CMD
does not show a discarded one. -/
def runCmd (c cmd : Nat) (act : State → State) (s0 : State) : State :=
  let s := touchCtx c s0
  if (getCtx s c).busy then s
  else
    let s1 := modCtx c (fun x => { x with lastCmd := cmd }) s
    match cmdRefused s1 c cmd with
    | 0 => act (beginCmd c cmd s1)
    | r => endCmd c r s1

/-! ### The loader's part in commands (R69 to R74, R81) -/

/-- The loader is free to try an image. -/
def loaderFree (s : State) : Bool := s.loader.job.isNone && (s.loader.state == .loader || s.loader.state == .running)

/-- The state to which the loader returns: RUNNING or LOADER (R74). -/
def idleState (s : State) : LdrState := if s.image.isSome then .running else .loader

/-- A live request is verifying or pending. -/
def liveBusy (s : State) : Bool := s.loader.lstate == .verifying || s.loader.lstate == .pending

/-- A live request refused (R69, R71): LREASON, LSECTION, event 0xE04; its command ends with RESULT 4. -/
def refuseLive (reason sec : Nat) (s : State) : State :=
  let ctx := match s.loader.liveJob with
    | some j => j.ctx
    | none => s.loader.live.bind (·.ctx)
  endCmdOf ctx 4 (raise 0xE04 { s with loader := { s.loader with
    lstate := .refused, lreason := reason, lsection := sec, liveJob := none, live := none } })

/-- A full load ordered cancels the live request (R81). -/
def cancelLive (s : State) : State := if liveBusy s then refuseLive 0x13 0xF s else s

/-- The loader starts to try an image (R69): FETCH. DESIGN CHOICE (log 77): COPY names the new image's source from here on, while
REASON, SECTION and OFFSET describe the last image that was judged until the verdict. -/
def startLoad (j : LoadJob) (s : State) : State :=
  { s with loader := { s.loader with state := .fetch, copy := j.copy, job := some j } }

/-- The image in the staging area as a window transfer of a context (R525). -/
def windowJob (s : State) (c : Nat) : LoadJob :=
  { copy := 2, ctx := some c, bytes := s.mgmt.image, written := some (getCtx s c).written }

/-- LOAD begun (R74, R81): it cancels a live request, and waits while the loader is trying a flash copy. -/
def beginLoad (c : Nat) (s : State) : State :=
  let s1 := cancelLive s
  if loaderFree s1 then startLoad (windowJob s1 c) s1 else s1

/-- A context whose LOAD has not been started. -/
def loadWaiting (s : State) : Option Nat :=
  (List.range 4).find? fun c =>
    let x := getCtx s c
    x.busy && x.lastCmd == 1 && s.loader.acceptedCtx != some c && !(s.loader.job.any fun j => j.ctx == some c)

/-- A waiting LOAD started when the loader has become free. -/
def startWaiting (s : State) : State :=
  match loadWaiting s with
  | none => s
  | some c => if loaderFree s then startLoad (windowJob s c) s else s

/-- MGW_CTL.CMD written with LOAD. -/
def loadCmd (ctx : Nat) (s : State) : State :=
  runCmd ctx 1 (beginLoad ctx) s

/-- LOAD (R528). -/
def execLoad (ctx : Nat) (s : State) : Host.Outcome State Fault Refusal :=
  if ctxOpen s ctx then .next (loadCmd ctx s) else .next s

/-- LOAD_LIVE begun (R78, R81): refused with 0x11 while another request or a full load is in progress. DESIGN CHOICE (log 77): LSTATE
keeps the state of a request that is verifying or pending, while LREASON and LSECTION describe the refusal. -/
def beginLive (c : Nat) (s : State) : State :=
  if liveBusy s || s.loader.state != .running then
    let l := s.loader
    endCmd c 4 (raise 0xE04 { s with loader := { l with
      lstate := if liveBusy s then l.lstate else .refused, lreason := 0x11, lsection := 0xF } })
  else { s with loader := { s.loader with lstate := .verifying, liveJob := some (windowJob s c) } }

/-- MGW_CTL.CMD written with LOAD_LIVE. -/
def loadLiveCmd (ctx : Nat) (s : State) : State :=
  runCmd ctx 2 (beginLive ctx) s

/-- LOAD_LIVE (R528). -/
def execLoadLive (ctx : Nat) (s : State) : Host.Outcome State Fault Refusal :=
  if ctxOpen s ctx then .next (loadLiveCmd ctx s) else .next s

/-! ### Firmware packages (R531 to R534) -/

/-- A signature block with its own header (R67, R531, R538): the checks of R68, the header first. -/
def blockCheck (keys : List KeySlot) (image : Bool) (covered block : List Byte) : SignCheck :=
  if slice block 0 4 = ascii "SIGN" then checkSign keys image covered block else .badSlot

/-- What R532 finds of a package: 0 valid, 5 a wrong header or signature, 6 a security version below the minimum. -/
def fwCheck (keys : List KeySlot) (svnMin : Nat) (written : Option Nat) (bs : List Byte) : Nat :=
  let len := field bs 8 4
  if slice bs 0 4 ≠ ascii "YFWB" ∨ field bs 4 2 ≠ 1 ∨ field bs 6 1 ≠ 0x11 ∨ len < 272 ∨ 6291456 < len ∨
      written.any (fun w => decide (w < len)) then 5
  else if blockCheck keys false (takePad (len - 240) bs) (slice bs (len - 240) 240) ≠ .ok then 5
  else if field bs 0xC 4 < svnMin then 6
  else 0

/-- The firmware copy B (true) or A of the flash. -/
def fwCopy (s : State) (b : Bool) : List Byte := if b then s.flash.fwB else s.flash.fwA

/-- A firmware copy in flash is valid (R532). -/
def fwValid (s : State) (b : Bool) : Bool := fwCheck s.mgmt.keys s.mgmt.svnMin none (fwCopy s b) == 0

/-- FW_VERSION of a package. -/
def fwVersion (bs : List Byte) : Nat := field bs 0x10 8

/-- FIRMWARE_SELECT (R534): the copy that the boot ROM runs, none in recovery. -/
def selectFw (s : State) : Option Bool :=
  match fwValid s false, fwValid s true with
  | true, true => some (decide (fwVersion s.flash.fwA < fwVersion s.flash.fwB))
  | true, false => some false
  | false, true => some true
  | false, false => none

/-- The firmware registers of the running copy (R544). -/
def firmwareOf (s : State) (b : Bool) : Firmware :=
  { version := fwVersion (fwCopy s b) % 2 ^ 48, svn := field (fwCopy s b) 0xC 4, copyB := b }

/-! ### Flash writes (R529, R533) -/

/-- The refusal of an image by IMG_TO_FLASH shown in GLB_LDR_STAT, with event 0xE01 (R70, R71). -/
def showRefusal (copy : Nat) (e : ImgRefusal) (s : State) : State :=
  raise 0xE01 { s with loader := { s.loader with
    copy := copy, reason := e.reason, section_ := e.sec, offset := BitVec.ofNat 32 e.pos } }

/-- The flash writes in order, the first one begun: its content is checked, and where it is refused its command ends and
the next is tried (R528, R529, R533). -/
def startFlash : List FlashJob → State → State
  | [], s => { s with mgmt := { s.mgmt with flashQ := [] } }
  | j :: rest, s =>
    let w := some (getCtx s j.ctx).written
    if j.cmd = 3 then
      match imageRefusal s.mgmt.keys w s.mgmt.image with
      | some e => startFlash rest (endCmd j.ctx 4 (showRefusal 2 e s))
      | none => { s with
          mgmt := { s.mgmt with flashQ := { j with bytes := takePad (field s.mgmt.image 0x18 4) s.mgmt.image } :: rest }
          loader := { s.loader with copy := 2, reason := 0, section_ := 0xF, offset := 0xFFFFFFFF } }
    else
      match fwCheck s.mgmt.keys s.mgmt.svnMin w s.mgmt.firmware with
      | 0 => { s with mgmt := { s.mgmt with
          flashQ := { j with bytes := takePad (field s.mgmt.firmware 8 4) s.mgmt.firmware } :: rest } }
      | r => startFlash rest (raise 0xE06 (endCmd j.ctx r s))

/-- A flash command queued, and begun where none runs (R529). -/
def queueFlash (j : FlashJob) (s : State) : State :=
  match s.mgmt.flashQ with
  | [] => startFlash [j] s
  | q => { s with mgmt := { s.mgmt with flashQ := q ++ [j] } }

/-- MGW_CTL.CMD written with IMG_TO_FLASH. -/
def imgToFlashCmd (ctx : Nat) (s : State) : State :=
  runCmd ctx 3 (fun t =>
      queueFlash { ctx := ctx, cmd := 3, copy := if (getCtx t ctx).copy then 1 else 0, bytes := [] } t) s

/-- IMG_TO_FLASH (R528): COPY names the image copy. -/
def execImgToFlash (ctx : Nat) (s : State) : Host.Outcome State Fault Refusal :=
  if ctxOpen s ctx then .next (imgToFlashCmd ctx s) else .next s

/-- The firmware copy that FW_UPDATE writes: the one that does not run, copy A in recovery (R533, R534). -/
def fwTarget (s : State) : Nat := if s.mgmt.fw.any (fun f => !f.copyB) then 1 else 0

/-- MGW_CTL.CMD written with FW_UPDATE. -/
def fwUpdateCmd (ctx : Nat) (s : State) : State :=
  runCmd ctx 4 (fun t => queueFlash { ctx := ctx, cmd := 4, copy := fwTarget t, bytes := [] } t) s

/-- FW_UPDATE (R533). -/
def execFwUpdate (ctx : Nat) (s : State) : Host.Outcome State Fault Refusal :=
  if ctxOpen s ctx then .next (fwUpdateCmd ctx s) else .next s

/-- A flash copy replaced: an image copy for IMG_TO_FLASH, a firmware copy for FW_UPDATE. -/
def setFlash (j : FlashJob) (bs : List Byte) (f : Flash) : Flash :=
  if j.cmd = 3 then if j.copy = 0 then { f with primary := bs } else { f with secondary := bs }
  else if j.copy = 0 then { f with fwA := bs } else { f with fwB := bs }

/-- A write that ended as it should, or failed: the copy is then invalid (R528, R530, R533). -/
def finishFlash (j : FlashJob) (ok : Bool) (s : State) : State :=
  let s1 := { s with flash := setFlash j (if ok then j.bytes else []) s.flash }
  endCmd j.ctx (if ok then 0 else 7) (raiseIf (ok && j.cmd == 4) 0xE05 s1)

/-- FLASH_WRITE_DONE (R529): the running flash write ends, and a waiting one starts. -/
def execFlashWriteDone (ok : Bool) (s : State) : Host.Outcome State Fault Refusal :=
  match s.mgmt.flashQ with
  | [] => .next s
  | j :: rest => if mgmtUp s then .next (startFlash rest (finishFlash j ok s)) else .next s

/-- A flash write interrupted leaves its copy invalid (R530). -/
def breakFlash (s : State) : State :=
  match s.mgmt.flashQ with
  | [] => s
  | j :: _ => { s with flash := setFlash j [] s.flash, mgmt := { s.mgmt with flashQ := [] } }

/-! ### HEM records and health copies (R528) -/

/-- MGW_CTL.CMD written with HEM_SAVE. -/
def hemSaveCmd (ctx : Nat) (s : State) : State :=
  runCmd ctx 5 (fun t =>
      match hemdOf t with
      | none => endCmd ctx 8 t
      | some d => endCmd ctx 0 { t with mgmt := { t.mgmt with hem := hemRecord t.clock d t.hem } }) s

/-- HEM_SAVE (R441, R528). -/
def execHemSave (ctx : Nat) (s : State) : Host.Outcome State Fault Refusal :=
  if ctxOpen s ctx then .next (hemSaveCmd ctx s) else .next s

/-- MGW_CTL.CMD written with HEM_RESTORE. -/
def hemRestoreCmd (ctx : Nat) (s : State) : State :=
  runCmd ctx 6 (fun t =>
      match hemdOf t with
      | none => endCmd ctx 8 t
      | some d =>
        let u := hemApply (offerRecord t.clock d t.mgmt.hem) t
        endCmd ctx (if u.hem.restoreRes = 1 then 0 else 9) u) s

/-- HEM_RESTORE (R442, R528): the staged record is offered to the HEM. -/
def execHemRestore (ctx : Nat) (s : State) : Host.Outcome State Fault Refusal :=
  if ctxOpen s ctx then .next (hemRestoreCmd ctx s) else .next s

/-- MGW_CTL.CMD written with HEALTH_SNAP. -/
def healthSnapCmd (ctx : Nat) (s : State) : State :=
  runCmd ctx 8 (fun t => endCmd ctx 0 (modCtx ctx (fun x => { x with health := healthReport t }) t)) s

/-- HEALTH_SNAP (R504, R528): this context's HEALTH copy. -/
def execHealthSnap (ctx : Nat) (s : State) : Host.Outcome State Fault Refusal :=
  if ctxOpen s ctx then .next (healthSnapCmd ctx s) else .next s

/-! ### Key orders (R535 to R540) -/

/-- The state of a key slot, none where the number names no slot. -/
def keySlot? (s : State) (n : Nat) : Option KeySlot := s.mgmt.keys[n]?

/-- The use for which an order is signed (R539): USE for PROGRAM, the target slot's for REVOKE, FW for ADVANCE_SVN. -/
def orderUse (s : State) (o : List Byte) : Option Bool :=
  match field o 4 1 with
  | 1 => if field o 6 1 ≤ 1 then some (field o 6 1 == 1) else none
  | 2 => (keySlot? s (field o 5 1)).map (·.image)
  | 3 => some false
  | _ => none

/-- The order may come without a signature: the first image key (R539). -/
def firstImageKey (s : State) (o : List Byte) : Bool :=
  field o 4 1 == 1 && field o 6 1 == 1 && field o (0x50 + 0x10) 1 == 0xFF && slice o (0x50 + 0x20) 193 == zeros 193 &&
    s.mgmt.keys.all fun k => !(k.image && (k.state == .programmed || k.state == .revoked))

/-- ORDER_WHY 0x1 fails: MAGIC, ACTION, reserved bytes or DIE_ID (R539). -/
def orderBad (s : State) (o : List Byte) : Bool :=
  slice o 0 4 != ascii "YORD" || field o 4 1 < 1 || 3 < field o 4 1 || field o 7 1 != 0 || slice o 0x44 12 != zeros 12 ||
    fieldW o 8 != s.dieId

/-- ORDER_WHY 0x2 fails: the signature (R539). -/
def orderUnsigned (s : State) (o : List Byte) : Bool :=
  !firstImageKey s o && (orderUse s o).all fun use => blockCheck s.mgmt.keys use (slice o 0 0x50) (slice o 0x50 240) != .ok

/-- ORDER_WHY 0x4 fails: the slot to revoke is not PROGRAMMED, is the signing slot, or is the last of its use (R539). -/
def revokeBad (s : State) (o : List Byte) : Bool :=
  let n := field o 5 1
  match keySlot? s n with
  | none => true
  | some k => k.state != .programmed || field o 0x60 1 == n ||
      !((List.range 4).any fun i => i != n && (keySlot? s i).any fun x => x.state == .programmed && x.image == k.image)

/-- The first condition of R539 that fails, 0 when the order is executed. -/
def orderWhy (s : State) (o : List Byte) : Nat :=
  if orderBad s o then 1
  else if orderUnsigned s o then 2
  else if field o 4 1 = 1 ∧ (keySlot? s (field o 5 1)).all (fun k => k.state != .empty) then 3
  else if field o 4 1 = 2 ∧ revokeBad s o then 4
  else if field o 4 1 = 3 ∧ (field o 0x40 4 ≤ s.mgmt.svnMin ∨ s.mgmt.fw.all fun f => decide (f.svn < field o 0x40 4)) then 5
  else 0

/-- A checked order as it is fused. -/
def fusingOf (c : Nat) (o : List Byte) : Fusing :=
  { ctx := c, action := field o 4 1, slot := field o 5 1, image := field o 6 1 = 1, hash := slice o 0x10 48,
    svn := field o 0x40 4 }

/-- KEY_ORDER begun (R539): refused with its reason, or fusing starts. -/
def beginOrder (c : Nat) (s : State) : State :=
  match orderWhy s s.mgmt.order with
  | 0 => { s with mgmt := { s.mgmt with fusing := some (fusingOf c s.mgmt.order) } }
  | w => endCmd c 0xA (raise 0xE09 { s with mgmt := { s.mgmt with orderWhy := w } })

/-- MGW_CTL.CMD written with KEY_ORDER. -/
def keyOrderCmd (ctx : Nat) (s : State) : State :=
  runCmd ctx 7 (beginOrder ctx) s

/-- KEY_ORDER (R528, R538, R539). -/
def execKeyOrder (ctx : Nat) (s : State) : Host.Outcome State Fault Refusal :=
  if ctxOpen s ctx then .next (keyOrderCmd ctx s) else .next s

/-- A key fused into a slot: only an EMPTY slot's fuses can take it (R537, R539). -/
def burnKey (f : Fusing) (x : SlotFuse) (k : KeySlot) : KeySlot :=
  if k.state = .empty then { hash := f.hash, state := x, image := f.image } else k

/-- The fuses after an order (R535, R537). -/
def applyOrder (f : Fusing) (m : Mgmt) : Mgmt :=
  match f.action with
  | 1 => { m with keys := modAt m.keys f.slot (burnKey f .programmed) }
  | 2 => { m with keys := modAt m.keys f.slot fun k => if k.state = .programmed then { k with state := .revoked } else k }
  | _ => { m with svnMin := max m.svnMin f.svn }

/-- MGW_KEY_CHANGE (R539): fusing completes. -/
def execMgwKeyChange (s : State) : Host.Outcome State Fault Refusal :=
  match s.mgmt.fusing with
  | none => .next s
  | some f =>
    if mgmtUp s then .next (endCmd f.ctx 0 (raise 0xE08 { s with mgmt := { applyOrder f s.mgmt with fusing := none } }))
    else .next s

/-- Fusing interrupted by power loss or a watchdog reset (R537): a programming leaves the slot DAMAGED. Whether another
order was done is not given, so a free value says. -/
def breakFusing (s : State) : State :=
  match s.mgmt.fusing with
  | none => s
  | some f =>
    if f.action = 1 then { s with mgmt := { s.mgmt with
      fusing := none
      keys := modAt s.mgmt.keys f.slot (burnKey f .damaged) } }
    else
      let d := drawFree s
      { d.2 with mgmt := { (if bit d.1 0 then applyOrder f d.2.mgmt else d.2.mgmt) with fusing := none } }

/-! ### MGW registers (R544) -/

/-- A command by its number. DESIGN CHOICE (log 82): a number that R528 does not name does nothing but stand in LAST_CMD. -/
def startCmd (c cmd : Nat) (s : State) : State :=
  match cmd with
  | 1 => loadCmd c s
  | 2 => loadLiveCmd c s
  | 3 => imgToFlashCmd c s
  | 4 => fwUpdateCmd c s
  | 5 => hemSaveCmd c s
  | 6 => hemRestoreCmd c s
  | 7 => keyOrderCmd c s
  | 8 => healthSnapCmd c s
  | _ => if (getCtx s c).busy then s else modCtx c (fun x => { x with lastCmd := cmd }) s

/-- A write of MGW_ADDR. -/
def writeAddr (c : Nat) (w : Word) (s : State) : State :=
  touchCtx c (modCtx c (fun x => { x with offset := bits w 2 22 * 4, target := bits w 32 4 }) s)

/-- A write of MGW_CTL. DESIGN CHOICE (log 82): its bits take effect in the order W1C, COPY, RELEASE, CLAIM, CMD. -/
def writeCtl (c : Nat) (w : Word) (s : State) : State :=
  let s1 := touchCtx c (modCtx c (fun x => { x with
    overrun := x.overrun && !bit w 13, claimLost := x.claimLost && !bit w 14, copy := bit w 10 }) s)
  let s2 := if bit w 9 then dropClaim c s1 else s1
  let s3 := if bit w 8 then claimTarget c s2 else s2
  if bits w 0 8 = 0 then s3 else startCmd c (bits w 0 8) s3

/-- MGW_ADDR as it reads. -/
def mgwAddr (x : Ctx) : Word := put x.offset 0 ||| put x.target 32

/-- MGW_CTL as it reads. -/
def mgwCtl (s : State) (c : Nat) : Word :=
  let x := getCtx s c
  putB x.claim.isSome 8 ||| putB x.copy 10 ||| putB x.busy 12 ||| putB x.overrun 13 ||| putB x.claimLost 14 |||
    putB s.mgmt.recovery 15 ||| put x.result 16 ||| put x.lastCmd 24 ||| put x.written 32

/-- MGW_KEYS as it reads. -/
def mgwKeys (s : State) : Word :=
  let code := fun (k : KeySlot) => match k.state with
    | .empty => 0
    | .programmed => 1
    | .revoked => 2
    | .damaged => 3
  (List.range 4).foldl (fun a n =>
      let k := nth { hash := [], state := .empty, image := false } s.mgmt.keys n
      a ||| put (code k) (2 * n) ||| putB k.image (8 + n)) 0 |||
    put s.mgmt.svnMin 16 ||| put s.mgmt.orderWhy 24

/-- MGW_FW as it reads. -/
def mgwFw (s : State) : Word :=
  match s.mgmt.fw with
  | none => putB (fwValid s true) 56
  | some f => put f.version 0 ||| put (f.svn % 128) 48 ||| putB f.copyB 55 ||| putB (fwValid s (!f.copyB)) 56

/-- An MGW register as the PF of a port reads it (R544); MGW_DATA apart. -/
def mgwRead (s : State) (c off : Nat) : Word :=
  if off = 0x00 then mgwAddr (getCtx s c)
  else if off = 0x10 then mgwCtl s c
  else if off = 0x18 then mgwKeys s
  else if off = 0x20 then mgwFw s
  else 0

/-! ### MCTP (R541 to R543) -/

/-- The words of a WIN_WRITE written in turn. -/
def writeWords (c : Nat) : List (BitVec 32) → State → State
  | [], s => s
  | w :: r, s => writeWords c r (writeData c w s)

/-- Some words read in turn, with their bytes. -/
def readWords (c : Nat) : Nat → State → List Byte × State
  | 0, s => ([], s)
  | n + 1, s =>
    let r := readData c s
    let t := readWords c n r.2
    (leBytes 4 r.1.toNat ++ t.1, t.2)

/-- A response to a vendor message: its bytes stand in the context's reply too. -/
def respond (c code : Nat) (bs : List Byte) (s : State) : State :=
  emit (.mctp c code bs) (modCtx c (fun x => { x with reply := bs }) s)

/-- WIN_WRITE (R542): 1 to 12 words, else malformed. DESIGN CHOICE (log 82): reserved bits of a value in a message are ignored. -/
def execWinWrite (ctx : Nat) (addr : Word) (words : List (BitVec 32)) (s : State) : Host.Outcome State Fault Refusal :=
  if !ctxOpen s ctx then .next s
  else if words.length = 0 ∨ 12 < words.length then .next (respond ctx 1 [] s)
  else .next (respond ctx 0 [] (writeWords ctx words (writeAddr ctx addr s)))

/-- WIN_READ (R542). -/
def execWinRead (ctx : Nat) (addr : Word) (count : Nat) (s : State) : Host.Outcome State Fault Refusal :=
  if !ctxOpen s ctx then .next s
  else if count = 0 ∨ 12 < count then .next (respond ctx 1 [] s)
  else
    let r := readWords ctx count (writeAddr ctx addr s)
    .next (respond ctx 0 r.1 r.2)

/-- WIN_CTL (R542): MGW_CTL after the write is the response. -/
def execWinCtl (ctx : Nat) (value : Word) (s : State) : Host.Outcome State Fault Refusal :=
  if ctxOpen s ctx then
    let t := writeCtl ctx value s
    .next (respond ctx 0 (leBytes 8 (mgwCtl t ctx).toNat) t)
  else .next s

/-- The endpoint is registered for alerts on its binding. -/
def registered (s : State) (eid : Nat) (smbus : Bool) : Bool := s.mgmt.alerts.any fun a => a.eid == eid && a.smbus == smbus

/-- ALERT_REG (R542, R543): up to 4 endpoints; a fifth is not permitted. -/
def execAlertReg (ctx eid : Nat) (on : Bool) (s : State) : Host.Outcome State Fault Refusal :=
  let smb := ctx == 3
  if !ctxOpen s ctx then .next s
  else if !on then
    let rest := s.mgmt.alerts.filter fun a => !(a.eid == eid && a.smbus == smb)
    .next (respond ctx 0 [] { s with mgmt := { s.mgmt with
      alerts := rest
      alertPin := s.mgmt.alertPin || !(rest.any fun a => a.smbus && a.owed) } })
  else if registered s eid smb then .next (respond ctx 0 [] s)
  else if 4 ≤ s.mgmt.alerts.length then .next (respond ctx 2 [] s)
  else .next (respond ctx 0 [] { s with mgmt := { s.mgmt with
    alerts := s.mgmt.alerts ++ [{ eid := eid, smbus := smb, owed := false, urgent := false, sentAt := none }] } })

/-- MCTP_CONTROL_MESSAGE (R541): 1 sets the endpoint's EID, 2 reads it, 4 reads the version support; other control
commands are not supported. -/
def execMctpControlMessage (ctx code arg : Nat) (s : State) : Host.Outcome State Fault Refusal :=
  let i := if ctx = 3 then 1 else 0
  if !ctxOpen s ctx then .next s
  else if code = 1 then
    .next (respond ctx 0 (leBytes 1 arg) { s with mgmt := { s.mgmt with eids := modAt s.mgmt.eids i fun _ => arg % 256 } })
  else if code = 2 then .next (respond ctx 0 (leBytes 1 (nth 0 s.mgmt.eids i)) s)
  else if code = 4 then .next (respond ctx 0 [] s)
  else .next (respond ctx 1 [] s)

/-! ### Watchdog (R530, R510) -/

/-- A command ended by the watchdog reset, and the claim of its context dropped. -/
def watchdogCtx (s : State) (c : Nat) : State := dropClaim c (if (getCtx s c).busy then endCmd c 0xB s else s)

/-- An image in FETCH or VERIFY is abandoned (R530, R74), a verifying live request with it. -/
def abandonLoad (s : State) : State :=
  let l := s.loader
  let l1 := if l.job.isSome then { l with job := none, state := idleState s } else l
  { s with loader := if l1.liveJob.isSome then { l1 with liveJob := none, lstate := .idle } else l1 }

/-- The log emptied, its numbering going on, and HLT_MGMT_RESET its first record (R510). -/
def emptyLog (s : State) : State :=
  raise 0xC0B { s with events := { s.events with
    pendMgmt := [], log := [], logBase := s.events.logBase + s.events.written, written := 0 } }

/-- The HEM writes no ceiling while its plane restarts (R21, R33). For how many edges the spec does not say: a free value. -/
def stallHem (s : State) : State :=
  let d := drawFree s
  { d.2 with hem := { d.2.hem with stall := d.1.toNat } }

/-- A management plane watchdog reset (R530). -/
def watchdogReset (s : State) : State :=
  let s1 := emptyLog (stallHem s)
  let s2 := breakFlash (breakFusing (abandonLoad s1))
  let s3 := (List.range 4).foldl watchdogCtx s2
  { s3 with loader := { s3.loader with acceptedCtx := none, live := s3.loader.live.map fun r => { r with ctx := none } } }

/-- MGMT_WATCHDOG_RESET (R21, R530). -/
def execMgmtWatchdogReset (s : State) : Host.Outcome State Fault Refusal :=
  if mgmtUp s then .next (watchdogReset s) else .next s

end Sys2Proof.Machine
end

