-- ==== Sys2Proof/Machine/Vault.lean ====
section
/-! DEFINITION. Power failure, the vault dump, restore and replay (10, and R285, R554 to R556, R579). -/

namespace Sys2Proof.Machine

open Sys2Proof

/-! ### Posting drive commands (R94, R99, R406) -/

/-- GEOM.DRIVE_TIMEOUT_MS in ticks (R99). -/
def driveTicks (s : State) : Nat := msTicks s ((s.image.map (·.geom.driveTimeoutMs)).getD 0)

/-- Drive-side checking of a transfer is PRCHK = 100b: a drive of Type 1 whose guard is as wide as the volume's (R413). -/
def prchkOf (x : Drive) (d : Sub) : Bool := (x.info.piFmt == 1 && d.pi == 8) || (x.info.piFmt == 2 && d.pi == 16)

/-- A submission posted: on the queue after the one its drive used last, with its deadline; without a drive it counts as
abandoned (R94, R99, R364, R406). -/
def postSub (d : Sub) (s : State) : State :=
  match slotDrive s d.slot with
  | none => abandonSub d s
  | some (pos, x) =>
    let q := x.lastQ % max 1 x.info.queues + 1
    let e := { d with queue := q, posted := s.drone.count, deadline := s.drone.count + driveTicks s }
    let s1 := modDrive pos (fun y => { y with lastQ := q }) s
    let s2 := emit (.submit e.cid e.slot q e.op e.lba e.nlb e.fua (prchkOf x e))
      { s1 with drone := { s1.drone with inflight := s1.drone.inflight ++ [e] } }
    let u := strikeTlp false (pos / 32) s2
    u.1.elim u.2 fun k => emit (.tlpStruck e.cid k) u.2

/-- Submissions of a dump, outside admission: they are posted at the next edge (R94, R350). -/
def postDump (p : Purpose) (ws : List Work) (s : State) : State :=
  let r := newJob p .journal false 0 [] s
  let n := r.2.drone.nextId
  let s1 := modJob r.1 (fun j => { j with left := ws.length }) { r.2 with drone := { r.2.drone with nextId := n + ws.length } }
  let subs := (numberWorks r.1 r.1 .journal false n ws).filterMap fun w => match w with
    | .leg _ => none
    | .sub d => some { d with charge := 0 }
  { s1 with drone := { s1.drone with dumpPosts := s1.drone.dumpPosts ++ subs } }

/-! ### Power failure at the pin (R348, R446, R515, R555) -/

/-- A power failure counts from here on (R348): a running calibration is aborted, a trial ends, and an unfinished restore
pauses (R555). -/
def powerFail (s : State) : State :=
  let v := s.cache.vault
  endTrial 3 (hemApply (calAbort 3) { s with cache := { s.cache with vault := { v with
    failNow := true, failLow := true, paused := v.paused || (serving s && !restoreEnded s) } } })

/-- PWR_FAIL_ASSERT (R348): PWR_FAIL_N has been low for 64 core cycles. -/
def execPwrFailAssert (s : State) : Host.Outcome State Fault Refusal :=
  if s.boot == .reset || s.cache.vault.failNow then .next s
  else .next (powerFail { s with pins := { s.pins with pwrFailN := false } })

/-- RESTORE_RESUME's effect (R555). -/
def resumeRestore (s : State) : State :=
  { s with
    pins := { s.pins with pwrFailN := true }
    cache := { s.cache with vault := { s.cache.vault with failNow := false, paused := false } } }

/-- RESTORE_RESUME (R555): PWR_FAIL_N has been high for 64 core cycles before restore has finished; a thermal stop does not
end (R561). -/
def execRestoreResume (s : State) : Host.Outcome State Fault Refusal :=
  if s.boot != .reset && s.cache.vault.failNow && !restoreEnded s && !s.halted && !s.health.thermal then .next (resumeRestore s)
  else .next s

/-! ### What a dump writes (R328, R329, R350, R353, R354) -/

/-- A journal record's bytes: 64, or 128 for a ledger record (R328, R329). -/
def jrecBytes (s : State) : JRec → List Byte
  | .ledger r => recBytes r
  | .intent r => intentRecBytes s r
  | .retire jseq key old =>
    let body := leBytes 8 jseq ++ leBytes 1 0x81 ++ zeros 7 ++ locatorBytes key ++ leBytes 8 old ++ zeros 28
    body ++ leBytes 4 (crc32c body).toNat
  | .padding => zeros 8 ++ leBytes 1 0x82 ++ zeros 55

/-- Block numbers of a descriptor list, two bytes each behind their count. -/
def numbersBytes (xs : List Nat) : List Byte := leBytes 2 xs.length ++ xs.flatMap fun x => leBytes 2 x

/-- A page that outlives the outage: one under D, which the dump saves, or one whose intent the write-through log holds (R328, R344). -/
def outlives (log : List Nat) (i : Intent) (q : Nat) : Bool := !i.wtOnly.contains q || log.contains i.jseq

/-- A stripe descriptor as the vault holds it: for each live intent the stripe, the JSEQ and its dirty, zero and survivor
blocks, in multiples of 64 bytes; `log` are the intents in the write-through log. The spec names the content (R323); the layout is
the model's. DESIGN CHOICE (log 21). A page held outside D that the log does not hold yet is left out: its write has neither completed
nor reached a strip (R159, R344). DEDUCED (log 72). -/
def descBytes (log : List Nat) (key : Nat) (d : StripeDesc) : List Byte :=
  d.intents.flatMap fun i =>
    let b := leBytes 8 key ++ leBytes 8 i.jseq ++ numbersBytes ((i.blocks.map (·.1)).filter (outlives log i)) ++ numbersBytes i.zeros ++
      numbersBytes (i.survivors.map (·.1))
    takePad (64 * ceilDiv b.length 64) b

/-- The pages of a dump: those of intents whose method is not OPEN first, then the rest, oldest intent first (R350). DEDUCED
(log 72): pages held outside D are not among them, since a dump writes D (R351). -/
def dumpPages (s : State) : List Byte :=
  let ins := sortBy (fun a b : Intent => decide (a.root ≤ b.root)) (s.cache.stripes.flatMap fun p => p.2.intents)
  let order := (ins.filter fun i => i.method != .open_) ++ ins.filter fun i => i.method == .open_
  order.flatMap fun i => ((i.blocks.filter fun b => !i.wtOnly.contains b.1) ++ i.survivors).flatMap fun b => b.2.data ++ b.2.pi

/-- First LBA of a dump half (R353). -/
def halfBase (h : Nat) : Nat := if h = 0 then 1310720 else 2752512

/-- The vault header of a slot's drive (R354). -/
def headerBytes (s : State) (state slot : Nat) : List Byte :=
  let v := s.cache.vault
  let body := ascii "VLTH" ++ leBytes 2 1 ++ leBytes 1 state ++ leBytes 1 v.half ++ leBytes 8 (arrayIdOf s).toNat ++
    leBytes 8 s.sampled.claim.claim.toNat ++ leBytes 8 v.dumpTick ++ leBytes 8 v.epoch ++ leBytes 8 s.cache.durJseq ++
    leBytes 8 s.ledger.seq ++ leBytes 8 (dirtyLoad s) ++ leBytes 4 (if state = 3 then tabGet 0 v.counts slot else 0) ++
    leBytes 2 slot ++ leBytes 2 v.drives.length ++ leBytes 8 s.loader.imgId.toNat ++ zeros 40
  body ++ leBytes 8 (crc64 body).toNat

/-- Every vault drive's header written with a STATE: both copies, copy 0 first (R355). -/
def headerWrites (s : State) (state : Nat) : List Work :=
  s.cache.vault.drives.flatMap fun x =>
    areaWrites s x 1048576 (headerBytes s state x) true ++ areaWrites s x 1048704 (headerBytes s state x) true

/-- The drives of segment n: drive n mod N, and for its copy the next drive in order on another cluster, or else the next
(R353). -/
def segmentDrives (s : State) (n : Nat) : List Nat :=
  let ds := s.cache.vault.drives
  let m := ds.length
  if m ≤ 1 then ds
  else
    let order := (List.range (m - 1)).map fun i => nth 0 ds ((n + 1 + i) % m)
    let a := nth 0 ds (n % m)
    [a, (order.find? fun x => slotCluster s x != slotCluster s a).getD (nth 0 ds ((n + 1) % m))]

/-- A segment's 1 MiB: content, and a trailer with epoch, number, kind and CRC64 (R353). The places in the trailer are the
model's. DESIGN CHOICE (log 21). -/
def segmentBytes (epoch n kind : Nat) (content : List Byte) : List Byte :=
  let body := takePad 1048512 content ++ leBytes 8 epoch ++ leBytes 8 n ++ leBytes 4 kind ++ zeros 36
  body ++ leBytes 8 (crc64 body).toNat

/-- One segment placed on its drives, each storing its segments in the order they arrive (R353). -/
def placeSegment (kind : Nat) (a : List Work × State) (content : List Byte) : List Work × State :=
  let s := a.2
  let v := s.cache.vault
  let xs := segmentDrives s v.segments
  let bytes := segmentBytes v.epoch v.segments kind content
  let ws := xs.flatMap fun x =>
    areaWrites s x (halfBase v.half + 256 * tabGet 0 v.counts x) bytes (fuaOn s x)
  (a.1 ++ ws, { s with cache := { s.cache with vault := { v with
    segments := v.segments + 1
    counts := xs.foldl (fun t x => tabInsert t x (tabGet 0 v.counts x + 1)) v.counts } } })

/-- Content in segments of 1 MiB. -/
def placeContent (kind : Nat) (bs : List Byte) (a : List Work × State) : List Work × State :=
  (parts 1048512 (bs.length / 1048512 + 1) bs).foldl (placeSegment kind) a

/-! ### The dump (R348 to R350, R556) -/

/-- A dump is to begin: PWR_FAIL_N counts as asserted, or the sampled STOP is set (R348, R499, R561). -/
def dumpDue (s : State) : Bool := serving s && !dumping s && (s.cache.vault.failNow || s.sampled.stop)

/-- A power failure during PREPARE abandons the reload (R77). -/
def abandonReload (s : State) : State :=
  if s.loader.state != .prepare then s
  else
    endCmdOf s.loader.acceptedCtx 0xC { s with
      loader := { s.loader with state := .running, accepted := none, acceptedCtx := none, prepared := false, sizeChange := false }
      cache := { s.cache with reload3 := false }
      host := { s.host with stopped := false } }

/-- The data plane halts until a device reset (R349, R556); behind a thermal stop every DRV_PERST_N falls (R553). -/
def haltPlane (s : State) : State :=
  if !s.health.thermal then { s with halted := true }
  else { s with halted := true, drives := { s.drives with
    clusters := s.drives.clusters.map fun c => { c with perst := [false, false, false, false] } } }

/-- The append queue goes to the HBM journal (R350). -/
def flushJournal (s : State) : State :=
  let s1 := (batchJob s).elim s fun p => cancelJob p.1 s
  endBatch { s1 with cache := { s1.cache with batch := s1.cache.appendQ.length } }

/-- The dump half of a new epoch (R354). -/
def freeHalf (live : List (Nat × Nat)) : Nat :=
  let free := [0, 1].filter fun h => live.all fun p => p.2 != h
  match free with
  | h :: _ => h
  | [] => ((leastBy (fun a b : Nat × Nat => decide (a.1 < b.1)) live).map (·.2)).getD 0

/-- Phase of the dump changed. -/
def setDump (p : DumpPhase) (s : State) : State := { s with cache := { s.cache with vault := { s.cache.vault with dump := p } } }

/-- A dump begins on the fence holder: MOVING parcels abandoned (R278), journal head appended, merging buffer drained, SEAL appended,
headers DUMPING (R348, R350). -/
def beginDump (s0 : State) : State :=
  let s1 := flushJournal (raise 0xB06 (setDump .appending s0))
  let s2 := flushJournal (ledgerChange .seal 0 0 [] (drainAll (giveUpMoves s1)))
  let v := s2.cache.vault
  let s3 := { s2 with cache := { s2.cache with vault := { v with
    dump := .headers, dumpTick := s2.drone.count, epoch := v.top + 1, top := v.top + 1, half := freeHalf v.liveEpochs
    state := 1, drives := vaultSlots s2, segments := 0, counts := [] } } }
  postDump .vault (headerWrites s3 1) s3

/-- DUMP_START's effect (R77, R348, R349, R499, R555): a unit that is not fence holder stops its data plane; before restore
has ended nothing is dumped, and a fatal stop only halts. -/
def startDump (s0 : State) : State :=
  let s := abandonReload s0
  if !restoreEnded s then if s.sampled.stop then haltPlane s else s
  else if !fenceHolder s then haltPlane s
  else beginDump s

/-- DUMP_START (R348). -/
def execDumpStart (s : State) : Host.Outcome State Fault Refusal :=
  if dumpDue s then .next (startDump s) else .next s

/-- Every write of the dump's present phase has ended. -/
def vaultIdle (s : State) : Bool := s.jobs.all fun p => p.2.purpose != .vault || p.2.left == 0

/-- The finished plans of the dump. -/
def endVaultJobs (s : State) : State :=
  ((s.jobs.filter fun p => p.2.purpose == .vault).map (·.1)).foldl (fun t i => endJob i t) s

/-- The next phase of a dump posted, its STATE noted. -/
def dumpPhase (p : DumpPhase) (st : Nat) (ws : List Work) (s : State) : State :=
  let s1 := setDump p (endVaultJobs s)
  postDump .vault ws { s1 with cache := { s1.cache with vault := { s1.cache.vault with state := st } } }

/-- The steps of a dump that follow of themselves: journal and descriptors behind the DUMPING headers, the JOURNAL_SAFE
headers behind those, the SEALED headers behind the flush (R350). -/
def dumpStep (s : State) : State :=
  if !vaultIdle s || s.halted then s
  else
    match s.cache.vault.dump with
    | .headers =>
      let a := placeContent 1 (s.cache.stripes.flatMap fun p => descBytes s.cache.wtLog p.1 p.2)
        (placeContent 0 (s.cache.ring.flatMap (jrecBytes s)) ([], s))
      dumpPhase .journal 1 a.1 a.2
    | .journal => dumpPhase .safeHeaders 2 (headerWrites s 2) s
    | .flush => dumpPhase .sealing 3 (headerWrites s 3) s
    | _ => s

/-- DUMP_JOURNAL_SAFE (R350): every JOURNAL_SAFE header write has completed; page segments begin. -/
def execDumpJournalSafe (s : State) : Host.Outcome State Fault Refusal :=
  if serving s && s.cache.vault.dump == .safeHeaders && vaultIdle s then
    let a := placeContent 2 (dumpPages s) ([], s)
    .next (dumpPhase .pages 2 a.1 a.2)
  else .next s

/-- DUMP_FLUSH (R350): the pages are written; every vault drive is sent Flush. -/
def execDumpFlush (s : State) : Host.Outcome State Fault Refusal :=
  if serving s && s.cache.vault.dump == .pages && vaultIdle s then
    .next (dumpPhase .flush 2 (s.cache.vault.drives.map fun x => driveSub 0 x .flush 0 0 false [] 0) s)
  else .next s

/-- The dump is SEALED (R350, R556). -/
def endDump (s : State) : State :=
  let v := s.cache.vault
  haltPlane (raise 0xB07 (setDump .done { s with cache := { s.cache with vault := { v with
    liveEpochs := (v.liveEpochs.filter fun p => p.2 != v.half) ++ [(v.epoch, v.half)] } } }))

/-- JRN_DUMP_DONE (R350): the SEALED headers are written; the data plane halts. -/
def execJrnDumpDone (s : State) : Host.Outcome State Fault Refusal :=
  if serving s && s.cache.vault.dump == .sealing && vaultIdle s then .next (endDump (endVaultJobs s)) else .next s

/-- A dumping unit has lost the fence (R349): the dump stops, its epoch in the state it had. -/
def dumpFenceLost (s : State) : State := if dumping s then haltPlane s else s

/-! ### Ledger restore (R285, R579) -/

/-- At least one cluster is enabled, and bring-up has ended for every drive present (R579). -/
def drivesUp (s : State) : Bool :=
  s.drives.clusters.any (·.en) && s.drives.drives.all fun p =>
    p.2.step == .ready || p.2.step == .unassigned || p.2.step == .foreign || p.2.step == .stopped

/-- The copies of a checkpoint root agree (R285). -/
def agreedRoot : List RootFind → Option RootFind
  | [] => none
  | r :: t => if t.all fun x => x == r then some r else none

/-- The newest checkpoint root whose copies agree (R285). -/
def newestRoot (f : RestoreFind) : Option RootFind :=
  leastBy (fun a b : RootFind => decide (b.seq < a.seq)) (f.roots.filterMap agreedRoot)

/-- The ledger log from a SEQ on: records in SEQ order up to the first whose CRC or SEQ fails (R285). DEDUCED (log 63): the log goes on
behind a SEAL that an earlier outage left, which the next SEQ follows. -/
def readLog : Nat → List (List Byte) → List LRec
  | _, [] => []
  | n, bs :: t =>
    match parseRec bs with
    | none => []
    | some r => if r.seq = n + 1 then r :: readLog (n + 1) t else []

/-- The root's tables, and the lost-block list's home copy (R285, R379); ledger pages come from the home when they are needed, and what
the drive ports have seen of a slot stays. -/
def loadTables (f : RootFind) (lost : List Lost) (s : State) : State :=
  let s1 := { s with
    ledger := { s.ledger with
      seq := f.seq, ckptSeq := f.seq, logSeq := f.seq, log := [], entries := f.entries, pgt := f.pgt, slots := f.slots, migs := f.migs
      pages := [], dir := f.dir, dirTop := f.dirTop, homeBad := [], heldRuns := [] }
    host := { s.host with volumes := f.volumes }
    array := { s.array with lost := lost, lostDur := s.array.lostVer } }
  f.stats.foldl (fun t p => setStat p.1 { p.2 with
    refuse := (getStat s p.1).refuse, causes := (getStat s p.1).causes } t) s1

/-- A record of the log or the vault applied at restore: it stays in the log, on drives up to `logSeq`. -/
def applyHome (copied : Bool) (s : State) (r : LRec) : State :=
  let t := applyRec r s
  { t with ledger := { t.ledger with
    seq := r.seq, log := t.ledger.log ++ [r], logSeq := if copied then r.seq else t.ledger.logSeq } }

/-- LEDGER_RESTORE (R285): root and log; a unit whose resync or salvage has brought its ledger further keeps it (R480, R486). -/
def loadLedger (f : RestoreFind) (s : State) : State :=
  match newestRoot f with
  | none => s
  | some r =>
    let rs := readLog r.seq f.log
    if r.seq + rs.length < s.ledger.seq then s else rs.foldl (applyHome true) (loadTables r f.lost s)

/-- Ledger records held in the vault, applied behind those of the log (R285). -/
def applyHeld (rs : List JRec) (s : State) : State :=
  rs.foldl (fun t r => match r with
    | .ledger l =>
      if l.seq = t.ledger.seq + 1 then applyHome false t l else t
    | _ => t) s

/-- PENDING records of an entry cleared (R285). -/
def unpend : Option Reloc → Option Reloc
  | some r => if r.pending then none else some r
  | none => none

/-- MOVING entries are abandoned and PENDING records cleared, their runs freed (R285). -/
def settleEntries (s : State) : State :=
  let s1 := (s.ledger.migs.map (·.1)).foldl (fun t k => abandonMove k t) s
  let pend := (s1.ledger.entries.filter fun p => p.2.relocs.any (·.pending)).map (·.1)
  let s2 := pend.foldl (fun t k =>
    changeEntry .relocStart k (fun e => { e with reloc0 := unpend e.reloc0, reloc1 := unpend e.reloc1 }) [] t) s1
  (s2.ledger.heldRuns.map (·.1)).foldl (fun t k => releaseKept k t) s2

/-- A ready drive takes its part in the restored ledger (R390, R399, R400): its SLOT change where the slot names another
drive, its return where it had failed, its joining and its label. -/
def joinRestored (s : State) (pos : Nat) (d : Drive) : State :=
  match d.slot with
  | none => s
  | some n =>
    match failedSlot s d.info.serial with
    | some m =>
      if m ≠ n then haltDrive pos .stopped s
      else
        let s1 := raise 0xBAB (changeSlot n id (fun x => { x with returned := true }) s)
        if (getSlot s1 n).failWhy < 5 then haltDrive pos .stopped s1 else s1
    | none =>
      let known := (getStat s n).serial == d.info.serial && (getStat s n).cluster == some (pos / 32)
      let s1 := if known then s else
        changeSlot n (fun r => { r with dataExt := dataExtOf d.info.nsze })
          (fun x => { x with serial := d.info.serial, cluster := some (pos / 32) }) s
      let s2 := joinSlot n s1
      if d.info.label_.isNone && slotServes s2 n then writeLabel n s2 else s2

/-- Every ready drive joins the restored ledger. -/
def joinAll (s : State) : State :=
  (s.drives.drives.filter fun p => p.2.step == .ready).foldl (fun t p => joinRestored t p.1 p.2) s

/-! ### The vault epoch (R340, R357) -/

/-- A vault header read back: none where MAGIC, VERSION or CRC is wrong (R354, R357). -/
def parseHead (bs : List Byte) : Option VaultHead :=
  if slice bs 0 4 != ascii "VLTH" || field bs 4 2 != 1 || (crc64 (slice bs 0 0x78)) != fieldW bs 0x78 then none
  else some {
    epoch := field bs 0x20 8, state := field bs 6 1, half := field bs 7 1, arrayId := fieldW bs 8, claim := fieldW bs 0x10
    dumpTick := field bs 0x18 8, jseqLast := field bs 0x28 8, bytes := field bs 0x38 8 }

/-- What the header copies found of an epoch say of it. DEDUCED (log 63): the copy with the highest STATE counts, since a STATE
is written only after what it promises is on every drive (R350, R358). -/
def VaultFind.head (v : VaultFind) : Option VaultHead :=
  leastBy (fun a b : VaultHead => decide (b.state < a.state)) (v.headers.filterMap parseHead)

/-- The epochs found with a valid header, of the array, that restore may use, highest first (R357). -/
def epochsOf (s : State) (f : RestoreFind) : List (VaultHead × VaultFind) :=
  sortBy (fun a b => decide (b.1.epoch ≤ a.1.epoch))
    ((f.vaults.filterMap fun v => v.head.map fun h => (h, v)).filter fun p =>
      (p.1.state == 2 || p.1.state == 3) && p.1.arrayId == arrayIdOf s)

/-- VAULT_EPOCH_SELECT (R357): the first epoch whose claim is not below the highest found, and the epochs below it; each
discarded one raises JRN_VAULT_STALE. -/
def chooseEpoch (f : RestoreFind) : List (VaultHead × VaultFind) → State → Option (VaultHead × VaultFind × List VaultHead) × State
  | [], s => (none, s)
  | v :: r, s =>
    if v.1.claim.toNat < f.claim.toNat then chooseEpoch f r (raise 0xB0A s) else (some (v.1, v.2, r.map (·.1)), s)

/-- The epoch from which a page missing in an epoch is taken: none where that is SEALED, else the next lower SEALED one (R357). -/
def sealedBelow (h : VaultHead) (rest : List VaultHead) : Option Nat :=
  if h.state = 3 then none else (rest.find? fun x => x.state == 3).map (·.epoch)

/-- The journal from its tail to the first missing record or break in the JSEQs (R340, R357). -/
def readJournal : Nat → List (Option JRec) → List JRec
  | _, [] => []
  | _, none :: _ => []
  | n, some r :: t =>
    let j := r.jseq
    if j = 0 then r :: readJournal n t
    else if n ≠ 0 ∧ j ≠ n + 1 then []
    else r :: readJournal j t

/-- Live intents: neither superseded nor retired (R340). -/
def liveRecords (rs : List JRec) : List IntentRec :=
  (rs.filterMap fun r => match r with
    | .intent i => some i
    | _ => none).filter fun i =>
      rs.all fun r => match r with
        | .intent x => x.prev != i.jseq
        | .retire _ _ old => old != i.jseq
        | _ => true

/-- The descriptor found for an intent: dirty blocks, zero blocks and survivors. -/
def findDesc (ds : List DescFind) (i : IntentRec) : Option (List Nat × List Nat × List Nat) :=
  (ds.find? fun d => d.stripe == i.stripe).bind fun d => (d.intents.find? fun x => x.1 == i.jseq).map (·.2)

/-- Pages that are still to come: empty until restore reads them. -/
def awaited (tick : Nat) (bs : List Nat) : Tab CBlock :=
  bs.foldl (fun t b => tabInsert t b { data := [], pi := [], accepted := tick }) []

/-- A live intent reinstated from its record and descriptor. -/
def IntentRec.restore (r : IntentRec) (tick : Nat) (d : List Nat × List Nat × List Nat) : Intent :=
  { Intent.fresh r.jseq r.tick r.oldGen false with
    prev := r.prev, method := r.method, wt := r.wt, degraded := r.degraded, zgroup := r.zgroup, newGen := r.newGen
    stripMask := r.stripMask, blocks := awaited tick d.1, zeros := d.2.1, survivors := awaited tick d.2.2 }

/-- Every data block of a stripe enters the lost-block list with a cause (R357). -/
def loseStripe (cause key : Nat) (s : State) : State :=
  match stripeVol s key with
  | none => s
  | some v =>
    let t := addLost none [Lost.runEntry cause (keyVol (key / 256)) (v.firstOf key) v.stripe] s
    { t with cache := { t.cache with lostCnt := t.cache.lostCnt + BitVec.ofNat 64 v.stripe } }

/-- One live intent reinstated, or its stripe lost for want of a descriptor (R356, R357). -/
def restoreIntent (ds : List DescFind) (s : State) (r : IntentRec) : State :=
  match findDesc ds r with
  | none => loseStripe 5 r.stripe s
  | some d => setDesc r.stripe { intents := (getDesc s r.stripe).intents ++ [r.restore s.drone.count d] } s

/-- Every volume READ_ONLY after a gap in journal or descriptors (R357, R486). -/
def readOnlyAll (s : State) : State :=
  s.host.volumes.foldl (fun t p => if p.2.state = .online ∨ p.2.state = .offline then changeVol p.1 (some { p.2 with state := .readOnly }) t else t) s

/-- A fresh scrub pass without the pace limit (R357, R486). -/
def scrubNow (s : State) : State := { s with array := { s.array with scrub := some { newScrub s with nopace := true } } }

/-- What a gap in the journal or the descriptors brings (R357). -/
def journalGap (s : State) : State := scrubNow (readOnlyAll (raise 0xB08 s))

/-- A live intent names a code family absent from the running image (R358). -/
def familyMissing (s : State) : Bool :=
  s.cache.stripes.any fun p => (stripeVol s p.1).any fun v =>
    !((s.image.map (·.families)).getD []).any fun f => f.id == v.family

/-- Roots of every live intent. -/
def allRoots (s : State) : List Nat := s.cache.stripes.flatMap fun p => p.2.intents.map (·.root)

/-- The phase of restore changed. -/
def setRestore (p : RestorePhase) (s : State) : State :=
  { s with cache := { s.cache with vault := { s.cache.vault with restore := p } } }

/-- The chosen epoch loaded: journal, descriptors and what the registers show of it (R356, R357, R360). -/
def loadEpoch (h : VaultHead) (v : VaultFind) (rest : List VaultHead) (s : State) : State :=
  let rs := readJournal 0 v.journal
  let live := liveRecords rs
  let gap := v.journal.any Option.isNone || live.any fun i => (findDesc v.descs i).isNone
  let w := s.cache.vault
  let s1 := { s with cache := { s.cache with
    stripes := [], ring := rs, nextJseq := max h.jseqLast (maxBy JRec.jseq rs) + 1, durJseq := max h.jseqLast (maxBy JRec.jseq rs)
    vault := { w with
      epoch := h.epoch, state := h.state, half := h.half, dumpTick := h.dumpTick, claim := h.claim, mib := h.bytes / 1048576
      timeUs := if h.state = 3 then v.timeUs else 0xFFFFFFFF, liveEpochs := [(h.epoch, h.half)], below := sealedBelow h rest } } }
  let s2 := live.foldl (restoreIntent v.descs) (applyHeld rs s1)
  let s3 := if gap then journalGap s2 else s2
  { s3 with cache := { s3.cache with vault := { s3.cache.vault with restored := allRoots s3 } } }

/-- An epoch whose intents name a missing family is held (R358). -/
def holdEpoch (s : State) : State :=
  raise 0xB0B { s with cache := { s.cache with vault := { s.cache.vault with restore := .held, held := true } } }

/-- The slots in service whose drive is not ready (R579). -/
def slotsWaiting (s : State) : List Nat :=
  (vaultSlots s).filter fun n => !((slotDrive s n).any fun p => p.2.step == .ready)

/-- Restore goes on once every drive in service is ready (R356, R358, R579): to the pages of the epoch, or to replay where
there is none. -/
def restoreStep (s : State) : State :=
  if s.cache.vault.restore = .ledger ∧ (slotsWaiting s).isEmpty ∧ !s.cache.vault.paused then
    let s1 := joinAll s
    if familyMissing s1 then holdEpoch s1
    else setRestore (if s1.cache.vault.liveEpochs.isEmpty then .replay else .pages) s1
  else s

/-- The volumes of a salvage are OFFLINE until it ends (R486), by ledger changes (R265). -/
def offlineAll (s : State) : State :=
  if s.pair.claim.unit ≠ .salvage then s
  else s.host.volumes.foldl (fun t p => if p.2.state = .online then changeVol p.1 (some { p.2 with state := .offline }) t else t) s

/-- Restore begins (R285, R356, R579): without a root it ends at once with an empty placement state. `held` is what a salvage
puts between the ledger and the vault (R486). -/
def beginRestore (f : RestoreFind) (held : State → State) (s : State) : State :=
  let w := s.cache.vault
  let s0 := { s with cache := { s.cache with vault := { w with
    top := max w.top (maxBy (·.epoch) (f.vaults.filterMap VaultFind.head)), restoreAt := s.clock } } }
  match newestRoot f with
  | none => joinAll (assignWaiting (setRestore .ended (offlineAll (held s0))))
  | some _ =>
    let s1 := setRestore .ledger (held (loadLedger f s0))
    let c := chooseEpoch f (epochsOf s1 f) s1
    let s2 := c.1.elim c.2 fun v => loadEpoch v.1 v.2.1 v.2.2 c.2
    restoreStep (assignWaiting (offlineAll (settleEntries s2)))

/-- A joining unit reads the ledger home for its resync (R459, R480). -/
def loadsHome (s : State) : Bool :=
  (s.pair.claim.unit == .standbyJoining && !s.pair.powerOwn) || (s.pair.claim.unit == .unsynced && s.pair.phase ≤ 2)

/-- RESTORE_DRIVE_TIMEOUT (R579): a drive in service is not ready 60 s after restore began. -/
def execRestoreDriveTimeout (slot : Nat) (s : State) : Host.Outcome State Fault Refusal :=
  let v := s.cache.vault
  if serving s && v.restore == .ledger && !v.paused && decide (v.restoreAt + 60000000000 ≤ s.clock) &&
      (slotsWaiting s).contains slot then
    .next (restoreStep (declareFailed slot 2 s))
  else .next s

/-! ### Pages and replay (R340, R341, R352, R356 to R358) -/

/-- A block that restore awaits and has not got. -/
def CBlock.missing (b : CBlock) : Bool := b.data.isEmpty

/-- A page put where it belongs: over the awaited block or survivor of the intent that names it. -/
def putPage (s : State) (p : PageFind) : State :=
  setDesc p.stripe { intents := (getDesc s p.stripe).intents.map fun i =>
    if i.jseq ≠ p.jseq ∨ (p.epoch = 0 ∧ !i.wt) then i
    else
      let fill := fun (t : Tab CBlock) => t.map fun b =>
        if b.1 = p.block ∧ b.2.missing then (b.1, { b.2 with data := takePad 4096 p.data, pi := takePad (piOf s p.stripe) p.pi })
        else b
      { i with blocks := fill i.blocks, survivors := fill i.survivors } } s

/-- The pages that restore uses: those of its epoch, then those of the SEALED epoch below for what is missing there (R357), and those of
the write-through log (R344). -/
def usedPages (s : State) (pages : List PageFind) : List PageFind :=
  let v := s.cache.vault
  (pages.filter fun p => p.epoch == v.epoch && p.epoch != 0) ++ pages.filter fun p => v.below == some p.epoch || p.epoch == 0

/-- An intent without its unsaved pages: their blocks leave it, or stand as zeros where a torn destage must write them. -/
def dropMissing (i : Intent) : Intent :=
  let gone := (i.blocks.filter fun b => b.2.missing).map (·.1)
  { i with
    blocks := i.blocks.filter fun b => !b.2.missing
    survivors := i.survivors.filter fun b => !b.2.missing
    zeros := if i.method = .open_ then i.zeros else i.zeros ++ gone }

/-- The blocks of unsaved pages of a stripe enter the lost-block list with a cause (R352, R486). -/
def loseUnsaved (cause : Nat) (s : State) (p : Nat × StripeDesc) : State :=
  match stripeVol s p.1 with
  | none => s
  | some v =>
    let bs := sortBy (fun a b => decide (a ≤ b)) (p.2.intents.flatMap fun i =>
      (i.blocks.filter fun b => b.2.missing).map fun b => v.firstOf p.1 + b.1).eraseDups
    if bs.isEmpty then s
    else
      let s1 := setDesc p.1 { intents := p.2.intents.map dropMissing } s
      let s2 := (p.2.intents.filter fun i => i.method == .open_ && (dropMissing i).dirty.isEmpty).foldl
        (fun t i => retireEmpty p.1 i.root t) s1
      let s3 := addLost none (runEntries cause (keyVol (p.1 / 256)) bs) s2
      { s3 with cache := { s3.cache with lostCnt := s3.cache.lostCnt + BitVec.ofNat 64 bs.length } }

/-- Every unsaved page's blocks listed; JRN_DUMP_SHORT where there are any (R352). -/
def losePages (cause : Nat) (s : State) : State :=
  let short := s.cache.stripes.any fun p => p.2.intents.any fun i => i.blocks.any fun b => b.2.missing
  let s1 := s.cache.stripes.foldl (loseUnsaved cause) s
  let s2 := { s1 with cache := { s1.cache with stripes := tabMap (fun _ (d : StripeDesc) =>
    { intents := d.intents.map fun i => { i with survivors := i.survivors.filter fun b => !b.2.missing } }) s1.cache.stripes } }
  raiseIf short 0xB08 s2

/-- JRN_RESTORE_DONE (R356): the restored pages are in place; a salvage lists unsaved pages with CAUSE 4 (R486). -/
def execJrnRestoreDone (pages : List PageFind) (s : State) : Host.Outcome State Fault Refusal :=
  if serving s && s.cache.vault.restore == .pages && !s.cache.vault.paused then
    .next (setRestore .replay (raise 0xB09 (losePages (if s.pair.claim.unit = .salvage then 4 else 5) ((usedPages s pages).foldl putPage s))))
  else .next s

/-- A torn destage is to be rewritten (R340). -/
def markReplay (i : Intent) : Intent :=
  if i.method = .open_ then i else { i with replay := true, phase := .open_, eligible := true }

/-- Replay (R340): every live intent that is not OPEN is rewritten, in JSEQ order; OPEN stripes stay dirty. -/
def replay (s : State) : State :=
  let torn := sortBy (fun a b : Nat × Intent => decide (a.2.jseq ≤ b.2.jseq))
    (s.cache.stripes.flatMap fun p => (p.2.intents.filter fun i => i.method != .open_ && i.phase != .retiring).map fun i => (p.1, i))
  let s1 := torn.foldl (fun t p => modIntent p.1 p.2.root markReplay t) s
  let s2 := { s1 with cache := { s1.cache with vault := { s1.cache.vault with replaying := torn.map (·.2.root) } } }
  torn.foldl (fun t p => (findIntent t p.1 p.2.root).elim t fun i => planDestage p.1 i t) s2

/-- REPLAY (R340). -/
def execReplay (s : State) : Host.Outcome State Fault Refusal :=
  if serving s && s.cache.vault.restore == .replay && !s.cache.vault.paused && !s.cache.vault.failNow then
    .next (setRestore .destage (replay s))
  else .next s

/-- Replay and the destage of what exceeds the cache have ended (R356, R579). -/
def replayOver (s : State) : Bool :=
  s.cache.vault.restore == .destage && s.cache.vault.replaying.all (rootRetired s) &&
    decide (dirtyLoad s ≤ s.cache.sizeMib * 1048576)

/-! ### Release of an epoch (R358) -/

/-- Every intent that the live epoch restored has retired. -/
def epochOver (s : State) : Bool :=
  let v := s.cache.vault
  !v.liveEpochs.isEmpty && restoreEnded s && !v.held && v.restored.all (rootRetired s)

/-- The epoch's headers are written RELEASED (R358). -/
def releaseEpoch (s : State) : State :=
  let v := s.cache.vault
  let s1 := { s with cache := { s.cache with vault := { v with state := 4, liveEpochs := [], restored := [], drives := vaultSlots s } } }
  plan .vault .journal false 0 (headerWrites s1 4) s1

/-- EPOCH_RELEASE (R358). -/
def execEpochRelease (s : State) : Host.Outcome State Fault Refusal :=
  if serving s && decides s && !dumping s && epochOver s then .next (releaseEpoch s) else .next s

end Sys2Proof.Machine
end

