-- ==== Sys2Proof/Machine/Link.lean ====
section
/-! DEFINITION. Unit states and claims as they are written, HELLO, and the Epong link controller (14: R451 to R456, R474,
R475, R478, R570). -/

namespace Sys2Proof.Machine

open Sys2Proof

/-! ### EPG_CLAIM (R25, R475, R490) -/

/-- The pair sequencer's part of the state changed. -/
def modEpg (f : Pair → Pair) (s : State) : State := { s with pair := f s.pair }

/-- Both words of EPG_CLAIM written; SEQ counts every change (R490). -/
def setClaim (c : Word) (u : UnitState) (s : State) : State :=
  let k := s.pair.claim
  if k.claim = c ∧ k.unit = u then s
  else modEpg (fun p => { p with claim := { claim := c, unit := u, seq := k.seq + 1 } }) s

/-- The unit state written. -/
def setUnit (u : UnitState) (s : State) : State := setClaim s.pair.claim.claim u s

/-- A claim seen elsewhere becomes this unit's EPG_CLAIM (R476). -/
def adoptClaim (c : Word) (s : State) : State := setClaim c s.pair.claim.unit (seeClaim c s)

/-- The copy of a unit that stops applying is invalid (R84, R465, R475, R484): cache, ledger, lost-block list and volumes are
to come again from the ledger home and the active; nothing is buffered and no digest waits. -/
def dropCopy (s : State) : State :=
  let parity := (s.jobs.filter fun p => match p.2.purpose with
    | .parity _ _ => true
    | _ => false).map (·.1)
  let t := parity.foldl (fun u i => cancelJob i u) s
  { t with
    cache := { t.cache with
      stripes := [], appendQ := [], batch := 0, ring := [], vault := { t.cache.vault with restore := .waiting, restored := [] } }
    ledger := { t.ledger with
      entries := [], pgt := [], slots := [], migs := [], freeWait := [], snapshot := none, seq := 0, ckptSeq := 0, ckptRun := none
      ckptStage := 0, log := [], logSeq := 0, pages := [], dir := [], dirTop := 0, homeBad := [], missing := [], compact := [], replace := []
      heldRuns := [] }
    array := { t.array with lost := [], lostDur := t.array.lostVer }
    host := { t.host with volumes := [] }
    pair := { t.pair with
      buffer := [], bufferOk := false, dcheck := [], ownRecs := [], dins := [], retires := [], manifest := [], phase := 0
      iseq := 0, appliedIseq := 0, mirrored := false, handover := none
      digest := { ledger := [], parity := [], lseq := 0, jseq := 0 } } }

/-! ### HELLO (R478) -/

/-- The HELLO that the unit sends. -/
def helloOf (s : State) : Frame :=
  .hello (arrayIdOf s) s.dieId s.pair.claim.unit s.pair.claim.claim ((s.image.map (·.digests)).getD []) s.ledger.seq

/-- A HELLO sent; the next one is due 100 ms later. -/
def sendHello (s : State) : State :=
  emit (.frame s.drone.count (helloOf s)) (modEpg (fun p => { p with helloAt := s.clock }) s)

/-! ### The link controller (R452 to R454, R570) -/

/-- The link controller changed. -/
def modLink (f : Link → Link) (s : State) : State := modEpg (fun p => { p with link := f p.link }) s

/-- Mirroring ends, and with it a resync (R461 to R463). -/
def stopMirror (s : State) : State := modEpg (fun p => { p with mirrored := false, manifest := [], baseLeft := 0 }) s

/-- What a link loss does to the pair sequencer (R454, R461, R472, R482): mirroring and resync end on the active; on another
unit the post reads start afresh, and a power failure counts from here. -/
def pairLoss (s : State) : State :=
  let p := s.pair
  let s1 := { s with
    cache := { s.cache with vault := { s.cache.vault with failLow := s.cache.vault.failNow } }
    pair := { p with
      partner := if p.partner = 0 then 0 else 4
      posts := p.posts.map fun x => { x with base := none, adv := false }
      stallFrom := none, lostRaised := false } }
  if p.claim.unit = .active then modEpg (fun q => { q with phase := 0 }) (stopMirror s1)
  else modEpg (fun q => { q with mirrored := false }) s1

/-- The link is no longer in L0; frames not delivered are discarded and numbering starts afresh (R454). -/
def linkDown (l : Link) (now : Nat) : Link :=
  { l with
    l0 := false, up := false, training := false, l0At := now, txSeq := 0, txKeep := [], replayOf := 0, replayN := 0
    rxSeq := 0, rxCount := 0 }

/-- Link loss declared (R454), once until the link is up again. -/
def declareLoss (s : State) : State :=
  let l := s.pair.link
  let s1 := modLink (fun x => linkDown x s.clock) s
  if l.lossDecl then s1
  else pairLoss (raise 0xAC0 (modLink (fun x => { x with lossDecl := true, losses := sat 0xFFFF (l.losses + 1) }) s1))

/-- The link controller is at work: the loader has passed the boot ROM and the partner is present (R551, R570). -/
def linkOn (s : State) : Bool := mgmtUp s && !s.pair.link.prsntN

/-- A flit with a valid CRC: the link is in L0, and a retrain that was running has ended. -/
def linkAlive (now : Nat) (l : Link) : Link :=
  { l with
    l0 := true, l0At := if l.l0 then l.l0At else now, training := false, lastFlit := now
    replayN := if l.training then 0 else l.replayN }

/-- A payload flit with a valid CRC (R453): the next one in order is passed on and every 16th acknowledged; one ahead of a
gap is refused; one passed on before is dropped. -/
def acceptFlit (fseq : Nat) (s : State) : State :=
  let l := s.pair.link
  if fseq % 1024 = l.rxSeq then
    let s1 := modLink (fun x => { x with rxSeq := (l.rxSeq + 1) % 1024, rxCount := l.rxCount + 1 }) s
    if (l.rxCount + 1) % 16 = 0 then emit (.flitAck (fseq % 1024) false) s1 else s1
  else if (fseq + 1024 - l.rxSeq) % 1024 < 512 then emit (.flitAck l.rxSeq true) s
  else s

/-- HDR.FSEQ of a flit (R452). -/
def flitSeq (hdr : List Byte) : Nat := field hdr 0 2 % 1024

/-- HDR.KIND of a flit: 0 idle, 1 payload, 2 acknowledgement (R452). -/
def flitKind (hdr : List Byte) : Nat := field hdr 0 2 / 1024 % 4

/-- The CRC of a flit is right (R452). -/
def flitGood (hdr payload crc : List Byte) : Bool := crc64 (hdr ++ payload) == fieldW crc 0

/-- FLIT_RECEIVE (R452, R453): a flit arrives, its bytes as FEC has left them, HDR, PAYLOAD and CRC; one whose CRC fails is refused. -/
def execFlitReceive (hdr payload crc : List Byte) (s : State) : Host.Outcome State Fault Refusal :=
  if !linkOn s then .next s
  else if !flitGood hdr payload crc then
    if s.pair.link.l0 then .next (emit (.flitAck s.pair.link.rxSeq true) s) else .next s
  else
    let s1 := modLink (linkAlive s.clock) s
    if flitKind hdr = 1 then .next (acceptFlit (flitSeq hdr) s1) else .next s1

/-- Kept payload flits freed through an acknowledged one (R453). -/
def ackFlits (fseq : Nat) (l : Link) : Link :=
  if l.txKeep.contains fseq then { l with txKeep := (l.txKeep.dropWhile (· != fseq)).drop 1, replayN := 0 } else l

/-- The link leaves L0 to retrain (R453). -/
def retrain (s : State) : State :=
  modLink (fun l => { l with training := true, l0 := false, l0At := s.clock, retrains := sat 0xFFFF (l.retrains + 1) }) s

/-- Payload flits replayed from a refused one onward (R453); after eight replays of one flit the link retrains. -/
def replayFlits (fseq : Nat) (s : State) : State :=
  let l := s.pair.link
  if !l.txKeep.contains fseq then s
  else
    let again := l.txKeep.dropWhile (· != fseq)
    let n := if l.replayOf = fseq then l.replayN + 1 else 1
    let s1 := modLink (fun x => { x with
      txKeep := again, replayOf := fseq, replayN := n, sent := x.sent + again.length
      replays := sat 0xFFFFFFFF (x.replays + again.length) }) s
    let s2 := emits (again.map Output.flitReplay) s1
    if 8 ≤ n then retrain s2 else s2

/-- FLIT_ACK_RECEIVE (R453): an acknowledgement frees flits, a refusal replays them. -/
def execFlitAckReceive (fseq : Nat) (refuse : Bool) (s : State) : Host.Outcome State Fault Refusal :=
  if !linkOn s then .next s
  else
    let s1 := modLink (linkAlive s.clock) s
    if refuse then .next (replayFlits fseq s1) else .next (modLink (ackFlits fseq) s1)

/-- RETRAIN_TIMEOUT (R453, R454): a retrain has not reached L0 within 2 ms, so the link is down. -/
def execRetrainTimeout (s : State) : Host.Outcome State Fault Refusal :=
  if mgmtUp s && s.pair.link.training && decide (s.pair.link.l0At + 2000000 ≤ s.clock) then .next (declareLoss s) else .next s

/-- The link is in L0, retraining or up, so that it can be lost. -/
def linkLive (s : State) : Bool := s.pair.link.l0 || s.pair.link.training || s.pair.link.up

/-- EPG_LINK_DOWN (R454): the link goes down. -/
def execEpgLinkDown (s : State) : Host.Outcome State Fault Refusal :=
  if mgmtUp s && linkLive s then .next (declareLoss s) else .next s

/-- FLIT_SILENCE_TIMEOUT (R454): no flit with a valid CRC has arrived for 100 µs. -/
def execFlitSilenceTimeout (s : State) : Host.Outcome State Fault Refusal :=
  if mgmtUp s && s.pair.link.l0 && decide (s.pair.link.lastFlit + 100000 ≤ s.clock) then .next (declareLoss s) else .next s

/-- The link is up (R454, R475, R478): an ISOLATED unit joins again, and HELLO is sent. -/
def linkUp (s : State) : State :=
  let s1 := raise 0xAC1 (modLink (fun l => { l with up := true, lossDecl := false }) s)
  let s2 := if s1.pair.claim.unit = .isolated then setUnit .standbyJoining (dropCopy s1) else s1
  if pairEn s2 && s2.loader.state == .running then sendHello s2 else s2

/-- EPG_LINK_UP (R454): the link has held L0 for 1 s. -/
def execEpgLinkUp (s : State) : Host.Outcome State Fault Refusal :=
  let l := s.pair.link
  if linkOn s && l.l0 && !l.up && decide (l.l0At + 1000000000 ≤ s.clock) then .next (linkUp s) else .next s

/-- The payload flits sent in a tick pass an Epong trial in turn (R512). -/
def strikeFlits : Nat → State → State
  | 0, s => s
  | n + 1, s =>
    let r := epongUnit s
    strikeFlits n (if r.1 then emit (.flitStruck ((trialActs s).map (·.kind) |>.getD 0)) r.2 else r.2)

/-- The flits of the ending tick counted by an Epong trial (R512). -/
def countFlits (s : State) : State :=
  let n := s.pair.link.sent
  modLink (fun l => { l with sent := 0, charged := 0 }) (if (trialActs s).any (·.epong) then strikeFlits n s else s)

end Sys2Proof.Machine
end

