-- ==== Sys2Proof/Machine/Reload.lean ====
section
/-! DEFINITION. The loader's course (02): verification, full reload, live replacement of CODE and PLAC. -/

namespace Sys2Proof.Machine

open Sys2Proof

/-! ### Reading a flash copy (R72) -/

/-- Bytes of flash up to a length: beyond what was programmed they read as the erased value. -/
def padErased (n : Nat) (bs : List Byte) : List Byte := bs ++ List.replicate (n - bs.length) 0xFF

/-- A flash copy as the loader reads it: HEAD, and the rest up to IMG_LEN once that may be an image's length (R72). -/
def flashBytes (bs : List Byte) : List Byte :=
  let n := field (padErased 64 bs) 0x18 4
  if 64 ≤ n ∧ n ≤ 4194304 then padErased n bs else padErased 64 bs

/-- The load of a flash copy: 0 primary, 1 secondary. -/
def flashJob (s : State) (copy : Nat) : LoadJob :=
  { copy := copy, ctx := none, written := none
    bytes := flashBytes (if copy = 0 then s.flash.primary else s.flash.secondary) }

/-! ### APPLY (R28, R76, R212, R228, R318, R515, R574, R576) -/

/-- The host side after APPLY: every ring at its reset values, nothing in progress; volumes and functions stay. -/
def HostSide.applied (h : HostSide) : HostSide :=
  { HostSide.reset with volumes := h.volumes, funcs := h.funcs, nextSeq := h.nextSeq }

/-- The scheduler after APPLY: no work; DRN_COUNT and the counters since device reset stay (R24, R110). -/
def Drone.applied (d : Drone) : Drone :=
  { Drone.reset with
    count := d.count, overrunCnt := d.overrunCnt, lastTick := d.lastTick, lastRes := d.lastRes, lastKind := d.lastKind
    lateCnt := d.lateCnt, hungCnt := d.hungCnt, grants := d.grants, nextId := d.nextId }

/-- The SMC after APPLY (R318): invalidated, its registers at their reset values, its counters kept. -/
def Smc.applied (c : Smc) : Smc :=
  { smcClear c with prefetchEn := true, seqDetEn := true, pf0 := SmcPf.reset, pf1 := SmcPf.reset }

/-- The placement registers after APPLY; without the ledger tier when a partition size changed (R76, R286). -/
def Ledger.applied (sizes : Bool) (l : Ledger) : Ledger :=
  { l with
    spread := 50, wearSpread := 200, maxMoving := 16, migNew := none, pgSel := 0, pgData := []
    pages := if sizes then [] else l.pages }

/-- The write cache after APPLY: its contents stay, its orders do not (R76, R360). -/
def Cache.applied (c : Cache) : Cache :=
  { c with reload3 := false, batch := 0, wtForce := false, destageAll := false, cleanWait := false }

/-- An intent whose destage the planes' reset cut short: it is destaged again, rewritten where strip writes may have begun. -/
def Intent.reopen (i : Intent) : Intent :=
  if i.phase = .retiring then i
  else if i.method = .open_ then { i with phase := .open_, eligible := i.eligible || i.phase != .open_ }
  else markReplay i

/-- The planes reset and an image applied (R76, step 4): STATE reads APPLY. -/
def applyImage (im : Image) (s0 : State) : State :=
  let s := endTrial 4 (swapRouting s0.image (some im) s0)
  let h := hemImage (s.image.map (·.hemd)) im.hemd s.hem
  { s with
    image := some im
    loader := { s.loader with state := .apply, job := none, prepared := false }
    host := s.host.applied
    drone := s.drone.applied
    jobs := []
    dma := Dma.reset
    smc := s.smc.applied
    ledger := s.ledger.applied s.loader.sizeChange
    cache := { s.cache.applied with stripes := tabMap (fun _ (d : StripeDesc) => { intents := d.intents.map Intent.reopen }) s.cache.stripes }
    array := { s.array with
      active := [], lostSel := 0, lostData := [], parallel := 64, parallelNew := none, failSlot := 0, widened := false }
    pair := { s.pair with last := 0, result := 0, volClear := 0, volRefused := false }
    drives := { s.drives with arrived := [], retried := [] }
    reeds := { s.reeds with dmxKeys := [], dmxMisses := 0, votes := [], wiring := wiringOf im s }
    hem := { h with calDirtyMax := s.hem.calDirtyMax } }

/-! ### Verification (R70 to R74, R84, R575) -/

/-- A partition size of HBM differs between two images (R76). -/
def sizesDiffer (a b : Image) : Bool :=
  a.part.hbCache != b.part.hbCache || a.part.hbJournal != b.part.hbJournal || a.part.hbLedger != b.part.hbLedger ||
    a.part.hbFirmware != b.part.hbFirmware

/-- An image refused (R70, R72, R74): the secondary copy is tried behind the primary, else the loader returns to its idle
state and a waiting LOAD starts. -/
def refuseImage (j : LoadJob) (e : ImgRefusal) (s : State) : State :=
  let s1 := showRefusal j.copy e { s with loader := { s.loader with job := none, state := idleState s } }
  if j.copy = 0 then startLoad (flashJob s1 1) s1 else startWaiting (endCmdOf j.ctx 4 s1)

/-- An accepted image shown in GLB_LDR_STAT. -/
def showAccepted (j : LoadJob) (im : Image) (s : State) : State :=
  { s with loader := { s.loader with
    copy := j.copy, reason := 0, section_ := 0xF, offset := 0xFFFFFFFF, job := none, accepted := some im, acceptedCtx := j.ctx
    prepared := false, sizeChange := s.image.any (sizesDiffer im) } }

/-- The verdict on the image in VERIFY: from LOADER straight to APPLY (R575), from RUNNING to PREPARE (R76). -/
def verdict (j : LoadJob) (s : State) : State :=
  match imageRefusal s.mgmt.keys j.written j.bytes with
  | some e => refuseImage j e s
  | none =>
    if s.image.isSome && s.pair.claim.unit == .active && s.pair.mirrored then
      refuseImage j { reason := 0x15, sec := 0xF, pos := 0xFFFFFFFF } s
    else
      let im := parseImage j.bytes
      let s1 := showAccepted j im s
      if s.image.isNone then applyImage im s1 else { s1 with loader := { s1.loader with state := .prepare } }

/-- IMAGE_VERIFY_DONE (R70): the loader has finished its checks of the image in VERIFY. -/
def execImageVerifyDone (s : State) : Host.Outcome State Fault Refusal :=
  match s.loader.job with
  | none => .next s
  | some j => if mgmtUp s && s.loader.state == .verify then .next (verdict j s) else .next s

/-! ### PREPARE (R76, R84, R319) -/

/-- A standby's own reload (R84): it stops applying inputs and says so. -/
def leavePair (s : State) : State :=
  let u := s.pair.claim.unit
  if u = .standbySynced ∨ u = .unsynced ∨ u = .isolated ∨ u = .standbyJoining then
    sendHello (setUnit .standbyJoining (dropCopy s))
  else s

/-- The ledger checkpoint is to be sealed: the merging buffer is drained first, and a checkpoint of every change so far starts (R76,
R319). -/
def sealLedger (s : State) : State :=
  let s1 := flushJournal (drainAll s)
  if decides s then startCheckpoint s1 else s1

/-- Step 3 of R76: write-through, and every dirty stripe destaged. -/
def reloadDestage (s : State) : State :=
  if s.loader.sizeChange && decides s then
    let t := destageAll s
    judgeMode { t with cache := { t.cache with reload3 := true } }
  else s

/-- Steps 2 and 3 of R76 begin. -/
def prepare (s : State) : State :=
  let s1 := { s with host := { s.host with stopped := true }, loader := { s.loader with prepared := true } }
  reloadDestage (leavePair (sealLedger s1))

/-- RELOAD_PREPARE (R76). -/
def execReloadPrepare (s : State) : Host.Outcome State Fault Refusal :=
  if serving s && s.loader.state == .prepare && !s.loader.prepared then .next (prepare s) else .next s

/-- PREPARE has finished (R76, R131, R576): no command is left, the caravanserai is empty, the checkpoint is sealed, every posted
drive command has been collected, and in step 3 every intent has retired. -/
def prepareOver (s : State) : Bool :=
  s.host.cmds.isEmpty && s.host.rings.all (fun p => p.2.cserai.isEmpty) && s.drone.inflight.isEmpty &&
    (s.ledger.ckptRun.isNone || !decides s) && (!s.cache.reload3 || s.cache.stripes.isEmpty)

/-- RELOAD_APPLY (R76): the planes reset and the new image is applied. -/
def execReloadApply (s : State) : Host.Outcome State Fault Refusal :=
  match s.loader.accepted with
  | none => .next s
  | some im =>
    if serving s && !dumping s && s.loader.state == .prepare && s.loader.prepared && prepareOver s then
      .next (applyImage im (flushJournal s))
    else .next s

/-! ### RUNNING (R71, R75, R76, R278, R358, R377, R438, R475, R576) -/

/-- The unit state with which an image begins to run (R474, R475): SOLO without a pair, joining at power-up with one. -/
def unitOf (first : Bool) (im : Image) (u : UnitState) : UnitState :=
  if !im.pair.pairEn then .solo else if first || u == .solo then .standbyJoining else u

/-- What a fence holder does behind a reload: MOVING parcels are abandoned, parcels with PENDING records restart, scrub begins
a fresh pass (R278, R377, R576). -/
def afterReload (s : State) : State :=
  if !decides s then s
  else
    let s1 := restartAll (giveUpMoves s)
    { s1 with array := { s1.array with scrub := s1.array.scrub.map fun _ => newScrub s1 } }

/-- A held epoch goes on once the running image has its families (R358). -/
def releaseHeld (s : State) : State :=
  if s.cache.vault.held && !familyMissing s then
    setRestore .pages { s with cache := { s.cache with vault := { s.cache.vault with held := false } } }
  else s

/-- An applied image enters RUNNING. -/
def runImage (im : Image) (s : State) : State :=
  let first := s.loader.rwlOpen
  let s1 := { s with
    loader := { s.loader with state := .running, imgId := im.imgId, rwlOpen := false, accepted := none }
    cache := { s.cache with sizeMib := cacheMib im s.sampled.pcRetire }
    hem := { s.hem with calDirtyMax := im.hemd.calDirtyMaxMib }
    pair := { s.pair with halt := im.pair.policy == 1 } }
  let s2 := checkWtPerm (setUnit (unitOf first im s.pair.claim.unit) s1)
  let s3 := if first then s2 else afterReload (releaseHeld s2)
  startWaiting (endCmdOf s.loader.acceptedCtx 0 (raise 0xE02 { s3 with loader := { s3.loader with acceptedCtx := none } }))

/-- IMAGE_RUNNING (R28, R76). -/
def execImageRunning (s : State) : Host.Outcome State Fault Refusal :=
  match s.loader.accepted with
  | none => .next s
  | some im => if mgmtUp s && s.loader.state == .apply then .next (runImage im s) else .next s

/-! ### Live replacement (R29, R78 to R83) -/

/-- The unit belongs to a pair in which a live request needs both units (R83). -/
def livePair (s : State) : Bool := s.pair.claim.unit != .solo

/-- The active fixes the target edge once both units have reported the same image verified (R83). -/
def fixTarget (s : State) : State :=
  match s.loader.live with
  | none => s
  | some r =>
    if s.pair.claim.unit == .active && r.target.isNone && s.loader.partnerImg == some r.image.imgId then
      let t := s.drone.count + 256
      emit (.frame s.drone.count (.liveImg r.image.imgId t))
        { s with loader := { s.loader with live := some { r with partnerOk := true, target := some t } } }
    else s

/-- A live request verified: pending, and in a pair reported to the partner; LREASON and LSECTION still describe the last refusal
(R69). DESIGN CHOICE (log 77): a report's LIVE_IMG carries target 0, which fixes no edge. -/
def acceptLive (j : LoadJob) (im : Image) (s : State) : State :=
  let r : LiveReq := { image := im, ctx := j.ctx, verifiedAt := s.drone.count, partnerOk := false, target := none }
  let s1 := { s with loader := { s.loader with lstate := .pending, liveJob := none, live := some r } }
  if livePair s then fixTarget (emit (.frame s.drone.count (.liveImg im.imgId 0)) s1) else s1

/-- The verdict on a live request: the checks of a load, then R78. -/
def liveVerdict (j : LoadJob) (s : State) : State :=
  match imageRefusal s.mgmt.keys j.written j.bytes, s.image with
  | some e, _ => refuseLive e.reason e.sec s
  | none, none => s
  | none, some old =>
    let im := parseImage j.bytes
    match liveRefusal old im with
    | some e => refuseLive e.1 e.2 s
    | none => acceptLive j im s

/-- LIVE_VERIFY_DONE (R78, R83): verification of a live request has finished. -/
def execLiveVerifyDone (s : State) : Host.Outcome State Fault Refusal :=
  match s.loader.liveJob with
  | none => .next s
  | some j => if mgmtUp s && s.loader.lstate == .verifying then .next (liveVerdict j s) else .next s

/-- 10 s have passed since the active's own verification, and the standby has not reported the same image (R83). DESIGN CHOICE
(log 77): the standby counts from the active's report. -/
def liveLate (s : State) : Bool :=
  if s.pair.claim.unit = .active then
    s.loader.live.any fun r => r.target.isNone && decide (r.verifiedAt + msTicks s 10000 ≤ s.drone.count)
  else
    livePair s && liveBusy s && s.loader.partnerImg.isSome && decide (s.loader.partnerAt + msTicks s 10000 ≤ s.drone.count) &&
      !(s.loader.live.any fun r => r.target.isSome || some r.image.imgId == s.loader.partnerImg)

/-- A live request that the partner did not match refused. -/
def unmatchedLive (s : State) : State :=
  let t := refuseLive 0x12 0xF s
  { t with loader := { t.loader with partnerImg := none } }

/-- LIVE_PAIR_TIMEOUT (R83). -/
def execLivePairTimeout (s : State) : Host.Outcome State Fault Refusal :=
  if mgmtUp s && liveLate s then .next (unmatchedLive s) else .next s

/-- A live replacement takes effect (R71, R79, R83, R457): the active's is an in-step input. -/
def applyLive (r : LiveReq) (s : State) : State :=
  let s1 := { s with
    image := some r.image
    loader := { s.loader with
      lstate := .idle, live := none, partnerImg := none, appliedTick := s.drone.count, imgId := r.image.imgId } }
  let s2 := endCmdOf r.ctx 0 (raise 0xE03 s1)
  if s2.pair.claim.unit = .active then inStep .live s2 else s2

/-- Step 4 of R34: a pending live replacement that is due at this edge takes effect (R29, R79, R83). -/
def liveEdge (s : State) : State :=
  match s.loader.live with
  | none => s
  | some r =>
    if !livePair s then applyLive r s
    else if s.pair.claim.unit = .active ∧ r.target.any (· ≤ s.drone.count) then applyLive r s
    else s

/-- A standby applies the replacement before the first item stamped T or later (R457). -/
def liveStamp (stamp : Nat) (s : State) : State :=
  match s.loader.live with
  | none => s
  | some r => if r.target.any (· ≤ stamp) then applyLive r s else s

end Sys2Proof.Machine
end

