-- ==== Sys2Proof/Machine/Standby.lean ====
section
/-! DEFINITION. The standby's side of a pair (14: R457 to R459, R464, R465, R480): buffering, applying in order, parity legs,
confirming digests. -/

namespace Sys2Proof.Machine

open Sys2Proof

/-! ### What the unit does with a frame (R457, R480) -/

/-- The joiner buffers the live stream (R480, phases 2 and 3). -/
def buffers (s : State) : Bool := s.pair.claim.unit == .unsynced && (s.pair.phase == 2 || s.pair.phase == 3)

/-- The unit applies the live stream (R474, R480). -/
def applies (s : State) : Bool := s.pair.claim.unit == .standbySynced || (s.pair.claim.unit == .unsynced && s.pair.phase == 4)

/-- Frames are delivered: an image runs and the link is up (R454). -/
def hears (s : State) : Bool := serving s && !(s.loader.state == .prepare && s.loader.prepared) && s.pair.link.up

/-! ### Applying inputs (R266, R267, R381, R457) -/

/-- A change that the standby makes itself: its ledger records wait for those of the active, which enter the journal in their
place in the stream (R267). -/
def asStandby (f : State → State) (s : State) : State :=
  let t := f s
  let own := ledgerRecs (t.cache.appendQ.drop s.cache.appendQ.length)
  { t with
    cache := { t.cache with appendQ := s.cache.appendQ, nextJseq := s.cache.nextJseq }
    pair := { t.pair with digest := s.pair.digest, iseq := s.pair.iseq, ownRecs := t.pair.ownRecs ++ own } }

/-- The lost-block list after a volume command (R171, R172, R381): what it discards or adds leaves it. The volume table follows
with the VOLUME record that the command makes on the active. -/
def volLost (e : Entry) (s : State) : State :=
  match e.opcode, getVol s e.volume with
  | 0x41, some v => removeLost e.volume 0 v.size s
  | 0x42, some v => removeLost e.volume (min v.size (e.lba + 1)) (max v.size (e.lba + 1) - min v.size (e.lba + 1)) s
  | _, _ => s

/-- The content of an in-step input applied (R457). -/
def applyWhat (w : InStep) (s : State) : State :=
  match w with
  | .data e _ _ _ =>
    match getVol s e.volume with
    | none => s
    | some v => asStandby (fun t => removeLost e.volume e.lba e.blocks (placeAll v (placesParcels t v e) t).2) s
  | .volume e _ => volLost e s
  | .lost l => insertLost none s l
  | .clear _ => s
  | .live => s
  | .destage _ _ => s

/-- An INPUT applied: ISEQs ascend with no gap (R457). -/
def applyInput (n : Nat) (w : InStep) (s : State) : State :=
  if s.pair.iseq ≠ 0 ∧ n ≠ s.pair.iseq + 1 then s
  else modEpg (fun p => { p with iseq := n, appliedIseq := n }) (applyWhat w s)

/-! ### Applying records and pages (R346, R347) -/

/-- OPEN intents of a zero-mask group give up their blocks where a ZERO_MASK record sets the group's bit (R165, R254). -/
def emptyGroups (old new : BitVec 32) (pk : Nat) (s : State) : State :=
  let gs := (List.range 32).filter fun g => new.getLsbD g && !old.getLsbD g
  (gs.flatMap fun g => (List.range 8).map fun j => stripeKey pk (8 * g + j)).foldl (fun t key =>
    setDesc key { intents := (getDesc t key).intents.map fun i =>
      if i.phase = .open_ then { i with blocks := [], zeros := [] } else i } t) s

/-- A ledger record that the unit has not made itself (R457). -/
def applyLedger (l : LRec) (s : State) : State :=
  if l.seq ≤ s.ledger.seq then s
  else
    let pk := parcelKey l.volume l.key
    let old := (getEntry s pk).zeroMask
    let t := applyRec l s
    let u := { t with ledger := { t.ledger with seq := l.seq } }
    if l.type = .zeroMask then emptyGroups old (getEntry u pk).zeroMask pk u
    else if l.type = .slot then assignWaiting u
    else u

/-- A ledger record of the stream: the unit's own record of a placement stands in its place (R267, R464). -/
def takeLedger (l : LRec) (s : State) : State :=
  match s.pair.ownRecs.find? fun o => o.seq == l.seq with
  | some o => putRec (.ledger o) (modEpg (fun p => { p with ownRecs := p.ownRecs.filter fun x => x.seq != l.seq }) s)
  | none => putRec (.ledger l) (applyLedger l s)

/-- An intent as a record of the stream makes it (R328, R347): it takes over what the intent it supersedes covers. -/
def IntentRec.take (r : IntentRec) (i : Intent) : Intent :=
  { i with
    jseq := r.jseq, prev := r.prev, method := r.method, wt := r.wt, degraded := r.degraded, zgroup := r.zgroup
    oldGen := r.oldGen, newGen := r.newGen, stripMask := r.stripMask, tick := r.tick
    phase := if r.method = .open_ then .open_ else .writing }

/-- JSEQs that the unit takes later lie above those it has seen. -/
def seeJseq (j : Nat) (s : State) : State := { s with cache := { s.cache with nextJseq := max s.cache.nextJseq (j + 1) } }

/-- An intent record applied: superseding, or new. -/
def adoptIntent (r : IntentRec) (s : State) : State :=
  let is := (getDesc s r.stripe).intents
  let known := is.any fun i => r.prev != 0 && i.jseq == r.prev
  let is2 := if known then is.map fun i => if i.jseq = r.prev then r.take i else i
    else is ++ [r.take (Intent.fresh r.jseq r.tick r.oldGen false)]
  seeJseq r.jseq (setDesc r.stripe { intents := is2 } s)

/-- A parity leg of a destage is still to run here, or runs (R457). -/
def parityPending (s : State) (j : Nat) : Bool :=
  (s.pair.dcheck.any fun d => d.jseqs.contains j && !s.pair.digest.parity.any fun p => p.1 == j) ||
    s.jobs.any fun p => match p.2.purpose with
      | .parity k _ => k == j
      | _ => false

/-- A retire record applied (R347): the intent's pages are released when it is durable, and not before its parity legs have
run. -/
def takeRetire (j key old : Nat) (s : State) : State :=
  seeJseq j (if parityPending s old then modEpg (fun p => { p with retires := p.retires ++ [(j, key, old)] }) s
    else setDesc key { intents := (getDesc s key).intents.map fun i => if i.jseq = old then { i with phase := .retiring } else i } s)

/-- Retirements that no parity leg holds any longer. -/
def lateRetires (s : State) : State :=
  let due := s.pair.retires.filter fun r => !parityPending s r.2.2
  due.foldl (fun t r => setDesc r.2.1 { intents := (getDesc t r.2.1).intents.filter fun i => i.jseq != r.2.2 } t)
    (modEpg (fun p => { p with retires := p.retires.filter fun r => !due.contains r }) s)

/-- A journal record of the stream applied (R346). -/
def takeRec (r : JRec) (s : State) : State :=
  match r with
  | .ledger l => takeLedger l s
  | .intent i => putRec r (adoptIntent i s)
  | .retire j key old => putRec r (takeRetire j key old s)
  | .padding => s

/-- A page put into the intent that names it: a dirty block, a zero block (no data), or a survivor (R323, R337, R346). -/
def putBlock (s : State) (q : Nat) (d pi : List Byte) (i : Intent) : Intent :=
  let b : CBlock := { data := d, pi := pi, accepted := s.drone.count }
  if survivorMark ≤ q then { i with survivors := tabInsert i.survivors (q - survivorMark) b }
  else if d.isEmpty then { i with blocks := tabErase i.blocks q, zeros := addOnce i.zeros q }
  else { i with blocks := tabInsert i.blocks q b, zeros := i.zeros.erase q }

/-- A page of the stream applied (R346). -/
def takePage (key q j : Nat) (d pi : List Byte) (s : State) : State :=
  setDesc key { intents := (getDesc s key).intents.map fun i => if i.jseq = j then putBlock s q d pi i else i } s

/-! ### Parity legs (R457, R464) -/

/-- The intent with a JSEQ, and its stripe. -/
def intentOf (s : State) (j : Nat) : Option (Nat × Intent) :=
  s.cache.stripes.findSome? fun p => (p.2.intents.find? fun i => i.jseq == j).map fun i => (p.1, i)

/-- The blocks that DINPUT frames brought for a stripe, and zeros for those that the active took as zero (R460, R581). -/
def dinputs (s : State) (v : Volume) (key : Nat) (i : Intent) : Tab (List Byte) :=
  let got := (s.pair.dins.filter fun d => d.1 == key).foldl (fun (t : Tab (List Byte)) d => tabInsert t d.2.1 d.2.2) []
  (destageWants v i).foldl (fun t g => if (tabFind t g).isSome then t else tabInsert t g (zeroBlock v)) got

/-- The parity legs of a destage over the unit's own pages and the DINPUT blocks. The plan's `want` keeps its positions. -/
def startParity (j : Nat) (s : State) : State :=
  match intentOf s j with
  | none => s
  | some (key, i) =>
    match stripeVol s key with
    | none => s
    | some v =>
      let got := dinputs s v key i
      let s1 := modEpg (fun p => { p with dins := p.dins.filter fun d => d.1 != key }) s
      if i.method = .rmw then
        let r := wantJob (.parity j key) .foreground false 0 (dirtyPositions v i) [] got s1
        moreWork r.1 (updateRound s1 v i got 0 0) r.2
      else
        let ins := encodeInputs v i got
        let r := wantJob (.parity j key) .foreground false 0 (dirtyPositions v i) [] ins s1
        moreWork r.1 ((encodePositions v i).flatMap fun x => encodeLegs s1 v x ins (intentPages v i) 0) r.2

/-- The parity legs that received digests wait for and that have not started (R465). -/
def startParities (s : State) : State :=
  let js := s.pair.dcheck.flatMap (·.jseqs)
  js.foldl (fun t j =>
    let begun := (t.pair.digest.parity.any fun p => p.1 == j) || t.jobs.any fun p => match p.2.purpose with
      | .parity k _ => k == j
      | _ => false
    if begun then t else startParity j t) s

/-- The parity legs of a destage have finished: the next round of an UPDATE, or the outputs for the digest (R464). -/
def runParity (id j key : Nat) (s : State) : State :=
  match getJob s id, stripeVol s key with
  | some x0, some v =>
    let x := takeOuts v x0
    let next := match intentOf s j with
      | some (_, i) => if i.method = .rmw then updateRound s v i x.got 0 (x.stage + 1) else []
      | none => []
    if !next.isEmpty then moreWork id next (modJob id (fun _ => { x with stage := x.stage + 1 }) s)
    else
      let bytes := (List.range v.m).flatMap fun p => x.want.flatMap fun q => tabGet [] x.got (blockTag q (v.k + p))
      modEpg (fun p => { p with digest := { p.digest with parity := p.digest.parity ++ [(j, bytes)] } }) (endJob id s)
  | _, _ => endJob id s

/-! ### Digests (R464, R465) -/

/-- A mismatch noted with its time; the joining order given since the third is used up (R465, R479). -/
def noteMismatch (s : State) : State :=
  modEpg (fun p => { p with
    mismatch := (p.mismatch.filter fun t => decide (s.clock < t + 86400000000000)) ++ [s.clock], joinOrder := false
    cnt := modAt p.cnt 2 (· + 1) }) s

/-- Mismatches within the last 86,400 s. -/
def recentMismatches (s : State) : Nat := (s.pair.mismatch.filter fun t => decide (s.clock < t + 86400000000000)).length

/-- A confirmation finds a difference (R465): MISMATCH, the event, UNSYNCED. -/
def mismatchAt (t : Nat) (s : State) : State :=
  setUnit .unsynced (dropCopy (noteMismatch (raise 0xACB (emit (.frame t (.mismatch t)) s))))

/-- A DIGEST received behind every other frame of its tick (R464): the sequence numbers and LEDGER_CRC are judged here, the
parity when its legs have run. Where the stream has brought no number yet, the digest's is taken. -/
def takeDigest (tick iseq jseq lseq : Nat) (lcrc pcrc : Word) (js : List Nat) (s : State) : State :=
  let p := s.pair
  let a := p.digest
  let ok := (p.iseq == 0 || p.iseq == iseq) && (a.jseq == 0 || a.jseq == jseq) && (a.lseq == 0 || a.lseq == lseq) &&
    crc64 a.ledger == lcrc
  startParities (modEpg (fun p => { p with
    iseq := iseq, appliedIseq := iseq
    digest := { a with ledger := [], lseq := lseq, jseq := jseq }
    dcheck := p.dcheck ++ [{ tick := tick, ok := ok, parity := pcrc, jseqs := js }] }) s)

/-- The parity outputs that a digest lists, once all are there (R464). -/
def parityBytes (s : State) (js : List Nat) : Option (List Byte) :=
  js.foldl (fun a j => a.bind fun bs => ((s.pair.digest.parity.find? fun p => p.1 == j).map fun p => bs ++ p.2)) (some [])

/-- Resync completes (R480, phase 5). -/
def synced (s : State) : State :=
  raise 0xACA (setUnit .standbySynced (modEpg (fun p => { p with phase := 5, partner := 3, cnt := modAt p.cnt 3 (· + 1) }) s))

/-- A digest confirmed (R465, R480). -/
def confirmed (d : DigestIn) (s : State) : State :=
  let s1 := modEpg (fun p => { p with
    ackTick := max p.ackTick d.tick, dcheck := p.dcheck.drop 1
    digest := { p.digest with parity := p.digest.parity.filter fun x => !d.jseqs.contains x.1 } }) s
  if s1.pair.claim.unit = .unsynced ∧ s1.pair.phase = 4 ∧ s1.pair.lastStamp ≤ d.tick + 256 then synced s1 else s1

/-- Digests confirmed in order, as far as their parity legs have run (R465). -/
def confirmDigests : Nat → State → State
  | 0, s => s
  | n + 1, s =>
    match s.pair.dcheck with
    | [] => s
    | d :: _ =>
      if !d.ok then mismatchAt d.tick s
      else
        match parityBytes s d.jseqs with
        | none => s
        | some bs => if crc64 bs = d.parity then confirmDigests n (confirmed d s) else mismatchAt d.tick s

/-! ### The stream (R457, R480) -/

/-- A frame applied in its place; a live replacement takes effect before the first item stamped at its tick (R457). -/
def applyFrame (stamp : Nat) (f : Frame) (s0 : State) : State :=
  let s := liveStamp stamp s0
  match f with
  | .input n w => applyInput n w s
  | .jrec r => takeRec r s
  | .page key q j d pi => takePage key q j d pi s
  | .dinput key t d => modEpg (fun p => { p with dins := p.dins ++ [(key, t, d)] }) s
  | .digest t i j l lc pc js =>
    let u := takeDigest t i j l lc pc js s
    confirmDigests u.pair.dcheck.length u
  | _ => s

/-- Plans end and queued drive work goes: the unit posts no further drive submission (R459, R468). The legs of
channels and of known-vector tests stay; a journal batch under way starts again. -/
def dropPlans (s : State) : State :=
  let own := s.jobs.map (·.1)
  let t := own.foldl (fun t i => cancelJob i t) s
  dropWork (fun w => match w with
    | .leg _ => false
    | .sub _ => true) { t with cache := { t.cache with batch := 0 } }

/-- EPG_SWITCH_DONE on the old active (R488): it enters STANDBY_SYNCED at the preemption it sees. -/
def stepDown (s : State) : State :=
  let s1 := setUnit .standbySynced (modEpg (fun p => { p with
    switch := 0, result := 7, cnt := modAt p.cnt 4 (· + 1), mirrored := false, handover := none, conflicts := []
    lastStamp := 0, ackTick := 0, appliedIseq := p.iseq, dcheck := [], dins := [], retires := [], rounds := [], loc := false
    peerUnit := .active, phase := 5, digest := { p.digest with ledger := [], parity := [] } }) (dropPlans s))
  raise 0xACD { s1 with host := { s1.host with stopped := false } }

/-- A frame of the stream shows an old active that its partner has preempted it (R488). -/
def seeStream (s : State) : State := if s.pair.claim.unit == .active && s.pair.switch == 3 then stepDown s else s

/-- A frame of the stream received: buffered, applied, or of no use (R480). -/
def receive (stamp : Nat) (f : Frame) (s00 : State) : State :=
  let s0 := seeStream s00
  let s := modEpg (fun p => { p with lastStamp := max p.lastStamp stamp }) s0
  if buffers s then modEpg (fun p => { p with buffer := p.buffer ++ [(stamp, f)] }) s
  else if applies s then applyFrame stamp f s
  else s

/-- INPUT (R457). -/
def execInput (stamp iseq : Nat) (what : InStep) (s : State) : Host.Outcome State Fault Refusal :=
  if hears s then .next (receive stamp (.input iseq what) s) else .next s

/-- JREC (R346, R457). -/
def execJrec (stamp : Nat) (r : JRec) (s : State) : Host.Outcome State Fault Refusal :=
  if hears s then .next (receive stamp (.jrec r) s) else .next s

/-- PAGE (R346, R457). -/
def execPage (stamp stripe block jseq : Nat) (data pi : List Byte) (s : State) : Host.Outcome State Fault Refusal :=
  if hears s then .next (receive stamp (.page stripe block jseq data pi) s) else .next s

/-- DINPUT (R457, R460). -/
def execDinput (stamp stripe block : Nat) (data : List Byte) (s : State) : Host.Outcome State Fault Refusal :=
  if hears s then .next (receive stamp (.dinput stripe block data) s) else .next s

/-- DIGEST (R464, R465). -/
def execDigest (stamp iseq jseq lseq : Nat) (ledgerCrc parityCrc : Word) (jseqs : List Nat) (s : State) :
    Host.Outcome State Fault Refusal :=
  if hears s then .next (receive stamp (.digest stamp iseq jseq lseq ledgerCrc parityCrc jseqs) s) else .next s

/-! ### Base content (R480, R481) -/

/-- A ledger record of the base: applied in SEQ order, or kept until the home has been read. -/
def baseLedger (l : LRec) (s : State) : State :=
  if l.seq ≤ s.ledger.seq + 1 then applyLedger l s
  else modEpg (fun p => { p with buffer := p.buffer ++ [(0, .base (.ledger l))] }) s

/-- A BASE frame (R480): a ledger record, a record of the manifest, or a page of one. -/
def takeBase (f : Frame) (s : State) : State :=
  match f with
  | .base (.ledger l) => baseLedger l s
  | .base (.intent r) =>
    let t := adoptIntent r s
    modEpg (fun p => { p with manifest := p.manifest ++ [(r.jseq, r.jseq)] })
      { t with cache := { t.cache with ring := t.cache.ring ++ [.intent r], durJseq := max t.cache.durJseq r.jseq } }
  | .basePage key q j d pi =>
    takePage key q j d pi (modEpg (fun p => { p with
      phase := 3, baseLeft := p.baseLeft - (d.length + pi.length)
      manifest := if p.manifest.any (·.2 == j) then p.manifest.dropWhile (·.2 != j) else p.manifest }) s)
  | _ => s

/-- BASE (R480). -/
def execBase (what : Frame) (s : State) : Host.Outcome State Fault Refusal :=
  if hears s && buffers s then .next (takeBase what s) else .next s

/-- The buffer applied in order (R480): base records that waited for the home come first. -/
def applyBuffer (s : State) : State :=
  let isBase := fun (p : Nat × Frame) => match p.2 with
    | .base _ => true
    | _ => false
  let fs := s.pair.buffer
  let s1 := modEpg (fun p => { p with buffer := [] }) s
  let s2 := (fs.filter isBase).foldl (fun t p => match p.2 with
    | .base (.ledger l) => applyLedger l t
    | _ => t) s1
  (fs.filter fun p => !isBase p).foldl (fun t p => if applies t || t.pair.claim.unit == .salvage then applyFrame p.1 p.2 t else t) s2

/-- BASE_DONE's effect (R480, phase 4). -/
def endBase (s : State) : State :=
  applyBuffer (setRestore .ended (modEpg (fun p => { p with phase := 4, manifest := [], baseLeft := 0 }) s))

/-- BASE_DONE (R480). -/
def execBaseDone (s : State) : Host.Outcome State Fault Refusal :=
  if hears s && buffers s then .next (endBase s) else .next s

/-- The highest JSEQ whose record and pages are in the unit's HBM: durable in its journal, or buffered (R465, R480). -/
def durableHere (s : State) : Nat :=
  maxBy id (s.cache.durJseq :: s.pair.buffer.map fun p => match p.2 with
    | .jrec r => r.jseq
    | _ => 0)

/-- The ACK of a standby tick (R465). -/
def sendAck (s : State) : State :=
  if hears s && (buffers s || applies s) then
    emit (.frame s.pair.ackTick (.ack (durableHere s) s.pair.ackTick s.pair.appliedIseq)) s
  else s

end Sys2Proof.Machine
end

