-- ==== Sys2Proof/Machine/Pair.lean ====
section
/-! DEFINITION. The active's side of a pair, claims and the fence, relay posts, takeover, salvage, switch-back and the orders
(14: R460 to R490). -/

namespace Sys2Proof.Machine

open Sys2Proof

/-! ### Relay post drives and Reservation Reports (R417, R470) -/

/-- The slots of the relay posts, in POST_SLOT order. -/
def postSlots (s : State) : List Nat := ((s.image.map fun im => im.pair.postSlot.take im.pair.postCount).getD [])

/-- A majority of the posts (R471). -/
def postMajority (s : State) : Nat := (postSlots s).length / 2 + 1

/-- The slot's drive is ready and in use. -/
def driveReady (s : State) (n : Nat) : Bool :=
  (slotDrive s n).any (fun p => p.2.step == .ready) && (getSlot s n).state != .failed

/-- A Reservation Report to a slot's drive. -/
def askReport (n : Nat) (s : State) : State := plan (.report n) .journal false 0 [driveSub 0 n .resReport 0 0 false [] 0] s

/-- Every ready drive is asked again at a claim change of the unit (R417). -/
def askReports (s : State) : State :=
  (s.drives.drives.filterMap fun p => if p.2.step = .ready then p.2.slot else none).foldl (fun t n => askReport n t) s

/-- EPG_CLAIM's word 0 written with a claim of the unit's own or another's; reports follow a change (R417, R475). -/
def takeClaim (c : Word) (s : State) : State :=
  if s.pair.claim.claim = c then seeClaim c s else askReports (adoptClaim c s)

/-! ### The fence lost (R140, R467, R468) -/

/-- The unit loses the fence, or fails to take it: STANDBY_JOINING, its copy invalid, no further drive submission. -/
def loseFence (s : State) : State :=
  let s1 := modEpg (fun p => { p with
    take := none, switch := 0, conflicts := [], rounds := [], loc := false, mirrored := false, manifest := [], baseLeft := 0
    powerOwn := false }) (dropPlans s)
  let s2 := raise 0xAC6 (setUnit .standbyJoining (dropCopy s1))
  { s2 with host := { s2.host with stopped := false } }

/-! ### Taking a claim (R466, R467, R477) -/

/-- Reservation Register: action Replace, Ignore Existing Key, persistence through power loss 10b (R416, R467). The action code
is NVMe's. PRESUMED (log 17). -/
def registerSub (s : State) (n : Nat) : Work :=
  driveSub 0 n .resRegister 0x8000000A 0 false (keyBytes 0 s.pair.claim.claim) 0

/-- Reservation Acquire, type Write Exclusive: action Preempt, or Acquire without preemption (R416, R467, R477). The action
code is NVMe's. PRESUMED (log 17). -/
def acquireSub (s : State) (n : Nat) (preempt : Option Word) : Work :=
  driveSub 0 n .resAcquire (0x100 + if preempt.isSome then 1 else 0) 0 false (keyBytes s.pair.claim.claim (preempt.getD 0)) 0

/-- Reservation Release (R477). -/
def releaseSub (s : State) (n : Nat) : Work := driveSub 0 n .resRelease 0x100 0 false (keyBytes s.pair.claim.claim 0) 0

/-- The drives that a claim is taken on: relay post drives in ascending POST_SLOT order, then the others in ascending slot
order (R467). -/
def takeSlots (s : State) : List Nat :=
  let here := s.drives.drives.filterMap fun p => if p.2.step = .stopped then none else p.2.slot
  let all := sortBy (fun a b => decide (a ≤ b)) ((here ++ vaultSlots s).filter fun n => (getSlot s n).state != .failed).eraseDups
  (all.filter fun n => (postSlots s).contains n) ++ all.filter fun n => !(postSlots s).contains n

/-- The claim procedure begins (R466, R467): EPG_CLAIM = H + 1 before the first command. -/
def startTake (why : TakeWhy) (s : State) : State :=
  let c := s.pair.high + 1
  let old := if s.pair.claim.claim = 0 then s.pair.high else s.pair.claim.claim
  let s1 := takeClaim c s
  modEpg (fun p => { p with
    oldClaim := s.pair.high
    take := some { why := why, left := takeSlots s1, got := [], failed := [], oldKey := old, reread := false } }) s1

/-- A plan of the claim procedure runs. -/
def takeBusy (s : State) : Bool := s.jobs.any fun p => match p.2.purpose with
  | .take _ => true
  | _ => false

/-- Relay posts read (R472): two blocks of every post drive. -/
def readPosts (s : State) : State :=
  let ws := (List.range (postSlots s).length).filterMap fun i =>
    let n := nth 0 (postSlots s) i
    if driveReady s n then some (driveSub i n .read 256 2 false [] 0) else none
  modEpg (fun p => { p with postReadAt := s.clock }) (queueWorks 0 .journal false ws s)

/-- One drive of the claim procedure is done; behind the post drives of a takeover the posts are read again (R467, R482). -/
def tookSlot (n : Nat) (ok : Bool) (s : State) : State :=
  match s.pair.take with
  | none => s
  | some k =>
    let left := k.left.filter (· != n)
    let posts := fun (l : List Nat) => l.any fun x => (postSlots s).contains x
    let again := k.why == .takeover && posts k.left && !posts left
    let s1 := modEpg (fun p => { p with take := some { k with
      left := left, got := if ok then k.got ++ [n] else k.got, failed := if ok then k.failed else k.failed ++ [n]
      reread := again } }) s
    if again then readPosts s1 else s1

/-- The claim procedure's next drive: Register, then Acquire. A drive that is absent has not completed; one still in bring-up
is awaited (R467). -/
def takeStep : Nat → State → State
  | 0, s => s
  | fuel + 1, s =>
    match s.pair.take with
    | none => s
    | some k =>
      match k.left with
      | [] => s
      | n :: _ =>
        if takeBusy s || k.reread then s
        else
          match slotDrive s n with
          | none => takeStep fuel (tookSlot n false s)
          | some (_, d) =>
            if d.step = .stopped then takeStep fuel (tookSlot n false s)
            else if d.step = .ready then plan (.take n) .journal false 0 [registerSub s n] s
            else s

/-- A reservation command of the claim procedure has completed: 0 and 1 mark Register and Acquire done, 2 a conflict. -/
def noteTake (d : Sub) (status : Nat) (s : State) : State :=
  let mark := if status = 0x083 then some 2 else if status ≠ 0 then none else if d.op = .resAcquire then some 1 else some 0
  match mark with
  | none => s
  | some m => modJob d.job (fun j => { j with got := tabInsert j.got m [] }) s

/-- A Reservation Conflict ends the procedure (R467); a FORM order releases what it acquired and is refused (R477). -/
def takeConflict (k : Take) (s : State) : State :=
  if k.why = .form then
    modEpg (fun p => { p with take := none, result := 5 })
      (queueWorks 0 .journal false (k.got.map (releaseSub s)) s)
  else
    let s1 := loseFence s
    if k.why = .salvage then modEpg (fun p => { p with result := 5 }) s1 else s1

/-- A drive's part of the claim procedure goes on: the Acquire behind the Register, or its end. -/
def runTake (id n : Nat) (s : State) : State :=
  match getJob s id, s.pair.take with
  | some j, some k =>
    if (tabFind j.got 2).isSome then takeConflict k (endJob id s)
    else if (tabFind j.got 1).isSome then tookSlot n true (endJob id s)
    else if (tabFind j.got 0).isSome && j.stage = 0 then
      moreWork id [acquireSub s n (if k.why = .form then none else some k.oldKey)] (modJob id (fun x => { x with stage := 1 }) s)
    else tookSlot n false (endJob id s)
  | _, _ => endJob id s

/-! ### Relay post rounds (R469 to R473) -/

/-- A relay post block (R470): its first 128 bytes, the rest zero. -/
def postBytes (s : State) (gen : Nat) (loc : Bool) : List Byte :=
  let body := ascii "RPST" ++ leBytes 2 1 ++ leBytes 2 (if loc then 1 else 0) ++ leBytes 8 (arrayIdOf s).toNat ++
    leBytes 8 s.pair.claim.claim.toNat ++ leBytes 8 gen ++ leBytes 8 s.drone.count ++ leBytes 8 s.pair.iseq ++
    leBytes 8 s.ledger.seq ++ leBytes 8 s.dieId.toNat ++ zeros 56
  takePad 4096 (body ++ leBytes 8 (crc64 body).toNat)

/-- The plan of a round. -/
def roundBusy (s : State) (gen : Nat) : Bool := s.jobs.any fun p => p.2.purpose == .post gen

/-- A round written to every post (R470, R471): LOCAL while the partner is not mirrored. -/
def postRound (s : State) : State :=
  let p := s.pair
  let gen := p.postGen + 1
  let loc := !p.mirrored
  let idx := (List.range (postSlots s).length).filter fun i => driveReady s (nth 0 (postSlots s) i)
  let data := lbaData (postBytes s gen loc)
  let ws := idx.map fun i => driveSub i (nth 0 (postSlots s) i) .write (256 + gen % 2) 1 true data 0
  let s1 := modEpg (fun p => { p with
    postGen := gen, roundAt := s.clock, wantLocal := loc
    rounds := (p.rounds.filter fun r => roundBusy s r.gen || (!r.noted && decide (postMajority s ≤ r.done))) ++
      [{ gen := gen, loc := loc, issued := s.clock, done := 0, noted := false }]
    posts := p.posts.map fun x => { x with durable := false } }) s
  plan (.post gen) .journal false 0 ws s1

/-- A round is due (R471): 10 ms after the last, when LOCAL changes, and when the claim has changed. -/
def roundDue (s : State) : Bool :=
  let p := s.pair
  p.claim.unit == .active && serving s && !dumping s && decide (p.switch < 2) &&
    (p.rounds.isEmpty || decide (p.roundAt + 10000000 ≤ s.clock) || p.wantLocal == p.mirrored)

/-- RELAY_POST_ROUND (R471). -/
def execRelayPostRound (s : State) : Host.Outcome State Fault Refusal :=
  if roundDue s then .next (postRound s) else .next s

/-- A post has taken a round (R470, R490). -/
def postWritten (gen i : Nat) (s : State) : State :=
  match s.pair.rounds.find? fun r => r.gen == gen with
  | none => s
  | some r =>
    modEpg (fun p => { p with
      rounds := p.rounds.map fun x => if x.gen = gen then { x with done := x.done + 1 } else x
      posts := modAt p.posts i fun x => { x with
        valid := true, durable := decide (gen = p.postGen), gen := gen, loc := r.loc, claim := p.claim.claim, tick := s.drone.count } }) s

/-- Every write of a round has ended: a round that is not on all posts raises EPG_POST_STALL (R473). -/
def runPost (id gen : Nat) (s : State) : State :=
  let done := ((s.pair.rounds.find? fun r => r.gen == gen).map (·.done)).getD 0
  raiseIf (decide (done < (postSlots s).length)) 0xAD0 (endJob id s)

/-- A round durable on a majority takes effect: completions go on (R469), and with LOCAL the unit is on local protection
(R461). -/
def roundDurable (r : Round) (s : State) : State :=
  let loc := r.loc && !s.pair.halt && !s.pair.mirrored
  let s1 := modEpg (fun p => { p with
    durableAt := max p.durableAt r.issued, fenceHold := false, loc := loc
    rounds := p.rounds.map fun x => if x.gen = r.gen then { x with noted := true } else x }) s
  raiseIf (loc && !s.pair.loc) 0xAC3 s1

/-- The oldest round that is durable on a majority and has not taken effect, on the active. -/
def roundStep (s : State) : State :=
  match s.pair.rounds.find? fun r => !r.noted && decide (postMajority s ≤ r.done) with
  | none => s
  | some r => if serving s && s.pair.claim.unit == .active then roundDurable r s else s

/-- POST_ROUND_DURABLE (R461, R469, R471). -/
def execPostRoundDurable (s : State) : Host.Outcome State Fault Refusal := .next (roundStep s)

/-- COMPLETION_FENCE_HOLD (R469): 40 ms since the last durable round was issued. -/
def execCompletionFenceHold (s : State) : Host.Outcome State Fault Refusal :=
  if serving s && completionHold s then .next (modEpg (fun p => { p with fenceHold := true }) s) else .next s

/-! ### Posts read (R472, R473, R482 to R485) -/

/-- A post read is due (R472). -/
def readDue (s : State) : Bool :=
  serving s && s.loader.state == .running && pairEn s && !fenceHolder s &&
    decide (s.pair.postReadAt + (if s.pair.link.up then 100000000 else 5000000) ≤ s.clock)

/-- Posts read when that is due. -/
def readStep (s : State) : State := if readDue s then readPosts s else s

/-- POST_READ (R472). -/
def execPostRead (s : State) : Host.Outcome State Fault Refusal := .next (readStep s)

/-- What a read shows of a post (R470, R472): the first read after a link loss is what later ones advance from. -/
def Post.seen (x : Post) : Option PostVal → Post
  | none => { x with valid := false }
  | some v =>
    { x with
      valid := true, gen := v.gen, loc := v.loc, claim := v.claim, tick := v.tick
      base := some (x.base.getD v.gen), adv := x.adv || x.base.any (· < v.gen) }

/-- Posts whose POST_GEN rises in a read. -/
def risen (ps : List Post) (vals : List (Option PostVal)) : Nat :=
  ((ps.zip vals).filter fun p => p.1.valid && p.2.any fun v => p.1.gen < v.gen).length

/-- The posts after a read; the time without an advance of a majority starts with the first read, and again when fewer posts
than a majority stand still (R472, R485). -/
def notePosts (vals : List (Option PostVal)) (s : State) : State :=
  let p := s.pair
  let still := (postSlots s).length - risen p.posts vals
  let from_ := if p.stallFrom.isNone || still < postMajority s then some s.clock else p.stallFrom
  (vals.filterMap id).foldl (fun t v => seeClaim v.claim t) (modEpg (fun p => { p with
    posts := (List.range 7).map fun i => match vals[i]? with
      | some v => (nth Post.reset p.posts i).seen v
      | none => nth Post.reset p.posts i
    stallFrom := from_, readAt := s.clock }) s)

/-- A post shows LOCAL = 1 under a claim. -/
def localPost (s : State) (c : Word) : Bool := s.pair.posts.any fun x => x.valid && x.loc && x.claim == c

/-- EPG_SPLIT (R484): the active lives; the unit's copy is invalid. -/
def splitOff (s : State) : State :=
  raise 0xAC2 (setUnit .isolated (modEpg (fun p => { p with cnt := modAt p.cnt 1 (· + 1) }) (dropCopy s)))

/-- A unit that has applied or buffered the stream is split off at the first advance or LOCAL that it reads after a link loss
(R484). -/
def judgeSplit (s : State) : State :=
  let u := s.pair.claim.unit
  if (u == .standbySynced || u == .unsynced) && s.pair.link.lossDecl && s.pair.take.isNone &&
      (s.pair.posts.any (·.adv) || localPost s s.pair.claim.claim) then splitOff s
  else s

/-- EPG_TAKEOVER_SALVAGE (R483): the takeover continues as a salvage of scope ALL. -/
def turnSalvage (k : Take) (s : State) : State :=
  raise 0xAD1 (setUnit .salvage (modEpg (fun p => { p with
    take := some { k with why := .salvage }, salvAll := true, salvBuf := true }) s))

/-- The posts read again behind a takeover's preemption (R482, R483). -/
def judgeReread (s : State) : State :=
  match s.pair.take with
  | none => s
  | some k =>
    if !k.reread then s
    else
      let k2 := { k with reread := false }
      let s1 := modEpg (fun p => { p with take := some k2 }) s
      if localPost s1 k.oldKey then turnSalvage k2 s1 else s1

/-- A relay post block read back: none where MAGIC, PAIR_ID or CRC is wrong (R470). -/
def parsePost (s : State) (bs : List Byte) : Option PostVal :=
  if slice bs 0 4 != ascii "RPST" || fieldW bs 8 != arrayIdOf s || crc64 (slice bs 0 0x78) != fieldW bs 0x78 then none
  else some { gen := field bs 0x18 8, loc := field bs 6 1 % 2 == 1, claim := fieldW bs 0x10, tick := field bs 0x20 8 }

/-- The value of a post from its two blocks: the valid one with the higher POST_GEN (R470). -/
def postValue (s : State) (bs : List Byte) : Option PostVal :=
  leastBy (fun a b : PostVal => decide (b.gen < a.gen)) ([slice bs 0 4096, slice bs 4096 4096].filterMap (parsePost s))

/-- POST_READ_RESULT (R470, R472, R482 to R484): what was read at LBAs 256 and 257 of each post's drive, by index; nothing where
the drive is absent or failed. -/
def execPostReadResult (blocks : List (List Byte)) (s : State) : Host.Outcome State Fault Refusal :=
  if serving s && pairEn s && !fenceHolder s then
    .next (judgeSplit (judgeReread (notePosts ((blocks.take (postSlots s).length).map (postValue s)) s)))
  else .next s

/-- The conditions of a takeover (R482). -/
def mayTakeOver (s : State) : Bool :=
  let p := s.pair
  p.claim.unit == .standbySynced && p.link.lossDecl && !s.cache.vault.failNow && !s.cache.vault.failLow && p.take.isNone &&
    p.stallFrom.any (fun t => decide (t + 50000000 ≤ p.readAt)) && !p.posts.any (·.adv) && !localPost s p.claim.claim

/-- A takeover begins once its conditions hold (R482). -/
def takeoverStep (s : State) : State :=
  if serving s && mayTakeOver s then
    startTake .takeover (raise 0xAC5 (modEpg (fun p => { p with cnt := modAt p.cnt 0 (· + 1) }) s))
  else s

/-- EPG_TAKEOVER (R482). -/
def execEpgTakeover (s : State) : Host.Outcome State Fault Refusal := .next (takeoverStep s)

/-- The unit would not take over on its own (R485). -/
def neverTakes (s : State) : Bool :=
  s.pair.claim.unit == .standbyJoining || s.pair.claim.unit == .unsynced || s.pair.claim.unit == .isolated

/-- The loss of the active is reported once by a unit that does not take over (R485). -/
def activeLostStep (s : State) : State :=
  if serving s && neverTakes s && !s.pair.lostRaised && s.pair.stallFrom.any (fun t => decide (t + 50000000 ≤ s.pair.readAt)) then
    raise 0xAC7 (modEpg (fun p => { p with lostRaised := true }) s)
  else s

/-- ACTIVE_LOST_UNSYNCED (R485). -/
def execActiveLostUnsynced (s : State) : Host.Outcome State Fault Refusal := .next (activeLostStep s)

/-! ### Becoming ACTIVE (R467, R475, R482) -/

/-- Retirements that waited for parity legs take place, and the placements whose records had not come are entered in the
journal (R457). -/
def settleStream (s : State) : State :=
  let p := s.pair
  let s1 := p.retires.foldl (fun t r => setDesc r.2.1 { intents := (getDesc t r.2.1).intents.filter fun i => i.jseq != r.2.2 } t) s
  let s2 := { s1 with cache := { s1.cache with appendQ := s1.cache.appendQ ++ p.ownRecs.map JRec.ledger } }
  let parity := (s2.jobs.filter fun q => match q.2.purpose with
    | .parity _ _ => true
    | _ => false).map (·.1)
  parity.foldl (fun t i => cancelJob i t) (modEpg (fun p => { p with ownRecs := [], retires := [], dcheck := [], dins := [] }) s2)

/-- The unit is ACTIVE from this edge; the next one samples it (R139, R467). -/
def becomeActive (s : State) : State :=
  let s1 := setUnit .active (modEpg (fun p => { p with
    take := none, powerOwn := false, noHolder := false, durableAt := s.clock, fenceHold := false, rounds := [], postGen :=
      maxBy (fun x : Post => x.gen) p.posts
    mirrored := false, loc := false, haltAnn := false, phase := 0, partner := if p.partner = 0 then 0 else 4, peerUnit := .standbyJoining
    handover := none, stallFrom := none, lostRaised := false, bufferOk := false, buffer := [], conflicts := []
    digest := { p.digest with ledger := [], parity := [] }, xJseq := 0, lastStamp := s.drone.count, ackTick := s.drone.count }) s)
  assignWaiting s1

/-- What a unit does first as ACTIVE after a takeover, in order (R482). -/
def afterTakeover (s : State) : State :=
  let s1 := restartAll (giveUpMoves (replay (settleStream (takeHome s))))
  let s2 := postRound s1
  { s2 with array := { s2.array with scrub := some (newScrub s2) } }

/-- The new active of a switch-back goes on with its partner STANDBY_SYNCED (R475, R488). -/
def afterSwitch (s : State) : State :=
  let s1 := replay (settleStream (takeHome s))
  raise 0xACD (modEpg (fun p => { p with
    mirrored := p.link.up, partner := if p.link.up then 3 else 4, peerUnit := .standbySynced, phase := if p.link.up then 5 else 0
    ackJseq := s1.cache.nextJseq - 1, ackIseq := p.iseq, ackAt := s1.clock, cnt := modAt p.cnt 4 (· + 1) }) s1)

/-- A salvage restores its state from the ledger home on (R486); the buffer of an UNSYNCED unit is kept. -/
def salvageRestore (s : State) : State :=
  modEpg (fun p => { p with take := none }) (setRestore .waiting { s with
    cache := { s.cache with vault := { s.cache.vault with restored := [], replaying := [], liveEpochs := [] } } })

/-- Every drive has completed its Acquire (R467): drives that did not are declared failed first. -/
def claimAcquired (k : Take) (s : State) : State :=
  let s1 := k.failed.foldl (fun t n => declareFailed n 1 t) s
  match k.why with
  | .takeover => afterTakeover (becomeActive s1)
  | .switchBack => afterSwitch (becomeActive s1)
  | .form => modEpg (fun p => { p with result := 7 }) (becomeActive s1)
  | .salvage => salvageRestore s1

/-- A claim that every drive has completed takes effect (R467). -/
def acquiredStep (s : State) : State :=
  match s.pair.take with
  | none => s
  | some k => if serving s && k.left.isEmpty && !takeBusy s && !k.reread then claimAcquired k s else s

/-- CLAIM_ACQUIRED (R467). -/
def execClaimAcquired (s : State) : Host.Outcome State Fault Refusal := .next (acquiredStep s)

/-! ### Power-up (R476) -/

/-- The reports that name one holder most often: a majority names it, or none. -/
def reportMajority (rs : List (Option Holder)) : Option (Option Holder) :=
  rs.find? fun r => decide (rs.length < 2 * (rs.filter (· == r)).length)

/-- The majority of reports decides (R476). -/
def decideHolder (r : Option (Word × Bool)) (s : State) : State :=
  match r with
  | some (k, true) => modEpg (fun p => { p with powerOwn := true, noHolder := false }) (takeClaim k s)
  | some (k, false) => takeClaim k s
  | none => raise 0xACE (modEpg (fun p => { p with noHolder := true }) s)

/-- POWERUP_RESERVATION (R476): one report for each post drive, none where it shows no holder. -/
def execPowerupReservation (reports : List (Option Holder)) (s : State) : Host.Outcome State Fault Refusal :=
  if serving s && s.pair.claim.unit == .standbyJoining && s.pair.claim.claim == 0 &&
      !s.pair.powerOwn && !s.pair.noHolder && reports.length == (postSlots s).length then
    match reportMajority reports with
    | none => .next s
    | some r => .next (decideHolder (r.map (reportedBy s)) s)
  else .next s

/-- A unit that found its own reservation has restored and becomes ACTIVE (R476). -/
def powerActive (s : State) : State :=
  if s.pair.powerOwn && s.pair.claim.unit == .standbyJoining && restoreEnded s then becomeActive s else s

/-! ### Restore begins (R285, R459, R480, R486, R579) -/

/-- A salvage from an UNSYNCED unit puts its buffered ledger records and journal between the ledger home and the vault (R486). -/
def salvageHeld (s : State) : State :=
  if s.pair.claim.unit = .salvage && s.pair.salvBuf then applyBuffer s else s

/-- The claims that a restore sees: those of the vault headers of this array, and the highest found (R357, R466). -/
def seeFound (f : RestoreFind) (s : State) : State :=
  ((f.vaults.filterMap VaultFind.head).filter fun h => h.arrayId == arrayIdOf s).foldl (fun t h => seeClaim h.claim t) (seeClaim f.claim s)

/-- RESTORE_BEGIN (R579). -/
def execRestoreBegin (found : RestoreFind) (s : State) : Host.Outcome State Fault Refusal :=
  if serving s && s.cache.vault.restore == .waiting && !s.cache.vault.failNow && drivesUp s &&
      s.pair.take.isNone then
    if decides s then .next (beginRestore found salvageHeld (seeFound found s))
    else if loadsHome s then .next (assignWaiting (loadLedger found (seeFound found s)))
    else .next s
  else .next s

/-! ### Salvage ends (R486) -/

/-- The salvage's vault epoch is SEALED, carries claim H and is not older than any post under claim H. -/
def salvageClean (s : State) : Bool :=
  let v := s.cache.vault
  v.state == 3 && !v.liveEpochs.isEmpty && v.claim == s.pair.oldClaim && s.pair.posts.all fun x => !x.valid || x.claim != s.pair.oldClaim || decide (x.tick ≤ v.dumpTick)

/-- SCOPE of a salvage (R483, R486): 1 CLEAN, 2 MANIFEST, 3 ALL. -/
def salvageScope (s : State) : Nat :=
  if s.pair.salvAll then 3
  else if salvageClean s then 1
  else if s.pair.salvBuf && decide (3 ≤ s.pair.phase) && !localPost s s.pair.oldClaim then 2
  else 3

/-- The stripes of manifest intents whose pages did not all arrive. -/
def holedStripes (s : State) : List Nat :=
  (s.cache.stripes.filter fun p => p.2.intents.any fun i => s.pair.manifest.any (·.2 == i.jseq)).map (·.1)

/-- The blocks of a manifest intent that its STRIP_MASK names and that did not arrive: they are listed with CAUSE 4, and a torn
destage writes them as zeros (R486). -/
def fillHoles (key : Nat) (s : State) : State :=
  match stripeVol s key with
  | none => s
  | some v =>
    (getDesc s key).intents.foldl (fun t i =>
      if !s.pair.manifest.any (·.2 == i.jseq) then t
      else
        let qs := (List.range v.stripe).filter fun q =>
          i.stripMask.getLsbD (q / v.strip) && !i.dirty.contains q
        let t1 := modIntent key i.root (fun x => { x with zeros := x.zeros ++ qs }) t
        if qs.isEmpty then t1 else addLost none (runEntries 4 (keyVol (key / 256)) (qs.map (· + v.firstOf key))) t1) s

/-- Volumes as a salvage leaves them: READ_ONLY by scope, the others ONLINE (R486). -/
def salvageVolumes (scope : Nat) (holed : List Nat) (s : State) : State :=
  s.host.volumes.foldl (fun t p =>
    let bad := scope = 3 || (scope = 2 && holed.any fun k => keyVol (k / 256) == p.1)
    if p.2.state = .deleting then t
    else if bad then changeVol p.1 (some { p.2 with state := .readOnly }) t
    else if p.2.state = .offline then changeVol p.1 (some { p.2 with state := .online }) t
    else t) s

/-- EPG_SALVAGE_DONE (R486). -/
def finishSalvage (s : State) : State :=
  let scope := salvageScope s
  let holed := holedStripes s
  let s1 := salvageVolumes scope holed s
  let s2 := modEpg (fun p => { p with
    scope := scope, result := 7, cnt := modAt p.cnt 5 (· + 1), salvBuf := false, salvAll := false, manifest := [] }) s1
  raise 0xAC8 (becomeActive (if scope = 1 then s2 else scrubNow s2))

/-- A salvage's restore and replay have ended. -/
def salvageOver (s : State) : Bool := s.pair.claim.unit == .salvage && s.pair.take.isNone && restoreEnded s

/-! ### Orders (R477, R479, R486, R488, R490) -/

/-- An order written to EPG_CMD or given over MCTP: LAST and RESULT. -/
def orderDone (n result : Nat) (s : State) : State := modEpg (fun p => { p with last := n, result := result }) s

/-- JOIN (R465, R479): a join is permitted after three mismatches. -/
def orderJoin (s : State) : State :=
  if s.pair.claim.unit = .solo then orderDone 1 2 s else modEpg (fun p => { p with joinOrder := true }) (orderDone 1 0 s)

/-- The link is up with an ACTIVE partner (R486). -/
def activePartner (s : State) : Bool := s.pair.link.up && s.pair.peerUnit == .active

/-- SALVAGE accepted (R25, R27, R486): the management plane writes EPG_CLAIM = H + 1. An unbroken buffer is kept with its phase. The
volumes become OFFLINE with the ledger that the restore loads; before it no command is served. -/
def startSalvage (s : State) : State :=
  let keep := s.pair.bufferOk && s.pair.claim.unit == .unsynced
  let s1 := if keep then s else dropCopy s
  let s2 := setUnit .salvage (modEpg (fun p => { p with salvBuf := keep, salvAll := false, powerOwn := false }) s1)
  startTake .salvage (setRestore .waiting s2)

/-- EPG_CLAIM written by the management plane (R27). Whether the pair sequencer writes it in the same core cycle, which is then not
performed and raises EPG_CLAIM_RACE, no sequence of commands shows: a free value says (log 78). -/
def claimRace (s : State) : State := raiseIf (bit (drawFree s).1 0) 0xACF (drawFree s).2

/-- SALVAGE (R27, R486). -/
def orderSalvage (s : State) : State :=
  if !neverTakes s || s.pair.take.isSome then orderDone 2 2 s
  else if activePartner s then orderDone 2 3 s
  else startSalvage (claimRace (orderDone 2 1 s))

/-- SWITCH_BACK (R488): accepted, it takes effect at the next edge h0. -/
def orderSwitch (s : State) : State :=
  if s.pair.claim.unit ≠ .active ∨ s.pair.switch ≠ 0 then orderDone 3 2 s
  else if !(s.pair.link.up && s.pair.mirrored && s.pair.peerUnit == .standbySynced) then orderDone 3 4 s
  else modEpg (fun p => { p with switch := 1, switchAt := s.clock }) (orderDone 3 1 s)

/-- Drives without a slot take the one that their label or DRV_POS_MAP names, for a unit that forms its array (R399, R477). -/
def formSlots (s : State) : State :=
  (s.drives.drives.filter fun p => p.2.step == .unassigned).foldl (fun t p =>
    let on := modDrive p.1 (fun d => { d with ccEn := true }) t
    match p.2.info.label_ with
    | some (n, a) => if a = arrayIdOf s then takeSlot p.1 n on else refuseDrive p.1 0xB t
    | none => if (posMap t p.1).valid then takeSlot p.1 (posMap t p.1).slot on else t) s

/-- FORM (R477). -/
def orderForm (s : State) : State :=
  if s.pair.claim.unit ≠ .standbyJoining ∨ !s.pair.noHolder ∨ s.pair.take.isSome then orderDone 4 2 s
  else startTake .form (formSlots (orderDone 4 1 s))

/-- JOIN (R479): EPG_CMD written with ORDER = 1. -/
def execJoin (f : Nat) (s : State) : Host.Outcome State Fault Refusal := if pfFull s f then .next (orderJoin s) else .next s

/-- SALVAGE (R486): EPG_CMD written with ORDER = 2. -/
def execSalvage (f : Nat) (s : State) : Host.Outcome State Fault Refusal :=
  if pfFull s f then .next (orderSalvage s) else .next s

/-- SWITCH_BACK (R488): EPG_CMD written with ORDER = 3. -/
def execSwitchBack (f : Nat) (s : State) : Host.Outcome State Fault Refusal := if pfFull s f then .next (orderSwitch s) else .next s

/-- FORM (R477): EPG_CMD written with ORDER = 4. -/
def execForm (f : Nat) (s : State) : Host.Outcome State Fault Refusal := if pfFull s f then .next (orderForm s) else .next s

/-! ### Switch-back (R488, R489) -/

/-- Edge h0 of a switch-back (R488): intake stops. -/
def switchEdge (s : State) : State :=
  if s.pair.switch = 1 ∧ !s.host.stopped then
    modEpg (fun p => { p with switchAt := s.clock }) { s with host := { s.host with stopped := true } }
  else s

/-- Behind edge h0, OWED is zero on every ring, or 100 ms have passed since h0 (R488). -/
def switchQuiet (s : State) : Bool :=
  s.pair.switch == 1 && s.host.stopped &&
    (s.host.rings.all (fun p => p.2.owed == 0) || decide (s.pair.switchAt + 100000000 ≤ s.clock))

/-- Edge h of a switch-back once it is due (R488): no further drive submission or post round. -/
def quiesceStep (s : State) : State :=
  if serving s && switchQuiet s then giveUpMoves (modEpg (fun p => { p with switch := 2, handover := some s.drone.count }) s) else s

/-- SWITCH_BACK_QUIESCE (R488). -/
def execSwitchBackQuiesce (s : State) : Host.Outcome State Fault Refusal := .next (quiesceStep s)

/-- A retire record that the collected commands bring is still to come (R488): the stripe's writes are durable, or its ledger
record is. -/
def retireOwed (s : State) (p : Nat × StripeDesc) : Bool :=
  match p.2.intents with
  | [] => false
  | i :: _ => i.phase == .zeroing || (i.phase == .writing && listedSafely s i && (writeJob s p.1 i.root).any fun j => j.2.left == 0)

/-- Every posted drive command has been collected: HANDOVER behind the retire records (R488). -/
def handOver (s : State) : State :=
  match s.pair.handover with
  | none => s
  | some h =>
    if s.pair.switch = 2 ∧ s.drone.inflight.isEmpty ∧ !s.cache.stripes.any (retireOwed s) then
      emit (.frame h (.handover h)) (modEpg (fun p => { p with switch := 3, switchAt := s.clock, postReadAt := s.clock }) s)
    else s

/-- The old active looks for the preemption with Reservation Reports to the first post drive, 5 ms apart (R488). DESIGN CHOICE (log 57). -/
def watchFence (s : State) : State :=
  if s.pair.switch = 3 ∧ s.pair.postReadAt + 5000000 ≤ s.clock then
    let s1 := modEpg (fun p => { p with postReadAt := s.clock }) s
    ((postSlots s).find? (driveReady s)).elim s1 fun n => askReport n s1
  else s

/-- A switch-back lapses 1 s after HANDOVER without a preemption (R489). -/
def lapseStep (s : State) : State :=
  if serving s && s.pair.switch == 3 && decide (s.pair.switchAt + 1000000000 ≤ s.clock) then
    let t := modEpg (fun p => { p with switch := 0, result := 6, handover := none }) s
    { t with host := { t.host with stopped := false } }
  else s

/-- SWITCH_BACK_LAPSE (R489). -/
def execSwitchBackLapse (s : State) : Host.Outcome State Fault Refusal := .next (lapseStep s)

/-- What is due of the pair sequencer and has a row of its own that has not occurred (log 8). -/
def settlePair (s : State) : State :=
  readStep (lapseStep (quiesceStep (switchEdge (activeLostStep (takeoverStep (acquiredStep (roundStep s)))))))

/-- HANDOVER (R488): the claim is taken once the digest of tick h is confirmed. -/
def execHandover (tick : Nat) (s : State) : Host.Outcome State Fault Refusal :=
  if hears s && s.pair.claim.unit == .standbySynced then .next (modEpg (fun p => { p with handover := some tick }) s) else .next s

/-- A switch-back's standby takes the claim (R466, R488). -/
def takeHandover (s : State) : State :=
  if s.pair.claim.unit = .standbySynced ∧ s.pair.take.isNone ∧ s.pair.handover.any (· ≤ s.pair.ackTick) then
    startTake .switchBack (modEpg (fun p => { p with handover := none }) s)
  else s

/-! ### Reservation Reports of conflicts (R418, R468) -/

/-- Reservation Report data: the holder's key and whether the holder is this unit (R404, R416). The layout is NVMe's extended
report. PRESUMED (log 17). -/
def parseReport (s : State) (bs : List Byte) : Option (Word × Bool) :=
  let n := field bs 5 2
  let own := hostIdBytes (hostIdentifier s)
  let entry := (List.range n).map fun i => slice bs (64 + 64 * i) 64
  (entry.find? fun e => field e 2 1 % 2 = 1).map fun e => (fieldW e 8, slice e 16 16 == own)

/-- The commands that wait for a drive's report. -/
def takeConflicts (n : Nat) (s : State) : List Sub × State :=
  (s.pair.conflicts.filter fun d => d.slot == n,
    modEpg (fun p => { p with conflicts := p.conflicts.filter fun d => d.slot != n }) s)

/-- A command that waited is posted once more (R468). -/
def reissue (ds : List Sub) (s : State) : State :=
  let s1 := { s with drives := { s.drives with retried := ds.foldl (fun t (d : Sub) => addOnce t d.cid) s.drives.retried } }
  { s1 with drone := { s1.drone with queued := s1.drone.queued ++ ds.map Work.sub } }

/-- RESERVATION_REPORT_RESULT (R468). -/
def judgeReport (n : Nat) (r : Option (Word × Bool)) (s : State) : State :=
  let c := takeConflicts n s
  if s.pair.claim.unit ≠ .active then c.1.foldl (fun t d => abandonSub d t) c.2
  else
    match r with
    | none =>
      if c.1.isEmpty then c.2 else reissue c.1 (queueWorks 0 .journal false [acquireSub s n none] c.2)
    | some (k, own) =>
      if own then
        let again := c.1.filter fun (d : Sub) => !s.drives.retried.contains d.cid
        (c.1.filter fun (d : Sub) => s.drives.retried.contains d.cid).foldl (fun t d => abandonSub d t) (reissue again c.2)
      else if s.pair.claim.claim.toNat < k.toNat then
        if s.pair.switch = 3 then stepDown s else loseFence s
      else c.1.foldl (fun t d => abandonSub d t) c.2

/-- A Reservation Report has ended: noted (R417), and judged (R468). -/
def runReport (id n : Nat) (s : State) : State :=
  match (getJob s id).bind fun j => tabFind j.got 0 with
  | none =>
    let c := takeConflicts n (endJob id s)
    c.1.foldl (fun t d => abandonSub d t) c.2
  | some bs =>
    let r := parseReport s bs
    let s1 := endJob id s
    judgeReport n r ((slotDrive s1 n).elim s1 fun p => noteReport p.1 (r.map (·.1)) ((r.map (·.2)).getD false) s1)

/-- A drive command completes with Reservation Conflict (R418, R468): RESV_CONFLICT, and a new report. -/
def conflict (d : Sub) (s : State) : State :=
  let s1 := slotCause d.slot 5 s
  if pairEn s then askReport d.slot (modEpg (fun p => { p with conflicts := p.conflicts ++ [d] }) s1) else abandonSub d s1

/-! ### Joining and resync on the active (R462, R478 to R481) -/

/-- The join check's first condition that fails (R479); 0 where all hold. -/
def joinCheck (pairId : Word) (digests : List Word) (joiner : UnitState) (s : State) : Nat :=
  if pairId ≠ arrayIdOf s then 1
  else if digests ≠ (s.image.map (·.digests)).getD [] then 2
  else if joiner ≠ .standbyJoining ∧ joiner ≠ .unsynced then 3
  else if 3 ≤ recentMismatches s ∧ !s.pair.joinOrder then 4
  else 0

/-- EPG_STAT.PARTNER for a unit state (R490). -/
def partnerCode : UnitState → Nat
  | .standbyJoining => 1
  | .unsynced => 1
  | .standbySynced => 3
  | .isolated => 4
  | .salvage => 1
  | .active => 3
  | .solo => 0

/-- A HELLO on the active: the join check, unless a resync or mirroring goes on (R479, R480). A mirrored partner that joins
afresh has left, from the next edge on (R84). -/
def helloActive (pairId : Word) (unit : UnitState) (digests : List Word) (ledgerSeq : Nat) (s : State) : State :=
  if s.pair.mirrored || s.pair.phase != 0 then
    if unit = .standbyJoining && s.pair.mirrored then modEpg (fun p => { p with partnerLeft := true }) s else s
  else
    let why := joinCheck pairId digests unit s
    if why = 0 then modEpg (fun p => { p with phase := 1, joinSeq := ledgerSeq }) s
    else raise 0xAC9 (modEpg (fun p => { p with joinWhy := why }) s)

/-- The unit waits for the stream (R480, phase 2): UNSYNCED, buffering, its cache empty. A unit that had begun starts again. -/
def startJoin (s : State) : State :=
  let s1 := if s.pair.phase = 0 then s else dropCopy s
  setUnit .unsynced (modEpg (fun p => { p with
    phase := 2, bufferOk := true, buffer := [], manifest := [], lastStamp := 0, ackTick := 0, iseq := 0, appliedIseq := 0
    partner := 2, noHolder := false, handover := none, digest := { ledger := [], parity := [], lseq := 0, jseq := 0 } })
    { s1 with cache := { s1.cache with stripes := [], appendQ := [], batch := 0, ring := [] } })

/-- A HELLO of an ACTIVE partner on a unit that may join: the comparison is made here too (R479). -/
def helloJoiner (pairId claim : Word) (digests : List Word) (s : State) : State :=
  let why := joinCheck pairId digests s.pair.claim.unit s
  let waits := s.pair.phase == 2 && s.pair.lastStamp == 0
  let s1 := if why = 0 then s else modEpg (fun p => { p with joinWhy := why }) s
  if (why = 0 || why = 4) && !waits then startJoin (takeClaim claim s1) else s1

/-- A HELLO received (R478): the claim is seen, the partner's state known. -/
def takeHello (pairId : Word) (unit : UnitState) (claim : Word) (digests : List Word) (ledgerSeq : Nat) (s : State) : State :=
  let s1 := seeClaim claim (modEpg (fun p => { p with
    peerUnit := unit, partner := if p.mirrored then p.partner else partnerCode unit }) s)
  let u := s.pair.claim.unit
  if u = .active then
    if s.pair.switch = 3 ∧ s.pair.claim.claim.toNat < claim.toNat then stepDown s1 else helloActive pairId unit digests ledgerSeq s1
  else if unit = .active ∧ s.pair.take.isNone ∧ !s.pair.powerOwn ∧ (u = .standbyJoining ∨ u = .unsynced) then
    helloJoiner pairId claim digests s1
  else s1

/-- HELLO (R478, R479). -/
def execHello (pairId dieId : Word) (unit : UnitState) (claim : Word) (digests : List Word) (ledgerSeq : Nat) (s : State) :
    Host.Outcome State Fault Refusal :=
  if hears s && pairEn s && dieId != s.dieId then .next (takeHello pairId unit claim digests ledgerSeq s) else .next s

/-- HELLO is sent every 100 ms until resync starts (R478). -/
def helloDue (s : State) : Bool :=
  let p := s.pair
  let idle := if p.claim.unit = .active then !p.mirrored && decide (p.phase ≤ 1)
    else p.claim.unit != .standbySynced && (p.phase == 0 || (p.phase == 2 && p.lastStamp == 0))
  hears s && pairEn s && idle && decide (p.helloAt + 100000000 ≤ s.clock)

/-- The journal's live portion (R333, R480): live intents in JSEQ order. -/
def liveJournal (s : State) : List (Nat × Intent) :=
  sortBy (fun a b => decide (a.2.jseq ≤ b.2.jseq))
    (s.cache.stripes.flatMap fun p => (p.2.intents.filter fun i => i.phase != .retiring).map fun i => (p.1, i))

/-- The ledger records that the joiner has not read (R480): of the log behind the checkpoint and of the journal. -/
def recordsAbove (s : State) (n : Nat) : List LRec :=
  let log := s.ledger.log.filter fun r => decide (n < r.seq)
  let top := maxBy LRec.seq log
  log ++ (ledgerRecs (s.cache.ring ++ s.cache.appendQ)).filter fun r => decide (n < r.seq) && decide (top < r.seq)

/-- The bytes of an intent's pages in BASE frames. -/
def manifestBytes (i : Intent) : Nat :=
  sumBy (fun b : Nat × CBlock => b.2.data.length + b.2.pi.length) (i.blocks ++ i.survivors)

/-- Edge X (R480): sequence numbers recorded, the live stream starts, and the ledger records and the manifest go out. -/
def startResync (s : State) : State :=
  let live := liveJournal s
  let s1 := modEpg (fun p => { p with
    phase := 2, mirrored := true, loc := false, partner := 2, xIseq := p.iseq, xJseq := s.cache.nextJseq - 1, xLseq := s.ledger.seq
    ackJseq := 0, ackIseq := 0, ackTick := s.drone.count, ackAt := s.clock, lastStamp := s.drone.count
    digest := { ledger := [], parity := [], lseq := s.ledger.seq, jseq := s.cache.nextJseq - 1 }
    manifest := live.map fun x => (x.2.root, x.2.jseq), basePos := 0, baseLeft := sumBy (fun x : Nat × Intent => manifestBytes x.2) live }) s
  emits ((recordsAbove s s.pair.joinSeq).map (fun r => .frame s.drone.count (.base (.ledger r))) ++
    live.map fun x => .frame s.drone.count (.base (.intent (x.2.record x.1)))) s1

/-- An accepted joiner's resync starts at the edge (R480). -/
def resyncEdge (s : State) : State :=
  if s.pair.claim.unit = .active ∧ s.pair.phase = 1 ∧ s.pair.link.up ∧ s.pair.switch = 0 then startResync s else s

/-- The pages of a manifest intent from a block number on, as BASE frames. -/
def basePages (key j : Nat) (i : Intent) (pos : Nat) : List (Nat × Frame) :=
  let all := i.blocks.map (fun b => (b.1, Frame.basePage key b.1 j b.2.data b.2.pi)) ++
    i.zeros.map (fun z => (z, Frame.basePage key z j [] [])) ++
    i.survivors.map fun b => (survivorMark + b.1, Frame.basePage key (survivorMark + b.1) j b.2.data b.2.pi)
  (sortBy (fun a b => decide (a.1 ≤ b.1)) all).filter fun p => decide (pos ≤ p.1)

/-- Frames that fit a number of bytes, and those left. -/
def fitFrames : Nat → List (Nat × Frame) → List (Nat × Frame) × Nat
  | _, [] => ([], 0)
  | n, f :: r =>
    if f.2.charge ≤ n then
      let t := fitFrames (n - f.2.charge) r
      (f :: t.1, t.2)
    else ([], 1 + r.length)

/-- The live intent with a root JSEQ, and its stripe. -/
def rootOf (s : State) (root : Nat) : Option (Nat × Intent) :=
  s.cache.stripes.findSome? fun p => (p.2.intents.find? fun i => i.root == root).map fun i => (p.1, i)

/-- BASE pages of this edge (R480, R481): the budget left, intents that have retired skipped; BASE_DONE behind the last. -/
def sendPages : Nat → Nat → State → State
  | 0, _, s => s
  | fuel + 1, budget, s =>
    match s.pair.manifest with
    | [] => emit (.frame s.drone.count .baseDone) (modEpg (fun p => { p with phase := 4, baseLeft := 0 }) s)
    | (root, j) :: r =>
      let done := fun (t : State) => modEpg (fun p => { p with manifest := r, basePos := 0 }) t
      match rootOf s root with
      | none => sendPages fuel budget (done s)
      | some (key, i) =>
        let t := fitFrames budget (basePages key j i s.pair.basePos)
        let bytes := sumBy (fun f : Nat × Frame => f.2.charge) t.1
        let sent := emits (t.1.map fun f => .frame s.drone.count f.2) (modEpg (fun p => { p with
          phase := 3, baseLeft := p.baseLeft - (bytes - 32 * t.1.length)
          basePos := (t.1.getLast?.map fun f => f.1 + 1).getD p.basePos }) s)
        if t.2 = 0 then sendPages fuel (budget - bytes) (done sent) else sent

/-- The base content of a tick (R481): the mirror budget left by live frames, at least an eighth of it. -/
def sendBase (s : State) : State :=
  if s.pair.claim.unit = .active ∧ s.pair.mirrored ∧ (s.pair.phase = 2 ∨ s.pair.phase = 3) then
    sendPages (s.pair.manifest.length + 1) (max (epongBudget s - s.pair.link.charged) (epongBudget s / 8)) s
  else s

/-! ### Digests sent, acknowledgements, drops (R463 to R465) -/

/-- The digest of the ending tick (R464), behind its other frames. Destages that superseded before X are not listed. -/
def sendDigest (s : State) : State :=
  let p := s.pair
  let ps := sortBy (fun a b : Nat × List Byte => decide (a.1 ≤ b.1)) (p.digest.parity.filter fun x => decide (p.xJseq < x.1))
  let s1 := modEpg (fun q => { q with
    digest := { q.digest with ledger := [], parity := [] }
    lastStamp := if q.mirrored then s.drone.count else q.lastStamp }) s
  if p.claim.unit = .active ∧ p.mirrored then
    emit (.frame s.drone.count (.digest s.drone.count p.iseq p.digest.jseq p.digest.lseq (crc64 p.digest.ledger)
      (crc64 (ps.flatMap (·.2))) (ps.map (·.1)))) s1
  else if p.claim.unit = .active ∨ p.claim.unit = .solo then s1
  else s

/-- An ACK on the active (R465, R480). -/
def takeAck (jseq tick iseq : Nat) (s : State) : State :=
  let p := s.pair
  let s1 := modEpg (fun q => { q with
    ackJseq := max q.ackJseq jseq, ackTick := max q.ackTick tick, ackIseq := max q.ackIseq iseq, ackAt := s.clock }) s
  if p.phase = 4 ∧ p.ackTick < tick ∧ p.lastStamp ≤ tick + 256 then
    raise 0xACA (modEpg (fun q => { q with
      phase := 5, partner := 3, peerUnit := .standbySynced, cnt := modAt q.cnt 3 (· + 1) }) s1)
  else s1

/-- ACK (R465). -/
def execAck (jseq tick iseq : Nat) (s : State) : Host.Outcome State Fault Refusal :=
  if hears s && s.pair.claim.unit == .active && s.pair.mirrored then .next (takeAck jseq tick iseq s) else .next s

/-- MISMATCH (R465): the active's state stands; mirroring stops and a new resync starts. -/
def execMismatch (tick : Nat) (s : State) : Host.Outcome State Fault Refusal :=
  if hears s && s.pair.claim.unit == .active && s.pair.mirrored && decide (tick ≤ s.drone.count) then
    .next (modEpg (fun p => { p with phase := 0, partner := 1, peerUnit := .unsynced }) (stopMirror (noteMismatch s)))
  else .next s

/-- DROP sent: the partner is no longer mirrored (R463). -/
def dropPartner (s : State) : State :=
  raise 0xACC (modEpg (fun p => { p with phase := 0, partner := 1, peerUnit := .unsynced })
    (stopMirror (emit (.frame s.drone.count .drop) s)))

/-- DIGEST_UNCONFIRMED_DROP (R463): a synced partner's digest is unconfirmed 16,384 ticks after its own tick. -/
def execDigestUnconfirmedDrop (s : State) : Host.Outcome State Fault Refusal :=
  let p := s.pair
  if serving s && p.claim.unit == .active && p.mirrored && p.phase == 5 && decide (p.ackTick + 1 + 16384 ≤ s.drone.count) then
    .next (dropPartner s)
  else .next s

/-- ACK_TIMEOUT_DROP (R463): no ACK for 1 ms with the link up. -/
def execAckTimeoutDrop (s : State) : Host.Outcome State Fault Refusal :=
  let p := s.pair
  if serving s && p.claim.unit == .active && p.mirrored && p.link.up && decide (p.ackAt + 1000000 ≤ s.clock) then
    .next (dropPartner s)
  else .next s

/-- DROP (R463): the partner enters UNSYNCED. -/
def execDrop (s : State) : Host.Outcome State Fault Refusal :=
  if hears s && (s.pair.claim.unit == .standbySynced || s.pair.claim.unit == .unsynced) then
    .next (setUnit .unsynced (dropCopy s))
  else .next s

/-- LIVE_IMG on the standby: the active has fixed the target edge (R83). -/
def takeTarget (imgId : Word) (target : Nat) (s : State) : State :=
  if target = 0 then s
  else { s with loader := { s.loader with live := s.loader.live.map fun r =>
    if r.image.imgId = imgId then { r with partnerOk := true, target := some target } else r } }

/-- LIVE_IMG (R83). -/
def execLiveImg (imgId : Word) (target : Nat) (s : State) : Host.Outcome State Fault Refusal :=
  if hears s && livePair s then
    let s1 := { s with loader := { s.loader with
      partnerImg := some imgId, partnerAt := if target = 0 then s.drone.count else s.loader.partnerAt } }
    if s.pair.claim.unit = .active then .next (fixTarget s1) else .next (takeTarget imgId target s1)
  else .next s

/-! ### HALT (R462) and volume clears (R487) -/

/-- EPG_HALT raised when the active starts to hold commands (R462). -/
def announceHalt (s : State) : State :=
  let h := haltHolds s
  raiseIf (h && !s.pair.haltAnn) 0xAC4 (modEpg (fun p => { p with haltAnn := h }) s)

/-- EPG_POLICY written (R462). -/
def writePolicy (w : Word) (s : State) : State := modEpg (fun p => { p with halt := bit w 0 }) s

/-- EPG_VOL_CLEAR written (R487): REFUSED is W1C; GO clears VOLUME. -/
def writeVolClear (w : Word) (s : State) : State :=
  let n := bits w 0 16
  let s1 := modEpg (fun p => { p with volClear := n, volRefused := p.volRefused && !bit w 17 }) s
  if !bit w 16 then s1
  else
    match (getVol s1 n).filter fun v => v.state == .readOnly && fenceHolder s1 with
    | none => modEpg (fun p => { p with volRefused := true }) s1
    | some v => inStep (.clear n) (changeVol n (some { v with state := .online }) s1)

/-! ### EPG registers (R490) -/

/-- EPG_STAT as it reads. -/
def epgStat (s : State) : Word :=
  let p := s.pair
  put p.partner 0 ||| putB p.link.up 3 ||| putB p.mirrored 4 ||| putB p.loc 5 ||| putB (haltHolds s) 6 ||| putB p.noHolder 7 |||
    put p.phase 8 ||| put p.joinWhy 12 ||| put p.scope 16 ||| put (sat 15 (recentMismatches s)) 20

/-- EPG_LAG as it reads: newest stamp sent less newest digest confirmed, and last JSEQ less the partner's durable one. -/
def epgLag (s : State) : Word :=
  let p := s.pair
  if p.claim.unit = .active ∧ p.mirrored then
    put (sat 0xFFFFFF (p.lastStamp - p.ackTick)) 0 ||| put (sat 0xFFFFFFFF (s.cache.nextJseq - 1 - p.ackJseq)) 32
  else 0

/-- EPG_POST_STAT[n] as it reads. -/
def postStat (s : State) (n : Nat) : Word :=
  let x := nth Post.reset s.pair.posts n
  put (((postSlots s)[n]?).getD 0x1FF) 0 ||| putB x.valid 9 ||| putB x.adv 10 ||| putB x.loc 11 ||| putB x.durable 12 |||
    put (x.gen % 2 ^ 48) 16

/-- An EPG register as it reads, by offset in the block (R490). -/
def epgRead (s : State) (off : Nat) : Word :=
  let p := s.pair
  if off = 0 then p.claim.claim
  else if off = 8 then put p.claim.unit.code 0 ||| put p.claim.seq.toNat 56
  else if off = 0x10 then epgStat s
  else if off = 0x18 then p.high
  else if off = 0x20 then put p.last 8 ||| put p.result 12
  else if off = 0x28 then putB p.halt 0
  else if off = 0x30 then epgLag s
  else if off = 0x38 then put (sat 0xFFFFFFFF (p.baseLeft / 1048576)) 0
  else if off = 0x40 then put p.link.replays 0 ||| put p.link.retrains 32 ||| put p.link.losses 48
  else if off = 0x48 then put p.volClear 0 ||| putB p.volRefused 17
  else if 0x80 ≤ off ∧ off < 0xB8 then postStat s ((off - 0x80) / 8)
  else if 0xC0 ≤ off ∧ off < 0xF0 then nth 0 p.cnt ((off - 0xC0) / 8)
  else 0

end Sys2Proof.Machine
end

