-- ==== Sys2Proof/Machine/Ecc.lean ====
section
/-! DEFINITION. Memory errors (15: R494 to R496): the effects of uncorrectable errors by location, and the two patrols. -/

namespace Sys2Proof.Machine

open Sys2Proof

/-! ### Effects by location (R496) -/

/-- A second failure of a buffer completes the owning command: 0x04 for a read, 0x06 for a write. -/
def failOwner (l : Leg) (s : State) : State :=
  let s1 := stopLeg l.id s
  match (getJob s1 l.job).map Job.purpose with
  | some (Purpose.readOut seq) => finishCmd seq 4 0 ((cmdJobs s1 seq).foldl (fun t i => cancelJob i t) s1)
  | some (Purpose.writeIn seq) => hostError seq s1
  | some (Purpose.hostOut seq) => finishCmd seq 4 0 ((cmdJobs s1 seq).foldl (fun t i => cancelJob i t) s1)
  | _ => abandonWork l s1

/-- The leg has met such an error before. -/
def metBefore (s : State) (l : Leg) : Bool :=
  l.reruns != 0 || (s.reeds.votes.find? fun v => some v.leg.id == l.voteFor).any fun v => v.leg.reruns != 0

/-- The drive reads that filled the input buffers of a reed leg of a plan on a stripe (R496): those of its position that neither
cache pages nor decoding gave. -/
def refills (s : State) (l : Leg) : List Work :=
  match getJob s l.job with
  | none => []
  | some j =>
    match j.purpose.stripe? with
    | none => []
    | some key =>
      match stripeVol s key with
      | none => []
      | some v =>
        let e := getEntry s (key / 256)
        let x := l.tag / 16
        let from_ := fun i => (tabFind j.got (blockTag x i)).isSome && !j.pages.contains (blockTag x i) && !(erasedAt s v e j x).contains i
        if decides s then ((List.range (v.k + v.m)).filter from_).flatMap fun i => readsOf s v e (key % 256) i [x] else []

/-- An error in the waystation or a reed-local buffer under a running leg (R496): the reads that filled the buffer run once more,
and a reed leg is handled as hung (R108, R234); a leg of a firmware channel runs again with its source. The second time the
owning command fails. DESIGN CHOICE (log 59): the vote does not wait for the reads. -/
def bufferError (id : Nat) (s : State) : State :=
  match findLeg s id with
  | none => s
  | some l =>
    if l.done then s
    else if metBefore s l then failOwner l s
    else if l.kind = .reed then
      hangLeg (moreWork l.job (refills s l) (modLeg id (fun x => { x with reruns := 1 }) s)) { l with reruns := 1 }
    else
      requeue (.leg { l with reruns := 1, late := false, counted := false }) (rewindGroup l (stopLeg id s))

/-- An error in the waystation buffer that a channel reads: its oldest read faults with cause 0x4 (R207). -/
def chanError (ch : Nat) (s : State) : State :=
  match (getChan s ch).reads with
  | [] => s
  | rd :: _ => advance ch (readError ch 4 0 rd s)

/-- A block of a pinned page leaves the intents that hold it; a destage under way takes it as zero. -/
def dropPinned (q : Nat) (i : Intent) : Intent :=
  if (tabFind i.blocks q).isNone then i
  else if i.phase = .open_ then { i with blocks := tabErase i.blocks q }
  else { i with blocks := tabErase i.blocks q, zeros := addOnce i.zeros q }

/-- A pinned page lost: its dirty block is listed with CAUSE 7 (R379, R496). -/
def pageLost (key q : Nat) (s : State) : State :=
  match stripeVol s key with
  | none => s
  | some v =>
    if !(getDesc s key).intents.any (fun i => (tabFind i.blocks q).isSome) then s
    else
      let s1 := setDesc key { intents := (getDesc s key).intents.map (dropPinned q) } s
      let gone := (getDesc s1 key).intents.filter fun i => i.phase == .open_ && i.dirty.isEmpty
      let s2 := gone.foldl (fun t i => retireEmpty key i.root t) s1
      addLost none [Lost.runEntry 7 (keyVol (key / 256)) (v.firstOf key + q) 1] s2

/-- A page of the HBM ledger tier (R283, R496): a clean one is read again from the home when it is next needed, a dirty one is rebuilt from
its home copy, which is read again at once, and the records in the journal. -/
def ledgerPageError (page : Nat) (s : State) : State :=
  match tabFind s.ledger.pages page with
  | none => s
  | some p =>
    let t := if !p.dirty then tabErase s.ledger.pages page
      else if pageHomed s page then tabInsert s.ledger.pages page { p with part := some [] } else s.ledger.pages
    { s with ledger := { s.ledger with pages := t } }

/-- The effect of an uncorrectable error at its location (R496). A clean cache page is read again when next needed. -/
def eccEffect (loc : EccLoc) (s : State) : State :=
  match loc with
  | .reedLeg leg => bufferError leg s
  | .dmaBuf ch => chanError ch s
  | .smc vol g => smcInvalidate vol (8 * g) 8 s
  | .fatalSram => fatalStop s
  | .cachePage key q => pageLost key q s
  | .cleanPage => s
  | .ledgerPage page => ledgerPageError page s
  | .fatalHbm => fatalStop s

/-- The location lies in HBM. -/
def EccLoc.inHbm : EccLoc → Bool
  | .cachePage _ _ => true
  | .cleanPage => true
  | .ledgerPage _ => true
  | .fatalHbm => true
  | _ => false

/-- An uncorrectable error met: counted, its event raised (R517), the SRAM row repaired (R494) or the pseudo-channel retired (R496), and its effect.
`place` is the SRAM group or the pseudo-channel. -/
def meetUe (place : Nat) (loc : EccLoc) (s : State) : State :=
  if loc.inHbm then
    retirePc (place % 64) (eccEffect loc (raise 0xC03 { s with health := { s.health with hbmUe := s.health.hbmUe + 1 } }))
  else
    repairRow (place % 64) (eccEffect loc (raise 0xC02 { s with health := { s.health with sramUe := s.health.sramUe + 1 } }))

/-- ECC_UNCORRECTABLE (R494, R496). -/
def execEccUncorrectable (place : Nat) (loc : EccLoc) (s : State) : Host.Outcome State Fault Refusal :=
  if mgmtUp s then .next (meetUe place loc s) else .next s

/-! ### Patrols (R494, R496) -/

/-- What the SRAM patrol found in a group, its uncorrectable errors included. -/
def patrolSram (s : State) (x : SramFind) : State :=
  let bad := x.ue.map (·.1)
  x.ue.foldl (fun t e => meetUe x.group e.2 t) (patrolGroup s { x with rows := x.rows.filter fun r => !bad.contains r })

/-- SRAM_PATROL (R492, R494). -/
def execSramPatrol (found : List SramFind) (s : State) : Host.Outcome State Fault Refusal :=
  if testsOn s then .next (found.foldl patrolSram s) else .next s

/-- The rows of a pseudo-channel that have shown correctable errors within 24 h. -/
def rowsMarked (s : State) (pc : Nat) : Nat := distinct ((s.health.rowMarks.filter fun m => m.1 == pc).map (·.2.1))

/-- Correctable errors of the HBM patrol in rows of a pseudo-channel (R496): more than 32 distinct rows within 24 h retire
it. -/
def markRows (pc : Nat) (rows : List Nat) (s : State) : State :=
  let recent := s.health.rowMarks.filter fun m => decide (s.clock < m.2.2 + 86400000000000)
  let s1 := { s with health := { s.health with
    hbmCe := s.health.hbmCe + rows.length
    rowMarks := recent ++ rows.map fun r => (pc, r, s.clock) } }
  if 32 < rowsMarked s1 pc then retirePc pc s1 else s1

/-- What the HBM patrol found in a pseudo-channel; `done` when its pass over the HBM is complete. -/
def patrolHbm (pc : Nat) (rows : List Nat) (ue : List EccLoc) (done : Bool) (s : State) : State :=
  let s1 := ue.foldl (fun t l => meetUe pc l t) (markRows pc rows s)
  if done then { s1 with health := { s1.health with hbmPasses := s1.health.hbmPasses + 1 } } else s1

/-- HBM_PATROL (R492, R496). -/
def execHbmPatrol (pc : Nat) (rows : List Nat) (ue : List EccLoc) (done : Bool) (s : State) : Host.Outcome State Fault Refusal :=
  if testsOn s then .next (patrolHbm pc rows ue done s) else .next s

end Sys2Proof.Machine
end

