-- ==== Sys2Proof/Machine/Reset.lean ====
section
/-! DEFINITION. Reset, power-up, port resets, pins and temperature (17: R550 to R552, R560 to R562, R570, R571). -/

namespace Sys2Proof.Machine

open Sys2Proof

/-! ### Device reset (R550, R571) -/

/-- What a device reset leaves of the management plane: the fuses (R535). -/
def Mgmt.afterReset (m : Mgmt) : Mgmt := { Mgmt.reset with keys := m.keys, svnMin := m.svnMin }

/-- What a device reset leaves of the flash: its contents, the powered hours added (R495, R504). -/
def Flash.afterReset (hours : Nat) (f : Flash) : Flash :=
  { f with health := { f.health with powerOnH := f.health.powerOnH + hours } }

/-- A device reset (R550): every plane stops at once; fuses, flash, die identity and the levels at the input pins stay. A
flash write or a fusing under way is interrupted as by power loss (R530, R537). -/
def deviceReset (s : State) : State :=
  let t := breakFlash (breakFusing s)
  { State.reset with
    free := t.free
    dieId := t.dieId
    mgmt := t.mgmt.afterReset
    flash := t.flash.afterReset (hoursNow t)
    pins := { Pins.reset with
      porN := t.pins.porN, hpPerst := t.pins.hpPerst, pwrFailN := t.pins.pwrFailN, testMode := t.pins.testMode }
    hem := { Hem.reset with chg := t.hem.chg }
    pair := { Pair.reset with link := { Link.reset with prsntN := t.pair.link.prsntN } }
    out := t.out
    pending := t.pending }

/-- DEVICE_RESET (R550): POR_N low. -/
def execDeviceReset (s : State) : Host.Outcome State Fault Refusal :=
  .next (deviceReset { s with pins := { s.pins with porN := false } })

/-- SUPPLY_BROWNOUT (R550). -/
def execSupplyBrownout (s : State) : Host.Outcome State Fault Refusal := .next (deviceReset s)

/-- TEST_MODE_ASSERT (R571): while TEST_MODE or SCAN_EN is high the device holds itself in device reset. -/
def execTestModeAssert (high : Bool) (s : State) : Host.Outcome State Fault Refusal :=
  let s1 := { s with pins := { s.pins with testMode := high } }
  if high then .next (deviceReset s1) else .next s1

/-! ### From POR_N to LOADER (R495, R501, R534, R551) -/

/-- HEALTH_RECORD_APPLY (R495, R501): the recorded repairs and retirements, and the reasons they stand for. -/
def applyRecord (s : State) : State :=
  let r := s.flash.health
  let s1 := applyRetired { s with health := { s.health with
    pcRetire := r.pcRetired.foldl (fun (m : BitVec 64) p => m ||| BitVec.ofNat 64 (2 ^ p)) 0
    wtPerm := r.wtPerm, sramRows := r.sramRows, sramCols := r.sramCols } }
  let s2 := { s1 with reeds := { s1.reeds with sparesOut := (sparePairs s1).isEmpty } }
  (List.range 5).foldl (fun t n => reasonIf (r.reasons.getLsbD n) n t) s2

/-- The boot goes on from the firmware check to LOADER (R534, R551): with valid firmware the primary image copy is fetched
(R72), without it the controller stays in recovery. -/
def bootUp (s : State) : State :=
  let fw := selectFw s
  let s1 := applyRecord { s with
    boot := .up
    pins := { s.pins with cold := false }
    mgmt := { s.mgmt with recovery := fw.isNone, fw := fw.map (firmwareOf s) } }
  let s2 := raiseIf (fw.isSome && fwValid s false != fwValid s true) 0xE07 s1
  if fw.isNone then s2 else startLoad (flashJob s2 0) s2

/-- POR_N_RELEASE (R551, R558, R560): POR_N rises; the straps are sampled, and below 0 °C the boot ROM holds. -/
def execPorNRelease (straps : BitVec 2) (tj : Int) (s : State) : Host.Outcome State Fault Refusal :=
  if s.boot != .reset || s.pins.testMode then .next s
  else
    let s1 := { s with
      pins := { s.pins with porN := true }
      mgmt := { s.mgmt with smbAddr := straps }
      health := { s.health with tjNow := tj, tjMax := tj } }
    if tj < 0 then .next { s1 with boot := .booting, pins := { s1.pins with cold := true } } else .next (bootUp s1)

/-! ### Temperature (R500, R560 to R562) -/

/-- TEMP_READING (R500, R560): a reading in 0.1 °C; a boot ROM that holds goes on at 0 °C. -/
def execTempReading (tj : Int) (s : State) : Host.Outcome State Fault Refusal :=
  match s.boot with
  | .reset => .next s
  | .booting => if 0 ≤ tj then .next (bootUp { s with health := { s.health with tjNow := tj, tjMax := tj } }) else .next s
  | .up => .next (readTemp tj s)

/-- Ten consecutive readings of 105 °C or more, and no thermal stop yet (R561). -/
def thermalDue (s : State) : Bool := mgmtUp s && decide (10 ≤ s.health.hotRun) && !s.health.thermal

/-- A thermal stop (R561): THERM_TRIP_N, and from the next edge what a power failure brings. It sets no replacement reason. -/
def thermalStop (s : State) : State :=
  powerFail { s with pins := { s.pins with thermTripN := false }, health := { s.health with thermal := true } }

/-- THERMAL_STOP (R561). -/
def execThermalStop (s : State) : Host.Outcome State Fault Refusal := if thermalDue s then .next (thermalStop s) else .next s

/-- THERM_COMPARATOR (R562): the comparator is independent of firmware and asserts THERM_TRIP_N at 115 °C. -/
def execThermComparator (s : State) : Host.Outcome State Fault Refusal :=
  .next { s with pins := { s.pins with thermTripN := false } }

/-! ### Host port resets (R135, R212, R527, R552) -/

/-- The functions of a port that own rings, its PF among them. -/
def portFunctions (s : State) (port : Nat) : List Nat :=
  128 * port :: (((s.image.map (·.ring)).getD []).map (·.1)).filter fun f => portOf f == port && !isPf f

/-- The groups of a port. -/
def portGroup (s : State) (port g : Nat) : Bool := (groupOwner s g).any fun f => portOf f == port

/-- DBL state of a port's groups at its reset value. -/
def clearDoorbells (port : Nat) (s : State) : State :=
  { s with host := { s.host with
    doorbells := s.host.doorbells.filter fun g => !portGroup s port g
    rescan := s.host.rescan.filter fun g => !portGroup s port g
    scan := s.host.scan.filter fun x => !portGroup s port x.group } }

/-- A port reset (R552): its functions as by a Function Level Reset, its utility channels aborted, its PF's window claims
lost. -/
def portReset (port : Nat) (s : State) : State :=
  let s1 := clearDoorbells port ((portFunctions s port).foldl (fun t f => resetFunction f t) s)
  let s2 := if (getCtx s1 port).claim.isSome then breakClaim port s1 else s1
  { s2 with pins := { s2.pins with hpPerst := modAt s2.pins.hpPerst port fun _ => false } }

/-- PORT_RESET_ASSERT (R552). -/
def execPortResetAssert (port : Nat) (s : State) : Host.Outcome State Fault Refusal :=
  if 2 ≤ port then .next s
  else if mgmtUp s && nth false s.pins.hpPerst port then .next (portReset port s)
  else .next { s with pins := { s.pins with hpPerst := modAt s.pins.hpPerst port fun _ => false } }

/-- PORT_RESET_RELEASE (R552). -/
def execPortResetRelease (port : Nat) (s : State) : Host.Outcome State Fault Refusal :=
  .next { s with pins := { s.pins with hpPerst := modAt s.pins.hpPerst port fun _ => true } }

/-! ### EPG_PRSNT_N (R570) -/

/-- EPG_PRSNT_CHANGE (R454, R570): while the pin is high the link stays in Detect and counts as down. -/
def execEpgPrsntChange (high : Bool) (s : State) : Host.Outcome State Fault Refusal :=
  let s1 := modLink (fun l => { l with prsntN := high }) s
  if high && mgmtUp s && linkLive s then .next (declareLoss s1) else .next s1

end Sys2Proof.Machine
end

