-- ==== Sys2Proof/Machine/Regs.lean ====
section
/-! DEFINITION. The register maps of BAR0 and BAR2 (R9 to R18, R41, R142, R143): what each register reads as, its fields by
access code, host errors of register accesses, and the MCTP orders (R542). -/

namespace Sys2Proof.Machine

open Sys2Proof

/-! ### Registers as they read (R41, R142) -/

/-- GLB_LDR_STAT.STATE (R69). -/
def LdrState.code : LdrState → Nat
  | .loader => 0
  | .fetch => 1
  | .verify => 2
  | .prepare => 3
  | .apply => 4
  | .running => 5

/-- GLB_LDR_LIVE.LSTATE (R69). -/
def LiveState.code : LiveState → Nat
  | .idle => 0
  | .verifying => 1
  | .pending => 2
  | .refused => 3

/-- GLB_ID (R3). -/
def glbId : Word := put 0x9600 0 ||| put 0x11 16 ||| put 1 32

/-- GLB_LDR_STAT (R69). -/
def ldrStat (l : Loader) : Word :=
  put l.state.code 0 ||| put l.copy 4 ||| put l.reason 8 ||| put l.section_ 16 ||| put l.offset.toNat 32

/-- A GLB register as function `f` reads it (R3, R4, R17, R69, R142, R148); a VF's view holds fewer. -/
def glbRead (s : State) (f off : Nat) : Word :=
  if off = 0x000 then glbId
  else if off = 0x008 then if isPf f then s.dieId else 0
  else if off = 0x100 then ldrStat s.loader
  else if off = 0x108 then
    if isPf f then put s.loader.lstate.code 0 ||| put s.loader.lreason 8 ||| put s.loader.lsection 16 else 0
  else if off = 0x110 then if isPf f then put s.loader.appliedTick 0 else 0
  else if off = 0x118 then s.loader.imgId
  else if off = 0x200 then fnInfo s f
  else if off = 0x208 then fnCserai s f
  else 0

/-- DRN_WAIT of a stream as it reads (R110); the rebuild stream is urgent under the zero-redundancy floor too (R104). -/
def waitWord (zr : Bool) (p : Patience) : Word := put p.wait 0 ||| putB (p.urgent || zr) 21 ||| put (sat 0xFFFFFFFF p.remain) 32

/-- A DRN register as it reads, by offset in the block (R110). -/
def drnRead (s : State) (off : Nat) : Word :=
  let d := s.drone
  if off = 0x00 then put d.count 0
  else if off = 0x08 then put ((s.image.map fun im => im.geom.tickSel).getD 1) 0 ||| put (tickCycles s) 16
  else if off = 0x10 then put (patienceTicks s) 0
  else if off = 0x18 then d.overrunCnt
  else if off = 0x20 then put (d.lastTick % 2 ^ 48) 0 ||| put d.lastRes 48 ||| put d.lastKind 56
  else if off = 0x28 then d.lateCnt
  else if off = 0x30 then d.hungCnt
  else if off = 0x40 then
    d.urgentShown.foldl (fun a st => a ||| putB true st.bit) 0 ||| putB d.zrShown 8 ||| putB d.floor8Shown 9
  else if off = 0x48 then bgHold s
  else if 0x80 ≤ off ∧ off < 0xA8 then waitWord (off == 0x80 && d.zrFloor) (nth Patience.reset d.patience ((off - 0x80) / 8))
  else if 0xC0 ≤ off ∧ off < 0xE0 then nth 0 d.grants ((off - 0xC0) / 8)
  else 0

/-- A ring register as it reads, by offset in the pair's registers (R146). -/
def ringRead (q : Ring) (off : Nat) : Word :=
  if off = 0x00 then rngCfg q
  else if off = 0x08 then q.sqBase
  else if off = 0x10 then q.cqBase
  else if off = 0x18 then q.mirror
  else if off = 0x20 then q.sqPi.setWidth 64
  else if off = 0x28 then q.sqCi.setWidth 64
  else if off = 0x30 then q.cqPi.setWidth 64
  else if off = 0x38 then q.cqCi.setWidth 64
  else 0

/-- The ring pair and the offset in its registers that an RNG offset of a function's BAR0 names (R141, R142, R146). -/
def ringAt (s : State) (f off : Nat) : Option (Nat × Nat) :=
  let e := ringEnt s f
  if off < 0x400000 ∨ 0x800000 ≤ off then none
  else
    let r := if isPf f then (off - 0x400000) / 64 else 64 * e.firstGroup + (off - 0x400000) / 64
    if ringOwner s r = some f ∧ (isPf f ∨ (off - 0x400000) / 4096 < e.groups) then some (r, off % 64) else none

/-- The ring group whose DBL_GRP an offset of a function's BAR0 lies in (R141, R142, R147). -/
def bellAt (s : State) (f off : Nat) : Option Nat :=
  let e := ringEnt s f
  if off < 0x800000 ∨ 0x802000 ≤ off then none
  else
    let l := (off - 0x800000) / 8
    let g := if isPf f then l else e.firstGroup + l
    if groupOwner s g = some f ∧ (isPf f ∨ l < e.groups) then some g else none

/-- A register of the blocks that only a PF sees, by offset in BAR0 (R41); MGW_DATA apart. -/
def blockRead (s : State) (f off : Nat) : Word :=
  let o := off % 0x100000
  match off / 0x100000 with
  | 0x01 => drnRead s o
  | 0x10 =>
    if o < 0x10000 then
      let ch := o / 256
      if isUtility ch && chanPf ch != f then 0 else chanRead ch (getChan s ch) (o % 256)
    else if o = 0x10000 then putB (dmaGlob s f).compat4200 0
    else if o = 0x10008 then dmaGstat s f
    else 0
  | 0x11 => reedRead s o
  | 0x12 => smcRead s f o
  | 0x13 => if 0x4000 ≤ o then arrayRead s o else plcRead s o
  | 0x14 => jrnRead s o
  | 0x15 => drvRead s o
  | 0x16 => epgRead s o
  | 0x17 => hemRead s o
  | 0x18 => evtRead s o
  | 0x19 => mgwRead s (portOf f) o
  | 0x1A => trlRead s o
  | 0x1B => hltRead s o
  | _ => 0

/-- HEM_SENSE_CFG while RWL fields are writable and the loader has left LOADER (R73, R75). -/
def senseOpen (s : State) (f off : Nat) : Bool :=
  off == 0x1700020 && pfOpen s f && s.loader.rwlOpen && s.loader.state != .loader

/-- The registers of the firmware's channels (R182, R183). -/
def firmwareBlock (off : Nat) : Bool := decide (0x1000000 ≤ off) && decide (off < 0x1000000 + 256 * 224)

/-- A BAR0 register as function `f` reads it, by the offset of its 8 bytes (R14, R41, R73, R142). -/
def barRead (s : State) (f off : Nat) : Word :=
  if f = firmware then if firmwareBlock off then blockRead s f off else 0
  else if off < 0x100000 then if glbOpen s f then glbRead s f off else 0
  else if isPf f && off / 0x100000 == 0x19 then if pfOpen s f then mgwRead s (portOf f) (off % 0x100000) else 0
  else if senseOpen s f off then hemRead s 0x20
  else if !barSeen s f then 0
  else
    match ringAt s f off with
    | some (r, o) => ringRead (getRing s r) o
    | none => if isPf f then blockRead s f off else 0

/-! ### Fields by access code (R12, R13) -/

/-- The bits of a register by access: fields that keep a value (RW, RWL), W1C bits, bits that act (WO, W1S) and read-only
bits. Every other bit is reserved. -/
structure RegMask where
  rw  : Word
  w1c : Word
  act : Word
  ro  : Word
deriving DecidableEq, Repr

/-- A mask of fields given as (lowest bit, width). -/
def fields (l : List (Nat × Nat)) : Word := l.foldl (fun a p => a ||| put (2 ^ p.2 - 1) p.1) 0

/-- A register's mask from its fields. -/
def regMask (rw w1c act ro : List (Nat × Nat)) : RegMask :=
  { rw := fields rw, w1c := fields w1c, act := fields act, ro := fields ro }

/-- The bits of a register that are not reserved. -/
def RegMask.all (m : RegMask) : Word := m.rw ||| m.w1c ||| m.act ||| m.ro

/-- The offset lies in an array of `n` registers of 8 bytes from `base`. -/
def inArr (off base n : Nat) : Bool := base ≤ off && off < base + 8 * n

/-- The writable registers of a ring pair (R146). -/
def ringMask (off : Nat) : Option RegMask :=
  if off = 0x00 then some (regMask [(0, 1), (8, 5), (16, 11), (27, 1)] [] [] [(1, 6), (32, 17)])
  else if off = 0x08 ∨ off = 0x10 ∨ off = 0x18 then some (regMask [(0, 64)] [] [] [])
  else if off = 0x20 ∨ off = 0x38 then some (regMask [(0, 17)] [] [] [])
  else none

/-- The writable registers of a DMA channel (R214). -/
def chanMask (off : Nat) : Option RegMask :=
  if off = 0x00 then some (regMask [(1, 1)] [] [(0, 1), (2, 2)] [])
  else if off = 0x08 then some (regMask [(0, 1), (8, 5), (16, 2), (24, 3), (32, 8)] [] [] [])
  else if off = 0x10 then some (regMask [] [(4, 7)] [] [(0, 4)])
  else if off = 0x18 ∨ off = 0x20 then some (regMask [(6, 58)] [] [] [])
  else if off = 0x28 then some (regMask [] [] [(0, 64)] [])
  else none

/-- The writable registers of the SMC block (R321). -/
def smcMask (o : Nat) : Option RegMask :=
  if o = 0x00 then some (regMask [(0, 2)] [] [(2, 1)] [])
  else if o = 0x10 then some (regMask [(0, 64)] [] [] [])
  else if o = 0x18 then some (regMask [(1, 2), (8, 24)] [] [(0, 1)] [])
  else if o = 0x20 then some (regMask [] [(57, 1)] [] [(0, 14), (16, 14), (32, 24), (56, 1)])
  else none

/-- The writable registers of the PLC block (R286, R391). -/
def plcMask (o : Nat) : Option RegMask :=
  if o = 0x10 then some (regMask [(0, 10), (16, 10), (32, 8)] [] [] [])
  else if o = 0x40 then some (regMask [(0, 18)] [] [] [])
  else if inArr o 0x1000 384 then some (regMask [(0, 1), (8, 8)] [] [] [(16, 4)])
  else if inArr o 0x2000 384 then some (regMask [(0, 1)] [] [] [])
  else if inArr o 0x3000 384 then some (regMask [] [(4, 1)] [] [(0, 4), (16, 48)])
  else if o = 0x4000 then some (regMask [(0, 9)] [] [] [])
  else if o = 0x4018 then some (regMask [(0, 9)] [] [(9, 2)] [])
  else if o = 0x4020 then some (regMask [] [(14, 1)] [] [(0, 14), (32, 32)])
  else if o = 0x4028 then some (regMask [(0, 12)] [] [] [])
  else none

/-- The writable registers of the DRV block (R419). -/
def drvMask (o : Nat) : Option RegMask :=
  if inArr o 0 12 then some (regMask [(0, 3), (4, 2)] [] [] [])
  else if inArr o 0x1000 384 then some (regMask [(0, 10)] [] [(10, 2)] [(16, 11)])
  else if inArr o 0x2000 384 then
    some (regMask [] [(40, 8)] [] [(0, 23), (24, 9), (36, 4)])
  else none

/-- The writable registers of the HEM block (R449); VDIV only until the first image runs (R75). -/
def hemMask (rwl : Bool) (o : Nat) : Option RegMask :=
  if o = 0x00 then some (regMask [] [] [(0, 4)] [])
  else if o = 0x10 then some (regMask [(0, 16)] [] [] [])
  else if o = 0x18 then some (regMask [(0, 32)] [] [] [])
  else if o = 0x20 ∧ rwl then some (regMask [(0, 8)] [] [] [])
  else none

/-- The writable registers of the EPG block (R490). -/
def epgMask (o : Nat) : Option RegMask :=
  if o = 0x20 then some (regMask [] [] [(0, 3)] [(8, 3), (12, 4)])
  else if o = 0x28 then some (regMask [(0, 1)] [] [] [])
  else if o = 0x48 then some (regMask [(0, 16)] [(17, 1)] [(16, 1)] [])
  else none

/-- The writable registers of the EVT block (R518). -/
def evtMask (o : Nat) : Option RegMask :=
  if inArr o 0 64 then some (regMask [] [(0, 64)] [] [])
  else if inArr o 0x200 64 then some (regMask [(0, 64)] [] [] [])
  else if o = 0x408 then some (regMask [(0, 32)] [] [] [])
  else none

/-- The writable registers of the TRL block (R519). -/
def trlMask (o : Nat) : Option RegMask :=
  if o = 0x08 then some (regMask [(0, 48)] [] [] [])
  else if o = 0x10 then some (regMask [] [] [(0, 2)] [])
  else none

/-- The writable registers of the MGW block (R544), MGW_DATA apart. -/
def mgwMask (o : Nat) : Option RegMask :=
  if o = 0x00 then some (regMask [(2, 22), (32, 4)] [] [] [])
  else if o = 0x10 then
    some (regMask [(10, 1)] [(13, 2)] [(0, 10)] [(12, 1), (15, 5), (24, 8), (32, 24)])
  else none

/-- The writable register at an offset of a PF's BAR0 beyond the rings and doorbells. -/
def blockMask (s : State) (f off : Nat) : Option RegMask :=
  let o := off % 0x100000
  match off / 0x100000 with
  | 0x01 => if o = 0x48 then some (regMask [(0, 1), (2, 3)] [] [] []) else none
  | 0x10 =>
    if o < 0x10000 then if chanOpen s f (o / 256) then chanMask (o % 256) else none
    else if o = 0x10000 then some (regMask [(0, 1)] [] [] [])
    else none
  | 0x12 => smcMask o
  | 0x13 => plcMask o
  | 0x14 => if o = 0x58 then some (regMask [(0, 1)] [] [(1, 1)] []) else none
  | 0x15 => drvMask o
  | 0x16 => epgMask o
  | 0x17 => hemMask s.loader.rwlOpen o
  | 0x18 => evtMask o
  | 0x19 => mgwMask o
  | 0x1A => trlMask o
  | 0x1B => if o = 0x28 then some (regMask [] [] [(0, 64)] []) else none
  | _ => none

/-- The blocks of the management plane and of the event unit: HEM, EVT, TRL and HLT, which a halted unit keeps (R556). -/
def seenBlock (off : Nat) : Bool := [0x17, 0x18, 0x1A, 0x1B].contains (off / 0x100000)

/-- The writable register that function `f` reaches at an offset of its BAR0 (R14, R41, R73, R141, R142). -/
def maskAt (s : State) (f off : Nat) : Option RegMask :=
  if f = firmware then if firmwareBlock off then blockMask s f off else none
  else if isPf f && off / 0x100000 == 0x19 then if pfOpen s f then mgwMask (off % 0x100000) else none
  else if senseOpen s f off then hemMask true 0x20
  else if isPf f && seenBlock off then if barSeen s f then blockMask s f off else none
  else if !barOpen s f then none
  else if (bellAt s f off).isSome then some (regMask [] [] [(0, 64)] [])
  else
    match ringAt s f off with
    | some (_, o) => ringMask o
    | none => if isPf f then blockMask s f off else none

/-! ### What a write of a register does (R12) -/

/-- A ring register written (R120 to R123, R132). -/
def ringWrite (f r off : Nat) (w : Word) (s : State) : State :=
  if off = 0x00 then writeRngCfg f r w s
  else if off = 0x08 then writeRingAddr r (·.sqBase) (fun x q => { q with sqBase := x }) w s
  else if off = 0x10 then writeRingAddr r (·.cqBase) (fun x q => { q with cqBase := x }) w s
  else if off = 0x18 then writeRingAddr r (·.mirror) (fun x q => { q with mirror := x }) w s
  else if off = 0x20 then modRing r (fun q => { q with sqPi := BitVec.ofNat 17 (bits w 0 17) }) s
  else if off = 0x38 then writeCqCi r w s
  else s

/-- DMA_GCTL of a PF written (R215). -/
def writeGctl (f : Nat) (w : Word) (s : State) : State := setDmaGlob f { dmaGlob s f with compat4200 := bit w 0 } s

/-- An SMC register written by a PF (R307 to R312, R321). -/
def smcRegWrite (f o : Nat) (w : Word) (s : State) : State :=
  if o = 0x00 then
    let t := { s with smc := { s.smc with prefetchEn := bit w 0, seqDetEn := bit w 1 } }
    if bit w 2 then unlockAll f t else t
  else if o = 0x10 then
    { s with smc := modSmcPf f (fun x => { x with baseVol := bits w 0 16, baseParcel := bits w 16 48 }) s.smc }
  else if o = 0x18 then writePreload f w s
  else if o = 0x20 then { s with smc := modSmcPf f (fun x => { x with done := x.done && !bit w 57 }) s.smc }
  else s

/-- PLC_FAIL_CTL written (R368, R390): SLOT, then ACT. -/
def writeFailCtl (w : Word) (s : State) : State :=
  let n := bits w 0 9
  if 384 ≤ n then if fenceHolder s then { s with array := { s.array with failSlot := n } } else s
  else writeFailSlot n (if bits w 9 2 = 1 then orderFail n else if bits w 9 2 = 2 then forget n else id) s

/-- A PLC register written (R257 to R259, R286, R391). -/
def plcWrite (o : Nat) (w : Word) (s : State) : State :=
  if o = 0x10 then writeMigCfg w s
  else if o = 0x40 then writePgSel w s
  else if inArr o 0x1000 384 then writeTag ((o - 0x1000) / 8) w s
  else if inArr o 0x2000 384 then writeSlotCtl ((o - 0x2000) / 8) (bit w 0) s
  else if inArr o 0x3000 384 then
    let n := (o - 0x3000) / 8
    setSlot n { getSlot s n with refused := (getSlot s n).refused && !bit w 4 } s
  else if o = 0x4000 then writeRbldCtl w s
  else if o = 0x4018 then writeFailCtl w s
  else if o = 0x4020 then { s with array := { s.array with widened := s.array.widened && !bit w 14 } }
  else if o = 0x4028 then if fenceHolder s then writeLostSel w s else s
  else s

/-- A DRV register written (R419). -/
def drvWrite (o : Nat) (w : Word) (s : State) : State :=
  if inArr o 0 12 then writeCluCfg (o / 8) w s
  else if inArr o 0x1000 384 then writePosMap ((o - 0x1000) / 8) w s
  else if inArr o 0x2000 384 then clearCauses ((o - 0x2000) / 8) w s
  else s

/-- HEM_CTL written (R444, R446, R447): its bits in ascending order. -/
def writeHemCtl (w : Word) (s : State) : State :=
  let s1 := if bit w 0 then hemApply (requestCal s.clock) s else s
  let s2 := if bit w 1 then hemApply (calAbort 1) s1 else s1
  let s3 := if bit w 2 then { s2 with hem := requestShip s2.hem } else s2
  if bit w 3 then { s3 with hem := cancelShip s3.hem } else s3

/-- HEM_DUMP_POWER written (R342, R449). -/
def writeDumpPower (w : Word) (s : State) : State := { s with hem := { s.hem with dumpPower := bits w 0 16 } }

/-- VDIV written: 1 to 255, and 0, which R422 does not name, leaves a free one of them. -/
def writeVdiv (w : Word) (s : State) : State :=
  if bits w 0 8 ≠ 0 then { s with hem := { s.hem with vdiv := bits w 0 8 } }
  else
    let d := drawFree s
    { d.2 with hem := { d.2.hem with vdiv := bits d.1 0 8 % 255 + 1 } }

/-- A HEM register written (R449). -/
def hemWrite (o : Nat) (w : Word) (s : State) : State :=
  if o = 0x00 then writeHemCtl w s
  else if o = 0x10 then writeDumpPower w s
  else if o = 0x18 then { s with hem := { s.hem with calDirtyMax := bits w 0 32 } }
  else if o = 0x20 then writeVdiv w s
  else s

/-- An order by its number (R490); the others are not used. -/
def giveOrder (n : Nat) (s : State) : State :=
  match n with
  | 1 => orderJoin s
  | 2 => orderSalvage s
  | 3 => orderSwitch s
  | 4 => orderForm s
  | _ => s

/-- An EPG register written (R462, R487, R490). -/
def epgWrite (o : Nat) (w : Word) (s : State) : State :=
  if o = 0x20 then giveOrder (bits w 0 3) s
  else if o = 0x28 then writePolicy w s
  else if o = 0x48 then writeVolClear w s
  else s

/-- An EVT register written by a PF (R508, R518). -/
def evtWrite (f o : Nat) (w : Word) (s : State) : State :=
  if inArr o 0 64 then writeEvtStat (o / 8) w s
  else if inArr o 0x200 64 then writeEvtMask f ((o - 0x200) / 8) w s
  else if o = 0x408 then selectLog (bits w 0 32) s
  else s

/-- TRL_REQ written (R519). -/
def writeTrlReq (w : Word) (s : State) : State := { s with trials := { s.trials with req := BitVec.ofNat 48 (bits w 0 48) } }

/-- A TRL register written (R511, R515, R519). -/
def trlWrite (o : Nat) (w : Word) (s : State) : State :=
  if o = 0x08 then writeTrlReq w s
  else if o = 0x10 then
    let t := if bit w 0 then answerTrial (parseTrial s.trials.req.toNat) s else s
    if bit w 1 then endTrial 1 t else t
  else s

/-- An MGW register written by the PF of a port (R544). -/
def mgwWrite (c o : Nat) (w : Word) (s : State) : State :=
  if o = 0x00 then writeAddr c w s else if o = 0x10 then writeCtl c w s else s

/-- A register of the blocks that only a PF sees written with a legitimate value. -/
def blockWrite (f off : Nat) (w : Word) (s : State) : State :=
  let o := off % 0x100000
  match off / 0x100000 with
  | 0x01 => writeBgHold w s
  | 0x10 => if o < 0x10000 then chanWrite (o / 256) (o % 256) w s else writeGctl f w s
  | 0x12 => smcRegWrite f o w s
  | 0x13 => plcWrite o w s
  | 0x14 => writeJrnCtl w s
  | 0x15 => drvWrite o w s
  | 0x16 => epgWrite o w s
  | 0x17 => hemWrite o w s
  | 0x18 => evtWrite f o w s
  | 0x19 => mgwWrite (portOf f) o w s
  | 0x1A => trlWrite o w s
  | 0x1B => snapHealth s
  | _ => s

/-- The register at an offset of a function's BAR0 written with a legitimate value (R12). -/
def barWrite (f off : Nat) (w : Word) (s : State) : State :=
  match bellAt s f off with
  | some g => ringDoorbell g s
  | none =>
    match ringAt s f off with
    | some (r, o) => ringWrite f r o w s
    | none => blockWrite f off w s

/-! ### Host errors of a register access (R11, R13, R75, R179) -/

/-- What a host error leaves of a register (R179): the fields that software can write take a free value of theirs, and nothing
that the register can order is ordered. -/
def freeWrite (m : RegMask) (act : Word → State → State) (s : State) : State :=
  if m.rw ||| m.w1c = 0 then s
  else
    let d := drawFree s
    act (d.1 &&& (m.rw ||| m.w1c)) d.2

/-- A host error on a register that a function reaches. A doorbell rings all the same (R124). -/
def regError (f off : Nat) (s : State) : State :=
  match maskAt s f off with
  | none => s
  | some m => if (bellAt s f off).isSome then barWrite f off 0 s else freeWrite m (barWrite f off) s

/-- The offsets of the registers that an access touches. -/
def touched (off width : Nat) : List Nat := (List.range ((off + width - 1) / 8 - off / 8 + 1)).map fun i => 8 * (off / 8 + i)

/-- A 4-byte write's 64-bit form (R9): its half as written, and the other half as it reads, with the bits that act zero. -/
def halfWord (old : Word) (m : RegMask) (high : Bool) (v : Word) : Word :=
  if high then (old &&& m.rw &&& 0xFFFFFFFF) ||| put (bits v 0 32) 32
  else (old &&& m.rw &&& 0xFFFFFFFF00000000) ||| put (bits v 0 32) 0

/-- A register written with 8 bytes, or its half with 4 (R9, R12, R13). -/
def regWrite (f off : Nat) (w : Word) (s : State) : State :=
  match maskAt s f off with
  | none => s
  | some m => if w &&& ~~~ m.all ≠ 0 then regError f off s else barWrite f off w s

/-- A 4-byte write (R9): reserved bits count in its half alone. -/
def regWriteHalf (f off : Nat) (high : Bool) (v : Word) (s : State) : State :=
  match maskAt s f off with
  | none => s
  | some m => regWrite f off (halfWord (barRead s f off) m high v) s

/-- The offset lies in MGW_DATA, which is 32 bits wide, as a PF reaches it (R544). -/
def dataAt (s : State) (f off : Nat) : Bool := pfOpen s f && off / 8 * 8 == 0x1900008

/-- A BAR0 access that touches MGW_DATA (R544): an aligned 4-byte write is its write, one beyond its 32 bits touches no
register (R14), and any other is a host error that leaves a free word written. -/
def dataWrite (f off width : Nat) (v : Word) (s : State) : State :=
  if width = 4 ∧ off = 0x1900008 then writeData (portOf f) (v.setWidth 32) s
  else if width = 4 ∧ off = 0x190000C then s
  else
    let d := drawFree s
    writeData (portOf f) (d.1.setWidth 32) d.2

/-- A write of `width` bytes to BAR0 (R9, R11, R13, R14). -/
def bar0Write (f off width : Nat) (v : Word) (s : State) : State :=
  if dataAt s f off then dataWrite f off width v s
  else if width = 8 ∧ off % 8 = 0 then regWrite f off v s
  else if width = 4 ∧ off % 4 = 0 then regWriteHalf f (off / 8 * 8) (off % 8 == 4) v s
  else (touched off width).foldl (fun t o => if dataAt t f o then dataWrite f o 0 v t else regError f o t) s

/-! ### BAR2 (R143) -/

/-- One 32-bit word of an MSI-X table entry written: message address, message data, vector control. -/
def msixPoke (f v k : Nat) (x : Nat) (s : State) : State :=
  let q := getFunc s f
  let e := tabGet (0, 0) q.table v
  let putEnt := fun (n : Word × Nat) => setFunc f { q with table := tabPut (0, 0) q.table v n } s
  match k with
  | 0 => putEnt (put (bits e.1 32 32) 32 ||| put (x / 4 * 4) 0, e.2)
  | 1 => putEnt (put (bits e.1 0 32) 0 ||| put x 32, e.2)
  | 2 => putEnt (e.1, x)
  | _ => setVecMask f v (x % 2 == 1) s

/-- One 32-bit word of BAR2 written: the table's entries; the pending bits and the rest discard writes. -/
def bar2Word (f off x : Nat) (s : State) : State :=
  if off < 0x8000 ∧ off / 16 < (ringEnt s f).vectors then msixPoke f (off / 16) (off % 16 / 4) x s else s

/-- A write of `width` bytes to BAR2; one of another width or alignment than R9 leaves free words (R11, R179). -/
def bar2Write (f off width : Nat) (v : Word) (s : State) : State :=
  if width = 8 ∧ off % 8 = 0 then bar2Word f (off + 4) (bits v 32 32) (bar2Word f off (bits v 0 32) s)
  else if width = 4 ∧ off % 4 = 0 then bar2Word f off (bits v 0 32) s
  else
    (touched off width).foldl (fun t o =>
      let d := drawFree t
      bar2Word f (o + 4) (bits d.1 32 32) (bar2Word f o (bits d.1 0 32) d.2)) s

/-- One 32-bit word of BAR2 as it reads: the table's entries, and the pending-bit array from 0x8000. -/
def bar2Half (s : State) (f off : Nat) : Nat :=
  let q := getFunc s f
  if off < 0x8000 then
    if (ringEnt s f).vectors ≤ off / 16 then 0
    else
      let e := tabGet (0, 0) q.table (off / 16)
      match off % 16 / 4 with
      | 0 => bits e.1 0 32
      | 1 => bits e.1 32 32
      | 2 => e.2
      | _ => if tabGet true q.vecMask (off / 16) then 1 else 0
  else bits (setWord q.pba ((off - 0x8000) / 8)) (8 * (off % 8)) 32

/-- BAR2 of a function as it reads, by the offset of 8 bytes (R143). -/
def bar2Read (s : State) (f off : Nat) : Word :=
  if barSeen s f && off < 0x10000 then put (bar2Half s f off) 0 ||| put (bar2Half s f (off + 4)) 32 else 0

/-! ### The configuration identity (R144) -/

/-- What a function presents in its configuration space (R144): BAR sizes in bytes, the MSI-X table's size (R143), the
standard capabilities present, the extended ones by their PCIe identifiers, and for a PF what SR-IOV reports. -/
structure PcieIdentity where
  vendor     : Nat
  device     : Nat
  revision   : Nat
  classCode  : Nat
  subVendor  : Nat
  subDevice  : Nat
  number     : Nat
  bar0Bytes  : Nat
  bar2Bytes  : Nat
  bar64      : Bool
  prefetch   : Bool
  msixSize   : Nat
  endpoint   : Bool
  power      : Bool
  aer        : Bool
  ari        : Bool
  sriov      : Bool
  dataLink   : Bool
  phy16      : Bool
  phy32      : Bool
  phy64      : Bool
  margining  : Bool
  vfs        : Nat
  vfOffset   : Nat
  vfStride   : Nat
  vfDevice   : Nat
  pageBytes  : Nat
  flr        : Bool
deriving DecidableEq, Repr

/-- The configuration identity of a function (R143, R144). -/
def pcieIdentity (s : State) (f : Nat) : PcieIdentity :=
  let pf := isPf f
  { vendor := if pf then 0x1E9C else 0xFFFF
    device := if pf then 0x9600 else 0xFFFF
    revision := bits glbId 16 8
    classCode := 0x018000
    subVendor := 0x1E9C
    subDevice := if pf then 0x9600 else 0x9601
    number := f % 128
    bar0Bytes := if pf then 0x2000000 else 0x1000000
    bar2Bytes := 0x10000
    bar64 := true
    prefetch := false
    msixSize := (ringEnt s f).vectors
    endpoint := true
    power := pf
    aer := true
    ari := true
    sriov := pf
    dataLink := pf
    phy16 := pf
    phy32 := pf
    phy64 := pf
    margining := pf
    vfs := if pf then 127 else 0
    vfOffset := if pf then 1 else 0
    vfStride := if pf then 1 else 0
    vfDevice := if pf then 0x9601 else 0
    pageBytes := if pf then 4096 else 0
    flr := true }

/-- REGISTER_WRITE (R12): a write of `width` bytes to a BAR of a function. -/
def execRegisterWrite (f bar offset width : Nat) (value : Word) (s : State) : Host.Outcome State Fault Refusal :=
  if bar = 0 then .next (bar0Write f offset width value s)
  else if bar = 2 ∧ barSeen s f then .next (bar2Write f offset width value s)
  else .next s

/-! ### The rows that carry a register's value (R12, R13)

Each is a write of its register: one with a reserved bit set is the host error of R13, as REGISTER_WRITE has it. -/

/-- The reserved bits of a register that a value sets (R13). -/
def reservedSet (m : Option RegMask) (w : Word) : Bool :=
  match m with
  | none => false
  | some m => w &&& ~~~ m.all != 0

/-- A register written with a value by one of its rows (R12, R13). -/
def rowWrite (m : Option RegMask) (w : Word) (act : Word → State → State) (s : State) : State :=
  if reservedSet m w then m.elim s fun x => freeWrite x act s else act w s

/-- DRN_BG_HOLD_WRITE (R111). -/
def execDrnBgHoldWrite (f : Nat) (value : Word) (s : State) : Host.Outcome State Fault Refusal :=
  if pfFull s f then
    .next (rowWrite (some (regMask [(0, 1), (2, 3)] [] [] [])) value writeBgHold s)
  else .next s

/-- RING_ENABLE (R120): a write of RNG_CFG that takes EN from 0 to 1. -/
def execRingEnable (f ring : Nat) (value : Word) (s : State) : Host.Outcome State Fault Refusal :=
  if barOpen s f && ringOwner s ring == some f && (bit value 0 && !(getRing s ring).en || reservedSet (ringMask 0) value) then
    .next (rowWrite (ringMask 0) value (writeRngCfg f ring) s)
  else .next s

/-- RING_DISABLE (R121): a write of RNG_CFG that takes EN from 1 to 0. -/
def execRingDisable (f ring : Nat) (value : Word) (s : State) : Host.Outcome State Fault Refusal :=
  if barOpen s f && ringOwner s ring == some f && (!bit value 0 && (getRing s ring).en || reservedSet (ringMask 0) value) then
    .next (rowWrite (ringMask 0) value (writeRngCfg f ring) s)
  else .next s

/-- CQ_CI_WRITE (R132). -/
def execCqCiWrite (f ring : Nat) (value : Word) (s : State) : Host.Outcome State Fault Refusal :=
  if barOpen s f && ringOwner s ring == some f then
    .next (rowWrite (ringMask 0x38) value (writeCqCi ring) s)
  else .next s

/-- PLC_SLOT_TAG_WRITE (R258). -/
def execPlcSlotTagWrite (f slot : Nat) (value : Word) (s : State) : Host.Outcome State Fault Refusal :=
  if pfFull s f && slot < 384 then
    .next (rowWrite (plcMask 0x1000) value (writeTag slot) s)
  else .next s

/-- PLC_PG_SEL_WRITE (R286). -/
def execPlcPgSelWrite (f : Nat) (value : Word) (s : State) : Host.Outcome State Fault Refusal :=
  if pfSeen s f then
    .next (rowWrite (plcMask 0x40) value writePgSel s)
  else .next s

/-- SMC_PRELOAD (R307): GO with OP 0. -/
def execSmcPreload (f : Nat) (value : Word) (s : State) : Host.Outcome State Fault Refusal :=
  if pfFull s f && (bit value 0 && bits value 1 2 == 0 || reservedSet (smcMask 0x18) value) then
    .next (rowWrite (smcMask 0x18) value (writePreload f) s)
  else .next s

/-- SMC_PRELOAD_LOCK (R308): GO with OP 1. -/
def execSmcPreloadLock (f : Nat) (value : Word) (s : State) : Host.Outcome State Fault Refusal :=
  if pfFull s f && (bit value 0 && bits value 1 2 == 1 || reservedSet (smcMask 0x18) value) then
    .next (rowWrite (smcMask 0x18) value (writePreload f) s)
  else .next s

/-- SMC_UNLOCK (R312): GO with OP 2. -/
def execSmcUnlock (f : Nat) (value : Word) (s : State) : Host.Outcome State Fault Refusal :=
  if pfFull s f && (bit value 0 && bits value 1 2 == 2 || reservedSet (smcMask 0x18) value) then
    .next (rowWrite (smcMask 0x18) value (writePreload f) s)
  else .next s

/-- PLC_LOST_SEL_WRITE (R391). -/
def execPlcLostSelWrite (f : Nat) (value : Word) (s : State) : Host.Outcome State Fault Refusal :=
  if pfSeen s f && (fenceHolder s || reservedSet (plcMask 0x4028) value) then
    .next (rowWrite (plcMask 0x4028) value writeLostSel s)
  else .next s

/-- CLUSTER_ENABLE (R553): DRV_CLU_CFG written with EN = 1. -/
def execClusterEnable (f cluster : Nat) (value : Word) (s : State) : Host.Outcome State Fault Refusal :=
  if pfFull s f && cluster < 12 && (bit value 0 || reservedSet (drvMask 0) value) then
    .next (rowWrite (drvMask 0) value (writeCluCfg cluster) s)
  else .next s

/-- CLUSTER_DISABLE (R419): DRV_CLU_CFG written with EN = 0. -/
def execClusterDisable (f cluster : Nat) (value : Word) (s : State) : Host.Outcome State Fault Refusal :=
  if pfFull s f && cluster < 12 && (!bit value 0 || reservedSet (drvMask 0) value) then
    .next (rowWrite (drvMask 0) value (writeCluCfg cluster) s)
  else .next s

/-- POS_MAP_ADOPT (R399): DRV_POS_MAP written with ACT = 1. -/
def execPosMapAdopt (f pos : Nat) (value : Word) (s : State) : Host.Outcome State Fault Refusal :=
  if pfFull s f && pos < 384 && (bits value 10 2 == 1 || reservedSet (drvMask 0x1000) value) then
    .next (rowWrite (drvMask 0x1000) value (writePosMap pos) s)
  else .next s

/-- POS_MAP_VALID_SET (R399): DRV_POS_MAP written with VALID = 1. -/
def execPosMapValidSet (f pos : Nat) (value : Word) (s : State) : Host.Outcome State Fault Refusal :=
  if pfFull s f && pos < 384 && (bit value 9 || reservedSet (drvMask 0x1000) value) then
    .next (rowWrite (drvMask 0x1000) value (writePosMap pos) s)
  else .next s

/-- EPG_VOL_CLEAR_GO (R487): EPG_VOL_CLEAR written with GO = 1. -/
def execEpgVolClearGo (f : Nat) (value : Word) (s : State) : Host.Outcome State Fault Refusal :=
  if pfFull s f && (bit value 16 || reservedSet (epgMask 0x48) value) then
    .next (rowWrite (epgMask 0x48) value writeVolClear s)
  else .next s

/-- EPG_POLICY_WRITE (R462). -/
def execEpgPolicyWrite (f : Nat) (value : Word) (s : State) : Host.Outcome State Fault Refusal :=
  if pfFull s f then
    .next (rowWrite (epgMask 0x28) value writePolicy s)
  else .next s

/-- EVT_LOG_SEL_WRITE (R518). -/
def execEvtLogSelWrite (f : Nat) (value : Word) (s : State) : Host.Outcome State Fault Refusal :=
  if pfSeen s f then
    .next (rowWrite (evtMask 0x408) value (fun v => selectLog (bits v 0 32)) s)
  else .next s

/-! ### MCTP orders (R542) -/

/-- The block that an order names is there: an image runs; HEM and TRL take orders in a halted unit also (R556). -/
def orderOpen (code : Nat) (s : State) : Bool :=
  serving s || (decide (5 ≤ code) && s.boot == .up && s.image.isSome && s.loader.state != .apply)

/-- An order carried out as the same register writes would be, with the status register that its response shows. -/
def runOrder (code : Nat) (arg : Word) (s : State) : Option (State × Word) :=
  if 1 ≤ code ∧ code ≤ 4 then
    let t := giveOrder code s
    some (t, epgRead t 0x20)
  else if code = 5 then
    let t := answerTrial (parseTrial (bits arg 0 48)) (writeTrlReq arg s)
    some (t, trlRead t 0x18)
  else if code = 6 then
    let t := endTrial 1 s
    some (t, trlRead t 0x18)
  else if code = 7 then
    let t := writeHemCtl arg s
    some (t, hemRead t 0x08)
  else if code = 8 then
    let t := writeDumpPower arg s
    some (t, hemRead t 0x10)
  else none

/-- ORDER (R542). -/
def execOrder (ctx code : Nat) (arg : Word) (s : State) : Host.Outcome State Fault Refusal :=
  if !ctxOpen s ctx then .next s
  else if !orderOpen code s then .next (respond ctx (if (runOrder code arg s).isSome then 2 else 1) [] s)
  else
    match runOrder code arg s with
    | none => .next (respond ctx 1 [] s)
    | some (t, w) => .next (respond ctx 0 (leBytes 8 w.toNat) t)

end Sys2Proof.Machine
end

