-- ==== Sys2Proof/Machine/Tick.lean ====
section
/-! DEFINITION. The tick edge (R34): what ends with a tick, the ordered edge operations, and the compilation of the next
caravan. -/

namespace Sys2Proof.Machine

open Sys2Proof

/-! ### The end of the ending tick (R91, R106, R229, R327, R464) -/

/-- A running leg finishes in its tick (R90, R106): a known-vector test passes, a reed leg compares equal, and what a DMA or
HBM leg moved is moved. -/
def endLeg (s : State) (l0 : Leg) : State :=
  match findLeg s l0.id with
  | none => s
  | some l =>
    if l.kind = .reed then
      if l.op = .test then testResult l true true false s else endReedLeg s l
    else partDone l.job (stopLeg l.id s)

/-- The legs that have finished by the edge end, in the order in which their resources ran them (R90, R106, R107). -/
def endLegs (s : State) : State := (finishedLegs [] s.drone.running).foldl endLeg s

/-- A finished plan whose end is an event of its own takes place at the next edge at the latest: strip writes, rebuilt strips, a
CHECK of scrub (R330, R374, R385; log 8). -/
def runDue (s : State) (p : Nat × Job) : State :=
  match getJob s p.1 with
  | none => s
  | some j =>
    if j.left ≠ 0 then s
    else
      match j.purpose with
      | .destageWrite key _ => retireStep key s
      | .rebuildWrite key => stripeDone (key / 256) s
      | .scrubCheck key => endCheck p.1 key s
      | _ => s

/-- Retirements that wait for a zero-mask record (R338). -/
def retireZeroing (s : State) : State :=
  (s.cache.stripes.filter fun p => (p.2.intents.head?).any fun i => i.phase == .zeroing).foldl (fun t p => retireStep p.1 t) s

/-- Rebuilt parcels whose losses are listed (R271). -/
def endParcels (s : State) : State :=
  if fenceHolder s then
    (s.array.active.filter (rebuildOver s)).foldl (fun t r => relocDone r.key t) s
  else s

/-- Migrations with a cause of R278 are abandoned, and those whose copy is durable commit (R276). -/
def endMoves (s : State) : State :=
  if fenceHolder s then
    let t := (s.ledger.migs.filter fun p => moveFails s p.1).foldl (fun t p => giveUpMove p.1 t) s
    (t.ledger.migs.filter fun p => decide (256 ≤ p.2.done)).foldl (fun t p => endMove p.1 p.2 t) t
  else s

/-- The placement snapshot of the tick, and the checkpoint that is due or complete (R268, R284). -/
def settleLedger (s : State) : State :=
  let a := if snapshotDue s then takeSnapshot s else s
  let b := if ckptOver a then (a.ledger.ckptRun.map fun n => endCheckpoint n a).getD a else a
  if fenceHolder b && restoreEnded b && checkpointDue b then startCheckpoint b else b

/-- No new work but that of a dump is admitted: PWR_FAIL_N counts as asserted, a dump runs, or restore pauses (R348, R350,
R555). -/
def frozen (s : State) : Bool := dumping s || s.cache.vault.failNow || s.cache.vault.paused

/-- What was due before the edge and has an event of its own that has not occurred (log 8). -/
def settleDue (s : State) : State :=
  if frozen s then s
  else
    let w := settleSmc (settlePages s)
    let a := settleLedger (freeRuns (endMoves (endParcels (retireZeroing (w.jobs.foldl runDue w)))))
    let b := if decides a && epochOver a then releaseEpoch a else a
    let c := if roundDue b then postRound b else b
    let d := if c.loader.state == .prepare && !c.loader.prepared then prepare c else c
    moveAllDue d

/-! ### Plans and the compilation (R91 to R93, R100) -/

/-- A plan whose legs and submissions have all ended goes on, in the order of its purpose; what it plans keeps its place in the
queue (R93). -/
def runJob (s : State) (p : Nat × Job) : State :=
  match getJob s p.1 with
  | none => s
  | some j =>
    if j.left ≠ 0 then s
    else withPlace (some j.order) (fun s =>
      match j.purpose with
      | .readPart seq first key => runReadPart p.1 seq first key s
      | .readOut seq => runReadOut p.1 seq s
      | .hostOut seq => runHostOut p.1 seq s
      | .writeIn seq => runWriteIn p.1 seq s
      | .verifyRead seq first key => runVerifyRead p.1 seq first key s
      | .verifyCheck seq _ key => runVerifyCheck p.1 seq key s
      | .repair key => runRepair p.1 key s
      | .destageRead key root => runDestageRead p.1 key root s
      | .destageEnc key root => runDestageEnc p.1 key root s
      | .destageWrite _ _ => s
      | .wtLog key root => logged p.1 key root s
      | .rebuildRead key => runRebuildRead p.1 key s
      | .rebuildWrite _ => s
      | .moveRead key => runMoveRead p.1 key s
      | .moveEnc key => runMoveEnc p.1 key s
      | .moveWrite key => runMoveWrite p.1 key s
      | .scrubRead key => runScrubRead p.1 key s
      | .scrubCheck _ => s
      | .scrubAgain key => runScrubAgain p.1 key s
      | .parity q key => runParity p.1 q key s
      | .journal => endBatch (endJob p.1 s)
      | .post gen => runPost p.1 gen s
      | .vault => endJob p.1 s
      | .report n => runReport p.1 n s
      | .take n => runTake p.1 n s
      | .homeWrite u n => runHomeWrite p.1 u n s
      | .homeLabels => runHomeLabels p.1 s
      | .homeRead n => pageArrived n s
      | .homeScrub u => runHomeScrub p.1 u s) s

/-- The legs that have ended let votes be settled, plans go on and the next journal batch start (R93, R230, R327). -/
def continueLegs (s : State) : State := startBatch (s.jobs.foldl runJob (settleVotes s))

/-- The order of foreground work of a compilation (R335). -/
def compileMode (s : State) : Nat :=
  if s.cache.wt || decide ((cachOf s).destageHighPct ≤ dirtyLevel s) then 2
  else if decide ((cachOf s).destageStartPct ≤ dirtyLevel s) then 1
  else 0

/-- A stripe with zero remaining redundancy is queued for rebuild (R104): in the queue, in a parcel that a rebuild is at work
on, or in one that waits for it. -/
def zrQueued (s : State) : Bool :=
  s.drone.queued.any (·.zr) || s.array.active.any (fun r => parcelRed s r.key == 0) ||
    (fenceHolder s && (rebuildQueue s).any fun k => parcelRed s k == 0)

/-- CARAVAN_COMPILE (R91, R100, R488): behind edge h of a switch-back only reports go to drives. -/
def compileStep (last : Nat) (s : State) : State :=
  if s.pair.switch < 2 then compileNext (compileMode s) last (zrQueued s) s
  else
    let goes := fun (w : Work) => match w with
      | .leg _ => true
      | .sub d => d.op == .resReport
    let kept := s.drone.queued.filter fun w => !goes w
    let t := compileNext (compileMode s) last (zrQueued s) { s with drone := { s.drone with queued := s.drone.queued.filter goes } }
    { t with drone := { t.drone with queued := sortBy workBefore (kept ++ t.drone.queued) } }

/-- The ending tick: its legs finish, what follows from them and what came before the seal is compiled, BASE frames and its
digest go out (R91, R464, R481). -/
def endTick (s : State) : State :=
  let a := endLegs (settleDue s)
  let b := if frozen a then a else compileStep s.drone.nextId (continueLegs a)
  countFlits (sendDigest (sendBase b))

/-! ### Steps 1 to 4 of R34 -/

/-- Step 1: DRN_COUNT increments (R22, R86); `clock` follows it. -/
def countTick (s : State) : State :=
  { s with clock := s.clock + tickNs s, drone := { s.drone with count := s.drone.count + 1 } }

/-- A third run of an HBM batch may be placed once a new HLT_PC_RETIRE is sampled (R108). -/
def unpark : Work → Work
  | .leg l => .leg (if l.kind = .hbm ∧ l.reruns = 2 then { l with reruns := 3 } else l)
  | .sub d => .sub d

/-- HLT_PC_RETIRE sampled (R25, R39). -/
def samplePcs (s : State) : State :=
  if s.sampled.pcRetire = s.health.pcRetire then s
  else
    { s with
      sampled := { s.sampled with pcRetire := s.health.pcRetire }
      drone := { s.drone with queued := s.drone.queued.map unpark } }

/-- EPG_CLAIM and HLT_DEGRADE sampled (R25). -/
def sampleWords (s : State) : State :=
  { s with sampled := { s.sampled with
      claim := s.pair.claim, wtPerm := s.health.wtPerm, stop := s.health.stop, cluCap := s.health.cluCap } }

/-- Step 2: the claim and health register set is sampled (R25). -/
def sampleSet (s : State) : State :=
  let t := sampleCache (sampleTrial (sampleSlotMap (sampleWords (samplePcs s))))
  (List.range 12).foldl (fun t c => limitRate c t) t

/-- What the sampled claim changes (R139, R140, R260, R349, R400), by whether the unit was fence holder from the edge before. -/
def applyClaim (s : State) : State :=
  let t := { s with sampled := { s.sampled with holder := fenceHolder s } }
  if fenceHolder s then
    if s.sampled.holder then t
    else assignWaiting { t with ledger := { t.ledger with charged := List.replicate 12 0, grown := List.replicate 12 0 } }
  else if s.sampled.holder || !s.host.cmds.isEmpty then dumpFenceLost (abortAll (giveUpMoves t))
  else t

/-- Step 3: the ceiling last written is latched, and the mode follows (R32, R33, R343). -/
def latchStep (s : State) : State :=
  judgeMode (judgeCeiling (latchCeiling { s with cache := { s.cache with hemCeiling := s.hem.ceil, hemStamp := s.hem.stamp } }))

/-! ### Step 5: submissions posted, completions collected (R94, R95, R99) -/

/-- A submission may go to its drive: a unit that does not decide writes nothing but a label it FORMs with; behind edge h of
a switch-back only reports go (R459, R468, R477, R488). -/
def postable (s : State) (d : Sub) : Bool :=
  if 2 ≤ s.pair.switch then d.op == .resReport
  else
    match d.op with
    | .write => decides s || s.pair.take.any (·.why == .form)
    | .writeZeroes => decides s
    | .deallocate => decides s
    | .flush => decides s
    | _ => true

/-- The charge of a posted submission counts for its cluster (R260). -/
def countCharge (d : Sub) (s : State) : State :=
  match slotCluster s d.slot with
  | none => s
  | some c =>
    if fenceHolder s then { s with ledger := { s.ledger with charged := modAt s.ledger.charged c (· + d.charge) } } else s

/-- A submission of the caravan posted, or given up where it may not go. -/
def postOne (s : State) (w : Work) : State :=
  match w with
  | .leg _ => s
  | .sub d => if postable s d then postSub d (countCharge d s) else abandonSub d (refund s w)

/-- The submission queue tail doorbells of an edge: one for each queue that got entries, which it covers all (R94). -/
def tailDoorbells (s : State) : List Output :=
  let qs := (s.drone.inflight.filter fun d => d.posted == s.drone.count).map fun d => (d.slot, d.queue)
  qs.eraseDups.map fun q => .sqTail q.1 q.2 (qs.filter (· == q)).length

/-- DRIVE_SUBMISSION_POST (R94): the submissions of the caravan, or of a dump in its place (R350), and their doorbells. -/
def postCaravan (s : State) : State :=
  let t := s.drone.next.foldl postOne s
  emits (tailDoorbells t) t

/-- The submissions of a dump posted (R94, R350). -/
def postDumps (s : State) : State :=
  let t := s.drone.dumpPosts.foldl (fun t d => postSub d t) { s with drone := { s.drone with dumpPosts := [] } }
  emits (tailDoorbells t) t

/-- The purpose of the plan that a submission belongs to. -/
def Sub.purpose (s : State) (d : Sub) : Option Purpose := (getJob s d.job).map (·.purpose)

/-- A Reservation Acquire or Release has completed: DRV_SLOT_STAT.RESV follows (R417). -/
def noteHold (d : Sub) (s : State) : State :=
  match slotDrive s d.slot, d.op with
  | some (pos, _), .resAcquire => modDrive pos (fun x => { x with resv := 1 }) s
  | some (pos, _), .resRelease => modDrive pos (fun x => { x with resv := 0 }) s
  | _, _ => s

/-- A submission has completed with success. -/
def goodSub (d : Sub) (data : List Byte) (s0 : State) : State :=
  let s := noteHold d s0
  let t := { s with drives := { s.drives with retried := s.drives.retried.filter (· != d.cid) } }
  let u := match d.purpose t with
    | some (.post gen) => postWritten gen d.tag t
    | some (.take _) => noteTake d 0 t
    | _ => if d.op = .read ∨ d.op = .resReport then storeRead d data t else t
  partDone d.job u

/-- A submission is not retried and its drive is to be declared failed (R362, R364). -/
def badSub (d : Sub) (why : Nat) (s : State) : State :=
  let t := abandonSub d s
  if fenceHolder s && !dumping s then wantDeclare d.slot why t else t

/-- A Read has failed: of Status Code Type 0x2 its blocks are erased, any other is posted once more (R371, R580, R581). -/
def failedRead (d : Sub) (status : Nat) (s : State) : State :=
  if status / 256 = 2 then partDone d.job (failRead d s)
  else if s.drives.retried.contains d.cid then badSub d 4 s
  else
    requeue (.sub { d with urg := false }) { s with drives := { s.drives with retried := s.drives.retried ++ [d.cid] } }

/-- A submission has completed with another status than success (R362, R363, R418, R467, R468). -/
def failedSub (d : Sub) (status : Nat) (s : State) : State :=
  match d.purpose s with
  | some (.take _) => partDone d.job (noteTake d status s)
  | _ =>
    if status = 0x083 then if dumping s then dumpFenceLost (abandonSub d s) else conflict d s
    else
      match d.op with
      | .read => failedRead d status s
      | .write => badSub d 3 s
      | .writeZeroes => badSub d 3 s
      | .deallocate => badSub d 3 s
      | .flush => badSub d 3 s
      | _ => abandonSub d s

/-- One arrived completion collected (R95); behind a failed command the Error Information log is read (R409). -/
def collectOne (s : State) (a : Nat × Nat × Nat × List Byte) : State :=
  match s.drone.inflight.find? fun d => d.cid == a.1 with
  | none => s
  | some d =>
    let t := dropInflight d s
    if a.2.1 = 0 then goodSub d a.2.2.2 t else failedSub d a.2.1 (emit (.getLog d.slot 1) t)

/-- The completion queue head doorbells for some completions: one for each queue (R405). -/
def headDoorbells (s : State) (cids : List Nat) : List Output :=
  let qs := (s.drone.inflight.filter fun d => cids.contains d.cid).map fun d => (d.slot, d.queue)
  qs.eraseDups.map fun q => .cqHead q.1 q.2 (qs.filter (· == q)).length

/-- DRIVE_COMPLETION_COLLECT (R95, R405): the completions accepted in the tick that has ended. -/
def collect (s : State) : State :=
  let due := s.drives.arrived.filter fun a => decide (a.2.2.1 < s.drone.count)
  due.foldl collectOne (emits (headDoorbells s (due.map (·.1)))
    { s with drives := { s.drives with arrived := s.drives.arrived.filter fun a => !decide (a.2.2.1 < s.drone.count) } })

/-- Commands uncollected at their deadline, and drives whose links stayed down (R99, R397). -/
def checkDrives (s : State) : State :=
  let t := (s.drone.inflight.filter fun d => decide (d.deadline ≤ s.drone.count)).foldl (fun t d => timeOut d t) s
  (t.drives.drives.filter fun p => linkGone t p.2).foldl (fun t p => departDrive p.1 t) t

/-- The drives to be declared failed at this edge (R362); a dump goes on without (R350). -/
def declareStep (s : State) : State := if dumping s then s else declareAll s

/-! ### Step 6: the caravan starts (R34, R90, R91) -/

/-- Credit of every cluster grows (R96, R97, R260). -/
def growStep (s : State) : State :=
  let t := growCredit s
  { t with ledger := { t.ledger with grown := t.ledger.grown.map (· + creditGrowth t) } }

/-- The legs of a caravan. -/
def legsOf (ws : List Work) : List Leg :=
  ws.filterMap fun w => match w with
    | .leg l => some l
    | .sub _ => none

/-- The pseudo-channel that an HBM batch runs on: a free one of those in service. A batch that runs again after its first hang
keeps its own (R108). -/
def drawPc (s : State) (l : Leg) : Leg × State :=
  if l.kind = .hbm ∧ (l.reruns = 0 ∨ l.reruns = 3) then
    let open_ := (List.range 64).filter fun p => !s.sampled.pcRetire.getLsbD p
    let d := drawFree s
    ({ l with pc := nth 0 open_ (d.1.toNat % max 1 open_.length) }, d.2)
  else (l, s)

/-- One leg of the caravan starts behind what its resource carries (R90); a burst group's bursts issue (R87, R200). -/
def startLeg (s : State) (l0 : Leg) : State :=
  let x := drawPc s { l0 with ownTick := s.drone.count }
  let t := { x.2 with drone := { x.2.drone with running := x.2.drone.running ++ [x.1] } }
  if x.1.chan.isSome then startGroup t x.1 else t

/-- CARAVAN_START (R34, R110). -/
def startCaravan (s : State) : State :=
  (legsOf s.drone.next).foldl startLeg { s with drone := { s.drone with
    next := [], urgentShown := s.drone.urgentUsed, zrShown := s.drone.zrFloor, floor8Shown := s.drone.floor8 } }

/-! ### Work of the new tick (R100) -/

/-- Restore and salvage go on (R356, R476, R486, R579). -/
def restoreWork (s : State) : State :=
  let a := restoreStep s
  let b := if replayOver a then setRestore .ended a else a
  let c := powerActive b
  if salvageOver c then finishSalvage c else c

/-- Work of the array and the ledger that the new tick finds due (R274, R281, R286, R327, R391). -/
def arrayWork (s : State) : State :=
  let a := adoptMigCfg (adoptParallel (homeWork s))
  if fenceHolder a && restoreEnded a then copyAll a else a

/-- Known-vector tests that are due (R493). -/
def testWork (s : State) : State :=
  ((List.range 18).filter (testDue s)).foldl (fun t p => queueTest p t) s

/-- A partner that announced its reload is mirrored no longer (R84). -/
def partnerGone (s : State) : State :=
  let t := if s.pair.partnerLeft then modEpg (fun p => { p with partnerLeft := false }) s else s
  if s.pair.partnerLeft && s.pair.mirrored then modEpg (fun p => { p with phase := 0, partner := 1 }) (stopMirror t) else t

/-- What the pair sequencer does at an edge (R84, R461, R462, R465, R467, R472, R478, R480, R482, R485, R488, R489). -/
def pairWork (s0 : State) : State :=
  let s := partnerGone s0
  let a := confirmDigests s.pair.dcheck.length (lateRetires (startParities s))
  let b := settlePair (takeHandover (sendAck a))
  let c := takeStep ((b.pair.take.map (·.left.length)).getD 0 + 1) (watchFence (handOver b))
  let d := if helloDue c then sendHello c else c
  announceHalt (resyncEdge d)

/-- The new tick: plans go on with what was collected, and commands that wait are tried again; the compilation that begins
takes DRN_BG_HOLD as it stands (R111). -/
def newTick (s : State) : State :=
  let a := endFlrs (retryCmds ((adoptHold s).jobs.foldl runJob (adoptHold s)))
  pairWork (testWork (arrayWork (restoreWork a)))

/-! ### The edge (R34) -/

/-- Steps 5 and 6, with a dump in their place once one is due (R348, R350). -/
def workStep (s : State) : State :=
  if frozen s then
    let t := declareStep (checkDrives (collect (postDumps s)))
    if dumping t then dumpStep t else t
  else
    newTick (startCaravan (growStep (declareStep (checkDrives (collect (postCaravan s))))))

/-- The edge in the control and data planes (R34). What the settling of overrun and hung legs (R106 to R108) writes to the sampled
set is sampled at the next edge (R26). -/
def planeEdge (s : State) : State :=
  let t := liveEdge (latchStep (applyClaim (settleLegs s.drone.count (sampleSet s))))
  let u := if dumpDue t then startDump t else t
  if serving u then workStep u else u

/-- The next ceiling, unless the HEM's plane restarts (R33, R436). -/
def ceilingStep (s : State) : State :=
  if s.hem.stall = 0 then computeCeiling (settleHem s)
  else { s with hem := { s.hem with stall := s.hem.stall - 1 } }

/-- The image in FETCH is in the buffer and goes to VERIFY (R68, R74). -/
def fetchDone (s : State) : State :=
  if s.loader.state == .fetch then { s with loader := { s.loader with state := .verify } } else s

/-- The SMC is ready behind its reset (R318). -/
def smcReady (s : State) : State := if serving s then { s with smc := { s.smc with ready := true } } else s

/-- A trial whose faults are all injected ends (R515). -/
def endCounted (s : State) : State := if countReached s then finishCount s else s

/-- The edge in the management plane and the event unit (R32, R507, R510, R515, R527, R561). -/
def mgmtEdge (s : State) : State :=
  let t := breakClaims (endCounted (smcReady (fetchDone (ceilingStep s))))
  logPending (deliverMsix (if thermalDue t then thermalStop t else t))

/-- TICK_EDGE (R34). -/
def execTickEdge (s : State) : Host.Outcome State Fault Refusal :=
  if !mgmtUp s then .next s
  else
    let t := countTick (if serving s then endTick s else s)
    .next (mgmtEdge (if serving t then planeEdge t else t))

end Sys2Proof.Machine
end

