-- ==== Sys2Proof/Machine/Dispatch.lean ====
section
/-! DEFINITION. The effect of every command on everything but the queue: one arm per command. -/

namespace Sys2Proof.Machine

open Sys2Proof

/-- The effect of a command. -/
def exec (i : Instr) (s : State) : Host.Outcome State Fault Refusal :=
  match i with
  | .deviceReset => Sys2Proof.Machine.execDeviceReset s
  | .supplyBrownout => Sys2Proof.Machine.execSupplyBrownout s
  | .porNRelease straps tj => Sys2Proof.Machine.execPorNRelease straps tj s
  | .imageVerifyDone => Sys2Proof.Machine.execImageVerifyDone s
  | .reloadPrepare => Sys2Proof.Machine.execReloadPrepare s
  | .reloadApply => Sys2Proof.Machine.execReloadApply s
  | .imageRunning => Sys2Proof.Machine.execImageRunning s
  | .liveVerifyDone => Sys2Proof.Machine.execLiveVerifyDone s
  | .livePairTimeout => Sys2Proof.Machine.execLivePairTimeout s
  | .tickEdge => Sys2Proof.Machine.execTickEdge s
  | .caravanSeal late => Sys2Proof.Machine.execCaravanSeal late s
  | .drnOverrun leg => Sys2Proof.Machine.execDrnOverrun leg s
  | .drnLegHung leg => Sys2Proof.Machine.execDrnLegHung leg s
  | .drnUrgentSet stream => Sys2Proof.Machine.execDrnUrgentSet stream s
  | .drnBgHoldWrite f value => Sys2Proof.Machine.execDrnBgHoldWrite f value s
  | .jrnCeilStale => Sys2Proof.Machine.execJrnCeilStale s
  | .jrnWtExit => Sys2Proof.Machine.execJrnWtExit s
  | .ringEnable f ring value => Sys2Proof.Machine.execRingEnable f ring value s
  | .ringDisable f ring value => Sys2Proof.Machine.execRingDisable f ring value s
  | .doorbell f group => Sys2Proof.Machine.execDoorbell f group s
  | .groupScan => Sys2Proof.Machine.execGroupScan s
  | .entryFetchDone ring bytes => Sys2Proof.Machine.execEntryFetchDone ring bytes s
  | .sqFetchError ring => Sys2Proof.Machine.execSqFetchError ring s
  | .stallRelease ring => Sys2Proof.Machine.execStallRelease ring s
  | .cqCiWrite f ring value => Sys2Proof.Machine.execCqCiWrite f ring value s
  | .cseraiMove ring => Sys2Proof.Machine.execCseraiMove ring s
  | .commandComplete ring => Sys2Proof.Machine.execCommandComplete ring s
  | .cqWriteError ring => Sys2Proof.Machine.execCqWriteError ring s
  | .functionLevelReset f => Sys2Proof.Machine.execFunctionLevelReset f s
  | .msixDisable f => Sys2Proof.Machine.execMsixDisable f s
  | .read cmd mem => Sys2Proof.Machine.execRead cmd mem s
  | .write cmd lists data => Sys2Proof.Machine.execWrite cmd lists data s
  | .writeZeroes cmd => Sys2Proof.Machine.execWriteZeroes cmd s
  | .deallocate cmd => Sys2Proof.Machine.execDeallocate cmd s
  | .flush cmd => Sys2Proof.Machine.execFlush cmd s
  | .verify cmd => Sys2Proof.Machine.execVerify cmd s
  | .volCreate cmd => Sys2Proof.Machine.execVolCreate cmd s
  | .volDelete cmd => Sys2Proof.Machine.execVolDelete cmd s
  | .volResize cmd => Sys2Proof.Machine.execVolResize cmd s
  | .volQuery cmd => Sys2Proof.Machine.execVolQuery cmd s
  | .hostMemoryError cmd => Sys2Proof.Machine.execHostMemoryError cmd s
  | .dmaStart f ch => Sys2Proof.Machine.execDmaStart f ch s
  | .dmaPause f ch => Sys2Proof.Machine.execDmaPause f ch s
  | .dmaUnpause f ch => Sys2Proof.Machine.execDmaUnpause f ch s
  | .dmaPaused ch => Sys2Proof.Machine.execDmaPaused ch s
  | .descriptorFetch ch bytes => Sys2Proof.Machine.execDescriptorFetch ch bytes s
  | .pacingRequest src => Sys2Proof.Machine.execPacingRequest src s
  | .dmaWriteResponse ch => Sys2Proof.Machine.execDmaWriteResponse ch s
  | .dmaShCommit f ch sameCycle => Sys2Proof.Machine.execDmaShCommit f ch sameCycle s
  | .dmaBusError ch write kind cause beat => Sys2Proof.Machine.execDmaBusError ch write kind cause beat s
  | .faultActResume f ch => Sys2Proof.Machine.execFaultActResume f ch s
  | .faultActSkip f ch => Sys2Proof.Machine.execFaultActSkip f ch s
  | .faultActAbort f ch => Sys2Proof.Machine.execFaultActAbort f ch s
  | .reedSegmentCompare pair errA errB => Sys2Proof.Machine.execReedSegmentCompare pair errA errB s
  | .voteResult leg => Sys2Proof.Machine.execVoteResult leg s
  | .reedTestDue pair => Sys2Proof.Machine.execReedTestDue pair s
  | .reedTestResult pair okA okB differ => Sys2Proof.Machine.execReedTestResult pair okA okB differ s
  | .plcSlotTagWrite f slot value => Sys2Proof.Machine.execPlcSlotTagWrite f slot value s
  | .drainSet f slot => Sys2Proof.Machine.execDrainSet f slot s
  | .drainClear f slot => Sys2Proof.Machine.execDrainClear f slot s
  | .placementSnapshot => Sys2Proof.Machine.execPlacementSnapshot s
  | .relocDone vol parcel => Sys2Proof.Machine.execRelocDone vol parcel s
  | .moveStart => Sys2Proof.Machine.execMoveStart s
  | .moveCommit vol parcel => Sys2Proof.Machine.execMoveCommit vol parcel s
  | .moveAbandon vol parcel => Sys2Proof.Machine.execMoveAbandon vol parcel s
  | .runFree slot first => Sys2Proof.Machine.execRunFree slot first s
  | .release vol parcel => Sys2Proof.Machine.execRelease vol parcel s
  | .checkpointStart => Sys2Proof.Machine.execCheckpointStart s
  | .plcCkpt => Sys2Proof.Machine.execPlcCkpt s
  | .pageMissRead vol page copy => Sys2Proof.Machine.execPageMissRead vol page copy s
  | .tierHighWatermark => Sys2Proof.Machine.execTierHighWatermark s
  | .plcPgSelWrite f value => Sys2Proof.Machine.execPlcPgSelWrite f value s
  | .smcFill vol g => Sys2Proof.Machine.execSmcFill vol g s
  | .smcParkedRepresent vol parcel => Sys2Proof.Machine.execSmcParkedRepresent vol parcel s
  | .smcOffer => Sys2Proof.Machine.execSmcOffer s
  | .smcOfferAnswer => Sys2Proof.Machine.execSmcOfferAnswer s
  | .smcMergeDrain => Sys2Proof.Machine.execSmcMergeDrain s
  | .smcPreload f value => Sys2Proof.Machine.execSmcPreload f value s
  | .smcPreloadLock f value => Sys2Proof.Machine.execSmcPreloadLock f value s
  | .smcUnlock f value => Sys2Proof.Machine.execSmcUnlock f value s
  | .smcPreloadHeldStart => Sys2Proof.Machine.execSmcPreloadHeldStart s
  | .smcPreloadDone => Sys2Proof.Machine.execSmcPreloadDone s
  | .unlockAll f => Sys2Proof.Machine.execUnlockAll f s
  | .coalesceExpiry stripe => Sys2Proof.Machine.execCoalesceExpiry stripe s
  | .destagePlan stripe => Sys2Proof.Machine.execDestagePlan stripe s
  | .journalAppendDone => Sys2Proof.Machine.execJournalAppendDone s
  | .intentRetire stripe => Sys2Proof.Machine.execIntentRetire stripe s
  | .jrnWtForce f on => Sys2Proof.Machine.execJrnWtForce f on s
  | .jrnDestageAll f => Sys2Proof.Machine.execJrnDestageAll f s
  | .pwrFailAssert => Sys2Proof.Machine.execPwrFailAssert s
  | .dumpStart => Sys2Proof.Machine.execDumpStart s
  | .dumpJournalSafe => Sys2Proof.Machine.execDumpJournalSafe s
  | .dumpFlush => Sys2Proof.Machine.execDumpFlush s
  | .jrnDumpDone => Sys2Proof.Machine.execJrnDumpDone s
  | .restoreBegin found => Sys2Proof.Machine.execRestoreBegin found s
  | .restoreDriveTimeout slot => Sys2Proof.Machine.execRestoreDriveTimeout slot s
  | .jrnRestoreDone pages => Sys2Proof.Machine.execJrnRestoreDone pages s
  | .replay => Sys2Proof.Machine.execReplay s
  | .epochRelease => Sys2Proof.Machine.execEpochRelease s
  | .restoreResume => Sys2Proof.Machine.execRestoreResume s
  | .driveCommandTimeout cid => Sys2Proof.Machine.execDriveCommandTimeout cid s
  | .smartPoll slot warning used => Sys2Proof.Machine.execSmartPoll slot warning used s
  | .failOrder f slot => Sys2Proof.Machine.execFailOrder f slot s
  | .forgetReturned f slot => Sys2Proof.Machine.execForgetReturned f slot s
  | .rebuildParcelStart => Sys2Proof.Machine.execRebuildParcelStart s
  | .rebuildStripeDone vol parcel => Sys2Proof.Machine.execRebuildStripeDone vol parcel s
  | .scrubStripeStart => Sys2Proof.Machine.execScrubStripeStart s
  | .scrubCheckDone vol parcel stripe => Sys2Proof.Machine.execScrubCheckDone vol parcel stripe s
  | .scrubBehind => Sys2Proof.Machine.execScrubBehind s
  | .plcLostSelWrite f value => Sys2Proof.Machine.execPlcLostSelWrite f value s
  | .clusterEnable f cluster value => Sys2Proof.Machine.execClusterEnable f cluster value s
  | .clusterDisable f cluster value => Sys2Proof.Machine.execClusterDisable f cluster value s
  | .drvPerstRelease cluster port => Sys2Proof.Machine.execDrvPerstRelease cluster port s
  | .driveArrival cluster port index width rate => Sys2Proof.Machine.execDriveArrival cluster port index width rate s
  | .adminCompletion pos answer => Sys2Proof.Machine.execAdminCompletion pos answer s
  | .driveLinkDown pos => Sys2Proof.Machine.execDriveLinkDown pos s
  | .driveDepart pos => Sys2Proof.Machine.execDriveDepart pos s
  | .cstsPoll pos cfs => Sys2Proof.Machine.execCstsPoll pos cfs s
  | .driveDmaRefused slot => Sys2Proof.Machine.execDriveDmaRefused slot s
  | .posMapAdopt f pos value => Sys2Proof.Machine.execPosMapAdopt f pos value s
  | .posMapValidSet f pos value => Sys2Proof.Machine.execPosMapValidSet f pos value s
  | .hemSample v i1 t => Sys2Proof.Machine.execHemSample v i1 t s
  | .hemSenseFault => Sys2Proof.Machine.execHemSenseFault s
  | .sampleGap => Sys2Proof.Machine.execSampleGap s
  | .hemFull => Sys2Proof.Machine.execHemFull s
  | .emptyAnchor => Sys2Proof.Machine.execEmptyAnchor s
  | .hemRest => Sys2Proof.Machine.execHemRest s
  | .reanchor => Sys2Proof.Machine.execReanchor s
  | .hemStaleLearn => Sys2Proof.Machine.execHemStaleLearn s
  | .calReq f => Sys2Proof.Machine.execCalReq f s
  | .calAbort f => Sys2Proof.Machine.execCalAbort f s
  | .calDischargeStart => Sys2Proof.Machine.execCalDischargeStart s
  | .calDischargeEnd => Sys2Proof.Machine.execCalDischargeEnd s
  | .shipReq f => Sys2Proof.Machine.execShipReq f s
  | .shipCancel f => Sys2Proof.Machine.execShipCancel f s
  | .hemShip => Sys2Proof.Machine.execHemShip s
  | .hemChg level => Sys2Proof.Machine.execHemChg level s
  | .flitReceive hdr payload crc => Sys2Proof.Machine.execFlitReceive hdr payload crc s
  | .flitAckReceive fseq refuse => Sys2Proof.Machine.execFlitAckReceive fseq refuse s
  | .retrainTimeout => Sys2Proof.Machine.execRetrainTimeout s
  | .epgLinkDown => Sys2Proof.Machine.execEpgLinkDown s
  | .flitSilenceTimeout => Sys2Proof.Machine.execFlitSilenceTimeout s
  | .epgLinkUp => Sys2Proof.Machine.execEpgLinkUp s
  | .hello pairId dieId unit claim digests ledgerSeq => Sys2Proof.Machine.execHello pairId dieId unit claim digests ledgerSeq s
  | .input stamp iseq what => Sys2Proof.Machine.execInput stamp iseq what s
  | .jrec stamp r => Sys2Proof.Machine.execJrec stamp r s
  | .page stamp stripe block jseq data pi => Sys2Proof.Machine.execPage stamp stripe block jseq data pi s
  | .dinput stamp stripe block data => Sys2Proof.Machine.execDinput stamp stripe block data s
  | .digest stamp iseq jseq lseq ledgerCrc parityCrc jseqs => Sys2Proof.Machine.execDigest stamp iseq jseq lseq ledgerCrc parityCrc jseqs s
  | .ack jseq tick iseq => Sys2Proof.Machine.execAck jseq tick iseq s
  | .base what => Sys2Proof.Machine.execBase what s
  | .baseDone => Sys2Proof.Machine.execBaseDone s
  | .mismatch tick => Sys2Proof.Machine.execMismatch tick s
  | .drop => Sys2Proof.Machine.execDrop s
  | .handover tick => Sys2Proof.Machine.execHandover tick s
  | .liveImg imgId target => Sys2Proof.Machine.execLiveImg imgId target s
  | .digestUnconfirmedDrop => Sys2Proof.Machine.execDigestUnconfirmedDrop s
  | .ackTimeoutDrop => Sys2Proof.Machine.execAckTimeoutDrop s
  | .relayPostRound => Sys2Proof.Machine.execRelayPostRound s
  | .postRoundDurable => Sys2Proof.Machine.execPostRoundDurable s
  | .postRead => Sys2Proof.Machine.execPostRead s
  | .postReadResult blocks => Sys2Proof.Machine.execPostReadResult blocks s
  | .completionFenceHold => Sys2Proof.Machine.execCompletionFenceHold s
  | .epgTakeover => Sys2Proof.Machine.execEpgTakeover s
  | .claimAcquired => Sys2Proof.Machine.execClaimAcquired s
  | .activeLostUnsynced => Sys2Proof.Machine.execActiveLostUnsynced s
  | .powerupReservation reports => Sys2Proof.Machine.execPowerupReservation reports s
  | .join f => Sys2Proof.Machine.execJoin f s
  | .salvage f => Sys2Proof.Machine.execSalvage f s
  | .switchBack f => Sys2Proof.Machine.execSwitchBack f s
  | .form f => Sys2Proof.Machine.execForm f s
  | .switchBackQuiesce => Sys2Proof.Machine.execSwitchBackQuiesce s
  | .switchBackLapse => Sys2Proof.Machine.execSwitchBackLapse s
  | .epgVolClearGo f value => Sys2Proof.Machine.execEpgVolClearGo f value s
  | .epgPolicyWrite f value => Sys2Proof.Machine.execEpgPolicyWrite f value s
  | .sramPatrol found => Sys2Proof.Machine.execSramPatrol found s
  | .hbmPatrol pc rows ue done => Sys2Proof.Machine.execHbmPatrol pc rows ue done s
  | .eccUncorrectable place loc => Sys2Proof.Machine.execEccUncorrectable place loc s
  | .agingMeasure margins => Sys2Proof.Machine.execAgingMeasure margins s
  | .phyMarginMeasure group pct => Sys2Proof.Machine.execPhyMarginMeasure group pct s
  | .tempReading tj => Sys2Proof.Machine.execTempReading tj s
  | .thermalStop => Sys2Proof.Machine.execThermalStop s
  | .thermComparator => Sys2Proof.Machine.execThermComparator s
  | .hltSnapWrite f => Sys2Proof.Machine.execHltSnapWrite f s
  | .evtMaskWrite f w value => Sys2Proof.Machine.execEvtMaskWrite f w value s
  | .evtLogSelWrite f value => Sys2Proof.Machine.execEvtLogSelWrite f value s
  | .trlArmRequest f => Sys2Proof.Machine.execTrlArmRequest f s
  | .trlDisarm f => Sys2Proof.Machine.execTrlDisarm f s
  | .trlCountDone => Sys2Proof.Machine.execTrlCountDone s
  | .mgwDataWrite ctx value => Sys2Proof.Machine.execMgwDataWrite ctx value s
  | .mgwDataRead ctx => Sys2Proof.Machine.execMgwDataRead ctx s
  | .mgwClaim ctx => Sys2Proof.Machine.execMgwClaim ctx s
  | .mgwRelease ctx => Sys2Proof.Machine.execMgwRelease ctx s
  | .load ctx => Sys2Proof.Machine.execLoad ctx s
  | .loadLive ctx => Sys2Proof.Machine.execLoadLive ctx s
  | .imgToFlash ctx => Sys2Proof.Machine.execImgToFlash ctx s
  | .fwUpdate ctx => Sys2Proof.Machine.execFwUpdate ctx s
  | .hemSave ctx => Sys2Proof.Machine.execHemSave ctx s
  | .hemRestore ctx => Sys2Proof.Machine.execHemRestore ctx s
  | .keyOrder ctx => Sys2Proof.Machine.execKeyOrder ctx s
  | .healthSnap ctx => Sys2Proof.Machine.execHealthSnap ctx s
  | .mgwClaimBroken ctx => Sys2Proof.Machine.execMgwClaimBroken ctx s
  | .flashWriteDone ok => Sys2Proof.Machine.execFlashWriteDone ok s
  | .mgwKeyChange => Sys2Proof.Machine.execMgwKeyChange s
  | .mgmtWatchdogReset => Sys2Proof.Machine.execMgmtWatchdogReset s
  | .winWrite ctx addr words => Sys2Proof.Machine.execWinWrite ctx addr words s
  | .winRead ctx addr count => Sys2Proof.Machine.execWinRead ctx addr count s
  | .winCtl ctx value => Sys2Proof.Machine.execWinCtl ctx value s
  | .order ctx code arg => Sys2Proof.Machine.execOrder ctx code arg s
  | .alertReg ctx eid on => Sys2Proof.Machine.execAlertReg ctx eid on s
  | .mctpControlMessage ctx code arg => Sys2Proof.Machine.execMctpControlMessage ctx code arg s
  | .smbusAlertResponse => Sys2Proof.Machine.execSmbusAlertResponse s
  | .portResetAssert port => Sys2Proof.Machine.execPortResetAssert port s
  | .portResetRelease port => Sys2Proof.Machine.execPortResetRelease port s
  | .epgPrsntChange high => Sys2Proof.Machine.execEpgPrsntChange high s
  | .testModeAssert high => Sys2Proof.Machine.execTestModeAssert high s
  | .registerWrite f bar offset width value => Sys2Proof.Machine.execRegisterWrite f bar offset width value s
  | .driveCompletionArrival cid status data => Sys2Proof.Machine.execDriveCompletionArrival cid status data s
  | .dmaReadCompletion ch data => Sys2Proof.Machine.execDmaReadCompletion ch data s
  | .capToExpiry pos => Sys2Proof.Machine.execCapToExpiry pos s
  | .msixUnmask f vector => Sys2Proof.Machine.execMsixUnmask f vector s

end Sys2Proof.Machine
end

