-- ==== Sys2Proof/Safety.lean ====
section
/-! DEFINITION. What a safe run is: no step of the block ends in a fault or a refusal. -/

namespace Sys2Proof

open Sys2Proof.Machine

/-- A step that answers a next state. -/
def Answers (s : State) : Prop := ∃ t, step s = .next t

/-- The states a run from `s` reaches. -/
inductive Reaches : State → State → Prop where
  | here (s : State) : Reaches s s
  | step {s t u : State} (h : Reaches s t) (e : Machine.step t = .next u) : Reaches s u

/-- Every state that a run from `s` reaches answers its next step. -/
def Safe (s : State) : Prop := ∀ t, Reaches s t → Answers t

namespace Machine

/-- The parts of a state that the frame statements speak of: its fields, and within some of them what has an owner of its
own: the loader's STATE and IMG_ID, DRN_COUNT, the drive commands in flight, the ring pairs, volumes, commands and functions,
ledger entries and slots, the lines of the stripe map cache, stripe descriptors, the append queue, the vault, lost blocks,
clusters, DRV_POS_MAP, the replacement reasons, the fuses, the flash copies, POR_N and the port resets. -/
inductive Piece where
  | boot | halted | clock | free | dieId | image | loader | ldrState | imgId | drone | tick | posted | jobs | sampled | slotMap | host | rings | volumes | cmds | funcs | dma | mem | reeds | ledger | entries | slots | smc | lines | cache | stripes | appendQ | vault | array | lost | drives | clusters | posMap | hem | pair | health | why | events | trials | mgmt | fuses | flash | copies | pins | porN | hpPerst | out | pending
deriving DecidableEq, Repr

/-- A part is the same in two states. -/
def Piece.same (p : Piece) (s t : State) : Prop :=
  match p with
  | .boot => t.boot = s.boot
  | .halted => t.halted = s.halted
  | .clock => t.clock = s.clock
  | .free => t.free = s.free
  | .dieId => t.dieId = s.dieId
  | .image => t.image = s.image
  | .loader => t.loader = s.loader
  | .ldrState => t.loader.state = s.loader.state
  | .imgId => t.loader.imgId = s.loader.imgId
  | .drone => t.drone = s.drone
  | .tick => t.drone.count = s.drone.count
  | .posted => t.drone.inflight = s.drone.inflight
  | .jobs => t.jobs = s.jobs
  | .sampled => t.sampled = s.sampled
  | .slotMap => t.slotMap = s.slotMap
  | .host => t.host = s.host
  | .rings => t.host.rings = s.host.rings
  | .volumes => t.host.volumes = s.host.volumes
  | .cmds => t.host.cmds = s.host.cmds
  | .funcs => t.host.funcs = s.host.funcs
  | .dma => t.dma = s.dma
  | .mem => t.mem = s.mem
  | .reeds => t.reeds = s.reeds
  | .ledger => t.ledger = s.ledger
  | .entries => t.ledger.entries = s.ledger.entries
  | .slots => t.ledger.slots = s.ledger.slots
  | .smc => t.smc = s.smc
  | .lines => t.smc.lines = s.smc.lines
  | .cache => t.cache = s.cache
  | .stripes => t.cache.stripes = s.cache.stripes
  | .appendQ => t.cache.appendQ = s.cache.appendQ
  | .vault => t.cache.vault = s.cache.vault
  | .array => t.array = s.array
  | .lost => t.array.lost = s.array.lost
  | .drives => t.drives = s.drives
  | .clusters => t.drives.clusters = s.drives.clusters
  | .posMap => t.drives.posMap = s.drives.posMap
  | .hem => t.hem = s.hem
  | .pair => t.pair = s.pair
  | .health => t.health = s.health
  | .why => t.health.why = s.health.why
  | .events => t.events = s.events
  | .trials => t.trials = s.trials
  | .mgmt => t.mgmt = s.mgmt
  | .fuses => (t.mgmt.keys, t.mgmt.svnMin) = (s.mgmt.keys, s.mgmt.svnMin)
  | .flash => t.flash = s.flash
  | .copies => (t.flash.fwA, t.flash.fwB, t.flash.primary, t.flash.secondary) = (s.flash.fwA, s.flash.fwB, s.flash.primary, s.flash.secondary)
  | .pins => t.pins = s.pins
  | .porN => t.pins.porN = s.pins.porN
  | .hpPerst => t.pins.hpPerst = s.pins.hpPerst
  | .out => t.out = s.out
  | .pending => t.pending = s.pending

/-- The parts of the state that each command may change; it leaves every other part as it was. -/
def touches (c : Instr) : List Piece :=
  match c with
  | .deviceReset =>
    [.boot, .halted, .clock, .free, .image, .loader, .ldrState, .imgId, .drone, .tick, .posted, .jobs, .sampled,
     .slotMap, .host, .rings, .volumes, .cmds, .funcs, .dma, .mem, .reeds, .ledger, .entries, .slots, .smc,
     .lines, .cache, .stripes, .appendQ, .vault, .array, .lost, .drives, .clusters, .posMap, .hem, .pair,
     .health, .why, .events, .trials, .mgmt, .fuses, .flash, .copies, .pins, .porN]
  | .supplyBrownout | .testModeAssert _ =>
    [.boot, .halted, .clock, .free, .image, .loader, .ldrState, .imgId, .drone, .tick, .posted, .jobs, .sampled,
     .slotMap, .host, .rings, .volumes, .cmds, .funcs, .dma, .mem, .reeds, .ledger, .entries, .slots, .smc,
     .lines, .cache, .stripes, .appendQ, .vault, .array, .lost, .drives, .clusters, .posMap, .hem, .pair,
     .health, .why, .events, .trials, .mgmt, .fuses, .flash, .copies, .pins]
  | .porNRelease _ _ =>
    [.boot, .loader, .ldrState, .sampled, .slotMap, .reeds, .hem, .health, .why, .events, .mgmt, .flash, .pins,
     .porN]
  | .imageVerifyDone =>
    [.image, .loader, .ldrState, .drone, .tick, .posted, .jobs, .host, .rings, .volumes, .cmds, .funcs, .dma,
     .reeds, .ledger, .entries, .slots, .smc, .lines, .cache, .stripes, .array, .drives, .hem, .pair, .events,
     .trials, .mgmt]
  | .reloadPrepare =>
    [.loader, .drone, .jobs, .host, .volumes, .ledger, .entries, .slots, .smc, .cache, .stripes, .appendQ,
     .vault, .array, .lost, .hem, .pair, .events, .out]
  | .reloadApply =>
    [.image, .loader, .ldrState, .drone, .tick, .posted, .jobs, .host, .rings, .volumes, .cmds, .funcs, .dma,
     .reeds, .ledger, .entries, .slots, .smc, .lines, .cache, .stripes, .appendQ, .array, .drives, .hem, .pair,
     .events, .trials]
  | .imageRunning =>
    [.loader, .ldrState, .imgId, .drone, .jobs, .host, .volumes, .reeds, .ledger, .entries, .slots, .smc,
     .lines, .cache, .appendQ, .vault, .array, .drives, .hem, .pair, .health, .events, .mgmt, .flash, .out]
  | .liveVerifyDone =>
    [.loader, .hem, .pair, .events, .mgmt, .out]
  | .livePairTimeout | .loadLive _ | .imgToFlash _ | .fwUpdate _ =>
    [.loader, .hem, .events, .mgmt]
  | .tickEdge =>
    [.halted, .clock, .free, .image, .loader, .ldrState, .imgId, .drone, .tick, .posted, .jobs, .sampled,
     .slotMap, .host, .rings, .volumes, .cmds, .funcs, .dma, .reeds, .ledger, .entries, .slots, .smc, .lines,
     .cache, .stripes, .appendQ, .vault, .array, .lost, .drives, .clusters, .hem, .pair, .health, .why, .events,
     .trials, .mgmt, .flash, .pins, .out]
  | .caravanSeal _ | .drnUrgentSet _ =>
    [.drone, .hem, .events]
  | .drnOverrun _ | .drnLegHung _ | .reedTestDue _ =>
    [.drone]
  | .drnBgHoldWrite _ _ =>
    [.free, .drone]
  | .jrnCeilStale | .jrnWtExit =>
    [.cache, .hem, .events]
  | .ringEnable _ _ _ | .ringDisable _ _ _ =>
    [.free, .host, .rings, .cmds, .pair, .out]
  | .doorbell _ _ =>
    [.host]
  | .groupScan | .stallRelease _ | .cseraiMove _ =>
    [.host, .rings, .hem, .pair, .events, .out]
  | .entryFetchDone _ _ =>
    [.drone, .host, .rings, .volumes, .cmds, .ledger, .entries, .slots, .smc, .lines, .cache, .appendQ, .array,
     .lost, .drives, .hem, .pair, .events, .out]
  | .sqFetchError _ =>
    [.host, .rings, .hem, .events]
  | .cqCiWrite _ _ _ =>
    [.free, .host, .rings, .hem, .pair, .events, .out]
  | .commandComplete _ =>
    [.host, .rings, .cmds, .hem, .pair, .events, .out]
  | .cqWriteError _ =>
    [.host, .rings, .cmds, .pair, .out]
  | .functionLevelReset _ =>
    [.drone, .jobs, .host, .rings, .cmds, .funcs, .dma, .hem, .events]
  | .msixDisable _ =>
    [.host, .funcs, .events]
  | .read _ _ | .verify _ =>
    [.drone, .jobs, .host, .cmds, .reeds, .ledger, .entries, .slots, .smc, .lines]
  | .write _ _ _ | .writeZeroes _ | .deallocate _ | .volCreate _ | .volDelete _ | .volResize _ | .volQuery _ =>
    [.drone, .jobs, .host, .volumes, .cmds, .ledger, .entries, .slots, .smc, .lines, .cache, .stripes, .appendQ,
     .array, .lost, .drives, .hem, .pair, .events, .out]
  | .flush _ =>
    [.host, .cmds]
  | .hostMemoryError _ =>
    [.drone, .jobs, .host, .cmds, .hem, .events]
  | .dmaStart _ _ | .dmaPause _ _ | .dmaUnpause _ _ | .descriptorFetch _ _ | .pacingRequest _ | .dmaShCommit _ _ _
  | .dmaBusError _ _ _ _ _ | .faultActResume _ _ | .faultActSkip _ _ =>
    [.drone, .dma, .hem, .pair, .events, .out]
  | .dmaPaused _ =>
    [.dma]
  | .dmaWriteResponse _ =>
    [.drone, .dma, .mem, .hem, .pair, .events, .out]
  | .faultActAbort _ _ =>
    [.drone, .dma]
  | .reedSegmentCompare _ _ _ =>
    [.free, .drone, .jobs, .reeds, .hem, .events, .trials]
  | .voteResult _ =>
    [.drone, .jobs, .slotMap, .host, .cmds, .reeds, .ledger, .entries, .slots, .smc, .lines, .cache, .stripes,
     .array, .hem, .health, .why, .events, .flash, .pins]
  | .reedTestResult _ _ _ _ =>
    [.drone, .slotMap, .reeds, .hem, .health, .why, .events, .trials, .flash, .pins]
  | .plcSlotTagWrite _ _ _ | .epgVolClearGo _ _ =>
    [.free, .drone, .host, .volumes, .ledger, .entries, .slots, .smc, .lines, .cache, .appendQ, .drives, .hem,
     .pair, .events, .out]
  | .drainSet _ _ | .drainClear _ _ | .placementSnapshot | .moveStart | .release _ _ =>
    [.drone, .host, .volumes, .ledger, .entries, .slots, .smc, .lines, .cache, .appendQ, .drives, .hem, .pair,
     .events, .out]
  | .relocDone _ _ | .forgetReturned _ _ | .adminCompletion _ _ =>
    [.drone, .host, .volumes, .ledger, .entries, .slots, .smc, .lines, .cache, .appendQ, .array, .drives, .hem,
     .pair, .events, .out]
  | .moveCommit _ _ =>
    [.drone, .jobs, .host, .volumes, .ledger, .entries, .slots, .smc, .lines, .cache, .appendQ, .array, .drives,
     .hem, .pair, .events, .out]
  | .moveAbandon _ _ | .form _ | .switchBackQuiesce =>
    [.drone, .jobs, .host, .volumes, .ledger, .entries, .slots, .smc, .lines, .cache, .appendQ, .drives, .hem,
     .pair, .events, .out]
  | .runFree _ _ =>
    [.drone, .ledger, .slots, .hem, .events]
  | .checkpointStart =>
    [.drone, .jobs, .ledger, .smc, .hem, .events]
  | .plcCkpt =>
    [.ledger, .hem, .events]
  | .pageMissRead _ _ _ | .tierHighWatermark =>
    [.drone, .jobs, .ledger, .hem, .events]
  | .plcPgSelWrite _ _ =>
    [.free, .ledger]
  | .smcFill _ _ | .smcParkedRepresent _ _ =>
    [.host, .cmds, .ledger, .entries, .slots, .smc, .lines]
  | .smcOffer | .smcMergeDrain =>
    [.ledger, .smc]
  | .smcOfferAnswer =>
    [.ledger, .entries, .slots, .smc, .lines]
  | .smcPreload _ _ | .smcPreloadLock _ _ | .smcUnlock _ _ =>
    [.free, .ledger, .entries, .slots, .smc, .lines, .hem, .events]
  | .smcPreloadHeldStart =>
    [.ledger, .entries, .slots, .smc, .lines, .hem, .events]
  | .smcPreloadDone =>
    [.smc, .lines, .hem, .events]
  | .unlockAll _ =>
    [.smc, .lines]
  | .coalesceExpiry _ =>
    [.cache, .stripes]
  | .destagePlan _ =>
    [.drone, .jobs, .reeds, .ledger, .entries, .slots, .smc, .lines, .cache, .stripes, .appendQ, .pair, .out]
  | .journalAppendDone =>
    [.drone, .jobs, .ledger, .cache, .stripes, .appendQ, .hem, .events]
  | .intentRetire _ =>
    [.drone, .jobs, .host, .volumes, .ledger, .entries, .slots, .smc, .lines, .cache, .stripes, .appendQ,
     .drives, .hem, .pair, .events, .out]
  | .jrnWtForce _ _ =>
    [.cache]
  | .jrnDestageAll _ =>
    [.cache, .stripes, .hem, .events]
  | .pwrFailAssert =>
    [.cache, .vault, .hem, .events, .trials, .pins]
  | .dumpStart =>
    [.halted, .loader, .ldrState, .drone, .jobs, .host, .volumes, .ledger, .entries, .slots, .smc, .lines,
     .cache, .stripes, .appendQ, .vault, .drives, .clusters, .hem, .pair, .events, .mgmt, .out]
  | .dumpJournalSafe | .dumpFlush | .epochRelease =>
    [.drone, .jobs, .cache, .vault]
  | .jrnDumpDone =>
    [.halted, .drone, .jobs, .cache, .vault, .drives, .clusters, .hem, .events]
  | .restoreBegin _ | .input _ _ _ | .jrec _ _ | .page _ _ _ _ _ _ | .dinput _ _ _ _ | .digest _ _ _ _ _ _ _
  | .baseDone =>
    [.image, .loader, .imgId, .drone, .jobs, .host, .volumes, .ledger, .entries, .slots, .smc, .lines, .cache,
     .stripes, .appendQ, .vault, .array, .lost, .drives, .hem, .pair, .events, .mgmt, .out]
  | .restoreDriveTimeout _ =>
    [.drone, .posted, .jobs, .host, .volumes, .reeds, .ledger, .entries, .slots, .smc, .lines, .cache, .appendQ,
     .vault, .array, .drives, .hem, .pair, .events, .out]
  | .jrnRestoreDone _ =>
    [.cache, .stripes, .appendQ, .vault, .array, .lost, .hem, .pair, .events, .out]
  | .replay =>
    [.drone, .jobs, .reeds, .ledger, .entries, .slots, .smc, .lines, .cache, .stripes, .appendQ, .vault, .pair,
     .out]
  | .restoreResume =>
    [.cache, .vault, .pins]
  | .driveCommandTimeout _ =>
    [.drone, .posted, .jobs, .array]
  | .smartPoll _ _ _ =>
    [.ledger, .array, .drives, .hem, .events]
  | .failOrder _ _ =>
    [.ledger, .slots, .array]
  | .rebuildParcelStart =>
    [.drone, .jobs, .host, .volumes, .reeds, .ledger, .entries, .slots, .smc, .lines, .cache, .appendQ, .array,
     .drives, .hem, .pair, .events, .out]
  | .rebuildStripeDone _ _ =>
    [.drone, .jobs, .reeds, .array, .lost, .hem, .pair, .events, .out]
  | .scrubStripeStart =>
    [.drone, .jobs, .reeds, .ledger, .entries, .slots, .smc, .lines, .array, .hem, .events]
  | .scrubCheckDone _ _ _ =>
    [.drone, .jobs, .reeds]
  | .scrubBehind =>
    [.array, .hem, .events]
  | .plcLostSelWrite _ _ =>
    [.free, .array]
  | .clusterEnable _ _ _ | .clusterDisable _ _ _ =>
    [.free, .drone, .jobs, .array, .drives, .clusters, .hem, .events, .trials]
  | .drvPerstRelease _ _ =>
    [.drives, .clusters]
  | .driveArrival _ _ _ _ _ =>
    [.drone, .jobs, .array, .drives, .clusters, .hem, .pair, .events, .out]
  | .driveLinkDown _ =>
    [.drives]
  | .driveDepart _ =>
    [.drone, .jobs, .array, .drives, .hem, .events]
  | .cstsPoll _ _ =>
    [.array]
  | .driveDmaRefused _ | .capToExpiry _ =>
    [.drives, .hem, .events]
  | .posMapAdopt _ _ _ | .posMapValidSet _ _ _ =>
    [.free, .drone, .host, .volumes, .ledger, .entries, .slots, .smc, .lines, .cache, .appendQ, .drives,
     .posMap, .hem, .pair, .events, .out]
  | .hemSample _ _ _ | .hemSenseFault | .hemFull | .emptyAnchor | .hemRest | .reanchor | .hemStaleLearn | .calReq _
  | .calAbort _ | .calDischargeStart | .calDischargeEnd | .hemShip | .hemChg _ =>
    [.hem, .events]
  | .sampleGap | .shipReq _ | .shipCancel _ =>
    [.hem]
  | .flitReceive _ _ _ | .flitAckReceive _ _ =>
    [.pair, .out]
  | .retrainTimeout | .epgLinkDown | .flitSilenceTimeout | .epgPrsntChange _ =>
    [.cache, .vault, .hem, .pair, .events]
  | .epgLinkUp =>
    [.drone, .jobs, .host, .volumes, .ledger, .entries, .slots, .cache, .stripes, .appendQ, .vault, .array,
     .lost, .hem, .pair, .events, .out]
  | .hello _ _ _ _ _ _ | .drop | .postReadResult _ =>
    [.drone, .jobs, .host, .volumes, .ledger, .entries, .slots, .cache, .stripes, .appendQ, .vault, .array,
     .lost, .hem, .pair, .events]
  | .salvage _ =>
    [.free, .drone, .jobs, .host, .volumes, .ledger, .entries, .slots, .cache, .stripes, .appendQ, .vault, .array,
     .lost, .hem, .pair, .events]
  | .ack _ _ _ | .postRoundDurable | .activeLostUnsynced =>
    [.hem, .pair, .events]
  | .base _ =>
    [.drone, .host, .volumes, .ledger, .entries, .slots, .smc, .lines, .cache, .stripes, .appendQ, .drives,
     .hem, .pair, .events, .out]
  | .mismatch _ | .handover _ | .completionFenceHold | .join _ | .switchBack _ =>
    [.pair]
  | .liveImg _ _ =>
    [.loader, .pair, .out]
  | .digestUnconfirmedDrop | .ackTimeoutDrop =>
    [.hem, .pair, .events, .out]
  | .relayPostRound =>
    [.drone, .jobs, .pair]
  | .postRead =>
    [.drone, .pair]
  | .epgTakeover | .powerupReservation _ =>
    [.drone, .jobs, .hem, .pair, .events]
  | .claimAcquired =>
    [.drone, .posted, .jobs, .host, .volumes, .reeds, .ledger, .entries, .slots, .smc, .lines, .cache, .stripes,
     .appendQ, .vault, .array, .drives, .hem, .pair, .events, .out]
  | .switchBackLapse =>
    [.host, .pair]
  | .epgPolicyWrite _ _ =>
    [.free, .pair]
  | .sramPatrol _ | .hbmPatrol _ _ _ _ | .eccUncorrectable _ _ =>
    [.drone, .jobs, .slotMap, .host, .cmds, .dma, .reeds, .ledger, .entries, .slots, .smc, .lines, .cache,
     .stripes, .appendQ, .array, .lost, .hem, .pair, .health, .why, .events, .flash, .pins, .out]
  | .agingMeasure _ | .phyMarginMeasure _ _ =>
    [.hem, .health, .why, .events, .flash, .pins]
  | .tempReading _ =>
    [.boot, .loader, .ldrState, .sampled, .slotMap, .reeds, .hem, .health, .why, .events, .mgmt, .flash, .pins]
  | .thermalStop =>
    [.cache, .vault, .hem, .health, .events, .trials, .pins]
  | .thermComparator =>
    [.pins]
  | .hltSnapWrite _ =>
    [.health]
  | .evtMaskWrite _ _ _ =>
    [.events]
  | .evtLogSelWrite _ _ =>
    [.free, .events]
  | .trlArmRequest _ | .trlDisarm _ | .trlCountDone =>
    [.hem, .events, .trials]
  | .mgwDataWrite _ _ =>
    [.mgmt, .fuses]
  | .mgwDataRead _ =>
    [.free, .mgmt]
  | .mgwClaim _ | .mgwRelease _ =>
    [.mgmt]
  | .load _ =>
    [.loader, .ldrState, .hem, .events, .mgmt]
  | .hemSave _ | .hemRestore _ | .keyOrder _ | .healthSnap _ | .mgwClaimBroken _ =>
    [.hem, .events, .mgmt]
  | .flashWriteDone _ =>
    [.loader, .hem, .events, .mgmt, .flash, .copies]
  | .mgwKeyChange =>
    [.hem, .events, .mgmt, .fuses]
  | .mgmtWatchdogReset =>
    [.free, .loader, .ldrState, .imgId, .hem, .events, .mgmt, .fuses, .flash, .copies]
  | .winWrite _ _ _ =>
    [.pair, .mgmt, .fuses, .out]
  | .winRead _ _ _ =>
    [.free, .pair, .mgmt, .out]
  | .winCtl _ _ =>
    [.loader, .ldrState, .hem, .pair, .events, .mgmt, .out]
  | .order _ _ _ =>
    [.free, .drone, .jobs, .host, .volumes, .ledger, .entries, .slots, .smc, .lines, .cache, .stripes, .appendQ,
     .vault, .array, .lost, .drives, .hem, .pair, .events, .trials, .mgmt, .out]
  | .alertReg _ _ _ | .mctpControlMessage _ _ _ | .smbusAlertResponse =>
    [.pair, .mgmt, .out]
  | .portResetAssert _ =>
    [.drone, .jobs, .host, .rings, .cmds, .funcs, .dma, .hem, .events, .mgmt, .pins, .hpPerst]
  | .portResetRelease _ =>
    [.pins, .hpPerst]
  | .registerWrite _ _ _ _ _ =>
    [.free, .loader, .ldrState, .drone, .jobs, .host, .rings, .volumes, .cmds, .funcs, .dma, .ledger, .entries,
     .slots, .smc, .lines, .cache, .stripes, .appendQ, .vault, .array, .lost, .drives, .clusters, .posMap, .hem,
     .pair, .health, .events, .trials, .mgmt, .fuses, .out]
  | .driveCompletionArrival _ _ _ =>
    [.free, .drives, .trials]
  | .dmaReadCompletion _ _ =>
    [.free, .drone, .dma, .hem, .pair, .events, .out]
  | .msixUnmask _ _ =>
    [.host, .funcs, .pair, .out]

/-- The life of a key slot: EMPTY may become PROGRAMMED or DAMAGED, PROGRAMMED may become REVOKED, and what a slot that is not
EMPTY holds stays. -/
def slotAdvances (a b : KeySlot) : Prop :=
  a = b ∨ (a.state = .empty ∧ (b.state = .programmed ∨ b.state = .damaged)) ∨
    (a.state = .programmed ∧ b.state = .revoked ∧ b.hash = a.hash ∧ b.image = a.image)

/-- What a device reset leaves: every register at its reset value, and what survives it. -/
def deviceResetState (s t : State) : Prop :=
  t.boot = .reset ∧ t.halted = false ∧ t.image = none ∧ t.loader = Loader.reset ∧ t.drone = Drone.reset ∧ t.jobs = [] ∧
    t.sampled = Sampled.reset ∧ t.slotMap = SlotMap.reset ∧ t.host = HostSide.reset ∧ t.dma = Dma.reset ∧ t.mem = [] ∧
    t.reeds = Reeds.reset ∧ t.ledger = Ledger.reset ∧ t.smc = Smc.reset ∧ t.cache = Cache.reset ∧
    t.array = ArrayPart.reset ∧ t.drives = Drives.reset ∧ t.hem = { Hem.reset with chg := s.hem.chg } ∧
    t.pair = { Pair.reset with link := { Link.reset with prsntN := s.pair.link.prsntN } } ∧ t.health = Health.reset ∧
    t.events = Events.reset ∧ t.trials = Trials.reset ∧ t.mgmt.ctxs = Mgmt.reset.ctxs ∧ t.pins.replaceN = true ∧
    t.pins.thermTripN = true ∧ t.pins.hpPerst = s.pins.hpPerst ∧ t.pins.pwrFailN = s.pins.pwrFailN ∧ t.dieId = s.dieId ∧
    t.out = s.out ∧ t.pending = s.pending ∧
    (s.mgmt.fusing = none → t.mgmt.keys = s.mgmt.keys ∧ t.mgmt.svnMin = s.mgmt.svnMin) ∧
    (s.mgmt.flashQ = [] → t.flash.fwA = s.flash.fwA ∧ t.flash.fwB = s.flash.fwB ∧ t.flash.primary = s.flash.primary ∧
      t.flash.secondary = s.flash.secondary)

/-- EVT_STAT shows a source (R506). -/
def shown (s : State) (src : Nat) : Bool := tabGet false s.events.stat src

end Machine

end Sys2Proof
end

