-- ==== Sys2Proof/Certificates/Slice0/Obligations.lean ====
section
/-! DEFINITION. The statements for the provers. -/

open Sys2Proof Sys2Proof.Machine

/-- O1. A step takes the command at the front of the queue and is `exec` of it with the queue's rest; on an empty queue the
block idles (the model's choice, log 4). -/
def Obligations.FrontCommandRuns : Prop :=
  (∀ (c : Instr) (r : List Instr) (s : State), s.pending = c :: r → step s = exec c { s with pending := r }) ∧
    ∀ s : State, s.pending = [] → step s = .next s

/-- O2. Every command answers a next state from every state: the FS9600 reports failures in its state and stops on none. The
model's choices it rests on: log 7. -/
def Obligations.EveryCommandAnswers : Prop :=
  ∀ (c : Instr) (s : State), ∃ t, exec c s = .next t

/-- O3. Every command leaves each part of the state that `touches` does not list for it as it was: the frame of the whole
machine. No command touches the queue behind it, and none the die identity (R4). -/
def Obligations.FootprintOfEveryCommand : Prop :=
  (∀ (c : Instr) (s t : State), exec c s = .next t → ∀ p : Piece, p ∉ touches c → p.same s t) ∧
    ∀ c : Instr, Piece.pending ∉ touches c ∧ Piece.dieId ∉ touches c

/-- O4. After reset the DMA scratch memory lists nothing and is in canonical form, and so are the tables of TablesStaySorted.
The model's choices it rests on: log 13. -/
def Obligations.TablesCanonicalAtReset : Prop :=
  Memory.wf State.reset.mem = true ∧ (∀ a, memRead State.reset.mem a = 0) ∧ tabSorted State.reset.host.rings = true ∧
    tabSorted State.reset.host.funcs = true ∧ tabSorted State.reset.events.mask = true ∧
    tabSorted State.reset.dma.chans = true

/-- O5. Through every step the fuses only advance: SVN_MIN never falls, no key slot is lost, and each slot advances; a
DAMAGED or REVOKED slot never changes again. -/
def Obligations.FusesOnlyAdvance : Prop :=
  ∀ s t : State, step s = .next t →
    s.mgmt.svnMin ≤ t.mgmt.svnMin ∧ t.mgmt.keys.length = s.mgmt.keys.length ∧
      ∀ (n : Nat) (a b : KeySlot), s.mgmt.keys[n]? = some a → t.mgmt.keys[n]? = some b →
        slotAdvances a b ∧ ((a.state = .damaged ∨ a.state = .revoked) → b = a)

/-- O6. A device reset, by POR_N, by the supply monitors or by TEST_MODE, brings every register to its reset value at once
and keeps fuses, flash, die identity and input pins (R550, R571). What POR_N, the trace and the queue hold is the model's.
The model's choices it rests on: log 10. -/
def Obligations.DeviceResetRestoresEverything : Prop :=
  ∀ s : State,
    (∃ t, exec .deviceReset s = .next t ∧ deviceResetState s t ∧ t.pins.porN = false ∧ t.pins.testMode = s.pins.testMode) ∧
    (∃ t, exec .supplyBrownout s = .next t ∧ deviceResetState s t ∧ t.pins.porN = s.pins.porN) ∧
    (∃ t, exec (.testModeAssert true) s = .next t ∧ deviceResetState s t ∧ t.pins.testMode = true) ∧
    exec (.testModeAssert false) s = .next { s with pins := { s.pins with testMode := false } }

/-- O7. POR_N rising takes the device out of reset: below 0 °C the boot ROM holds, and a reading of 0 °C or more lets it go
on; above, the boot completes at once. A temperature reading in a running device is shown and judged against 95 °C and 90 °C
(R500, R551, R560). The tenth consecutive reading of 105 °C makes a thermal stop: THERM_TRIP_N falls, the cache acts as on
power failure and no replacement reason is set; the comparator asserts THERM_TRIP_N and nothing else (R561, R562). Asserting
HPn_PERST_N takes that port down, every ring of its functions to its reset values (FootprintOfEveryCommand says what stays);
deasserting it only changes the pin. EPG_PRSNT_N high holds the link in Detect, down (R454, R552, R570). The model's choices
it rests on: log 47, 62. -/
def Obligations.PinsTemperatureAndPowerUp : Prop :=
  ((∀ (straps : BitVec 2) (tj : Int) (s : State), s.boot = .reset → s.pins.testMode = false →
    ∃ t, exec (.porNRelease straps tj) s = .next t ∧ t.pins.porN = true ∧
      t.boot = (if tj < 0 then .booting else .up) ∧ (0 ≤ tj → t.mgmt.recovery = (selectFw s).isNone)) ∧
  (∀ (tj : Int) (s : State), s.boot = .booting → 0 ≤ tj →
    ∃ t, exec (.tempReading tj) s = .next t ∧ t.boot = .up) ∧
  ∀ (tj : Int) (s : State), s.boot = .up →
    ∃ t, exec (.tempReading tj) s = .next t ∧ t.health.tjNow = tj ∧ t.health.tjMax = max s.health.tjMax tj ∧
      t.health.hotRun = (if 1050 ≤ tj then s.health.hotRun + 1 else 0) ∧
      (s.health.tempHigh = false → 950 < tj → t.health.tempHigh = true ∧ shown t 0xC09 = true) ∧
      (s.health.tempHigh = true → tj < 900 → t.health.tempHigh = false ∧ shown t 0xC0A = true) ∧
      (900 ≤ tj → tj ≤ 950 → t.health.tempHigh = s.health.tempHigh)) ∧
  ((∀ s : State, s.boot = .up → 10 ≤ s.health.hotRun → s.health.thermal = false →
    ∃ t, exec .thermalStop s = .next t ∧ t.pins.thermTripN = false ∧ t.cache.vault.failNow = true ∧
      t.health.why = s.health.why ∧ t.pins.replaceN = s.pins.replaceN) ∧
  ∀ s : State, exec .thermComparator s = .next { s with pins := { s.pins with thermTripN := false } }) ∧
  ((∀ (port : Nat) (s : State), port < 2 → s.pins.hpPerst.length = 2 →
    ∃ t, exec (.portResetAssert port) s = .next t ∧ t.pins.hpPerst = s.pins.hpPerst.set port false ∧
      (s.boot = .up → s.pins.hpPerst.getD port false = true →
        ∀ r f, ringOwner s r = some f → portOf f = port → getRing t r = Ring.reset)) ∧
  (∀ (port : Nat) (s : State), port < 2 → s.pins.hpPerst.length = 2 →
    exec (.portResetRelease port) s = .next { s with pins := { s.pins with hpPerst := s.pins.hpPerst.set port true } }) ∧
  (∀ s : State, ∃ t, exec (.epgPrsntChange true) s = .next t ∧ t.pair.link.prsntN = true ∧
    (s.boot = .up → s.pair.link.up = true → t.pair.link.up = false ∧ t.pair.link.l0 = false ∧
      (s.pair.link.lossDecl = false → t.pair.link.lossDecl = true ∧ shown t 0xAC0 = true))) ∧
  ∀ s : State, ∃ t, exec (.epgPrsntChange false) s = .next t ∧
    t = { s with pair := { s.pair with link := { s.pair.link with prsntN := false } } })

/-- O8. The end of verification: a refused image is reported in GLB_LDR_STAT and the running image stays; an accepted one is
applied at once in LOADER and goes to PREPARE behind a running image; on a mirroring active unit a full load is refused with
0x15 (R69, R74, R84, R575). -/
def Obligations.ImageVerdicts : Prop :=
  ∀ (j : LoadJob) (s : State), s.boot = .up → s.loader.job = some j → s.loader.state = .verify →
    (∀ e, imageRefusal s.mgmt.keys j.written j.bytes = some e →
      ∃ t, exec .imageVerifyDone s = .next t ∧ t.image = s.image ∧ t.loader.reason = e.reason ∧ t.loader.section_ = e.sec ∧
        t.loader.offset = BitVec.ofNat 32 e.pos ∧ shown t 0xE01 = true ∧
        (j.copy = 0 → t.loader.state = .fetch ∧ t.loader.copy = 1)) ∧
    (imageRefusal s.mgmt.keys j.written j.bytes = none → s.image = none →
      ∃ t, exec .imageVerifyDone s = .next t ∧ t.image = some (parseImage j.bytes) ∧ t.loader.state = .apply ∧
        t.loader.reason = 0 ∧ t.loader.accepted = some (parseImage j.bytes)) ∧
    (imageRefusal s.mgmt.keys j.written j.bytes = none → s.image.isSome = true → s.pair.claim.unit = .active →
      s.pair.mirrored = true →
      ∃ t, exec .imageVerifyDone s = .next t ∧ t.image = s.image ∧ t.loader.reason = 0x15 ∧ t.loader.section_ = 0xF ∧
        t.loader.offset = 0xFFFFFFFF ∧ shown t 0xE01 = true) ∧
    (imageRefusal s.mgmt.keys j.written j.bytes = none → s.image.isSome = true →
      (s.pair.claim.unit ≠ .active ∨ s.pair.mirrored = false) →
      ∃ t, exec .imageVerifyDone s = .next t ∧ t.image = s.image ∧ t.loader.state = .prepare ∧ t.host = s.host ∧
        t.loader.accepted = some (parseImage j.bytes))

/-- O9. A full reload (R28, R76): PREPARE stops the intake, APPLY resets the planes under the new image while DRN_COUNT and
the volumes stay, and RUNNING closes the RWL registers and raises its event. A live request (R69, R78, R83): verified on a
SOLO unit it is pending, one that R78 does not allow is refused with its reason and section, and one that the partner does
not match in 10 s is refused with 0x12; the running image stays. The model's choices it rests on: log 77. -/
def Obligations.Replacements : Prop :=
  ((∀ s : State, serving s = true → s.loader.state = .prepare → s.loader.prepared = false →
    ∃ t, exec .reloadPrepare s = .next t ∧ t.loader.prepared = true ∧ t.host.stopped = true) ∧
  (∀ (im : Image) (s : State), serving s = true → dumping s = false → s.loader.accepted = some im →
    s.loader.state = .prepare → s.loader.prepared = true → prepareOver s = true →
    ∃ t, exec .reloadApply s = .next t ∧ t.image = some im ∧ t.loader.state = .apply ∧ t.host.rings = [] ∧ t.host.cmds = [] ∧
      t.host.volumes = s.host.volumes ∧ t.host.stopped = false ∧ t.dma = Dma.reset ∧ t.drone.running = [] ∧
      t.drone.queued = [] ∧ t.drone.inflight = [] ∧ t.drone.count = s.drone.count ∧ t.smc.lines = []) ∧
  ∀ (im : Image) (s : State), s.boot = .up → s.loader.accepted = some im → s.loader.state = .apply →
    (∀ x ∈ s.mgmt.ctxs, x.busy = false) →
    ∃ t, exec .imageRunning s = .next t ∧ t.loader.state = .running ∧ t.loader.imgId = im.imgId ∧ t.loader.rwlOpen = false ∧
      t.loader.accepted = none ∧ t.image = s.image ∧ shown t 0xE02 = true ∧
      (s.loader.rwlOpen = true → im.pair.pairEn = false → t.pair.claim.unit = .solo)) ∧
  ((∀ (j : LoadJob) (old : Image) (s : State), s.boot = .up → s.loader.liveJob = some j → s.loader.lstate = .verifying →
    s.image = some old → imageRefusal s.mgmt.keys j.written j.bytes = none →
    (liveRefusal old (parseImage j.bytes) = none → s.pair.claim.unit = .solo →
      ∃ t, exec .liveVerifyDone s = .next t ∧ t.loader.lstate = .pending ∧ t.loader.liveJob = none ∧ t.image = s.image ∧
        t.loader.live.map (·.image) = some (parseImage j.bytes)) ∧
    ∀ e, liveRefusal old (parseImage j.bytes) = some e →
      ∃ t, exec .liveVerifyDone s = .next t ∧ t.loader.lstate = .refused ∧ t.loader.lreason = e.1 ∧ t.loader.lsection = e.2 ∧
        t.loader.live = none ∧ t.image = s.image ∧ shown t 0xE04 = true) ∧
  (∀ (r : LiveReq) (s : State), s.boot = .up → s.pair.claim.unit = .active → s.loader.live = some r →
    r.target = none → r.verifiedAt + msTicks s 10000 ≤ s.drone.count →
    ∃ t, exec .livePairTimeout s = .next t ∧ t.loader.lstate = .refused ∧ t.loader.lreason = 0x12 ∧ t.loader.live = none ∧
      t.image = s.image ∧ shown t 0xE04 = true) ∧
  ∀ (id : Word) (s : State), s.boot = .up → s.pair.claim.unit ≠ .active → s.pair.claim.unit ≠ .solo →
    (s.loader.lstate = .verifying ∨ s.loader.lstate = .pending) → s.loader.partnerImg = some id →
    s.loader.partnerAt + msTicks s 10000 ≤ s.drone.count →
    (∀ r, s.loader.live = some r → r.target = none ∧ r.image.imgId ≠ id) →
    ∃ t, exec .livePairTimeout s = .next t ∧ t.loader.lstate = .refused ∧ t.loader.lreason = 0x12 ∧ t.loader.live = none ∧
      t.loader.partnerImg = none ∧ t.image = s.image ∧ shown t 0xE04 = true)

/-- O10. Each tick edge increments DRN_COUNT by one and takes one tick of the running image's length; without an image in
service the edge has no caravan, and an image in FETCH has reached the loader's buffer (R22, R85, R86). The model's choices
it rests on: log 3, 8, 27. -/
def Obligations.TickEdgeCounts : Prop :=
  ∀ s : State, s.boot = .up →
    ∃ t, exec .tickEdge s = .next t ∧ t.drone.count = s.drone.count + 1 ∧ t.clock = s.clock + tickNs s ∧
      (serving s = false → t.drone = { s.drone with count := s.drone.count + 1 } ∧ t.host.rings = s.host.rings ∧
        t.ledger = s.ledger ∧ t.sampled = s.sampled ∧
        (s.loader.state = .fetch → t.loader.state = .verify))

/-- O11. The caravan closes at its seal, which leaves what comes later to the next compilation; a compilation that is late is
counted and reported, places no more than it had placed, and leaves the rest queued (R91, R92). A leg that does not finish by
its edge is marked, does not end there, nor does a leg behind it on its resource; it is counted once and recorded (R90, R106,
R107). A leg that does not finish by the second edge is marked by its row; at that edge it is cancelled as hung: it is
counted and reported and no longer runs (R108). A reed leg counts a hang of its pair. The model's choices it rests on: log 9,
76. -/
def Obligations.CaravansAndLateLegs : Prop :=
  ((∀ s : State, serving s = true → s.drone.cut = none →
    exec (.caravanSeal none) s = .next { s with drone := { s.drone with
      cut := some { nextId := s.drone.nextId, condemned := s.reeds.condemned, late := none } } }) ∧
  (∀ (k : Nat) (s : State), serving s = true → s.drone.cut = none →
    ∃ t, exec (.caravanSeal (some k)) s = .next t ∧
      t.drone.cut = some { nextId := s.drone.nextId, condemned := s.reeds.condemned, late := some k } ∧
      t.drone.lateCnt = s.drone.lateCnt + 1 ∧ t.drone.queued = s.drone.queued ∧ shown t 0xD02 = true) ∧
  (∀ (mode last k : Nat) (c : Seal) (s : State), s.drone.cut = some c → c.late = some k →
    (placeCaravan mode last s).drone.next.length ≤ k ∧
      ∀ w ∈ s.drone.queued, w ∈ (placeCaravan mode last s).drone.queued ∨
        w.id ∈ (placeCaravan mode last s).drone.next.map Work.id) ∧
  (∀ (leg : Nat) (l : Leg) (s : State), findLeg s leg = some l → l.done = false → l.ownTick = s.drone.count →
    ∃ t, exec (.drnOverrun leg) s = .next t ∧ (∀ x ∈ t.drone.running, x.id = leg → x.late = true) ∧
      (∀ x, x.id ≠ leg → (x ∈ t.drone.running ↔ x ∈ s.drone.running)) ∧ t.drone.overrunCnt = s.drone.overrunCnt) ∧
  (∀ (ls : List Leg), ∀ l ∈ finishedLegs [] ls, l.late = false) ∧
  (∀ a l : Leg, a.late = true → l.late = false → l.done = false → sameResource l a = true → finishedLegs [] [a, l] = []) ∧
  (∀ (s : State) (l : Leg), l.counted = false →
    (countOverrun s l).drone.overrunCnt = s.drone.overrunCnt + 1 ∧ (countOverrun s l).drone.lastTick = l.ownTick ∧
      (countOverrun s l).drone.lastRes = l.resource ∧ (countOverrun s l).drone.lastKind = l.kind.code ∧
      shown (countOverrun s l) 0xD00 = true ∧ (countOverrun s l).drone.count = s.drone.count ∧
      ∀ x ∈ (countOverrun s l).drone.running, x.id = l.id → x.counted = true) ∧
  ∀ (s : State) (l : Leg), l.counted = true → countOverrun s l = s) ∧
  ((∀ (leg : Nat) (l : Leg) (s : State), serving s = true → findLeg s leg = some l → l.done = false →
    l.ownTick < s.drone.count →
    ∃ t, exec (.drnLegHung leg) s = .next t ∧ (∀ x ∈ t.drone.running, x.id = leg → x.late = true) ∧
      t.drone.hungCnt = s.drone.hungCnt) ∧
  ∀ (l : Leg) (s : State),
    (hangLeg s l).drone.hungCnt = s.drone.hungCnt + 1 ∧ shown (hangLeg s l) 0xD01 = true ∧
      (∀ x ∈ (hangLeg s l).drone.running, x.id ≠ l.id) ∧
      (l.kind = .reed → within s (pairStat s (l.pair.getD 0)).hangAt = false → l.pair.getD 0 < s.reeds.stat.length →
        (pairStat (hangLeg s l) (l.pair.getD 0)).hung = min 255 ((pairStat s (l.pair.getD 0)).hung + 1)))

/-- O12. A stream becomes urgent with its backlog recorded once its wait has reached DRN_PATIENCE (R103). DRN_BG_HOLD holds
the streams whose bits it sets, never vault; the first compilation behind the write clears a held stream's count, urgency and
backlog (R110, R111). Write-through and write-back (R33, R343, R345, R360): a stale ceiling is held at zero and reported,
leaving write-through is reported once no condition holds, and the fence holder's JRN_CTL forces write-through or marks every
dirty stripe for destage. The model's choices it rests on: log 75. -/
def Obligations.UrgencyHoldsAndCacheMode : Prop :=
  ((∀ (st : Stream) (s : State), serving s = true → (patienceOf s st).urgent = false → st ∉ s.drone.holdUsed →
    admittedOf s.drone.queued st ≠ 0 → patienceTicks s ≤ (patienceOf s st).wait → s.drone.patience.length = 5 →
    ∃ t, exec (.drnUrgentSet st.bit) s = .next t ∧ (patienceOf t st).urgent = true ∧
      (patienceOf t st).remain = admittedOf s.drone.queued st ∧ shown t 0xD03 = true ∧
      ∀ o : Stream, o ≠ st → patienceOf t o = patienceOf s o) ∧
  (∀ (f : Nat) (value : Word) (s : State), pfFull s f = true → value &&& ~~~0x1D = 0 →
    exec (.drnBgHoldWrite f value) s = .next { s with drone := { s.drone with hold := holdOf value } }) ∧
  (∀ value : Word, Stream.vault ∉ holdOf value ∧
    ∀ st : Stream, st ≠ .vault → (st ∈ holdOf value ↔ value.getLsbD st.bit = true)) ∧
  ∀ s : State, s.drone.patience.length = 5 →
    (adoptHold s).drone.holdUsed = s.drone.hold ∧
      ∀ st : Stream, patienceOf (adoptHold s) st =
        if st ∈ s.drone.hold ∧ st ∉ s.drone.holdUsed then Patience.reset else patienceOf s st) ∧
  ((∀ s : State, serving s = true → 16 ≤ s.cache.staleEdges → s.cache.stale = false →
    ∃ t, exec .jrnCeilStale s = .next t ∧ t.cache = { s.cache with stale := true, freshSeen := 0 } ∧ shown t 0xB02 = true) ∧
  (∀ s : State, serving s = true → s.cache.wt = true → wtWanted s = false →
    ∃ t, exec .jrnWtExit s = .next t ∧ t.cache = { s.cache with wt := false } ∧ shown t 0xB01 = true) ∧
  (∀ (f : Nat) (on : Bool) (s : State), pfFull s f = true → fenceHolder s = true →
    exec (.jrnWtForce f on) s = .next { s with cache := { s.cache with wtForce := on } }) ∧
  ∀ (f : Nat) (s : State), pfFull s f = true → fenceHolder s = true →
    ∃ t, exec (.jrnDestageAll f) s = .next t ∧
      (∀ k d, (k, d) ∈ t.cache.stripes → ∀ i ∈ d.intents, i.eligible = true ∧ i.allMark = true) ∧
      t.cache.stripes.map (·.1) = s.cache.stripes.map (·.1) ∧
      (dirtyLoad s = 0 → shown t 0xB0D = true))

/-- O13. Every step keeps the canonical form of the DMA scratch memory, and keeps the tables of ring pairs, of functions, of
masked sources and of DMA channels in canonical order, so that each key has one entry. -/
def Obligations.TablesStaySorted : Prop :=
  (∀ s t : State, Memory.wf s.mem = true → step s = .next t → Memory.wf t.mem = true) ∧
  (∀ s t : State, step s = .next t →
    (tabSorted s.host.rings = true → tabSorted t.host.rings = true) ∧
    (tabSorted s.host.funcs = true → tabSorted t.host.funcs = true) ∧
    (tabSorted s.events.mask = true → tabSorted t.events.mask = true) ∧
    (tabSorted s.dma.chans = true → tabSorted t.dma.chans = true))

/-- O14. Enabling and disabling a ring pair (R120, R121): an accepted enable clears the errors, STALL and the four indices
and keeps the bases; a depth outside 1 to 16, a foreign event source or an unfinished restore sets ERR and leaves the ring
disabled; while BUSY the ring stays disabled (log 31). A disable stops fetching at once and leaves BUSY while completions are
owed. -/
def Obligations.RingEnableAndDisable : Prop :=
  ∀ (f ring : Nat) (value : Word) (s : State), tabSorted s.host.rings = true → barOpen s f = true → ringOwner s ring = some f →
    reservedSet (ringMask 0) value = false →
    (bit value 0 = true → (getRing s ring).en = false →
      ∃ t, exec (.ringEnable f ring value) s = .next t ∧
        (∀ r, r ≠ ring → getRing t r = getRing s r) ∧
        ((getRing s ring).busy = true → (getRing t ring).en = false ∧ (getRing t ring).busy = true) ∧
        ((getRing s ring).busy = false → 1 ≤ bits value 8 5 → bits value 8 5 ≤ 16 → restoreEnded s = true →
          (bit value 27 = true → (route s (bits value 16 11)).toMsix = true → (route s (bits value 16 11)).func = f) →
          getRing t ring = { getRing s ring with
            en := true, err := false, sqErr := false, cqErr := false, stall := false, depthLog := bits value 8 5
            evtSrc := bits value 16 11, evtEn := bit value 27
            sqPi := 0, sqCi := 0, cqPi := 0, cqCi := 0, sampled := 0, fetched := 0, moveAt := none }) ∧
        ((getRing s ring).busy = false → (bits value 8 5 < 1 ∨ 16 < bits value 8 5 ∨ restoreEnded s = false ∨
            (bit value 27 = true ∧ (route s (bits value 16 11)).toMsix = true ∧ (route s (bits value 16 11)).func ≠ f)) →
          (getRing t ring).en = false ∧ (getRing t ring).err = true)) ∧
    (bit value 0 = false → (getRing s ring).en = true → (getRing s ring).cqErr = false →
      ∃ t, exec (.ringDisable f ring value) s = .next t ∧ (getRing t ring).en = false ∧ (getRing t ring).stall = false ∧
        (getRing t ring).fetchRes = [] ∧ (getRing t ring).sqCi = (getRing s ring).sqCi ∧
        (getRing t ring).owed = (getRing s ring).owed - (getRing s ring).fetchRes.length ∧
        (getRing t ring).busy = decide ((getRing t ring).owed ≠ 0) ∧ t.host.cmds = s.host.cmds ∧
        ∀ r, r ≠ ring → getRing t r = getRing s r)

/-- O15. Doorbells and scans (R124, R125, R126): a doorbell queues its group, or marks it for a rescan while it waits or is
scanned, once; a scan takes the group whose doorbell came first among those whose intake is open, samples RNG_SQ_PI of its
enabled rings, and touches no ring of another group. The model's choices it rests on: log 32. A clause that a command changes
nothing where its condition fails is log 7. -/
def Obligations.DoorbellsAndScans : Prop :=
  (∀ (f g : Nat) (s : State), barOpen s f = true → groupOwner s g = some f →
    (g ∉ s.host.doorbells → (∀ sc, s.host.scan = some sc → sc.group ≠ g) →
      exec (.doorbell f g) s = .next { s with host := { s.host with doorbells := s.host.doorbells ++ [g] } }) ∧
    (g ∈ s.host.doorbells ∨ s.host.scan.map (·.group) = some g →
      (g ∈ s.host.rescan → exec (.doorbell f g) s = .next s) ∧
      (g ∉ s.host.rescan → exec (.doorbell f g) s = .next { s with host := { s.host with
        rescan := s.host.rescan ++ [g], doorbells := s.host.doorbells ++ [g] } }))) ∧
  (∀ (g : Nat) (rest : List Nat) (s : State), tabSorted s.host.rings = true → s.host.scan = none →
    s.host.doorbells = g :: rest → intakeOn s (64 * g) = true →
    ∃ t, exec .groupScan s = .next t ∧ t.host.doorbells = rest ∧
      (t.host.scan = none ∨ t.host.scan = some { group := g, sampled := true }) ∧
      (∀ r, r / 64 ≠ g → getRing t r = getRing s r) ∧
      (∀ r, r / 64 = g → (getRing s r).en = false → getRing t r = getRing s r) ∧
      ∀ r, r / 64 = g → (getRing s r).en = true →
        idxValid (getRing s r).depth (getRing s r).sqPi (getRing s r).fetched = true →
        (getRing t r).sampled = (getRing s r).sqPi) ∧
  (∀ (h g : Nat) (rest : List Nat) (s : State), tabSorted s.host.rings = true → s.host.scan = none →
    s.host.doorbells = h :: g :: rest → h ≠ g → intakeOn s (64 * h) = false → intakeOn s (64 * g) = true →
    ∃ t, exec .groupScan s = .next t ∧ t.host.doorbells = h :: rest ∧ ∀ r, r / 64 ≠ g → getRing t r = getRing s r) ∧
  ∀ (sc : Scan) (s : State), tabSorted s.host.rings = true → s.host.scan = some sc → intakeOn s (64 * sc.group) = true →
    ∃ t, exec .groupScan s = .next t ∧ t.host.doorbells = s.host.doorbells ∧
      (t.host.scan = none ∨ t.host.scan = some { group := sc.group, sampled := true }) ∧
      ∀ r, r / 64 ≠ sc.group → getRing t r = getRing s r

/-- O16. Fetches (R127, R128, R133): RNG_SQ_CI passes an entry when its fetch completes and the command takes the next
sequence number; a failed fetch sets SQ_ERR, drops the fetches in flight and leaves RNG_SQ_CI; a released stall issues the
next fetch. The model's choices it rests on: log 30. -/
def Obligations.EntryFetches : Prop :=
  (∀ (f ring : Nat) (bytes : List Byte) (res : Bool) (rest : List Bool) (s : State), tabSorted s.host.rings = true →
    serving s = true → ringOwner s ring = some f → (getRing s ring).fetchRes = res :: rest →
    ∃ t, exec (.entryFetchDone ring bytes) s = .next t ∧ (getRing t ring).fetchRes = rest ∧
      (getRing t ring).sqCi = idxNext (getRing s ring).depth (getRing s ring).sqCi ∧
      (getRing t ring).owed = (getRing s ring).owed ∧ t.host.nextSeq = s.host.nextSeq + 1 ∧
      ∀ r, r ≠ ring → getRing t r = getRing s r) ∧
  (∀ (ring : Nat) (s : State), tabSorted s.host.rings = true → (getRing s ring).fetchRes ≠ [] →
    ∃ t, exec (.sqFetchError ring) s = .next t ∧ (getRing t ring).sqErr = true ∧ (getRing t ring).fetchRes = [] ∧
      (getRing t ring).sqCi = (getRing s ring).sqCi ∧
      ((getRing s ring).evtEn = true → (getRing s ring).eventAt ≠ some s.drone.count →
        shown t (getRing s ring).evtSrc = true) ∧
      ∀ r, r ≠ ring → getRing t r = getRing s r) ∧
  ∀ (f ring : Nat) (s : State), tabSorted s.host.rings = true → ringOwner s ring = some f → (getRing s ring).stall = true →
    canFetch s ring = true → (getRing s ring).room = true →
    ∃ t, exec (.stallRelease ring) s = .next t ∧ (∀ r, r ≠ ring → getRing t r = getRing s r) ∧
      ((getRing s ring).fetched = (getRing s ring).sampled → getRing t ring = { getRing s ring with stall := false }) ∧
      ((getRing s ring).fetched ≠ (getRing s ring).sampled → ∃ more, t.out = s.out ++
        .entryFetch f ((getRing s ring).sqBase + BitVec.ofNat 64 (64 * idxPos (getRing s ring).fetched)) :: more)

/-- O17. The completion stage (R119, R131, R132, R134, R136): a write of RNG_CQ_CI is seen at the next edge; a finished
command takes the place at RNG_CQ_PI and the mirror word follows; a caravanserai completion moves there, marked, when a place
is free; a failed write stops the ring. The model's choices it rests on: log 8, 31. -/
def Obligations.CompletionStage : Prop :=
  (∀ (f ring : Nat) (value : Word) (s : State), tabSorted s.host.rings = true → barOpen s f = true → ringOwner s ring = some f →
    reservedSet (ringMask 0x38) value = false →
    ∃ t, exec (.cqCiWrite f ring value) s = .next t ∧ (getRing t ring).cqCi = BitVec.ofNat 17 (bits value 0 17) ∧
      (((getRing s ring).moveAt = none ∨ (getRing s ring).moveAt = some s.drone.count) →
        getRing t ring = { getRing s ring with cqCi := BitVec.ofNat 17 (bits value 0 17), moveAt := some s.drone.count }) ∧
      ∀ r, r ≠ ring → getRing t r = getRing s r) ∧
  (∀ (f ring : Nat) (s : State), tabSorted s.host.rings = true → ringOwner s ring = some f →
    ∃ t, exec (.cqWriteError ring) s = .next t ∧ (getRing t ring).cqErr = true ∧
      ((getRing s ring).en = true → getRing t ring = { getRing s ring with cqErr := true }) ∧
      ((getRing s ring).en = false → s.host.finish = [] →
        (getRing t ring).cserai = [] ∧ (getRing t ring).owed = (getRing s ring).owed - (getRing s ring).cserai.length ∧
          (getRing t ring).busy = decide ((getRing t ring).owed ≠ 0)) ∧
      ∀ r, r ≠ ring → getRing t r = getRing s r) ∧
  (∀ (f ring : Nat) (c : Cmd) (st : Nat) (res : Word) (s : State), tabSorted s.host.rings = true → ringOwner s ring = some f →
    mayPost s f = true → s.host.finish = [c.seq] → s.host.cmds = [c] → c.phase = .finished st res → c.ring = ring →
    c.discard = false → c.reserved = false → (getRing s ring).cqErr = false → (getRing s ring).cserai = [] →
    idxNext (getRing s ring).depth (getRing s ring).cqPi ≠ (getRing s ring).cqPi →
    ∃ t, exec (.commandComplete ring) s = .next t ∧ t.host.cmds = [] ∧ t.host.finish = [] ∧
      (getRing t ring).cqPi = idxNext (getRing s ring).depth (getRing s ring).cqPi ∧
      (getRing t ring).owed = (getRing s ring).owed - 1 ∧
      t.out = s.out ++ [
        .hostWrite f ((getRing s ring).cqBase + BitVec.ofNat 64 (16 * idxPos (getRing s ring).cqPi))
          (completionBytes (getRing s ring).sqCi false (fenced s (c.completion st res))) false,
        .hostWrite f (getRing s ring).mirror (leBytes 8 (mirrorWord { getRing s ring with
          cqPi := idxNext (getRing s ring).depth (getRing s ring).cqPi, owed := (getRing s ring).owed - 1 })) false]) ∧
  ∀ (f ring at_ : Nat) (c : Completion) (s : State), tabSorted s.host.rings = true → ringOwner s ring = some f →
    mayPost s f = true → (getRing s ring).moveAt = some at_ → at_ < s.drone.count → (getRing s ring).cqErr = false →
    (getRing s ring).cserai = [c] → (getRing s ring).room = true →
    idxNext (getRing s ring).depth (getRing s ring).cqPi ≠ (getRing s ring).cqPi →
    ∃ t, exec (.cseraiMove ring) s = .next t ∧ (getRing t ring).cserai = [] ∧ (getRing t ring).moveAt = none ∧
      (getRing t ring).cqPi = idxNext (getRing s ring).depth (getRing s ring).cqPi ∧
      (getRing t ring).owed = (getRing s ring).owed - 1 ∧ (getRing t ring).held = (getRing s ring).held - 1 ∧
      ∃ mirror, t.out = s.out ++ [
        .hostWrite f ((getRing s ring).cqBase + BitVec.ofNat 64 (16 * idxPos (getRing s ring).cqPi))
          (completionBytes (getRing s ring).sqCi true (fenced s c)) false,
        .hostWrite f (getRing s ring).mirror mirror false]

/-- O18. R509: a Function Level Reset of f, or disabling MSI-X in f, discards the pending marks of every source routed to f
and clears the PBA; EVT_STAT bits are kept. -/
def Obligations.PendingMarksDiscarded : Prop :=
  ∀ (f : Nat) (s : State), tabSorted s.host.funcs = true →
    (∃ t, exec (.msixDisable f) s = .next t ∧ (∀ p ∈ t.events.pendMsix, (route s p.1).func ≠ f) ∧
      (getFunc t f).pba = [] ∧ (getFunc t f).msixEn = false ∧ t.events.stat = s.events.stat ∧
      (∀ p ∈ s.events.pendMsix, (route s p.1).func ≠ f → p ∈ t.events.pendMsix) ∧
      ∀ g, g ≠ f → getFunc t g = getFunc s g) ∧
    (barOpen s f = true →
      ∃ t, exec (.functionLevelReset f) s = .next t ∧ (∀ p ∈ t.events.pendMsix, (route s p.1).func ≠ f) ∧
        (getFunc t f).pba = [] ∧ (∀ src, shown s src = true → shown t src = true) ∧
        ((∀ p ∈ s.drone.patience, p.urgent = false) → t.events.stat = s.events.stat))

/-- O19. A Function Level Reset (R135, R212): the function's rings take their reset values and no other ring changes; its
reads are gone, its modifying and volume commands go on without a completion; a PF's utility channels are aborted. -/
def Obligations.FunctionLevelResetClears : Prop :=
  ∀ (f : Nat) (s : State), barOpen s f = true →
    ∃ t, exec (.functionLevelReset f) s = .next t ∧
      (∀ r, ringOwner s r = some f → getRing t r = Ring.reset) ∧
      (∀ r, ringOwner s r ≠ some f → getRing t r = getRing s r) ∧
      (∀ c ∈ t.host.cmds, c.func = f → c.discard = true ∧
        (modifies c.entry.opcode = true ∨ (isVolOp c.entry.opcode = true ∧ c.entry.opcode ≠ 0x43))) ∧
      (isPf f = true → ∀ p ∈ t.dma.chans, isUtility p.1 = true → chanPf p.1 ≠ f) ∧
      (isPf f = false → t.dma = s.dma) ∧ (∀ g ∈ t.host.doorbells, ringOwner s (64 * g) ≠ some f) ∧ t.ledger = s.ledger ∧ t.host.volumes = s.host.volumes

/-- O20. Unmasking (R507): a vector's mask is cleared and a message that its PBA bit holds is sent, once; unmasking a
function enables its MSI-X and sends what is held for its unmasked vectors. That MSI-X enabled and function mask clear are
one event is log 28. -/
def Obligations.UnmaskSendsHeldMessages : Prop :=
  (∀ (f v : Nat) (s : State), barSeen s f = true → v < (ringEnt s f).vectors →
    (tabGet false (getFunc s f).pba v = false → exec (.msixUnmask f (some v)) s =
      .next (setFunc f { getFunc s f with vecMask := tabPut true (getFunc s f).vecMask v false } s)) ∧
    (tabGet false (getFunc s f).pba v = true → (getFunc s f).msixEn = true → (getFunc s f).msixMask = false →
      ∃ t, exec (.msixUnmask f (some v)) s = .next t ∧ t.out = s.out ++ [msixMessage s f v] ∧
        (getFunc t f).pba = tabErase (getFunc s f).pba v ∧ tabGet true (getFunc t f).vecMask v = false)) ∧
  ∀ (f : Nat) (s : State),
    ∃ t, exec (.msixUnmask f none) s = .next t ∧ (getFunc t f).msixEn = true ∧ (getFunc t f).msixMask = false ∧
      (∀ v, tabGet false (getFunc s f).pba v = true → tabGet true (getFunc s f).vecMask v = false →
        msixMessage s f v ∈ t.out) ∧
      t.events = s.events ∧ ∀ g, g ≠ f → getFunc t g = getFunc s g

/-- O21. A write to EVT_MASK changes only bits of sources with TO_MSIX = 1 and a FUNC on the writing PF's port, each to the
bit written (R508); EVT_LOG_SEL copies its record, zeros where the log does not hold it (R510, R518). The SMBus Alert
Response releases MGMT_ALERT_N and sends each owed notification, of the newest record, to its endpoint (R543). -/
def Obligations.MaskLogAndAlerts : Prop :=
  ((∀ (f w : Nat) (value : Word) (s : State), tabSorted s.events.mask = true → pfSeen s f = true → w < 64 →
    ∃ m, exec (.evtMaskWrite f w value) s = .next { s with events := { s.events with mask := m } } ∧
      ∀ src, tabGet false m src =
        if src / 64 = w ∧ (route s src).toMsix = true ∧ portOf (route s src).func = portOf f then bit value (src % 64)
        else tabGet false s.events.mask src) ∧
  ∀ (f : Nat) (value : Word) (s : State), pfSeen s f = true → reservedSet (evtMask 0x408) value = false →
    ∃ d, exec (.evtLogSelWrite f value) s =
        .next { s with events := { s.events with logSel := bits value 0 32, logData := d } } ∧
      (∀ (i : Nat) (r : Nat × Nat × Nat), s.events.log[i]? = some r →
        bits value 0 32 = nextRecord s - s.events.log.length + i → d = logRecord r) ∧
      ((bits value 0 32 < nextRecord s - s.events.log.length ∨
          nextRecord s - s.events.log.length + s.events.log.length ≤ bits value 0 32) → d = zeros 16)) ∧
  (∀ s : State, s.boot = .up → s.mgmt.alertPin = false →
    ∃ t, exec .smbusAlertResponse s = .next t ∧ t.mgmt.alertPin = true ∧
      t.out = s.out ++ (s.mgmt.alerts.filter fun a => a.smbus && a.owed).map
        (fun a => .notify a.eid (nextRecord s - 1)) ∧
      (∀ a ∈ t.mgmt.alerts, a.smbus = true → a.owed = false) ∧
      ∀ a ∈ s.mgmt.alerts, a.smbus = false → a ∈ t.mgmt.alerts)

/-- O22. READ and VERIFY (R154, R157, R158, R172): while an entry is looked up, or a resize that took effect still has its
blocks, the command waits; a READ then runs under a plan that will write its buffers, and reports its lost blocks by index; a
VERIFY checks every stripe that is not all zero. The model's choices it rests on: log 36, 37, 71. -/
def Obligations.ReadAndVerifyStart : Prop :=
  (∀ (cmd : Nat) (mem : List HostFrag) (c c1 : Cmd) (v : Volume) (s s0 : State) (r : Bool × State), serving s = true →
    findCmd s cmd = some c → c.phase = .decoded → c.entry.opcode = 1 → getVol s c.entry.volume = some v →
    s0 = modCmd cmd (fun x => { x with sg := cmdBuffers c.entry mem }) s → findCmd s0 cmd = some c1 →
    r = lookupAll cmd (cmdParcels v c.entry) s0 →
    ∃ t c', exec (.read cmd mem) s = .next t ∧ findCmd t cmd = some c' ∧ c'.sg = cmdBuffers c.entry mem ∧
      ((r.1 = false ∨ resizeBars s0 c1 = true) → c'.phase = .waiting) ∧
      (r.1 = true → resizeBars s0 c1 = false → c'.phase = .running ∧ (∃ p ∈ t.jobs, p.2.purpose = .readOut cmd) ∧
        ∀ key ∈ cmdStripes v c.entry, ∀ q ∈ stripeShare v c.entry key, knownBlock r.2 v key q = some none →
          v.firstOf key + q - c.entry.lba ∈ c'.lost)) ∧
  ∀ (cmd : Nat) (c : Cmd) (v : Volume) (s : State) (r : Bool × State), serving s = true → findCmd s cmd = some c →
    c.phase = .decoded → c.entry.opcode = 7 → getVol s c.entry.volume = some v → c.parts = 0 →
    r = lookupAll cmd (cmdParcels v c.entry) s →
    ∃ t, exec (.verify cmd) s = .next t ∧
      ((r.1 = false ∨ resizeBars s c = true) → ∃ c', findCmd t cmd = some c' ∧ c'.phase = .waiting) ∧
      (r.1 = true → resizeBars s c = false →
        (∃ key ∈ cmdStripes v c.entry, groupZero (getEntry r.2 (key / 256)) key = false) →
        ∃ c', findCmd t cmd = some c' ∧ c'.phase = .running ∧ c'.parts =
          ((cmdStripes v c.entry).filter fun key => !groupZero (getEntry r.2 (key / 256)) key).length)

/-- O23. WRITE_ZEROES and DEALLOCATE take effect on the cache once looked up and admitted, and wait otherwise (R165, R325,
R326); one that has no place for its blocks ends with status 0x0A (R164). FLUSH completes at once in write-back, and in
write-through waits for what its volume had dirty when it was decoded (R166). The model's choices it rests on: log 36, 80. -/
def Obligations.ZeroesDeallocateFlush : Prop :=
  (∀ (cmd : Nat) (c : Cmd) (v : Volume) (s : State) (r : Bool × State), serving s = true → findCmd s cmd = some c →
    c.phase = .decoded → c.clean = false → inJob s cmd = none → getVol s c.entry.volume = some v →
    r = lookupAll cmd (cmdParcels v c.entry) (modCmd cmd (fun c => { c with phase := .waiting }) s) →
    (c.entry.opcode = 3 →
      ∃ t c', exec (.writeZeroes cmd) s = .next t ∧
        (c.noCapacity = false → r.1 = false → findCmd t cmd = some c' ∧ c'.phase = .waiting ∧ t.cache = s.cache) ∧
        (c.noCapacity = false → r.1 = true → admission r.2 c v = .now →
          findCmd t cmd = some c' ∧ c'.phase = .running ∧ c'.clean = true ∧ c'.lseq = t.ledger.seq) ∧
        (c.noCapacity = true → c.hostErr = false → c.guardErr = false → c.listed = 0 → c.discard = false →
          findCmd t cmd = some c' ∧ c'.phase = .finished 0x0A 0 ∧ t.cache = s.cache)) ∧
    (c.entry.opcode = 4 →
      ∃ t c', exec (.deallocate cmd) s = .next t ∧
        (c.noCapacity = false → r.1 = false → findCmd t cmd = some c' ∧ c'.phase = .waiting ∧ t.cache = s.cache) ∧
        (c.noCapacity = false → r.1 = true → admission r.2 c v = .now →
          findCmd t cmd = some c' ∧ c'.phase = .running ∧ c'.clean = true ∧ c'.lseq = t.ledger.seq) ∧
        (c.noCapacity = true → c.hostErr = false → c.guardErr = false → c.listed = 0 → c.discard = false →
          findCmd t cmd = some c' ∧ c'.phase = .finished 0x0A 0 ∧ t.cache = s.cache))) ∧
  (∀ (cmd : Nat) (c : Cmd) (s : State), serving s = true → findCmd s cmd = some c → c.phase = .decoded →
    c.entry.opcode = 5 →
    (s.cache.wt = false → c.discard = false →
      ∃ t c', exec (.flush cmd) s = .next t ∧ findCmd t cmd = some c' ∧ c'.phase = .finished 0 0 ∧
        t.host.finish = s.host.finish ++ [cmd] ∧ t.cache = s.cache) ∧
    (s.cache.wt = true →
      ∃ t c', exec (.flush cmd) s = .next t ∧ findCmd t cmd = some c' ∧ c'.phase = .running ∧ c'.clean = true ∧
        c'.roots = c.roots ∧ t.host.finish = s.host.finish ∧ t.cache = s.cache)) ∧
  ∀ (c : Cmd) (s : State), c.entry.opcode = 5 → decodeStatus s c.func c.entry = none →
    ∀ p ∈ s.cache.stripes, keyVol (p.1 / 256) = c.entry.volume → ∀ i ∈ p.2.intents,
      ∃ x ∈ (decodeCmd c s).host.cmds, x.seq = c.seq ∧ i.root ∈ x.roots

/-- O24. Volume commands in their turn (R168 to R174): a refusal is a verdict of status 1 with its reason; VOL_CREATE makes
the volume it describes, VOL_DELETE marks it DELETING while earlier commands on it run, VOL_RESIZE gives the new size,
VOL_QUERY moves the record that the volume had. The model's choices it rests on: log 36. -/
def Obligations.VolumeCommands : Prop :=
  (∀ (i : Instr) (cmd : Nat) (c : Cmd) (s : State), serving s = true → findCmd s cmd = some c → c.phase.result?.isNone = true →
    ((i = .volCreate cmd ∧ c.entry.opcode = 0x40) ∨ (i = .volDelete cmd ∧ c.entry.opcode = 0x41) ∨
      (i = .volResize cmd ∧ c.entry.opcode = 0x42)) →
    c.parts = 0 → effectHeld s c = false → c.verdict = none → c.entry.lba < 2 ^ 48 →
    (volRefusal s c = none →
      ∃ t, exec i s = .next t ∧
        (c.entry.opcode = 0x40 → getVol t c.entry.volume = some (newVolume c.entry)) ∧
        (c.entry.opcode = 0x41 → earlierData s c 0 = true → (∀ v, getVol s c.entry.volume = some v → 0 < v.size ∧ v.size < 2 ^ 48) →
          (getVol t c.entry.volume).map (·.state) = some .deleting) ∧
        (c.entry.opcode = 0x42 → (getVol t c.entry.volume).map (·.size) = some (c.entry.lba + 1))) ∧
    ∀ r, volRefusal s c = some r →
      ∃ t, exec i s = .next t ∧ t.host.volumes = s.host.volumes ∧ (c.discard = false →
        ∃ c', findCmd t cmd = some c' ∧ c'.verdict = some (1, BitVec.ofNat 64 r) ∧
          (earlierVolCmd s c = false → c.lseq = 0 → c.roots = [] → c.jseq = 0 → s.pair.mirrored = false →
            ledgerDurable s 0 = true → c'.phase = .finished 1 (BitVec.ofNat 64 r)))) ∧
  ∀ (cmd : Nat) (c : Cmd) (s : State), serving s = true → findCmd s cmd = some c → c.phase = .decoded →
    c.entry.opcode = 0x43 → c.verdict = none →
    (∀ v, c.parts = 0 → effectHeld s c = false → volRefusal s c = none → getVol s c.entry.volume = some v →
      ∃ t c' p, exec (.volQuery cmd) s = .next t ∧ findCmd t cmd = some c' ∧ c'.phase = .running ∧ p ∈ t.jobs ∧
        p.2.purpose = .hostOut cmd ∧ p.2.got = [(0, volRecord s c.entry.volume v)]) ∧
    (c.parts ≠ 0 →
      ∃ t c' p, exec (.volQuery cmd) s = .next t ∧ findCmd t cmd = some c' ∧ c'.phase = .running ∧ p ∈ t.jobs ∧
        p.2.purpose = .hostOut cmd ∧ p.2.got = [(0, c.record)]) ∧
    ∀ r, c.parts = 0 → effectHeld s c = false → volRefusal s c = some r →
      ∃ t, exec (.volQuery cmd) s = .next t ∧ (c.discard = false →
        ∃ c', findCmd t cmd = some c' ∧ c'.verdict = some (1, BitVec.ofNat 64 r))

/-- O25. WRITE (R118, R159, R163, R164, R176, R325): its data and protection information, taken from host memory through its
scatter lists, wait outside the cache under a plan that holds them block by block. The status a command ends with: a host
memory error before a wrong guard, before want of capacity, before lost blocks. A host memory error ends a command whose
blocks have not entered the cache with status 6, its plans dropped from the queue (R163, R176). The model's choices it rests
on: log 36, 71. -/
def Obligations.WriteStartAndHostErrors : Prop :=
  ((∀ (cmd : Nat) (lists mem : List HostFrag) (c : Cmd) (v : Volume) (s : State), serving s = true → findCmd s cmd = some c →
    c.phase = .decoded → c.entry.opcode = 2 → c.clean = false → inJob s cmd = none → getVol s c.entry.volume = some v →
    ∃ t c' p, exec (.write cmd lists mem) s = .next t ∧ findCmd t cmd = some c' ∧ c'.phase = .waiting ∧ c'.clean = false ∧
      p ∈ t.jobs ∧ p.2.purpose = .writeIn cmd ∧ t.cache.stripes = s.cache.stripes ∧
      ∀ i, i < c.entry.blocks → tabGet [] p.2.got i =
        slice (gather mem (cmdBuffers c.entry lists) (4096 * c.entry.blocks)) (4096 * i) 4096 ++
          slice (hostBytes mem c.entry.piPtr (v.piBytes * c.entry.blocks)) (v.piBytes * i) v.piBytes) ∧
  ∀ c : Cmd, (c.hostErr = true → endStatus c = (6, 0)) ∧
    (c.hostErr = false → c.guardErr = true → endStatus c = (5, 0)) ∧
    (c.hostErr = false → c.guardErr = false → c.noCapacity = true → endStatus c = (0x0A, 0)) ∧
    (c.hostErr = false → c.guardErr = false → c.noCapacity = false →
      ((endStatus c).1 = 4 ↔ c.lost ++ c.abandoned ≠ []) ∧ (c.lost ++ c.abandoned = [] → endStatus c = (0, 0)))) ∧
  (∀ (cmd : Nat) (c : Cmd) (s : State), serving s = true → findCmd s cmd = some c → c.phase.result?.isSome = false →
    c.clean = false → c.verdict = none → c.listed = 0 → c.discard = false →
    (c.entry.opcode = 1 ∨ c.entry.opcode = 2 →
      ∃ t c', exec (.hostMemoryError cmd) s = .next t ∧ findCmd t cmd = some c' ∧ c'.phase = .finished 6 0 ∧
        t.host.finish = s.host.finish ++ [cmd] ∧ (∀ w ∈ t.drone.queued, w.job ∉ cmdJobs s cmd) ∧ t.cache = s.cache) ∧
    (c.entry.opcode = 0x43 →
      ∃ t c', exec (.hostMemoryError cmd) s = .next t ∧ findCmd t cmd = some c' ∧ c'.verdict = some (6, 0) ∧
        (∀ w ∈ t.drone.queued, w.job ∉ cmdJobs s cmd) ∧ t.cache = s.cache))

/-- O26. Starting and committing (R185, R199, R203, R204, R206): a start fetches the first descriptor, enters PAUSED without
a read under PAUSE = 1, and halts with cause 5 on an address outside its space; a commit starts an idle channel, fills the
pending slot, or is refused. -/
def Obligations.DmaStartAndCommit : Prop :=
  ∀ (f ch : Nat) (s : State), tabSorted s.dma.chans = true → chanOpen s f ch = true →
    (∀ (i : Instr) (a : Word), (getChan s ch).state = .idle →
      ((i = .dmaStart f ch ∧ a = (getChan s ch).listHead) ∨ (i = .dmaShCommit f ch false ∧ a = (getChan s ch).nextSh)) →
      ∃ t, exec i s = .next t ∧ (getChan t ch).cur = a ∧ (getChan t ch).active = [] ∧ t.mem = s.mem ∧
        ((getChan s ch).pause = true → (getChan t ch).state = .paused ∧ (getChan t ch).toFetch = some a ∧ t.out = s.out) ∧
        ((getChan s ch).pause = false → spaceOk s ch (getChan s ch).listSpace a 64 = true →
          (getChan t ch).state = .run ∧ (getChan t ch).fetching = some a ∧ t.out = s.out ++ [.descFetch ch a] ∧
          ∀ x, x ≠ ch → getChan t x = getChan s x) ∧
        ((getChan s ch).pause = false → spaceOk s ch (getChan s ch).listSpace a 64 = false →
          (getChan t ch).state = .halted ∧ (getChan t ch).fault = true ∧ (getChan t ch).faultKind = 1 ∧
          (getChan t ch).faultCause = 5 ∧
          (getChan t ch).faultAddr = badBeat s ch (getChan s ch).listSpace a ∧
          ((getChan s ch).faultEn = true → shown t (0x800 + ch) = true))) ∧
    ((getChan s ch).state ≠ .idle → ∀ same : Bool, exec (.dmaShCommit f ch same) s = .next (setChan ch
      (if (getChan s ch).shSlot.isSome || same then { getChan s ch with shRefused := true }
       else { getChan s ch with shSlot := some (getChan s ch).nextSh }) s))

/-- O27. Pausing (R202, R203): a running channel with a read outstanding becomes PAUSING, PAUSED once nothing issued is
outstanding, with its position registers at the next element, and a cleared PAUSE returns it to RUN and to the fetch it owes.
-/
def Obligations.DmaPausing : Prop :=
  (∀ (f ch : Nat) (s : State), chanOpen s f ch = true → (getChan s ch).pause = false → (getChan s ch).halting = false →
    (getChan s ch).fresh = false → (∀ r ∈ (getChan s ch).active, r.movedN < r.desc.count) →
    ((getChan s ch).state = .idle → (getChan s ch).active = [] →
      exec (.dmaPause f ch) s = .next (setChan ch { getChan s ch with pause := true } s)) ∧
    ((getChan s ch).state = .run → (getChan s ch).reads ≠ [] →
      (∀ r ∈ (getChan s ch).active, r.wroteN < r.desc.count) →
      exec (.dmaPause f ch) s =
        .next (endGroup ch (setChan ch { getChan s ch with pause := true, state := .pausing } s)))) ∧
  (∀ (ch : Nat) (s : State), (∀ w ∈ (endGroup ch s).drone.queued, w.chan? ≠ some ch) ∧
    (∀ w ∈ (endGroup ch s).drone.next, w.chan? ≠ some ch) ∧ (∀ l ∈ (endGroup ch s).drone.running, l.chan ≠ some ch) ∧
    ∀ l ∈ s.drone.running, l.chan ≠ some ch → l ∈ (endGroup ch s).drone.running) ∧
  (∀ (ch : Nat) (s : State), (getChan s ch).state = .pausing → (getChan s ch).reads = [] → (getChan s ch).writes = [] →
    (getChan s ch).halting = false → (getChan s ch).fetching = none →
    ∃ t, exec (.dmaPaused ch) s = .next t ∧ (getChan t ch).state = .paused ∧
      (∀ r, (getChan s ch).active.getLast? = some r → (getChan s ch).toFetch = none → r.readN < r.desc.count →
        (getChan t ch).cur = r.desc.addr ∧
        (getChan t ch).srcCur = r.desc.srcAddr r.readN ∧ (getChan t ch).dstCur = r.desc.dstAddr r.readN ∧
        (getChan t ch).remain = remainOf r.desc r.readN ∧ (getChan t ch).crc = r.crc) ∧
      (∀ x, x ≠ ch → getChan t x = getChan s x) ∧ t.out = s.out) ∧
  ∀ (f ch : Nat) (s : State), chanOpen s f ch = true → (getChan s ch).pause = true → (getChan s ch).halting = false →
    (getChan s ch).fresh = false →
    ((getChan s ch).state = .idle ∨ (getChan s ch).state = .halted → tabSorted s.dma.chans = true →
      ∃ t, exec (.dmaUnpause f ch) s = .next t ∧ getChan t ch = { getChan s ch with pause := false } ∧ t.out = s.out) ∧
    (∀ a, (getChan s ch).state = .paused → (getChan s ch).toFetch = some a → (getChan s ch).active = [] →
      spaceOk s ch (getChan s ch).listSpace a 64 = true →
      ∃ t, exec (.dmaUnpause f ch) s = .next t ∧ (getChan t ch).state = .run ∧ (getChan t ch).pause = false ∧
        (getChan t ch).fetching = some a ∧ t.out = s.out ++ [.descFetch ch a]) ∧
    (∀ r, (getChan s ch).state = .paused → (getChan s ch).mode = false → (getChan s ch).toFetch = none →
      (getChan s ch).active = [r] → r.readN < r.desc.count → r.movedN < r.desc.count →
      ∃ t, exec (.dmaUnpause f ch) s = .next t ∧ (getChan t ch).state = .run ∧ (getChan t ch).pause = false ∧
        (getChan t ch).active = [r] ∧ t.out = s.out)

/-- O28. Descriptors and reads (R186 to R192, R198, R201): an invalid descriptor halts the channel with cause 6; a valid one
is read from its first element; a completed read whose burst is whole is written at once, its CRC run over the bytes; pacing
counts up to 64. The model's choices it rests on: log 34. -/
def Obligations.DmaDescriptorsAndReads : Prop :=
  (∀ (ch : Nat) (bytes bs : List Byte) (a : Word) (s : State), (getChan s ch).fetching = some a →
    (getChan s ch).halting = false → (getChan s ch).fresh = false → (getChan s ch).toFetch = none →
    (getChan s ch).active = [] → (getChan s ch).reads = [] → (getChan s ch).writes = [] → (getChan s ch).mode = false →
    bs = (if (getChan s ch).listSpace = 2 then hbmBytes s ch a 64 else takePad 64 bytes) →
    ∃ t, exec (.descriptorFetch ch bytes) s = .next t ∧
      (descInvalid bs = true → (getChan t ch).state = .halted ∧ (getChan t ch).faultKind = 1 ∧ (getChan t ch).faultCause = 6 ∧
        (getChan t ch).faultAddr = a ∧ (getChan t ch).toFetch = some a ∧ (getChan t ch).fetching = none) ∧
      (descInvalid bs = false → 0 < (parseDesc a bs).count → (getChan t ch).fetching = none ∧
        (getChan t ch).active.map (·.desc) = [parseDesc a bs] ∧
        (getChan t ch).cur = a ∧ (getChan t ch).srcCur = (parseDesc a bs).srcAddr 0 ∧
        (getChan t ch).dstCur = (parseDesc a bs).dstAddr 0 ∧
        (getChan t ch).remain = ((parseDesc a bs).l0, (parseDesc a bs).l1, (parseDesc a bs).l2) ∧
        ((getChan s ch).state = .run → groupWaits s ch = false → 16 ≤ slotBudget s →
          ∃ w ∈ t.drone.queued, w.chan? = some ch))) ∧
  (∀ (ch : Nat) (data : List Byte) (rd : DmaRead) (rest : List DmaRead) (r : DescRun) (s : State),
    (getChan s ch).reads = rd :: rest → (getChan s ch).active = [r] → (getChan s ch).state = .run →
    (getChan s ch).halting = false → (getChan s ch).fresh = false → (getChan s ch).mode = false → rd.space = 0 → r.desc.dstSpace = 0 → r.ended = false → r.buf = [] → r.gotN = r.wroteN →
    r.movedN < r.desc.count → r.readN < r.desc.count → 0 < rd.count →
    r.burst = rd.count → rd.bytes = rd.count * r.desc.esize →
    ∃ t, exec (.dmaReadCompletion ch data) s = .next t ∧ (getChan t ch).reads = rest ∧
      t.out = s.out ++ [.hostWrite (chanFunc ch (getChan s ch)) (r.desc.dstAddr r.wroteN) (takePad rd.bytes data)
        (getFunc s (chanFunc ch (getChan s ch))).roEn] ∧
      (getChan t ch).active.map (·.crc) =
        [if r.desc.crcEn then crcRun r.desc.crc64 r.crc (takePad rd.bytes data) else r.crc] ∧ t.mem = s.mem) ∧
  ∀ (src : Nat) (s : State), tabSorted s.dma.chans = true →
    ∃ t, exec (.pacingRequest src) s = .next t ∧
      ∀ ch, isUtility ch = false →
        ((getChan s ch).mode = false ∨ (getChan s ch).paceSrc ≠ src → getChan t ch = getChan s ch) ∧
        ((getChan s ch).mode = true → (getChan s ch).paceSrc = src → (getChan s ch).state = .idle →
          (getChan s ch).active = [] → (getChan s ch).halting = false → (getChan s ch).fresh = false →
          getChan t ch = { getChan s ch with paceCnt := min 64 ((getChan s ch).paceCnt + 1) })

/-- O29. A write response (R193, R196): the bytes of an HBM write land where the write was addressed and nowhere else; a host
write changes no memory of the device; the last response of a descriptor without a CRC sets HALF and DONE with its events.
The model's choices it rests on: log 34. -/
def Obligations.DmaWriteResponses : Prop :=
  ∀ (ch : Nat) (w : DmaWrite) (rest : List DmaWrite) (s : State), (getChan s ch).writes = w :: rest →
    ∃ t, exec (.dmaWriteResponse ch) s = .next t ∧
      (w.space ≠ 2 → t.mem = s.mem) ∧
      (w.space = 2 → t.mem = memWriteN s.mem (scratchBase ch + w.addr.toNat) w.data ∧
        ∀ a, a < scratchBase ch + w.addr.toNat ∨ scratchBase ch + w.addr.toNat + w.data.length ≤ a →
          memRead t.mem a = memRead s.mem a) ∧
      ∀ r, (getChan s ch).active = [r] → (getChan s ch).halting = false → r.seq = w.seq → r.ended = false →
        w.store = false → w.stale = false → r.desc.crcEn = false → 0 < r.desc.count → w.first + w.count = r.desc.count → r.half = false →
        (getChan t ch).half = true ∧ (getChan t ch).done = true ∧
          (r.desc.intHalf = true ∨ r.desc.intFull = true → shown t (0x800 + ch) = true)

/-- O30. A bus error (R207) latches the faulting beat, side, kind, cause, space and descriptor, and halts the channel with
FAULT set once its issued writes have responded. The fault actions (R203, R209): a resume goes on from the position,
repeating a failed fetch, or leads to PAUSED under PAUSE = 1; a skip abandons the descriptor and fetches NEXT; an abort ends
the list without LIST_END and cancels a pending commit. The model's choices it rests on: log 34. -/
def Obligations.DmaFaults : Prop :=
  (∀ (ch : Nat) (write : Bool) (kind cause beat : Nat) (s : State), (getChan s ch).halting = false →
    ∃ t, exec (.dmaBusError ch write kind cause beat) s = .next t ∧ t.mem = s.mem ∧
      (∀ a, kind = 1 → (getChan s ch).fetching = some a → (getChan s ch).active = [] → (getChan s ch).writes = [] →
        (getChan s ch).reads = [] →
        (getChan t ch).state = .halted ∧ (getChan t ch).fault = true ∧ (getChan t ch).faultKind = 1 ∧
        (getChan t ch).faultCause = cause ∧ (getChan t ch).faultAddr = beatAddr a beat ∧ (getChan t ch).toFetch = some a) ∧
      (∀ rd rest r, kind ≠ 1 → write = false → (getChan s ch).reads = rd :: rest → (getChan s ch).active = [r] →
        (∀ x ∈ rest, rd.first ≤ x.first) → r.movedN < r.desc.count →
        (getChan t ch).faultWrite = false ∧ (getChan t ch).faultKind = 0 ∧ (getChan t ch).faultCause = cause ∧
        (getChan t ch).faultAddr = beatAddr rd.addr beat ∧ (getChan t ch).faultSpace = rd.space ∧
        (getChan t ch).faultDesc = r.desc.addr ∧ (getChan t ch).reads = [] ∧
        ((getChan s ch).writes = [] → r.gotN = r.wroteN →
          (getChan t ch).state = .halted ∧ (getChan t ch).fault = true ∧
          ((getChan s ch).faultEn = true → shown t (0x800 + ch) = true))) ∧
      ∀ w rest r, kind ≠ 1 → write = true → (getChan s ch).writes = w :: rest → (getChan s ch).active = [r] →
        r.seq = w.seq → r.ended = false →
        (getChan t ch).faultWrite = true ∧ (getChan t ch).faultKind = (if w.store then 2 else 0) ∧
        (getChan t ch).faultCause = cause ∧ (getChan t ch).faultAddr = beatAddr w.addr beat ∧
        (getChan t ch).faultSpace = w.space ∧ (getChan t ch).faultDesc = r.desc.addr ∧
        (rest = [] → (getChan s ch).reads = [] → (getChan s ch).fetching = none → r.gotN = r.wroteN → r.movedN < r.desc.count → (getChan t ch).state = .halted ∧ (getChan t ch).fault = true ∧
          ((getChan s ch).faultEn = true → shown t (0x800 + ch) = true))) ∧
  (∀ (f ch : Nat) (s : State), chanOpen s f ch = true → (getChan s ch).state = .halted → (getChan s ch).halting = false →
    (getChan s ch).fresh = false →
    ((getChan s ch).pause = true → (∀ r ∈ (getChan s ch).active, r.ended = true ∨ r.movedN < r.desc.count) →
      exec (.faultActResume f ch) s = .next (setChan ch { getChan s ch with state := .paused } s)) ∧
    (∀ a, (getChan s ch).pause = false → (getChan s ch).toFetch = some a → (getChan s ch).active = [] →
      spaceOk s ch (getChan s ch).listSpace a 64 = true →
      ∃ t, exec (.faultActResume f ch) s = .next t ∧ (getChan t ch).state = .run ∧ (getChan t ch).fetching = some a ∧
        t.out = s.out ++ [.descFetch ch a]) ∧
    (∀ r, (getChan s ch).pause = false → (getChan s ch).mode = false → (getChan s ch).toFetch = none →
      (getChan s ch).active = [r] → r.readN < r.desc.count → r.movedN < r.desc.count →
      ∃ t, exec (.faultActResume f ch) s = .next t ∧ (getChan t ch).state = .run ∧ (getChan t ch).active = [r]) ∧
    (∀ r, (getChan s ch).faultKind ≠ 1 → (getChan s ch).endToo = false → (getChan s ch).pause = false → (getChan s ch).toFetch = none →
      (getChan s ch).fetching = none → (getChan s ch).active = [r] → r.ended = false → r.readN < r.desc.count →
      r.desc.next ≠ 0 → spaceOk s ch (getChan s ch).listSpace r.desc.next 64 = true →
      ∃ t, exec (.faultActSkip f ch) s = .next t ∧ (getChan t ch).state = .run ∧
        (getChan t ch).fetching = some r.desc.next ∧ (getChan t ch).done = (getChan s ch).done ∧
        t.out = s.out ++ [.descFetch ch r.desc.next]) ∧
    ∀ i : Instr, tabSorted s.dma.chans = true → (i = .faultActAbort f ch ∨ (i = .faultActSkip f ch ∧ (getChan s ch).faultKind = 1)) →
      ∃ t, exec i s = .next t ∧ (getChan t ch).state = .idle ∧ (getChan t ch).active = [] ∧
        (getChan t ch).listEnd = (getChan s ch).listEnd ∧ (getChan t ch).shSlot = none ∧
        ((getChan s ch).shSlot.isSome = true → (getChan t ch).shCancel = true) ∧ t.out = s.out)

/-- O31. A compared segment (R225, R229): equal outputs are written, engine A's copy; different ones stop the leg, are
counted and reported, and go with both copies to a vote. The engines' errors are the command's operands; no trial forces one
here. The result of a vote (R231, R233, R235, R244): a voter that agrees decides it, each engine that lost counts a confirmed
fault; without a voter it is undecided, and the leg is placed again or, after its third attempt, abandoned. The model's
choices it rests on: log 71. -/
def Obligations.SegmentComparesAndVotes : Prop :=
  (∀ (pair : Nat) (errA errB a b : List Byte) (l : Leg) (s : State), serving s = true → pairLeg s pair = some l →
    l.segment + 1 < l.segments → s.sampled.trial = none → a = xorErr (l.segmentOut l.segment) (takePad 64 errA) →
    b = xorErr (l.segmentOut l.segment) errB →
    ∃ t, exec (.reedSegmentCompare pair errA errB) s = .next t ∧
      (a = b → (∀ x ∈ t.drone.running, x.id = l.id → x.segment = l.segment + 1 ∧
          x.outs = modAt l.outs (l.segment % l.outputs) (· ++ a)) ∧ t.reeds = s.reeds ∧ t.events = s.events ∧
        ∀ x ∈ s.drone.running, x.id ≠ l.id → x ∈ t.drone.running) ∧
      (a ≠ b → (∀ x ∈ t.drone.running, x.id ≠ l.id) ∧ t.reeds.mismatchCnt = s.reeds.mismatchCnt + 1 ∧ shown t 0x900 = true ∧
        (l.voteFor = none → ∃ v ∈ t.reeds.votes, v.leg = l.fresh ∧ v.pair = pair ∧ v.saved = [(pair, l.segment, a, b)] ∧
          v.forced = none))) ∧
  ((∀ (leg n : Nat) (a b : List Byte) (v : Vote) (ref : Leg) (s : State), serving s = true →
    s.reeds.votes.find? (fun v => v.leg.id == leg) = some v → s.drone.running.find? (fun l => l.voteFor == some leg) = some ref →
    ref.done = true → v.forced = none → v.saved = [(v.pair, n, a, b)] → v.pair < s.reeds.stat.length →
    ∃ t, exec (.voteResult leg) s = .next t ∧ (∀ x ∈ t.reeds.votes, x.leg.id ≠ leg) ∧ (∀ x ∈ t.drone.running, x.id ≠ ref.id) ∧
      t.reeds.voteLog.voter = ref.pair.getD 0x1F ∧ t.reeds.voteLog.pair = v.pair ∧ t.reeds.voteLog.slot = v.slot ∧
      t.reeds.voteLog.outcome =
        (if refSegment ref n = b then 0 else if refSegment ref n = a then 1 else 2) ∧
      (a ≠ refSegment ref n → shown t 0x901 = true ∧ (pairStat t v.pair).faultA = min 255 ((pairStat s v.pair).faultA + 1)) ∧
      (b ≠ refSegment ref n → shown t 0x901 = true ∧ (pairStat t v.pair).faultB = min 255 ((pairStat s v.pair).faultB + 1))) ∧
  ∀ (leg : Nat) (v : Vote) (s : State), serving s = true → s.reeds.votes.find? (fun v => v.leg.id == leg) = some v →
    s.drone.running.find? (fun l => l.voteFor == some leg) = none → v.voter = none →
    ∃ t, exec (.voteResult leg) s = .next t ∧ (∀ x ∈ t.reeds.votes, x.leg.id ≠ leg) ∧ shown t 0x902 = true ∧
      t.reeds.voteLog.outcome = 3 ∧ t.reeds.voteLog.voter = 0x1F ∧ t.reeds.stat = s.reeds.stat ∧
      (v.leg.attempts < 3 → ∃ l, .leg l ∈ t.drone.queued ∧ l.id = leg ∧ l.attempts = v.leg.attempts + 1 ∧
        l.avoid = v.leg.slot ∧ l.slot = none) ∧
      (3 ≤ v.leg.attempts → t.reeds.failCnt = s.reeds.failCnt + 1 ∧ shown t 0x907 = true))

/-- O32. Known-vector tests (R235, R236, R493): a due test queues a leg of 144 cycles for its pair; its end dates the pair's
last test, and an engine whose output was not as expected has a confirmed fault, suspect at the first; a difference is
counted. The model's choices it rests on: log 8. -/
def Obligations.KnownVectorTests : Prop :=
  (∀ (pair : Nat) (s : State), serving s = true → testDue s pair = true →
    ∃ t l, exec (.reedTestDue pair) s = .next t ∧ (∀ w, w ∈ t.drone.queued ↔ w ∈ s.drone.queued ∨ w = .leg l) ∧ l.kind = .reed ∧
      l.op = .test ∧ l.pair = some pair ∧ l.cost = 144) ∧
  ∀ (pair : Nat) (okA okB differ : Bool) (l : Leg) (s : State), serving s = true →
    s.drone.running.find? (fun l => l.op == .test && l.pair == some pair) = some l → s.sampled.trial = none →
    pair < s.reeds.stat.length →
    ∃ t, exec (.reedTestResult pair okA okB differ) s = .next t ∧ (∀ x ∈ t.drone.running, x.id ≠ l.id) ∧
      (pairStat t pair).lastTest = s.drone.count ∧ t.reeds.voteLog = s.reeds.voteLog ∧
      ((okA && okB) = false → shown t 0x908 = true) ∧
      ((differ || okA != okB) = true → shown t 0x900 = true ∧ t.reeds.mismatchCnt = s.reeds.mismatchCnt + 1) ∧
      ((differ || okA != okB) = false → t.reeds.mismatchCnt = s.reeds.mismatchCnt) ∧
      (okA = true → (pairStat t pair).faultA = (pairStat s pair).faultA) ∧
      (okB = true → (pairStat t pair).faultB = (pairStat s pair).faultB) ∧
      (okA = false → (pairStat t pair).faultA = min 255 ((pairStat s pair).faultA + 1) ∧
        (within s (pairStat s pair).suspectA = false → (pairStat t pair).suspectA = some s.drone.count)) ∧
      (okB = false → (pairStat t pair).faultB = min 255 ((pairStat s pair).faultB + 1) ∧
        (within s (pairStat s pair).suspectB = false → (pairStat t pair).suspectB = some s.drone.count))

/-- O33. Slot tags and drains (R255, R257, R258, R259): the fence holder's write is one SLOT record and shows in the slot; a
tag of a slot in a placement group is refused when it would change; any other unit's write is refused; a drain moves the
slot's groups to DRAINING and back, and a write that leaves DRAIN as it is is a ledger change too. The model's choices it
rests on: log 20. -/
def Obligations.SlotTagsAndDrains : Prop :=
  (∀ (f slot : Nat) (value : Word) (s : State), pfFull s f = true → slot < 384 → reservedSet (plcMask 0x1000) value = false →
    ((fenceHolder s = false ∨ (slotInPg s slot = true ∧ (((getSlot s slot).tagValid = true ∧ bit value 0 = false) ∨
        bits value 8 8 ≠ (getSlot s slot).encl))) →
      ∃ t, exec (.plcSlotTagWrite f slot value) s = .next t ∧ getSlot t slot = { getSlot s slot with refused := true } ∧
        t.ledger.seq = s.ledger.seq ∧ (fenceHolder s = true → shown t 0xB87 = true)) ∧
    (fenceHolder s = true → slotInPg s slot = false →
      ∃ t r, exec (.plcSlotTagWrite f slot value) s = .next t ∧ t.cache.appendQ = s.cache.appendQ ++ [.ledger r] ∧
        r.type = .slot ∧ r.volume = slot ∧ r.seq = s.ledger.seq + 1 ∧ t.ledger.seq = s.ledger.seq + 1 ∧
        (bit value 0 = true → (getSlot t slot).tagValid = true ∧ (getSlot t slot).encl = bits value 8 8 ∧
          (getSlot t slot).state = joinState true (getSlot s slot).state))) ∧
  (∀ (f slot : Nat) (s : State), pfFull s f = true → slot < 384 → fenceHolder s = true →
    ((getSlot s slot).drain = false → movesInto s slot = [] →
      ∃ t, exec (.drainSet f slot) s = .next t ∧ (getSlot t slot).drain = true ∧
        (∀ n, (getPg s n).slots.contains slot = true → (getPg s n).state = .open_ ∨ (getPg s n).state = .closed →
          0 < (getPg s n).fill → (getPg t n).state = .draining) ∧
        ((getSlot s slot).used = [] → shown t 0xB86 = true)) ∧
    ((getSlot s slot).drain = true →
      ∃ t r, exec (.drainSet f slot) s = .next t ∧ t.cache.appendQ = s.cache.appendQ ++ [.ledger r] ∧ r.type = .slot ∧
        r.volume = slot ∧ (getSlot t slot).drain = true) ∧
    ((getSlot s slot).drain = true → (getSlot s slot).tagValid = true →
      ∃ t, exec (.drainClear f slot) s = .next t ∧ (getSlot t slot).drain = false ∧
        ∀ n, (getPg s n).slots.contains slot = true → (getPg s n).state = .draining → (getPg s n).failed = 0 →
          (∀ x ∈ (getPg s n).slots, x ≠ slot → (getSlot s x).drain = false) → (getPg t n).state = .open_) ∧
    ((getSlot s slot).drain = false →
      ∃ t r, exec (.drainClear f slot) s = .next t ∧ t.cache.appendQ = s.cache.appendQ ++ [.ledger r] ∧ r.type = .slot ∧
        r.volume = slot ∧ ((getSlot s slot).tagValid = true → (getSlot t slot).drain = false))) ∧
  ∀ (i : Instr) (f slot : Nat) (s : State), (i = .drainSet f slot ∨ i = .drainClear f slot) → pfFull s f = true →
    slot < 384 → fenceHolder s = false → exec i s = .next (setSlot slot { getSlot s slot with refused := true } s)

/-- O34. Moves (R273, R274, R276, R278): a start marks a movable parcel MOVING and takes its target; the commit names the
target in the entry, with GEN one higher and no relocation records, and ends a rebuild of the parcel; an abandon clears
MOVING, is counted and reported. Releases (R271, R277, R279): a parcel waiting for release loses its place, all its groups
zero; a released run becomes free; a finished rebuild makes its records VALID. The model's choices it rests on: log 70. -/
def Obligations.MovesAndReleases : Prop :=
  ((∀ (pre post : List (Nat × Nat)) (reason k : Nat) (s s1 : State), serving s = true → fenceHolder s = true →
    dumping s = false → restoreEnded s = true → movingCount s < max 1 s.ledger.maxMoving →
    moveQueue s = pre ++ (reason, k) :: post →
    pre.foldl (fun (a : Bool × State) x => if a.1 then a else startMove x.1 x.2 a.2) (false, s) = (false, s1) →
    (startMove reason k s1).1 = true →
    ∃ t m, exec .moveStart s = .next t ∧ movable s reason k = true ∧ tabFind t.ledger.migs k = some m ∧ m.done = 0 ∧
      (getEntry t k).moving = true ∧ (getEntry t k).gen = (getEntry s1 k).gen + 1) ∧
  (∀ (vol parcel : Nat) (m : Migration) (s : State), serving s = true → fenceHolder s = true →
    tabFind s.ledger.migs (parcelKey vol parcel) = some m → 256 ≤ m.done → m.pg < 2 ^ 18 → m.run < 2 ^ 24 →
    (getEntry s (parcelKey vol parcel)).placed = true →
    ∃ t, exec (.moveCommit vol parcel) s = .next t ∧ getEntry t (parcelKey vol parcel) =
        { getEntry s (parcelKey vol parcel) with
          pg := m.pg, pslot := m.run, moving := false, fdShort := false, reloc0 := none, reloc1 := none
          gen := (getEntry s (parcelKey vol parcel)).gen + 1 } ∧
      t.ledger.migs = tabErase s.ledger.migs (parcelKey vol parcel) ∧
      ∀ x ∈ t.array.active, x.key ≠ parcelKey vol parcel) ∧
  ∀ (vol parcel : Nat) (s : State), serving s = true → fenceHolder s = true → moveFails s (parcelKey vol parcel) = true →
    (getEntry s (parcelKey vol parcel)).placed = true →
    ∃ t, exec (.moveAbandon vol parcel) s = .next t ∧ (getEntry t (parcelKey vol parcel)).moving = false ∧
      t.ledger.abandoned = min 65535 (s.ledger.abandoned + 1) ∧ shown t 0xB85 = true ∧
      t.ledger.migs = tabErase s.ledger.migs (parcelKey vol parcel)) ∧
  ((∀ (vol parcel : Nat) (s : State), serving s = true → fenceHolder s = true →
    s.ledger.compact.contains (parcelKey vol parcel) = true → releasable s (parcelKey vol parcel) = true →
    tabFind s.ledger.migs (parcelKey vol parcel) = none →
    ∃ t, exec (.release vol parcel) s = .next t ∧ (getEntry t (parcelKey vol parcel)).placed = false ∧
      (getEntry t (parcelKey vol parcel)).zeroMask = BitVec.allOnes 32 ∧
      (getEntry t (parcelKey vol parcel)).gen = (getEntry s (parcelKey vol parcel)).gen + 1 ∧
      t.ledger.compact = s.ledger.compact.erase (parcelKey vol parcel)) ∧
  (∀ (slot first : Nat) (w : FreeWait) (s : State), serving s = true →
    s.ledger.freeWait.find? (fun w => w.slot == slot && w.first == first) = some w → runFreeable s w = true →
    (getSlot s slot).dataExt ≠ 0 →
    ∃ t, exec (.runFree slot first) s = .next t ∧ t.ledger.freeWait = s.ledger.freeWait.erase w ∧
      getSlot t slot = { getSlot s slot with used := cutRun (getSlot s slot).used first w.len } ∧
      ((getSlot s slot).drain = true → (getSlot s slot).used ≠ [] → cutRun (getSlot s slot).used first w.len = [] →
        shown t 0xB86 = true)) ∧
  ∀ (vol parcel : Nat) (r : Rebuild) (s : State), serving s = true → fenceHolder s = true →
    s.array.active.find? (fun r => r.key == parcelKey vol parcel) = some r → rebuildOver s r = true →
    (getEntry s (parcelKey vol parcel)).placed = true →
    ∃ t, exec (.relocDone vol parcel) s = .next t ∧ (∀ x ∈ t.array.active, x.key ≠ parcelKey vol parcel) ∧
      (getEntry t (parcelKey vol parcel)).gen = (getEntry s (parcelKey vol parcel)).gen + 1 ∧
      (∀ x, (getEntry s (parcelKey vol parcel)).reloc0 = some x → x.member < 32 → x.slot < 512 → x.run < 2 ^ 24 →
        (x.valid || x.pending) = true →
        (getEntry t (parcelKey vol parcel)).reloc0 = some { x with valid := true, pending := false }) ∧
      ∀ x, (getEntry s (parcelKey vol parcel)).reloc1 = some x → x.member < 32 → x.slot < 512 → x.run < 2 ^ 24 →
        (x.valid || x.pending) = true →
        (getEntry t (parcelKey vol parcel)).reloc1 = some { x with valid := true, pending := false })

/-- O35. Snapshots, checkpoints and the tier (R268, R283, R284, R286): a due snapshot is taken at this tick; a checkpoint
notes the last sequence number, and its end keeps the log behind that number; a page is resident with the first copy that is
valid, and lost when none is; above 90 % the tier is evicted to below 80 %, dirty pages only once they are written home. The
model's choices it rests on: log 8, 19, 20. -/
def Obligations.SnapshotsAndCheckpoints : Prop :=
  (∀ s : State, snapshotDue s = true → s.drone.count < 2 ^ 64 →
    ∃ t, exec .placementSnapshot s = .next t ∧ t.ledger.snapshot.map (·.tick) = some s.drone.count ∧
      t.ledger.charged = List.replicate 12 0 ∧ t.ledger.grown = List.replicate 12 0) ∧
  (∀ s : State, serving s = true → fenceHolder s = true → checkpointDue s = true →
    ∃ t, exec .checkpointStart s = .next t ∧ t.ledger.ckptRun = some s.ledger.seq ∧ t.ledger.ckptStage = 0 ∧
      t.ledger.ckptTick = s.drone.count ∧ t.ledger.logBytes = 0) ∧
  (∀ (n : Nat) (s : State), serving s = true → s.ledger.ckptRun = some n → s.ledger.ckptStage = 2 →
    ∃ t, exec .plcCkpt s = .next t ∧ t.ledger.ckptSeq = n ∧ t.ledger.ckptRun = none ∧
      t.ledger.log = s.ledger.log.filter (fun r => decide (n < r.seq)) ∧ t.ledger.pages = s.ledger.pages ∧
      shown t 0xB88 = true) ∧
  (∀ (vol page copy id : Nat) (j : Job) (l : HomeLoc) (s : State), serving s = true →
    pageJob s (parcelKey vol page) = some (id, j) → homeAt s (.page (parcelKey vol page)) = some l →
    ((∃ c, c < l.slots.length ∧ copyGood (.page (parcelKey vol page)) l j c = true) →
      ∃ t x, exec (.pageMissRead vol page copy) s = .next t ∧ t.ledger.missing = s.ledger.missing.erase (parcelKey vol page) ∧
        tabFind t.ledger.pages (parcelKey vol page) = some x ∧ x.part = none ∧ x.used = s.drone.count) ∧
    ((∀ c < l.slots.length, copyGood (.page (parcelKey vol page)) l j c = false) → j.left = 0 →
      ∃ t, exec (.pageMissRead vol page copy) s = .next t ∧ t.ledger.missing = s.ledger.missing ∧
        t.ledger.homeBad = s.ledger.homeBad ++ [parcelKey vol page] ∧ shown t 0xB89 = true)) ∧
  (∀ s : State, serving s = true → (s.ledger.aboveHigh = true ∨ tierPages s * 90 < tierUsed s * 100) →
    ∃ t, exec .tierHighWatermark s = .next t ∧ t.ledger.aboveHigh = decide ((tierPages s * 80 - 1) / 100 < tierUsed t) ∧
      (∀ p ∈ t.ledger.pages, p ∈ s.ledger.pages) ∧
      ((∀ p ∈ s.ledger.pages, p.2.dirty = false ∧ p.2.part = none) →
        t.ledger.pages.length ≤ s.ledger.pages.length - (tierUsed s - (tierPages s * 80 - 1) / 100))) ∧
  ∀ (f : Nat) (value : Word) (s : State), pfSeen s f = true → reservedSet (plcMask 0x40) value = false →
    exec (.plcPgSelWrite f value) s = .next { s with ledger := { s.ledger with
      pgSel := bits value 0 18, pgData := pgBytes (getPg s (bits value 0 18)) } }

/-- O36. Fills and parked lookups (R294, R295): a completed fill is gone, its line stands in its way with the entries it
read, and every command that waited has its entry; a parked lookup whose line is now valid is answered. The buffers toward
the tier (R302 to R305): the oldest unsent eviction is offered; the tier admits what it lacks of an offered line, or declines
where it has every page or stands above its high watermark; the answer frees the line's place; the oldest merging entry
drains, its page resident and dirty. A clause that a command changes nothing where its condition fails is log 7. -/
def Obligations.SmcFillsAndBuffers : Prop :=
  ((∀ (vol g : Nat) (f : Fill) (s : State), s.smc.run = none → s.smc.queue = [] →
    s.smc.fills.find? (fun f => f.vol == vol && f.g == g) = some f →
    ∃ t, exec (.smcFill vol g) s = .next t ∧
      (∀ x ∈ t.smc.fills, ¬ (x.vol = vol ∧ x.g = g ∧ x.side = f.side)) ∧
      (∀ seq p, (Requester.cmd seq, p) ∈ f.waiters → ∀ c ∈ t.host.cmds, c.seq = seq → parcelKey vol p ∈ c.resolved) ∧
      ∀ (i : Nat) (l : SmcLine), f.side = false → f.way = some i → tabFind s.smc.lines i = none →
        l = { vol := vol, g := g, subs := fillSubs s f (List.replicate 8 none), age := if f.stream then 3 else 0, lock := false } →
        l.empty = false → tabFind t.smc.lines i = some l) ∧
  ∀ (vol parcel i : Nat) (x : Parked) (l : SmcLine) (s : State), s.smc.run = none → s.smc.ready = true →
    portHeld s.smc x.port = false →
    s.smc.parked.find? (fun x => x.vol == vol && x.parcel == parcel) = some x → pageHere s (parcelKey vol parcel) = true →
    findLine s.smc vol (parcel / 8) = some (i, l) → l.has (parcel % 8) = true →
    ∃ t, exec (.smcParkedRepresent vol parcel) s = .next t ∧ t.smc.parked = s.smc.parked.erase x ∧
      ∀ seq, x.who = .cmd seq → ∀ c ∈ t.host.cmds, c.seq = seq → parcelKey vol parcel ∈ c.resolved) ∧
  ((∀ s : State,
    (∀ (a b : List Evict) (e : Evict), s.smc.evict = a ++ e :: b → (∀ x ∈ a, x.sent = true ∨ x.reinstated = true) →
      e.sent = false → e.reinstated = false →
      ((offeredKeys e).all (pageHere s) = true ∨ s.ledger.aboveHigh = true →
        ∃ t, exec .smcOffer s = .next t ∧ t.ledger = s.ledger ∧ { e with sent := true, accepted := false } ∈ t.smc.evict) ∧
      ((offeredKeys e).all (pageHere s) = false → s.ledger.aboveHigh = false →
        ∃ t, exec .smcOffer s = .next t ∧ { e with sent := true, accepted := true } ∈ t.smc.evict ∧
          ∀ k ∈ offeredKeys e, pageHere t k = true)) ∧
    ((∀ x ∈ s.smc.evict, x.sent = true ∨ x.reinstated = true) → exec .smcOffer s = .next s)) ∧
  (∀ (e : Evict) (s : State), s.smc.run = none → s.smc.queue = [] → s.smc.evict.find? (·.sent) = some e →
    ∃ t, exec .smcOfferAnswer s = .next t ∧ t.smc.evict = s.smc.evict.erase e ∧ t.ledger = s.ledger ∧
      t.smc.cnt = modAt s.smc.cnt (if e.accepted then 4 else 5) (· + 1)) ∧
  ∀ s : State,
    (s.smc.merge = [] → exec .smcMergeDrain s = .next s) ∧
    ∀ (k : Nat) (e : LEntry) (n : Nat) (r : List (Nat × LEntry × Nat)), s.smc.merge = (k, e, n) :: r →
      ∃ t pg, exec .smcMergeDrain s = .next t ∧ t.smc.merge = r ∧ tabFind t.ledger.pages (pageOf k) = some pg ∧
        pg.dirty = true ∧ t.ledger.entries = s.ledger.entries)

/-- O37. Preload, lock and unlock (R307 to R310, R312, R322): an operation on a volume of another port or of none sets ERR
and ends; a permitted one runs; behind the other PF's operation it is held with its range sampled, and starts when none runs;
a range that is covered ends with DONE; UNLOCK_ALL unlocks the lines of the port's volumes. The model's choices it rests on:
log 65. -/
def Obligations.SmcPreloads : Prop :=
  (∀ (i : Instr) (f op : Nat) (value : Word) (s : State),
    ((i = .smcPreload f value ∧ op = 0) ∨ (i = .smcPreloadLock f value ∧ op = 1) ∨ (i = .smcUnlock f value ∧ op = 2)) →
    pfFull s f = true → reservedSet (smcMask 0x18) value = false → bit value 0 = true → bits value 1 2 = op →
    (s.smc.run = none → s.smc.heldOp = none →
      ∃ t, exec i s = .next t ∧ (smcPf t.smc f).op = op ∧ (smcPf t.smc f).count = bits value 8 24 ∧
        (preloadRefused s f (smcPf s.smc f).baseVol = true →
          t.smc.run = none ∧ (smcPf t.smc f).err = true ∧ shown t 0xB61 = true ∧ t.smc.lines = s.smc.lines) ∧
        (preloadRefused s f (smcPf s.smc f).baseVol = false →
          (smcPf t.smc f).err = false ∧ t.smc.run.map (·.pf) = some f ∧ t.smc.run.map (·.op) = some op)) ∧
    (∀ q, s.smc.run = some q → q.pf ≠ f → (∀ r, s.smc.heldOp = some r → r.pf ≠ f) →
      ∃ t, exec i s = .next t ∧ t.smc.run = some q ∧ t.smc.lines = s.smc.lines ∧ t.smc.heldOp = some
        { pf := f, op := op, vol := (smcPf s.smc f).baseVol, first := (smcPf s.smc f).baseParcel, count := bits value 8 24 })) ∧
  (∀ (r : Preload) (s : State), s.smc.run = none → s.smc.heldOp = some r →
    ∃ t, exec .smcPreloadHeldStart s = .next t ∧ t.smc.heldOp = none ∧
      (preloadRefused s r.pf r.vol = true → t.smc.run = none ∧ (smcPf t.smc r.pf).err = true ∧ shown t 0xB61 = true) ∧
      (preloadRefused s r.pf r.vol = false → t.smc.run.map (·.pf) = some r.pf ∧ t.smc.run.map (·.op) = some r.op)) ∧
  (∀ (r : Preload) (s : State), s.smc.run = some r → r.count = 0 →
    ∃ t, exec .smcPreloadDone s = .next t ∧ t.smc.run = none ∧ (smcPf t.smc r.pf).done = true ∧ shown t 0xB61 = true ∧
      t.smc.lines = s.smc.lines) ∧
  ∀ (f : Nat) (s : State), pfFull s f = true →
    ∃ t, exec (.unlockAll f) s = .next t ∧
      ∀ (p : Nat × SmcLine) (v : Volume), p ∈ s.smc.lines → findLine s.smc p.2.vol p.2.g = some p → p.2.lock = true →
        p.2.empty = false → getVol s p.2.vol = some v → portOf v.owner = portOf f →
        (∀ q ∈ s.smc.lines, q.1 = p.1 ∨ (q.2.vol = p.2.vol ∧ q.2.g = p.2.g) → q = p) →
        (p.1, { p.2 with lock := false }) ∈ t.smc.lines

/-- O38. The life of an intent (R328, R330, R334, R336, R338): the coalesce time makes an OPEN intent eligible; planning,
with the parcel's entry at hand, gives it its method and, on a stripe with no member erased, its superseding record; with
every strip write durable its retire record is appended, under ZGROUP only after the ledger change. An intent whose parcel
has no place retires with no strip write. A journal batch becomes durable (R327, R328): its records leave the append queue in
order for the ring, and DUR_JSEQ covers each. The model's choices it rests on: log 81. -/
def Obligations.DestageLifeAndJournal : Prop :=
  ((∀ (stripe : Nat) (i : Intent) (s : State), serving s = true → (getDesc s stripe).intents.getLast? = some i →
    i.phase = .open_ → coalesced s i = true →
    ∃ t, exec (.coalesceExpiry stripe) s = .next t ∧
      (∀ j ∈ (getDesc t stripe).intents, j.root = i.root → j.eligible = true) ∧
      (∀ j ∈ (getDesc s stripe).intents, j.root ≠ i.root → j ∈ (getDesc t stripe).intents) ∧
      ∀ k, k ≠ stripe → getDesc t k = getDesc s k) ∧
  (∀ (stripe : Nat) (i : Intent) (v : Volume) (s : State), destages s = true → plannable s stripe = some i →
    nextToPlan s stripe i = true → stripeVol s stripe = some v → (smcAsk (stripe / 256) 1 .foreground s).1 = true →
    ((getEntry s (stripe / 256)).placed = true → i.replay = false →
      ∃ t, exec (.destagePlan stripe) s = .next t ∧ (∃ p ∈ t.jobs, p.2.purpose = .destageRead stripe i.root) ∧
        (∀ j ∈ (getDesc t stripe).intents, j.root = i.root → j.phase = .gathering ∧
          j.method = methodOf s v (getEntry s (stripe / 256)) stripe i) ∧
        (erasedOf s v (getEntry s (stripe / 256)) = [] → t.cache.nextJseq = s.cache.nextJseq + 1 ∧
          ∀ j ∈ (getDesc t stripe).intents, j.root = i.root → j.jseq = s.cache.nextJseq ∧ j.prev = i.jseq)) ∧
    ((getEntry s (stripe / 256)).placed = false →
      ∃ t, exec (.destagePlan stripe) s = .next t ∧
        t.cache.appendQ = s.cache.appendQ ++ [.retire s.cache.nextJseq stripe i.jseq] ∧
        ∀ j ∈ (getDesc t stripe).intents, j.root = i.root → j.phase = .retiring ∧ j.blocks = [] ∧ j.zeros = [])) ∧
  ∀ (stripe : Nat) (i : Intent) (r : List Intent) (s : State), serving s = true → dumping s = false →
    (getDesc s stripe).intents = i :: r →
    (∀ id j, i.phase = .writing → writeJob s stripe i.root = some (id, j) → j.left = 0 → listedSafely s i = true →
      (i.zgroup = false → ∃ t, exec (.intentRetire stripe) s = .next t ∧
        t.cache.appendQ = s.cache.appendQ ++ [.retire s.cache.nextJseq stripe i.jseq] ∧
        ∀ x ∈ (getDesc t stripe).intents, x.root = i.root → x.phase = .retiring) ∧
      (i.zgroup = true → ∃ t l, exec (.intentRetire stripe) s = .next t ∧
        t.cache.appendQ = s.cache.appendQ ++ [.ledger l] ∧ l.type = .zeroMask ∧
        ∀ x ∈ (getDesc t stripe).intents, x.root = i.root → x.phase = .zeroing)) ∧
    (i.phase = .zeroing → maskPending s (stripe / 256) = false →
      ∃ t, exec (.intentRetire stripe) s = .next t ∧
        t.cache.appendQ = s.cache.appendQ ++ [.retire s.cache.nextJseq stripe i.jseq] ∧
        ∀ x ∈ (getDesc t stripe).intents, x.root = i.root → x.phase = .retiring)) ∧
  (∀ (id : Nat) (j : Job) (s : State), serving s = true → batchJob s = some (id, j) →
    ((runningLeg s id).isSome = true ∨ j.left = 0) →
    ∃ t, exec .journalAppendDone s = .next t ∧ t.cache.appendQ = s.cache.appendQ.drop s.cache.batch ∧ t.cache.batch = 0 ∧
      s.cache.durJseq ≤ t.cache.durJseq ∧ (∀ r ∈ s.cache.appendQ.take s.cache.batch, r.jseq ≤ t.cache.durJseq) ∧
      t.cache.nextJseq = s.cache.nextJseq ∧ t.ledger.entries = s.ledger.entries)

/-- O39. Power failure and the dump (R348, R349, R350, R556): the pin's fall counts from then on; the fence holder's dump
appends the journal and a SEAL and takes the next epoch, another unit halts; each phase follows its writes, and the SEALED
dump halts the data plane. The model's choices it rests on: log 64, 72. -/
def Obligations.PowerFailureAndDump : Prop :=
  (∀ s : State, s.boot ≠ .reset → s.cache.vault.failNow = false →
    ∃ t, exec .pwrFailAssert s = .next t ∧ t.pins.pwrFailN = false ∧ t.cache.vault.failNow = true ∧
      t.cache.stripes = s.cache.stripes ∧ t.trials.arm = none ∧
      (s.trials.arm.isSome = true → t.trials.why = 3 ∧ shown t 0xF01 = true) ∧
      (serving s = true → restoreEnded s = false → t.cache.vault.paused = true)) ∧
  (∀ s : State, dumpDue s = true → restoreEnded s = true →
    ∃ t, exec .dumpStart s = .next t ∧
      (fenceHolder s = false → t.halted = true ∧ t.cache.vault.dump = s.cache.vault.dump) ∧
      (fenceHolder s = true → t.cache.vault.dump = .headers ∧ t.cache.vault.epoch = s.cache.vault.top + 1 ∧
        t.cache.vault.state = 1 ∧ t.cache.vault.dumpTick = s.drone.count ∧ s.ledger.seq < t.ledger.seq ∧
        (∃ l ∈ t.ledger.log, l.type = .seal ∧ l.seq = t.ledger.seq) ∧ t.cache.appendQ = [] ∧ shown t 0xB06 = true ∧ t.halted = s.halted)) ∧
  (∀ s : State, dumpDue s = true → restoreEnded s = false →
    ∃ t, exec .dumpStart s = .next t ∧ t.cache.vault.dump = s.cache.vault.dump ∧ (s.sampled.stop = true → t.halted = true)) ∧
  ∀ s : State, serving s = true → vaultIdle s = true →
    (s.cache.vault.dump = .safeHeaders → ∃ t, exec .dumpJournalSafe s = .next t ∧ t.cache.vault.dump = .pages ∧
      t.cache.vault.state = 2 ∧ ∃ p ∈ t.jobs, p.2.purpose = .vault) ∧
    (s.cache.vault.dump = .pages → ∃ t, exec .dumpFlush s = .next t ∧ t.cache.vault.dump = .flush ∧
      t.cache.vault.state = 2 ∧ ∃ p ∈ t.jobs, p.2.purpose = .vault) ∧
    (s.cache.vault.dump = .sealing → ∃ t, exec .jrnDumpDone s = .next t ∧ t.cache.vault.dump = .done ∧ t.halted = true ∧
      shown t 0xB07 = true ∧ (s.cache.vault.epoch, s.cache.vault.half) ∈ t.cache.vault.liveEpochs)

/-- O40. Restore and replay (R285, R340, R356, R358, R555, R579): restore begins once the drives are up, and without a root
ends at once; a drive that is late 60 s fails; the pages in place lead to replay, whose torn destages are rewritten; a
resumed restore goes on; an epoch whose intents have retired is RELEASED. The model's choices it rests on: log 63. -/
def Obligations.RestoreSteps : Prop :=
  (∀ (found : RestoreFind) (s : State), serving s = true → s.loader.state = .running → s.cache.vault.restore = .waiting →
    s.cache.vault.failNow = false → drivesUp s = true → s.pair.take.isNone = true → decides s = true →
    ∃ t, exec (.restoreBegin found) s = .next t ∧ t.cache.vault.restoreAt = s.clock ∧
      (newestRoot found = none → t.cache.vault.restore = .ended) ∧
      (newestRoot found ≠ none → t.cache.vault.restore ≠ .waiting ∧ t.cache.vault.restore ≠ .ended)) ∧
  (∀ (slot : Nat) (s : State), serving s = true → s.cache.vault.restore = .ledger → s.cache.vault.paused = false →
    s.cache.vault.restoreAt + 60000000000 ≤ s.clock → (slotsWaiting s).contains slot = true →
    (getSlot s slot).state ≠ .absent → (getSlot s slot).state ≠ .failed →
    ∃ t l, exec (.restoreDriveTimeout slot) s = .next t ∧ shown t 0xBA0 = true ∧ s.ledger.seq < t.ledger.seq ∧
      .ledger l ∈ t.cache.appendQ ∧ l.type = .slot ∧ l.volume = slot) ∧
  (∀ (pages : List PageFind) (s : State), serving s = true → s.cache.vault.restore = .pages →
    s.cache.vault.paused = false →
    ∃ t, exec (.jrnRestoreDone pages) s = .next t ∧ t.cache.vault.restore = .replay ∧ shown t 0xB09 = true ∧
      ∀ p ∈ t.cache.stripes, ∀ i ∈ p.2.intents, ∀ b ∈ i.survivors, b.2.missing = false) ∧
  (∀ s : State, serving s = true → s.cache.vault.restore = .replay → s.cache.vault.paused = false →
    s.cache.vault.failNow = false →
    ∃ t, exec .replay s = .next t ∧ t.cache.vault.restore = .destage ∧
      ∀ p ∈ s.cache.stripes, ∀ i ∈ p.2.intents, i.method ≠ .open_ → i.phase ≠ .retiring → i.root ∈ t.cache.vault.replaying) ∧
  (∀ s : State, s.boot ≠ .reset → s.cache.vault.failNow = true → restoreEnded s = false → s.halted = false →
    s.health.thermal = false →
    exec .restoreResume s = .next { s with
      pins := { s.pins with pwrFailN := true }
      cache := { s.cache with vault := { s.cache.vault with failNow := false, paused := false } } }) ∧
  ∀ s : State, serving s = true → decides s = true → dumping s = false → epochOver s = true →
    ∃ t, exec .epochRelease s = .next t ∧ t.cache.vault.state = 4 ∧ t.cache.vault.liveEpochs = [] ∧
      t.cache.vault.restored = [] ∧ ∃ p ∈ t.jobs, p.2.purpose = .vault

/-- O41. Causes of a failed drive (R99, R362, R368, R390): an uncollected command, a SMART warning and an order each put the
slot to be declared with its cause on the fence holder; elsewhere a command is given up and an order refused, with nothing
else of PLC_FAIL_CTL written. A returned drive that is forgotten joins anew. The model's choices it rests on: log 73. -/
def Obligations.FailureCauses : Prop :=
  (∀ (cid : Nat) (d : Sub) (s : State), serving s = true → s.drone.inflight.find? (fun d => d.cid == cid) = some d →
    d.deadline ≤ s.drone.count →
    (fenceHolder s = true → exec (.driveCommandTimeout cid) s =
      .next { s with array := { s.array with declare := s.array.declare ++ [(d.slot, 1)] } }) ∧
    (fenceHolder s = false → ∃ t, exec (.driveCommandTimeout cid) s = .next t ∧
      (∀ x ∈ t.drone.inflight, x.cid ≠ cid) ∧ t.array.declare = s.array.declare)) ∧
  (∀ (slot warning used pos : Nat) (d : Drive) (s : State), serving s = true → slotDrive s slot = some (pos, d) →
    d.step = .ready →
    ∃ t, exec (.smartPoll slot warning used) s = .next t ∧ tabFind t.ledger.wearNow slot = some used ∧
      (warning % 256 ≠ 0 → shown t (0x940 + slot) = true ∧ (getStat t slot).causes.getLsbD 7 = true) ∧
      t.array.declare = (if fenceHolder s = true ∧ BitVec.ofNat 8 warning &&& 0x1D ≠ 0 then s.array.declare ++ [(slot, 5)]
        else s.array.declare)) ∧
  (∀ (f slot : Nat) (s : State), pfFull s f = true → slot < 384 →
    ∃ t, exec (.failOrder f slot) s = .next t ∧
      (fenceHolder s = false → (getSlot t slot).refused = true ∧ t.array = s.array) ∧
      (fenceHolder s = true → t.array.failSlot = slot ∧ t.ledger = s.ledger ∧ t.array.declare =
        (if (getSlot s slot).state = .absent ∨ (getSlot s slot).state = .failed then s.array.declare
         else s.array.declare ++ [(slot, 7)]))) ∧
  ∀ (f slot : Nat) (s : State), pfFull s f = true → slot < 384 → fenceHolder s = true →
    ((getStat s slot).returned = false →
      exec (.forgetReturned f slot) s = .next { s with array := { s.array with failSlot := slot } }) ∧
    ((getStat s slot).returned = true → slotDrive s slot = none →
      ∃ t, exec (.forgetReturned f slot) s = .next t ∧ t.array.failSlot = slot ∧ t.ledger.seq = s.ledger.seq + 1) ∧
    ∀ pos d, (getStat s slot).returned = true → slotDrive s slot = some (pos, d) → d.step = .ready →
      (getSlot s slot).tagValid = true →
      ∃ t, exec (.forgetReturned f slot) s = .next t ∧ t.ledger.seq = s.ledger.seq + 2 ∧
        (getSlot t slot).state = .pool ∧ (getSlot t slot).dataExt = dataExtOf d.info.nsze

/-- O42. Rebuild and scrub (R272, R287, R374, R383, R385, R386, R387, R391): the next parcel becomes active with its erased
members, or is to be re-placed; each stripe done counts its bytes and moves on; a home structure and a scrub stripe are read,
a CHECK in doubt is looked at again, an overdue pass is marked, and a pass ends behind its last stripe. The model's choices
it rests on: log 8, 38. -/
def Obligations.RebuildAndScrub : Prop :=
  (∀ (k : Nat) (v : Volume) (s : State), serving s = true → fenceHolder s = true → dumping s = false →
    restoreEnded s = true → s.array.active.length < s.array.parallel → nextParcel s = some k →
    getVol s (keyVol k) = some v → (smcAsk k 1 (.background .rebuild) s).1 = true →
    ∃ t, exec .rebuildParcelStart s = .next t ∧
      (recordsFit (getEntry s k) (erasedOf s v (getEntry s k)) = false → k ∈ t.ledger.replace ∧ shown t 0xB84 = true ∧
        t.array.active = s.array.active) ∧
      (recordsFit (getEntry s k) (erasedOf s v (getEntry s k)) = true →
        k ∈ t.array.skipped ∨ ∃ r ∈ t.array.active, r.key = k ∧ r.members = erasedOf s v (getEntry s k) ∧ r.losses = [])) ∧
  (∀ (vol parcel id : Nat) (r : Rebuild) (v : Volume) (s : State), serving s = true →
    targetsDone s (parcelKey vol parcel) = some id →
    s.array.active.find? (fun r => r.key == parcelKey vol parcel) = some r →
    getVol s (keyVol (parcelKey vol parcel)) = some v →
    ∃ t, exec (.rebuildStripeDone vol parcel) s = .next t ∧
      t.array.rbldBytes = s.array.rbldBytes + BitVec.ofNat 64 (r.members.length * v.strip * 4096) ∧
      ∀ x ∈ t.array.active, x.key = parcelKey vol parcel → ∃ y ∈ s.array.active, y.key = x.key ∧ y.stripe + 1 ≤ x.stripe) ∧
  (∀ (x : Scrub) (s : State), serving s = true → fenceHolder s = true → dumping s = false → restoreEnded s = true →
    scrubBusy s = false → s.array.scrub = some x → x.total ≠ 0 →
    (∀ u r l, x.homes = u :: r → homeAt s u = some l →
      ∃ t, exec .scrubStripeStart s = .next t ∧ (∃ p ∈ t.jobs, p.2.purpose = .homeScrub u) ∧
        t.array.scrub = some { x with homes := r }) ∧
    (∀ pk r, x.homes = [] → scrubPace s x = true → x.parcels = pk :: r → scrubSkip s (stripeKey pk x.stripe) = 0 →
      (smcAsk pk 3 (.background .scrub) s).1 = true →
      ∃ t, exec .scrubStripeStart s = .next t ∧ (∃ p ∈ t.jobs, p.2.purpose = .scrubRead (stripeKey pk x.stripe)) ∧
        t.array.scrubCnt = modAt s.array.scrubCnt 0 (· + 1) ∧
        (∀ y, t.array.scrub = some y → y.parcels = x.step.parcels ∧ y.stripe = x.step.stripe ∧ x.checked ≤ y.checked)) ∧
    (x.homes = [] → scrubPace s x = true → x.parcels = [] → x.again = [] →
      ∃ t, exec .scrubStripeStart s = .next t ∧ t.array.scrub = none ∧ t.array.passes = s.array.passes + 1 ∧
        shown t 0xBA7 = true)) ∧
  (∀ (vol parcel stripe id : Nat) (j : Job) (s : State), serving s = true → s.jobs.find? (fun p => p.2.left == 0 &&
      p.2.purpose == .scrubCheck (stripeKey (parcelKey vol parcel) stripe)) = some (id, j) → getJob s id = some j →
    (scrubDoubt j = [] → ∃ t, exec (.scrubCheckDone vol parcel stripe) s = .next t ∧ t.jobs = tabErase s.jobs id ∧
      t.array = s.array) ∧
    (scrubDoubt j ≠ [] → (stripeVol s (stripeKey (parcelKey vol parcel) stripe)).isSome = true →
      ∃ t, exec (.scrubCheckDone vol parcel stripe) s = .next t ∧
        ∃ p ∈ t.jobs, p.2.purpose = .scrubAgain (stripeKey (parcelKey vol parcel) stripe))) ∧
  (∀ (x : Scrub) (s : State), serving s = true → s.array.scrub = some x → x.behind = false →
    scrubPeriod s ≤ s.clock - x.began →
    ∃ t, exec .scrubBehind s = .next t ∧ t.array = { s.array with scrub := some { x with behind := true } } ∧
      shown t 0xBAA = true) ∧
  ∀ (f : Nat) (value : Word) (s : State), pfSeen s f = true → fenceHolder s = true →
    reservedSet (plcMask 0x4028) value = false →
    ∃ d, exec (.plcLostSelWrite f value) s =
        .next { s with array := { s.array with lostSel := bits value 0 12, lostData := d } } ∧
      (∀ l, s.array.lost[bits value 0 12]? = some l → d = lostBytes l) ∧
      (s.array.lost.length ≤ bits value 0 12 → d = [])

/-- O43. Clusters and links (R393, R396, R397, R419, R553): EN = 1 enables a cluster, whose BIF is writable only while it is
off; EN = 0 takes its links and PERST down and its drives away; a drive that appears is brought up, past a switch's eighth
port it is refused; a drive back within 100 ms is kept, and a link down for longer takes its drive away. The model's choices
it rests on: log 42. -/
def Obligations.ClustersAndLinks : Prop :=
  (∀ (f c : Nat) (value : Word) (s : State), pfFull s f = true → c < 12 → s.drives.clusters.length = 12 →
    reservedSet (drvMask 0) value = false →
    (bit value 0 = true →
      ∃ t, exec (.clusterEnable f c value) s = .next t ∧ (getClu t c).en = true ∧
        (getClu t c).bifur = (if (getClu s c).en = true ∨ bits value 1 2 = 3 then (getClu s c).bifur else bits value 1 2) ∧
        (getClu t c).speed = (if bits value 4 2 = 3 then (getClu s c).speed else bits value 4 2) ∧
        (∀ x, x ≠ c → getClu t x = getClu s x) ∧ t.drives.drives = s.drives.drives) ∧
    (bit value 0 = false → (getClu s c).en = true →
      ∃ t, exec (.clusterDisable f c value) s = .next t ∧ (getClu t c).en = false ∧
        (getClu t c).perst = [false, false, false, false] ∧ (getClu t c).bifur = (getClu s c).bifur ∧
        ∀ p ∈ t.drives.drives, p.1 / 32 ≠ c)) ∧
  (∀ (c port : Nat) (s : State), serving s = true → c < 12 → (getClu s c).en = true → port < rootPorts (getClu s c).bifur →
    ∃ t, exec (.drvPerstRelease c port) s = .next t ∧ t = { s with drives := { s.drives with
      clusters := modAt s.drives.clusters c fun x => { x with perst := modAt x.perst port fun _ => true } } }) ∧
  (∀ (c port index width rate : Nat) (s : State), serving s = true → c < 12 → (getClu s c).en = true →
    port < rootPorts (getClu s c).bifur → nth false (getClu s c).perst port = true →
    ∃ t, exec (.driveArrival c port index width rate) s = .next t ∧
      (8 ≤ index → (getStat t (posMap s (32 * c + 8 * port)).slot).refuse = 0xC ∧
        shown t (0x940 + (posMap s (32 * c + 8 * port)).slot) = true ∧ t.drives.drives = s.drives.drives) ∧
      (index < 8 → getDrive s (32 * c + 8 * port + index) = none →
        (getDrive t (32 * c + 8 * port + index)).map (·.step) = some .waitRdy ∧
        t.out = s.out ++ [.admin (32 * c + 8 * port + index) .waitRdy []]) ∧
      (∀ d, index < 8 → getDrive s (32 * c + 8 * port + index) = some d → linkGone s d = false →
        getDrive t (32 * c + 8 * port + index) = some { d with linkUp := true })) ∧
  ∀ (pos : Nat) (d : Drive) (s : State), serving s = true → getDrive s pos = some d →
    (d.linkUp = true → ∃ t, exec (.driveLinkDown pos) s = .next t ∧
      getDrive t pos = some { d with linkUp := false, downAt := s.clock }) ∧
    (d.linkUp = false → 100000000 < s.clock - d.downAt → ∃ t, exec (.driveDepart pos) s = .next t ∧
      t.drives.drives = tabErase s.drives.drives pos ∧
      ∀ n, d.slot = some n → shown t (0x940 + n) = true ∧ (getStat t n).causes.getLsbD 3 = true ∧
        t.array.declare = (if fenceHolder s then s.array.declare ++ [(n, 2)] else s.array.declare))

/-- O44. Bring-up and the life of a drive (R95, R399, R402, R403, R404, R408, R411): each answer leads to the next step, a
failure stops the bring-up with its reason; a ready drive's CFS fails it; a completion belongs to the tick that accepts it;
DRV_POS_MAP gives a waiting drive its slot. That a failed step refuses 0x7, 0x2 or 0x1 is log 41. The model's choices it
rests on: log 18, 41. A clause that a command changes nothing where its condition fails is log 7. -/
def Obligations.DriveBringUp : Prop :=
  (∀ (pos : Nat) (d : Drive) (s : State), serving s = true → getDrive s pos = some d →
    (d.step = .waitRdy → ∃ t, exec (.adminCompletion pos .rdy) s = .next t ∧
      getDrive t pos = some { d with step := .identCtrl } ∧ t.out = s.out ++ [.admin pos .identCtrl (adminData s .identCtrl)]) ∧
    (d.step = .hostId → ∃ t, exec (.adminCompletion pos .ok) s = .next t ∧
      getDrive t pos = some { d with step := .numQueues } ∧ t.out = s.out ++ [.admin pos .numQueues (adminData s .numQueues)]) ∧
    (d.step = .cqs → ∃ t, exec (.adminCompletion pos .ok) s = .next t ∧
      getDrive t pos = some { d with step := .sqs } ∧ t.out = s.out ++ [.admin pos .sqs (adminData s .sqs)]) ∧
    (∀ warning used, d.step = .smart → ∃ t, exec (.adminCompletion pos (.smart warning used)) s = .next t ∧
      (getDrive t pos).map (·.step) = some .ready ∧ ∀ n, d.slot = some n → shown t (0x940 + n) = true) ∧
    (d.step = .waitRdy ∨ d.step = .identCtrl ∨ d.step = .cqs ∨ d.step = .sqs ∨ d.step = .smart →
      ∃ t, exec (.adminCompletion pos .failed) s = .next t ∧ getDrive t pos = some { d with step := .stopped, ccEn := false } ∧
        (getStat t (d.slot.getD (posMap s pos).slot)).refuse = 1) ∧
    (d.step = .waitRdy → ∃ t, exec (.capToExpiry pos) s = .next t ∧
      getDrive t pos = some { d with step := .stopped, ccEn := false } ∧ (getStat t (d.slot.getD (posMap s pos).slot)).refuse = 1 ∧
      shown t (0x940 + d.slot.getD (posMap s pos).slot) = true) ∧
    (d.step = .ready → exec (.cstsPoll pos false) s = .next s ∧ ∀ n, d.slot = some n → fenceHolder s = true →
      exec (.cstsPoll pos true) s = .next { s with array := { s.array with declare := s.array.declare ++ [(n, 2)] } })) ∧
  (∀ (slot : Nat) (s : State), serving s = true → (slotDrive s slot).isSome = true →
    ∃ t, exec (.driveDmaRefused slot) s = .next t ∧ (getStat t slot).causes.getLsbD 6 = true ∧
      shown t (0x940 + slot) = true ∧ t.drives.drives = s.drives.drives) ∧
  (∀ (cid status : Nat) (data : List Byte) (d : Sub) (s : State), serving s = true →
    s.drone.inflight.find? (fun d => d.cid == cid) = some d → (∀ a ∈ s.drives.arrived, a.1 ≠ cid) → s.sampled.trial = none →
    exec (.driveCompletionArrival cid status data) s = .next { s with drives := { s.drives with
      arrived := s.drives.arrived ++ [(cid, status, s.drone.count, data)] } }) ∧
  ∀ (i : Instr) (f pos : Nat) (value : Word) (s : State), pfFull s f = true → pos < 384 →
    ((i = .posMapAdopt f pos value ∧ bits value 10 2 = 1) ∨ (i = .posMapValidSet f pos value ∧ bit value 9 = true)) →
    reservedSet (drvMask 0x1000) value = false →
    (fenceHolder s = false → exec i s = .next s) ∧
    (fenceHolder s = true → bits value 0 9 < 384 → bits value 0 9 ≠ pos →
      (getDrive s pos = none → ∃ t, exec i s = .next t ∧ posMap t pos = { slot := bits value 0 9, valid := bit value 9 }) ∧
      ∀ d, getDrive s pos = some d → d.step = .unassigned ∨ (d.step = .foreign ∧ bits value 10 2 = 1) →
        bit value 9 = true → slotDrive s (bits value 0 9) = none →
        ∃ t, exec i s = .next t ∧ (getDrive t pos).bind (·.slot) = some (bits value 0 9))

/-- O45. Samples and anchors (R421, R423, R424, R425, R428, R429, R430, R433, R435, R439, R440): what each sample and each
anchor writes. The model's choices it rests on: log 43, 44. -/
def Obligations.HemSamplesAndAnchors : Prop :=
  (∀ (v i k : BitVec 16) (s : State), mgmtUp s = true →
    ∃ t, exec (.hemSample v i k) s = .next t ∧ t.hem.vraw = v ∧ t.hem.iraw = i ∧ t.hem.traw = k ∧
      t.hem.seq = s.hem.seq + 1 ∧ t.hem.sampleAt = s.clock ∧
      ∀ im, s.image = some im → t.hem.sampled = true ∧
        (im.hemd.li = false → (settleHem s).hem.sampled = true → s.clock - s.hem.sampleAt ≤ 100000000 →
          t.hem.q = clampR 0 (scFull im.hemd (settleHem s).hem.bank)
            ((settleHem s).hem.q + hemAmps im.hemd.shuntUohm i / 1000))) ∧
  (∀ s : State, mgmtUp s = true → senseBad s.clock s.hem = true → s.hem.fault = false →
    ∃ t, exec .hemSenseFault s = .next t ∧ t.hem.fault = true ∧ t.hem.eg = 0 ∧ shown t 0xAEC = true ∧
      (calRunning s.hem = true → t.hem.cal = 5 ∧ t.hem.calWhy = 5 ∧ t.hem.disch = false)) ∧
  (∀ s : State, mgmtUp s = true → 100000000 < s.clock - s.hem.sampleAt →
    exec .sampleGap s = .next { s with hem := { s.hem with sampled := false } }) ∧
  ∀ (im : Image) (s : State), mgmtUp s = true → s.image = some im →
    (fullDue im.hemd s.hem = true → ∃ t, exec .hemFull s = .next t ∧ shown t 0xAE2 = true ∧ t.hem.fullDone = true ∧
      (im.hemd.li = true → t.hem.soc = 1 ∧ t.hem.v1 = 0) ∧ (im.hemd.li = false → t.hem.q = scFull im.hemd s.hem.bank)) ∧
    (10 ≤ s.hem.emptyRun → ∃ t, exec .emptyAnchor s = .next t ∧ (im.hemd.li = false → t.hem.q = 0) ∧
      (im.hemd.li = true → t.hem.soc = ocvInv im.hemd (im.hemd.vc + dumpDrop im.hemd s.hem.r0 s.hem.r1 s.hem))) ∧
    (reanchorDue s.hem = true → ∃ t, exec .reanchor s = .next t ∧
      (im.hemd.li = false → t.hem.q = scCharge im.hemd s.hem s.hem.volt) ∧
      (im.hemd.li = true → t.hem.soc = socAt im.hemd s.hem s.hem.volt (s.hem.amp im.hemd) ∧ t.hem.p00 = 1 / 10000)) ∧
    (staleDue s.clock s.hem = true → ∃ t, exec .hemStaleLearn s = .next t ∧ t.hem.staleLearn = true ∧ shown t 0xAE6 = true) ∧
    (restDue s.hem = true → ∃ t, exec .hemRest s = .next t ∧ shown t 0xAE3 = true ∧ t.hem.restDone = true ∧
      t.hem.restAge = 0 ∧ t.hem.restAt = s.clock ∧ t.hem.staleLearn = false ∧
      t.hem.open_ = (if s.hem.ship = 2 then none else some (restPoint s.drone.count im.hemd s.hem)) ∧
      (s.hem.cal = 3 → t.hem.cal = 4 ∧ shown t 0xAE9 = true) ∧
      (s.hem.open_ = none → t.hem.bank = s.hem.bank ∧ t.hem.learnTotal = s.hem.learnTotal) ∧
      ∀ a, s.hem.open_ = some a →
        let p := restPoint s.drone.count im.hemd s.hem
        let n := newBank im.hemd a p
        (cycleCode im.hemd s.hem a p ≠ 0 → t.hem.reject = cycleCode im.hemd s.hem a p ∧ t.hem.bank = s.hem.bank ∧
          shown t 0xAE5 = true) ∧
        (cycleCode im.hemd s.hem a p = 0 → t.hem.learnedSrc = 2 ∧ t.hem.learnTotal = s.hem.learnTotal + 1 ∧
          shown t 0xAE4 = true ∧
          t.hem.bank = (if s.hem.restored = true ∨ s.hem.learnedSrc = 2 then (3 * s.hem.bank + n) / 4 else n)))

/-- O46. Calibration, ship mode and the charger (R444, R445, R446, R447, R448, R450): each request, its refusal and what it
changes; ship mode leaves no guaranteed energy and no ceiling. The model's choices it rests on: log 43. A clause that a
command changes nothing where its condition fails is log 7. -/
def Obligations.CalibrationAndShip : Prop :=
  (∀ (f : Nat) (s : State), pfSeen s f = true →
    (inShip s.hem = false → s.hem.fault = false → senseBad s.clock s.hem = false → s.hem.chg = true → calRunning s.hem = false →
      exec (.calReq f) s = .next { s with hem := { s.hem with
        cal := 1, calRef := false, calWhy := 0, calFull := false, calCapAt := none, calFrom := none } }) ∧
    (inShip s.hem = true ∨ s.hem.fault = true ∨ senseBad s.clock s.hem = true ∨ s.hem.chg = false ∨ calRunning s.hem = true →
      ∃ t, exec (.calReq f) s = .next t ∧ calShown t.hem = 6 ∧ t.hem.cal = s.hem.cal ∧ shown t 0xAEA = true) ∧
    (calRunning s.hem = true → ∃ t, exec (.calAbort f) s = .next t ∧ t.hem.cal = 5 ∧ t.hem.calWhy = 1 ∧ t.hem.disch = false ∧
      shown t 0xAEA = true) ∧
    (calRunning s.hem = false → exec (.calAbort f) s = .next s) ∧
    (s.hem.ship = 0 → exec (.shipReq f) s = .next { s with hem := { s.hem with ship := 1, cleanSeen := false, eg := 0 } }) ∧
    (s.hem.ship ≠ 0 → exec (.shipReq f) s = .next s) ∧
    (s.hem.ship = 1 → exec (.shipCancel f) s = .next { s with hem := { s.hem with ship := 0 } }) ∧
    (s.hem.ship ≠ 1 → exec (.shipCancel f) s = .next s)) ∧
  (∀ (im : Image) (s : State), mgmtUp s = true → s.image = some im →
    (dischargeReady s.hem = true →
      exec .calDischargeStart s = .next { s with hem := { s.hem with cal := 2, calRef := false, disch := true } }) ∧
    (dischargeReady s.hem = false → exec .calDischargeStart s = .next s) ∧
    (dischargeOver im.hemd s.hem = true →
      exec .calDischargeEnd s = .next { s with hem := { s.hem with cal := 3, calRef := false, disch := false } })) ∧
  (∀ s : State, mgmtUp s = true → s.hem.ship = 1 →
    (s.hem.cleanSeen = true → ∃ t, exec .hemShip s = .next t ∧ t.hem.ship = 2 ∧ t.hem.shipPin = true ∧ t.hem.open_ = none ∧
      t.hem.eg = 0 ∧ shown t 0xAEB = true) ∧
    (s.hem.cleanSeen = false → exec .hemShip s = .next s)) ∧
  (∀ (level : Bool) (s : State), mgmtUp s = true → s.hem.chg ≠ level →
    ∃ t, exec (.hemChg level) s = .next t ∧ t.hem.chg = level ∧ shown t 0xAEE = true ∧
      (calRunning s.hem = true → t.hem.cal = 5 ∧ t.hem.calWhy = 6 ∧ t.hem.disch = false) ∧
      (s.hem.ship = 2 → level = false → t.hem.ship = 2 ∧ t.hem.shipFell = true) ∧
      (s.hem.ship = 2 → level = true → s.hem.shipFell = true → t.hem.ship = 0 ∧ t.hem.shipPin = false ∧
        t.hem.sampled = false ∧ t.hem.fresh = false)) ∧
  ∀ (clock : Nat) (im : Image) (h : Hem), inShip h = true → guaranteed clock h = 0 ∧ ceilingOf clock im h = 0

/-- O47. Flits (R452, R453): the next payload flit in order is passed on and every 16th acknowledged, one ahead of a gap and
one with a bad CRC are refused; an acknowledgement frees the flits through it, a refusal replays from it, and the eighth
replay of one flit retrains. Link loss and recovery (R454, R475, R478): a retrain past 2 ms, a link that goes down and 100 µs
without a good flit each declare the loss once, with its event, and numbering starts afresh; L0 held for 1 s brings the link
up. The model's choices it rests on: log 50. A clause that a command changes nothing where its condition fails is log 7. -/
def Obligations.EpongLink : Prop :=
  ((∀ (hdr payload crc : List Byte) (s : State), linkOn s = true →
    (flitGood hdr payload crc = false → s.pair.link.l0 = true →
      exec (.flitReceive hdr payload crc) s = .next (emit (.flitAck s.pair.link.rxSeq true) s)) ∧
    (flitGood hdr payload crc = false → s.pair.link.l0 = false → exec (.flitReceive hdr payload crc) s = .next s) ∧
    (flitGood hdr payload crc = true → ∃ t, exec (.flitReceive hdr payload crc) s = .next t ∧ t.pair.link.l0 = true ∧ t.pair.link.lastFlit = s.clock ∧
      (flitKind hdr ≠ 1 → t.pair.link.rxSeq = s.pair.link.rxSeq ∧ t.out = s.out) ∧
      (flitKind hdr = 1 → flitSeq hdr = s.pair.link.rxSeq → t.pair.link.rxSeq = (s.pair.link.rxSeq + 1) % 1024 ∧
        t.out = (if (s.pair.link.rxCount + 1) % 16 = 0 then s.out ++ [.flitAck (flitSeq hdr) false] else s.out)) ∧
      (flitKind hdr = 1 → flitSeq hdr ≠ s.pair.link.rxSeq → t.pair.link.rxSeq = s.pair.link.rxSeq ∧
        t.out = (if (flitSeq hdr + 1024 - s.pair.link.rxSeq) % 1024 < 512 then s.out ++ [.flitAck s.pair.link.rxSeq true]
          else s.out)))) ∧
  ∀ (fseq : Nat) (s : State), linkOn s = true →
    (∃ t, exec (.flitAckReceive fseq false) s = .next t ∧ t.out = s.out ∧
      t.pair.link.txKeep = (ackFlits fseq s.pair.link).txKeep ∧
      ∀ pre post, s.pair.link.txKeep = pre ++ fseq :: post → fseq ∉ pre → t.pair.link.txKeep = post) ∧
    ∃ t, exec (.flitAckReceive fseq true) s = .next t ∧
      (fseq ∉ s.pair.link.txKeep → t.out = s.out ∧ t.pair.link.txKeep = s.pair.link.txKeep) ∧
      ∀ pre post, s.pair.link.txKeep = pre ++ fseq :: post → fseq ∉ pre →
        t.out = s.out ++ (fseq :: post).map Output.flitReplay ∧ t.pair.link.txKeep = fseq :: post ∧
        (s.pair.link.training = false → s.pair.link.replayOf = fseq → 7 ≤ s.pair.link.replayN →
          t.pair.link.training = true ∧ t.pair.link.l0 = false ∧ t.pair.link.retrains = sat 0xFFFF (s.pair.link.retrains + 1)) ∧
        (s.pair.link.replayOf ≠ fseq → t.pair.link.training = false ∧ t.pair.link.l0 = true)) ∧
  ((∀ (i : Instr) (s : State), mgmtUp s = true →
    (i = .retrainTimeout ∧ s.pair.link.training = true ∧ s.pair.link.l0At + 2000000 ≤ s.clock) ∨
    (i = .epgLinkDown ∧ linkLive s = true) ∨
    (i = .flitSilenceTimeout ∧ s.pair.link.l0 = true ∧ s.pair.link.lastFlit + 100000 ≤ s.clock) →
    ∃ t, exec i s = .next t ∧ t.pair.link.l0 = false ∧ t.pair.link.up = false ∧ t.pair.link.training = false ∧
      t.pair.link.txKeep = [] ∧ t.pair.link.txSeq = 0 ∧ t.pair.link.rxSeq = 0 ∧ t.pair.claim = s.pair.claim ∧
      (s.pair.link.lossDecl = false → shown t 0xAC0 = true ∧ t.pair.link.losses = sat 0xFFFF (s.pair.link.losses + 1) ∧
        t.pair.mirrored = false) ∧
      (s.pair.link.lossDecl = true → t.events = s.events ∧ t.pair.link.losses = s.pair.link.losses)) ∧
  ∀ s : State, linkOn s = true → s.pair.link.l0 = true → s.pair.link.up = false →
    (s.pair.link.l0At + 1000000000 ≤ s.clock → ∃ t, exec .epgLinkUp s = .next t ∧ t.pair.link.up = true ∧ shown t 0xAC1 = true ∧
      (s.pair.claim.unit = .isolated → t.pair.claim.unit = .standbyJoining ∧ t.pair.mirrored = false ∧ t.pair.iseq = 0) ∧
      (s.pair.claim.unit ≠ .isolated → t.pair.claim = s.pair.claim ∧ t.cache = s.cache ∧ t.ledger = s.ledger)) ∧
    (s.clock < s.pair.link.l0At + 1000000000 → exec .epgLinkUp s = .next s))

/-- O48. The stream on a unit that joins or stands by (R346, R457, R463, R464, R465, R480, R488): buffered in phases 2 and 3,
applied in order otherwise; an ISEQ out of order is not applied; the digest that agrees is confirmed, the one that differs
answers MISMATCH; an old active that sees a frame of the stream steps down. The model's choices it rests on: log 54. -/
def Obligations.StreamFrames : Prop :=
  (∀ (i : Instr) (stamp : Nat) (f : Frame) (s : State), hears s = true →
    ((∃ n w, i = .input stamp n w ∧ f = .input n w) ∨ (∃ r, i = .jrec stamp r ∧ f = .jrec r) ∨
      (∃ k q j d pi, i = .page stamp k q j d pi ∧ f = .page k q j d pi) ∨
      (∃ k q d, i = .dinput stamp k q d ∧ f = .dinput k q d) ∨
      ∃ n j l lc pc js, i = .digest stamp n j l lc pc js ∧ f = .digest stamp n j l lc pc js) →
    (buffers s = true → exec i s = .next { s with pair := { s.pair with
      lastStamp := max s.pair.lastStamp stamp, buffer := s.pair.buffer ++ [(stamp, f)] } }) ∧
    (buffers s = false → applies s = false → s.pair.claim.unit ≠ .active →
      exec i s = .next { s with pair := { s.pair with lastStamp := max s.pair.lastStamp stamp } })) ∧
  (∀ (stamp k q : Nat) (d : List Byte) (s : State), hears s = true → s.pair.claim.unit = .active → s.pair.switch = 3 →
    s.loader.live = none →
    ∃ t, exec (.dinput stamp k q d) s = .next t ∧ t.pair.claim.unit = .standbySynced ∧ t.pair.claim.claim = s.pair.claim.claim ∧
      t.pair.switch = 0 ∧ t.host.stopped = false ∧ shown t 0xACD = true) ∧
  ∀ (stamp : Nat) (s : State), hears s = true → applies s = true → s.loader.live = none →
    (∀ n w, s.pair.iseq ≠ 0 → n ≠ s.pair.iseq + 1 →
      exec (.input stamp n w) s = .next { s with pair := { s.pair with lastStamp := max s.pair.lastStamp stamp } }) ∧
    (∀ n w, s.pair.iseq = 0 ∨ n = s.pair.iseq + 1 → ∃ t, exec (.input stamp n w) s = .next t ∧ t.pair.iseq = n ∧
      t.pair.appliedIseq = n ∧ t.cache.appendQ = s.cache.appendQ ∧
      ∀ l, w = .lost l → s.array.lost.length < 4096 → t.array.lost = insertBy lostLe l s.array.lost) ∧
    (∀ l, (s.pair.ownRecs.find? fun o => o.seq == l.seq) = none → l.type ≠ .slot →
      ∃ t, exec (.jrec stamp (.ledger l)) s = .next t ∧ t.ledger.seq = max s.ledger.seq l.seq ∧
        t.cache.appendQ = s.cache.appendQ ++ [.ledger l] ∧ (l.seq ≤ s.ledger.seq → t.ledger = s.ledger)) ∧
    (∀ r, r.prev = 0 → ∃ t i, exec (.jrec stamp (.intent r)) s = .next t ∧
      (getDesc t r.stripe).intents = (getDesc s r.stripe).intents ++ [i] ∧ i.jseq = r.jseq ∧ i.method = r.method ∧
      i.phase = (if r.method = .open_ then .open_ else .writing) ∧ i.stripMask = r.stripMask ∧
      t.cache.nextJseq = max s.cache.nextJseq (r.jseq + 1)) ∧
    (∀ j key old, parityPending s old = false → (getDesc s key).intents ≠ [] →
      ∃ t, exec (.jrec stamp (.retire j key old)) s = .next t ∧
        ∀ x ∈ (getDesc t key).intents, x.jseq = old → x.phase = .retiring) ∧
    (∀ key q j d pi x, x ∈ (getDesc s key).intents → x.jseq = j → q < survivorMark → d ≠ [] →
      ∃ t y, exec (.page stamp key q j d pi) s = .next t ∧ y ∈ (getDesc t key).intents ∧ y.root = x.root ∧
        tabFind y.blocks q = some { data := d, pi := pi, accepted := s.drone.count }) ∧
    (∀ k q d, exec (.dinput stamp k q d) s = .next { s with pair := { s.pair with
      lastStamp := max s.pair.lastStamp stamp, dins := s.pair.dins ++ [(k, q, d)] } }) ∧
    ∀ n j l, s.pair.dcheck = [] → s.pair.claim.unit = .standbySynced →
      (s.pair.iseq = n → s.pair.digest.jseq = j → s.pair.digest.lseq = l →
        ∃ t, exec (.digest stamp n j l (crc64 s.pair.digest.ledger) (crc64 []) []) s = .next t ∧
          t.pair.ackTick = max s.pair.ackTick stamp ∧ t.pair.claim = s.pair.claim ∧ t.pair.dcheck = []) ∧
      ∀ lc pc, (s.pair.iseq ≠ 0 ∧ s.pair.iseq ≠ n) ∨ (s.pair.digest.lseq ≠ 0 ∧ s.pair.digest.lseq ≠ l) ∨
          crc64 s.pair.digest.ledger ≠ lc ∨ crc64 [] ≠ pc →
        ∃ t, exec (.digest stamp n j l lc pc []) s = .next t ∧ t.pair.claim.unit = .unsynced ∧ shown t 0xACB = true ∧
          .frame stamp (.mismatch stamp) ∈ t.out ∧ t.cache.stripes = [] ∧ t.pair.phase = 0

/-- O49. Joining, resync and drops (R83, R463, R465, R478, R479, R480, R488): HELLO and the join check on both sides, base
content, the ACK that completes resync, MISMATCH, DROP and the timeouts that drop a partner, HANDOVER and LIVE_IMG. The
model's choices it rests on: log 51, 54, 77. A clause that a command changes nothing where its condition fails is log 7. -/
def Obligations.JoinResyncAndDrops : Prop :=
  (∀ (pid die claim : Word) (unit : UnitState) (digests : List Word) (lseq : Nat) (s : State), hears s = true → pairEn s = true →
    (die = s.dieId → exec (.hello pid die unit claim digests lseq) s = .next s) ∧
    (die ≠ s.dieId → s.pair.claim.unit = .active → s.pair.mirrored = false → s.pair.phase = 0 → s.pair.switch ≠ 3 →
      ∃ t, exec (.hello pid die unit claim digests lseq) s = .next t ∧ t.pair.peerUnit = unit ∧ t.pair.claim = s.pair.claim ∧
        claim.toNat ≤ t.pair.high.toNat ∧
        (joinCheck pid digests unit s = 0 → t.pair.phase = 1 ∧ t.pair.joinSeq = lseq ∧ t.events = s.events) ∧
        (joinCheck pid digests unit s ≠ 0 → t.pair.phase = 0 ∧ t.pair.joinWhy = joinCheck pid digests unit s ∧ shown t 0xAC9 = true)) ∧
    (die ≠ s.dieId → s.pair.claim.unit = .standbyJoining → s.pair.phase = 0 → s.pair.take = none → s.pair.powerOwn = false →
      joinCheck pid digests .standbyJoining s = 0 →
      ∃ t, exec (.hello pid die .active claim digests lseq) s = .next t ∧ t.pair.claim.unit = .unsynced ∧
        t.pair.claim.claim = claim ∧ t.pair.phase = 2 ∧ t.pair.buffer = [] ∧ t.cache.stripes = [] ∧ t.cache.ring = [])) ∧
  (∀ s : State, hears s = true → buffers s = true →
    (∀ l : LRec, l.seq ≤ s.ledger.seq → exec (.base (.base (.ledger l))) s = .next s) ∧
    (∀ r : IntentRec, ∃ t, exec (.base (.base (.intent r))) s = .next t ∧ t.pair.manifest = s.pair.manifest ++ [(r.jseq, r.jseq)] ∧
      r.jseq ≤ t.cache.durJseq) ∧
    (∀ key q j d pi, ∃ t, exec (.base (.basePage key q j d pi)) s = .next t ∧ t.pair.phase = 3 ∧
      ∀ x ∈ (getDesc s key).intents, x.jseq = j → q < survivorMark → d ≠ [] →
        ∃ y ∈ (getDesc t key).intents, y.root = x.root ∧
          tabFind y.blocks q = some { data := d, pi := pi, accepted := s.drone.count }) ∧
    (s.pair.buffer = [] → ∃ t, exec .baseDone s = .next t ∧ t.pair.phase = 4 ∧ t.pair.manifest = [] ∧
      t.cache.vault.restore = .ended ∧ t.ledger = s.ledger ∧ t.pair.claim = s.pair.claim)) ∧
  (∀ s : State, hears s = true → s.pair.claim.unit = .active → s.pair.mirrored = true →
    (∀ jseq tick iseq, ∃ t, exec (.ack jseq tick iseq) s = .next t ∧ t.pair.ackJseq = max s.pair.ackJseq jseq ∧
      t.pair.ackTick = max s.pair.ackTick tick ∧ t.pair.ackIseq = max s.pair.ackIseq iseq ∧ t.pair.ackAt = s.clock ∧
      (s.pair.phase = 4 → s.pair.ackTick < tick → s.pair.lastStamp ≤ tick + 256 →
        t.pair.phase = 5 ∧ t.pair.partner = 3 ∧ shown t 0xACA = true) ∧
      (s.pair.phase ≠ 4 → t.pair.phase = s.pair.phase ∧ t.events = s.events)) ∧
    (∀ tick, tick ≤ s.drone.count → ∃ t, exec (.mismatch tick) s = .next t ∧ t.pair.mirrored = false ∧ t.pair.phase = 0 ∧
      s.clock ∈ t.pair.mismatch ∧ t.cache = s.cache ∧ t.ledger = s.ledger ∧ t.pair.claim = s.pair.claim)) ∧
  (∀ s : State, hears s = true → s.pair.claim.unit = .standbySynced →
    (∃ t, exec .drop s = .next t ∧ t.pair.claim.unit = .unsynced ∧ t.pair.phase = 0 ∧ t.cache.stripes = [] ∧ t.ledger.seq = 0) ∧
    ∀ tick, exec (.handover tick) s = .next { s with pair := { s.pair with handover := some tick } }) ∧
  (∀ (id : Word) (target : Nat) (r : LiveReq) (s : State), hears s = true → s.loader.live = some r → r.image.imgId = id →
    (s.pair.claim.unit = .active → r.target = none → ∃ t, exec (.liveImg id target) s = .next t ∧
      t.loader.live = some { r with partnerOk := true, target := some (s.drone.count + 256) } ∧
      t.out = s.out ++ [.frame s.drone.count (.liveImg id (s.drone.count + 256))]) ∧
    (s.pair.claim.unit = .standbySynced → target ≠ 0 → exec (.liveImg id target) s = .next { s with loader := { s.loader with
      partnerImg := some id, live := some { r with partnerOk := true, target := some target } } })) ∧
  ∀ (i : Instr) (s : State), serving s = true → s.pair.claim.unit = .active → s.pair.mirrored = true →
    ((i = .digestUnconfirmedDrop ∧ s.pair.phase = 5 ∧ s.pair.ackTick + 1 + 16384 ≤ s.drone.count) ∨
      (i = .ackTimeoutDrop ∧ s.pair.link.up = true ∧ s.pair.ackAt + 1000000 ≤ s.clock)) →
    ∃ t, exec i s = .next t ∧ t.pair.mirrored = false ∧ t.pair.phase = 0 ∧ shown t 0xACC = true ∧
      t.out = s.out ++ [.frame s.drone.count .drop] ∧ t.cache = s.cache ∧ t.ledger = s.ledger ∧ t.pair.claim = s.pair.claim

/-- O50. Relay posts (R461, R469, R470, R471, R472, R484): a round takes the next POST_GEN with LOCAL as the partner is not
mirrored; durable on a majority it lets completions go on; 40 ms without one hold them; a read takes of each post's two
blocks the valid one with the higher POST_GEN, and an advance after a link loss splits a standby off. The model's choices it
rests on: log 55, 58. A clause that a command changes nothing where its condition fails is log 7. -/
def Obligations.RelayPosts : Prop :=
  (∀ s : State, roundDue s = true → ∃ t r, exec .relayPostRound s = .next t ∧ t.pair.postGen = s.pair.postGen + 1 ∧
    t.pair.roundAt = s.clock ∧ r ∈ t.pair.rounds ∧ r.gen = s.pair.postGen + 1 ∧ r.loc = !s.pair.mirrored ∧ r.issued = s.clock ∧
    r.done = 0 ∧ (∃ p ∈ t.jobs, p.2.purpose = .post (s.pair.postGen + 1)) ∧ t.pair.claim = s.pair.claim ∧ t.cache = s.cache) ∧
  (∀ (r : Round) (s : State), serving s = true → s.pair.claim.unit = .active →
    (s.pair.rounds.find? fun r => !r.noted && decide (postMajority s ≤ r.done)) = some r →
    ∃ t, exec .postRoundDurable s = .next t ∧ t.pair.durableAt = max s.pair.durableAt r.issued ∧ t.pair.fenceHold = false ∧
      t.pair.loc = (r.loc && !s.pair.halt && !s.pair.mirrored) ∧ (∀ x ∈ t.pair.rounds, x.gen = r.gen → x.noted = true) ∧
      (t.pair.loc = true → s.pair.loc = false → shown t 0xAC3 = true)) ∧
  (∀ s : State, serving s = true →
    (s.sampled.claim.unit = .active → s.pair.durableAt + 40000000 ≤ s.clock →
      exec .completionFenceHold s = .next { s with pair := { s.pair with fenceHold := true } }) ∧
    (s.clock < s.pair.durableAt + 40000000 → exec .completionFenceHold s = .next s)) ∧
  (∀ s : State, readDue s = true → ∃ t, exec .postRead s = .next t ∧ t.pair = { s.pair with postReadAt := s.clock } ∧
    t.jobs = s.jobs ∧ t.cache = s.cache ∧ t.out = s.out) ∧
  ∀ (blocks : List (List Byte)) (s : State), serving s = true → pairEn s = true → fenceHolder s = false →
    s.pair.take = none →
    (s.pair.link.lossDecl = false → ∃ t, exec (.postReadResult blocks) s = .next t ∧ t.pair.claim = s.pair.claim ∧
      t.pair.readAt = s.clock ∧
      ∀ n bs, n < (postSlots s).length → n < 7 → blocks[n]? = some bs →
        (postValue s bs = none → (nth Post.reset t.pair.posts n).valid = false) ∧
        ∀ v, postValue s bs = some v → v.claim.toNat ≤ t.pair.high.toNat ∧
          (nth Post.reset t.pair.posts n).valid = true ∧ (nth Post.reset t.pair.posts n).gen = v.gen ∧
          (nth Post.reset t.pair.posts n).loc = v.loc ∧ (nth Post.reset t.pair.posts n).claim = v.claim) ∧
    ∀ n b bs v, s.pair.link.lossDecl = true → s.pair.claim.unit = .standbySynced → n < (postSlots s).length → n < 7 →
      (nth Post.reset s.pair.posts n).base = some b → blocks[n]? = some bs → postValue s bs = some v →
      b < v.gen → ∃ t, exec (.postReadResult blocks) s = .next t ∧ t.pair.claim.unit = .isolated ∧ shown t 0xAC2 = true ∧ t.cache.stripes = []

/-- O51. Takeover and claims (R466, R467, R475, R476, R482, R483, R485, R486, R488): a takeover and every other claim writes
H + 1 first; with every drive acquired the unit is ACTIVE (a salvage restores first); an unsynced unit only reports the lost
active; at power-up the majority of reservation reports decides. The model's choices it rests on: log 52, 53. A clause that a
command changes nothing where its condition fails is log 7. -/
def Obligations.TakeoverAndClaims : Prop :=
  (∀ s : State, serving s = true → mayTakeOver s = true →
    ∃ t k, exec .epgTakeover s = .next t ∧ t.pair.claim.claim = s.pair.high + 1 ∧ t.pair.claim.unit = .standbySynced ∧
      t.pair.take = some k ∧ k.why = .takeover ∧ k.got = [] ∧ shown t 0xAC5 = true) ∧
  (∀ s : State, serving s = true → mayTakeOver s = false → exec .epgTakeover s = .next s) ∧
  (∀ (k : Take) (s : State), serving s = true → s.pair.take = some k → k.left = [] → takeBusy s = false → k.reread = false →
    k.failed = [] →
    (k.why = .takeover → ∃ t, exec .claimAcquired s = .next t ∧ t.pair.claim.unit = .active ∧
      t.pair.claim.claim = s.pair.claim.claim ∧ t.pair.take = none ∧ t.pair.mirrored = false ∧ t.array.scrub.isSome = true) ∧
    (k.why = .switchBack → ∃ t, exec .claimAcquired s = .next t ∧ t.pair.claim.unit = .active ∧
      t.pair.claim.claim = s.pair.claim.claim ∧ t.pair.take = none ∧ t.pair.mirrored = s.pair.link.up ∧ shown t 0xACD = true) ∧
    (k.why = .form → ∃ t, exec .claimAcquired s = .next t ∧ t.pair.claim.unit = .active ∧
      t.pair.claim.claim = s.pair.claim.claim ∧ t.pair.take = none ∧ t.pair.result = 7) ∧
    (k.why = .salvage → ∃ t, exec .claimAcquired s = .next t ∧ t.pair.claim = s.pair.claim ∧ t.pair.take = none ∧
      t.cache.vault.restore = .waiting)) ∧
  (∀ (n : Nat) (s : State), serving s = true → neverTakes s = true → s.pair.lostRaised = false → s.pair.stallFrom = some n →
    n + 50000000 ≤ s.pair.readAt →
    ∃ t, exec .activeLostUnsynced s = .next t ∧ t.pair = { s.pair with lostRaised := true } ∧ shown t 0xAC7 = true) ∧
  ∀ (rs : List (Option Holder)) (s : State), serving s = true →
    s.pair.claim.unit = .standbyJoining → s.pair.claim.claim = 0 → s.pair.powerOwn = false → s.pair.noHolder = false →
    rs.length = (postSlots s).length →
    (∀ h, reportMajority rs = some (some h) → ∃ t, exec (.powerupReservation rs) s = .next t ∧
      t.pair.claim.claim = h.key ∧ t.pair.claim.unit = .standbyJoining ∧
      t.pair.powerOwn = decide ((h.pair, h.die) = hostIdentifier s) ∧ t.pair.noHolder = false) ∧
    (reportMajority rs = some none → ∃ t, exec (.powerupReservation rs) s = .next t ∧ t.pair.noHolder = true ∧
      t.pair.claim = s.pair.claim ∧ shown t 0xACE = true) ∧
    (reportMajority rs = none → exec (.powerupReservation rs) s = .next s)

/-- O52. Pair orders and switch-back (R27, R278, R462, R477, R479, R486, R487, R488, R490): each order is accepted or refused
with its RESULT; a salvage whose write of EPG_CLAIM meets the pair sequencer's own raises EPG_CLAIM_RACE, which is the
model's free value (log entry 78); a switch-back whose intake has stopped quiesces; a volume is cleared of READ_ONLY by the
fence holder. The model's choices it rests on: log 20, 51, 56, 57, 78. A clause that a command changes nothing where its
condition fails is log 7. -/
def Obligations.PairOrders : Prop :=
  (∀ (f : Nat) (s : State), pfFull s f = true →
    (exec (.join f) s = .next (if s.pair.claim.unit = .solo then { s with pair := { s.pair with last := 1, result := 2 } }
      else { s with pair := { s.pair with last := 1, result := 0, joinOrder := true } })) ∧
    (neverTakes s = false ∨ s.pair.take ≠ none → exec (.salvage f) s = .next { s with pair := { s.pair with last := 2, result := 2 } }) ∧
    (neverTakes s = true → s.pair.take = none → s.pair.link.up = true → s.pair.peerUnit = .active →
      exec (.salvage f) s = .next { s with pair := { s.pair with last := 2, result := 3 } }) ∧
    (neverTakes s = true → s.pair.take = none → s.pair.link.up = false ∨ s.pair.peerUnit ≠ .active →
      ∃ t k, exec (.salvage f) s = .next t ∧ t.pair.claim.unit = .salvage ∧ t.pair.claim.claim = s.pair.high + 1 ∧
        t.pair.take = some k ∧ k.why = .salvage ∧ t.pair.result = 1 ∧ t.cache.vault.restore = .waiting ∧
        (bit (drawFree s).1 0 = true → shown t 0xACF = true)) ∧
    (s.pair.claim.unit ≠ .active ∨ s.pair.switch ≠ 0 →
      exec (.switchBack f) s = .next { s with pair := { s.pair with last := 3, result := 2 } }) ∧
    (s.pair.claim.unit = .active → s.pair.switch = 0 →
      (s.pair.link.up = true → s.pair.mirrored = true → s.pair.peerUnit = .standbySynced →
        exec (.switchBack f) s = .next { s with
          pair := { s.pair with last := 3, result := 1, switch := 1, switchAt := s.clock } }) ∧
      (s.pair.link.up = false ∨ s.pair.mirrored = false ∨ s.pair.peerUnit ≠ .standbySynced →
        exec (.switchBack f) s = .next { s with pair := { s.pair with last := 3, result := 4 } })) ∧
    (s.pair.claim.unit ≠ .standbyJoining ∨ s.pair.noHolder = false ∨ s.pair.take ≠ none →
      exec (.form f) s = .next { s with pair := { s.pair with last := 4, result := 2 } }) ∧
    (s.pair.claim.unit = .standbyJoining → s.pair.noHolder = true → s.pair.take = none →
      ∃ t k, exec (.form f) s = .next t ∧ t.pair.claim.claim = s.pair.high + 1 ∧ t.pair.take = some k ∧ k.why = .form ∧
        t.pair.result = 1 ∧ t.pair.last = 4) ∧
    (∀ value, reservedSet (epgMask 0x28) value = false → exec (.epgPolicyWrite f value) s = .next { s with pair := { s.pair with halt := bit value 0 } }) ∧
    ∀ value, reservedSet (epgMask 0x48) value = false → bit value 16 = true →
      (∀ v, getVol s (bits value 0 16) = some v → v.state = .readOnly → fenceHolder s = true →
        ∃ t, exec (.epgVolClearGo f value) s = .next t ∧ t.pair.volClear = bits value 0 16 ∧ t.ledger.seq = s.ledger.seq + 1 ∧
          t.pair.iseq = s.pair.iseq + 1 ∧
          t.cache.appendQ = s.cache.appendQ ++ [.ledger {
            seq := s.ledger.seq + 1, type := .volume, volume := bits value 0 16, key := 0,
            payload := volBytes (some { v with state := .online }) }]) ∧
      (getVol s (bits value 0 16) = none ∨ (∃ v, getVol s (bits value 0 16) = some v ∧ v.state ≠ .readOnly) ∨
          fenceHolder s = false →
        ∃ t, exec (.epgVolClearGo f value) s = .next t ∧ t.pair.volRefused = true ∧ t.ledger = s.ledger ∧ t.cache = s.cache)) ∧
  ∀ s : State, serving s = true →
    (s.pair.switch = 1 → s.host.stopped = true →
      (∀ p ∈ s.host.rings, p.2.owed = 0) ∨ s.pair.switchAt + 100000000 ≤ s.clock →
      ∃ t, exec .switchBackQuiesce s = .next t ∧ t.pair.switch = 2 ∧
        t.pair.handover = some s.drone.count ∧ t.pair.claim = s.pair.claim ∧
        ∀ k, (tabFind s.ledger.migs k).isSome = true → (getEntry s k).placed = true → (getEntry t k).moving = false) ∧
    (s.pair.switch = 1 → s.host.stopped = false ∨
        ((∃ p ∈ s.host.rings, p.2.owed ≠ 0) ∧ s.clock < s.pair.switchAt + 100000000) →
      exec .switchBackQuiesce s = .next s)

/-- O53. R489: an old active that has not been preempted 1 s after HANDOVER stays holder and ACTIVE, sets RESULT = 6 and
reopens its intake; the order is lost and nothing else changes. -/
def Obligations.SwitchBackLapses : Prop :=
  ∀ s : State, serving s = true → s.pair.claim.unit = .active → s.pair.switch = 3 →
    (s.pair.switchAt + 1000000000 ≤ s.clock → exec .switchBackLapse s = .next { s with
      pair := { s.pair with switch := 0, result := 6, handover := none }
      host := { s.host with stopped := false } }) ∧
    (s.clock < s.pair.switchAt + 1000000000 → exec .switchBackLapse s = .next s)

/-- O54. Patrols, errors and measurements (R492, R494, R495, R496, R497, R498, R499, R501, R503, R504, R517): what each
finding counts, repairs, retires and raises. The model's choices it rests on: log 59, 60. -/
def Obligations.PatrolsAndMeasurements : Prop :=
  (∀ (found : List SramFind) (s : State), testsOn s = true → (∀ x ∈ found, x.ue = []) →
    ∃ t, exec (.sramPatrol found) s = .next t ∧
      t.health.sramCe = s.health.sramCe + sumBy (fun x : SramFind => x.rows.length) found ∧
      t.health.sramUe = s.health.sramUe ∧ t.cache = s.cache ∧ t.jobs = s.jobs) ∧
  (∀ (g r : Nat) (s : State), testsOn s = true → (tabGet [] s.health.ceRows g).contains r = true →
    (tabGet 0 s.health.sramRows g < 32 →
      ∃ t, exec (.sramPatrol [{ group := g, rows := [r], cols := [], ue := [] }]) s = .next t ∧
        tabGet 0 t.health.sramRows g = tabGet 0 s.health.sramRows g + 1 ∧
        tabGet 0 t.flash.health.sramRows g = tabGet 0 s.health.sramRows g + 1 ∧ shown t 0xC01 = true) ∧
    (32 ≤ tabGet 0 s.health.sramRows g → s.health.why.getLsbD 0 = false →
      ∃ t, exec (.sramPatrol [{ group := g, rows := [r], cols := [], ue := [] }]) s = .next t ∧
        t.health.why.getLsbD 0 = true ∧ t.pins.replaceN = false ∧ shown t 0xC00 = true)) ∧
  (∀ (pc : Nat) (rows : List Nat) (done : Bool) (s : State), testsOn s = true → pc < 64 →
    ∃ t, exec (.hbmPatrol pc rows [] done) s = .next t ∧ t.health.hbmCe = s.health.hbmCe + rows.length ∧
      t.health.hbmPasses = (if done = true then s.health.hbmPasses + 1 else s.health.hbmPasses) ∧
      (32 < distinct rows → t.health.pcRetire.getLsbD pc = true ∧ (s.health.pcRetire.getLsbD pc = false → shown t 0xC04 = true)) ∧
      ∀ x, s.health.pcRetire.getLsbD x = true → t.health.pcRetire.getLsbD x = true) ∧
  (∀ (place : Nat) (loc : EccLoc) (s : State), mgmtUp s = true →
    ∃ t, exec (.eccUncorrectable place loc) s = .next t ∧
      (loc.inHbm = true → shown t 0xC03 = true ∧ t.health.hbmUe = s.health.hbmUe + 1 ∧ t.health.sramUe = s.health.sramUe ∧
        t.health.pcRetire.getLsbD (place % 64) = true) ∧
      (loc.inHbm = false → shown t 0xC02 = true ∧ t.health.sramUe = s.health.sramUe + 1 ∧ t.health.hbmUe = s.health.hbmUe) ∧
      (loc = .fatalSram ∨ loc = .fatalHbm → t.health.stop = true ∧ t.health.why.getLsbD 4 = (s.health.why.getLsbD 4 || !s.health.stop) ∧
        (s.health.stop = false → shown t 0xC08 = true)) ∧
      (loc = .cleanPage → t.cache = s.cache ∧ t.ledger = s.ledger ∧ t.array = s.array)) ∧
  (∀ (ms : List Nat) (s : State), mgmtUp s = true →
    ∃ t, exec (.agingMeasure ms) s = .next t ∧ t.health.aging = (List.range 64).map (nth 1000 ms) ∧
      (∀ m, m < 64 → nth 1000 ms m ≤ 250 → 2 ≤ nth 0 s.health.agingLow m → t.health.why.getLsbD 1 = true) ∧
      (∀ m, m < 64 → nth 1000 ms m ≤ 400 → m ∉ s.health.agingSeen → shown t 0xC05 = true ∧ m ∈ t.health.agingSeen) ∧
      ((∀ m, m < 64 → 400 < nth 1000 ms m) → t.events = s.events ∧ t.health.why = s.health.why)) ∧
  (∀ (g pct : Nat) (s : State), testsOn s = true →
    ∃ t, exec (.phyMarginMeasure g pct) s = .next t ∧ t.health.phySweeps = s.health.phySweeps + 1 ∧
      (g < s.health.phy.length → t.health.phy[g]? = some (sat 254 pct)) ∧
      (120 ≤ pct → t.events = s.events ∧ t.health.why = s.health.why) ∧
      (pct < 120 → shown t 0xC06 = true) ∧
      (pct < 120 → 2 ≤ g → g < 14 → t.health.cluCap.getLsbD (g - 2) = true ∧
        (s.health.cluCap.getLsbD (g - 2) = false → shown t 0xC07 = true ∧ t.health.dseq = s.health.dseq + 1)) ∧
      (pct < 120 → g < 2 ∨ g = 14 → t.health.why.getLsbD 3 = true ∧ t.health.cluCap = s.health.cluCap)) ∧
  ∀ (f : Nat) (s : State), pfSeen s f = true →
    exec (.hltSnapWrite f) s = .next { s with health := { s.health with report := reportBody s ++ leBytes 8 (crc64 (reportBody s)).toNat } }

/-- O55. Trial modes (R25, R511, R515, R519, R520): a request is armed, from the next edge's sampling on, or refused with its
first reason, what is armed stays until it is disarmed or its count is reached, and each end leaves its cause. The model's
choices it rests on: log 61. A clause that a command changes nothing where its condition fails is log 7. -/
def Obligations.TrialsArmAndEnd : Prop :=
  (∀ (f : Nat) (s : State), pfSeen s f = true →
    (trialRefuse s (parseTrial s.trials.req.toNat) = 0 → ∃ t, exec (.trlArmRequest f) s = .next t ∧
      t.trials.arm = some (parseTrial s.trials.req.toNat) ∧ t.trials.seq = s.trials.seq + 1 ∧ t.trials.link = 0 ∧
      t.trials.reed = 0 ∧ t.trials.announced = false ∧ t.sampled = s.sampled ∧ t.events = s.events) ∧
    (∀ k, 1 ≤ k → k ≤ 7 → trialRefuse s (parseTrial s.trials.req.toNat) = k → ∃ t, exec (.trlArmRequest f) s = .next t ∧
      t.trials.arm = s.trials.arm ∧ t.trials.refuse = k ∧ shown t 0xF02 = true) ∧
    (∀ im, s.image = some im → im.tria.allowReed = false → (parseTrial s.trials.req.toNat).reed = true → ∃ t, exec (.trlArmRequest f) s = .next t ∧
      t.trials.refuse = 1 ∧ t.trials.arm = s.trials.arm) ∧
    (s.trials.arm.isSome = true → ∃ t, exec (.trlDisarm f) s = .next t ∧ t.trials.arm = none ∧
      t.trials.seq = s.trials.seq + 1 ∧ t.trials.why = 1 ∧ t.trials.link = s.trials.link ∧ t.trials.reed = s.trials.reed ∧
      shown t 0xF01 = true) ∧
    (s.trials.arm = none → exec (.trlDisarm f) s = .next s)) ∧
  ∀ (k : Trial) (s : State), mgmtUp s = true → s.trials.arm = some k →
    (k.count ≤ s.trials.link + s.trials.reed → ∃ t, exec .trlCountDone s = .next t ∧ t.trials.arm = none ∧ t.trials.why = 2 ∧
      shown t 0xF01 = true ∧ shown t 0xF03 = true) ∧
    (s.trials.link + s.trials.reed < k.count → exec .trlCountDone s = .next s)

/-- O56. The window (R521, R522, R523, R525, R526, R527, R542): writes and reads of MGW_DATA, claims and their end;
WIN_WRITE, WIN_READ and WIN_CTL do the same and answer. A word of the DIAG log is free (log 2). The model's choices it rests
on: log 46, 82. -/
def Obligations.WindowAndClaims : Prop :=
  (∀ (c : Nat) (w : BitVec 32) (s : State), ctxOpen s c = true → c < s.mgmt.ctxs.length →
    ∃ t, exec (.mgwDataWrite c w) s = .next t ∧ (getCtx t c).offset = min ((getCtx s c).offset + 4) 0xFFFFFC ∧
      (getCtx t c).lastUse = s.clock ∧ (∀ d, d ≠ c → getCtx t d = getCtx s d) ∧
      ((getCtx s c).claim ≠ some (getCtx s c).target ∨ targetSize (getCtx s c).target ≤ (getCtx s c).offset ∨
          4 < (getCtx s c).target → (getCtx t c).overrun = true ∧ t.mgmt = { s.mgmt with ctxs := t.mgmt.ctxs }) ∧
      ((getCtx s c).claim = some (getCtx s c).target → (getCtx s c).offset < targetSize (getCtx s c).target →
        (getCtx s c).target = 1 → (getCtx t c).overrun = (getCtx s c).overrun ∧
          t.mgmt.image = takePad (getCtx s c).offset s.mgmt.image ++ leBytes 4 w.toNat ++ s.mgmt.image.drop ((getCtx s c).offset + 4) ∧
          ((getCtx s c).runOpen = true → (getCtx s c).offset = (getCtx s c).written →
            (getCtx t c).written = (getCtx s c).written + 4))) ∧
  (∀ (c : Nat) (s : State), ctxOpen s c = true → c < s.mgmt.ctxs.length →
    (∃ t, exec (.mgwDataRead c) s = .next t ∧ (getCtx t c).offset = min ((getCtx s c).offset + 4) 0xFFFFFC ∧
      t.mgmt = { s.mgmt with ctxs := t.mgmt.ctxs } ∧
      (targetSize (getCtx s c).target ≤ (getCtx s c).offset → (getCtx t c).reply = [0, 0, 0, 0] ∧ (getCtx t c).overrun = true) ∧
      ((getCtx s c).offset < targetSize (getCtx s c).target → (getCtx s c).target ≠ 7 →
        (getCtx t c).reply = leBytes 4 (field (targetBytes s c (getCtx s c).target) (getCtx s c).offset 4) ∧ t.free = s.free) ∧
      ((getCtx s c).offset < targetSize (getCtx s c).target → (getCtx s c).target = 7 →
        t.free = s.free + 1 ∧ (getCtx t c).reply.length = 4)) ∧
    (∃ t, exec (.mgwClaim c) s = .next t ∧ t.mgmt = { s.mgmt with ctxs := t.mgmt.ctxs } ∧
      (targetSize (getCtx s c).target ≠ 0 → targetHeld s c (getCtx s c).target = false →
        (getCtx t c).claim = some (getCtx s c).target ∧ (getCtx t c).written = 0 ∧ (getCtx t c).runOpen = true) ∧
      (targetSize (getCtx s c).target ≠ 0 → targetHeld s c (getCtx s c).target = true →
        (getCtx t c).claim = (getCtx s c).claim ∧ (getCtx t c).result = 3)) ∧
    ∃ t, exec (.mgwRelease c) s = .next t ∧ t.mgmt = { s.mgmt with ctxs := t.mgmt.ctxs } ∧ (getCtx t c).claim = none ∧
      ∀ d, d ≠ c → getCtx t d = getCtx s d) ∧
  (∀ (c : Nat) (s : State), mgmtUp s = true → c < s.mgmt.ctxs.length → claimLapsed s c = true →
    ∃ t, exec (.mgwClaimBroken c) s = .next t ∧ (getCtx t c).claim = none ∧ (getCtx t c).claimLost = true ∧
      shown t 0xE0A = true ∧ t.mgmt = { s.mgmt with ctxs := t.mgmt.ctxs }) ∧
  (∀ (c n : Nat) (addr : Word) (ws : List (BitVec 32)) (s : State), ctxOpen s c = true → c < s.mgmt.ctxs.length →
    (ws.length = 0 ∨ 12 < ws.length → ∃ t, exec (.winWrite c addr ws) s = .next t ∧ t.out = s.out ++ [.mctp c 1 []] ∧
      t.mgmt = { s.mgmt with ctxs := t.mgmt.ctxs }) ∧
    (0 < ws.length → ws.length ≤ 12 → ∃ t, exec (.winWrite c addr ws) s = .next t ∧ t.out = s.out ++ [.mctp c 0 []] ∧
      (getCtx t c).target = bits addr 32 4) ∧
    (n = 0 ∨ 12 < n → ∃ t, exec (.winRead c addr n) s = .next t ∧ t.out = s.out ++ [.mctp c 1 []]) ∧
    (0 < n → n ≤ 12 → ∃ t bs, exec (.winRead c addr n) s = .next t ∧ t.out = s.out ++ [.mctp c 0 bs] ∧ bs.length = 4 * n ∧
      (getCtx t c).reply = bs ∧ (getCtx t c).target = bits addr 32 4)) ∧
  ∀ (c : Nat) (w : Word) (s : State), ctxOpen s c = true → c < s.mgmt.ctxs.length →
    ∃ t bs, exec (.winCtl c w) s = .next t ∧ .mctp c 0 bs ∈ t.out ∧ bs.length = 8 ∧ (getCtx t c).reply = bs ∧
      (bits w 0 9 = 0 → bit w 9 = true → (getCtx t c).claim = none)

/-- O57. Management commands (R74, R78, R81, R441, R442, R504, R528, R529, R533, R534, R538, R539): a command is discarded
while BUSY, turned away with its result, or begun; and what each does when it begins. The model's choices it rests on: log
27, 46, 82. -/
def Obligations.ManagementCommands : Prop :=
  (∀ (i : Instr) (c cmd : Nat) (s : State), ctxOpen s c = true → c < s.mgmt.ctxs.length →
    ((i = .load c ∧ cmd = 1) ∨ (i = .loadLive c ∧ cmd = 2) ∨ (i = .imgToFlash c ∧ cmd = 3) ∨ (i = .fwUpdate c ∧ cmd = 4) ∨
      (i = .hemSave c ∧ cmd = 5) ∨ (i = .hemRestore c ∧ cmd = 6) ∨ (i = .keyOrder c ∧ cmd = 7) ∨ (i = .healthSnap c ∧ cmd = 8)) →
    ((getCtx s c).busy = true → ∃ t, exec i s = .next t ∧ t.mgmt = { s.mgmt with ctxs := t.mgmt.ctxs } ∧
      getCtx t c = { getCtx s c with lastUse := s.clock } ∧ t.events = s.events) ∧
    ((getCtx s c).busy = false → (s.mgmt.recovery = true ∧ cmd ≠ 4 ∧ cmd ≠ 8 →
      ∃ t, exec i s = .next t ∧ (getCtx t c).result = 8 ∧ (getCtx t c).busy = false ∧ shown t 0xE00 = true)) ∧
    ((getCtx s c).busy = false → s.mgmt.recovery = false → cmd ≠ 8 → (getCtx s c).claim ≠ cmdTargetOf cmd →
      ∃ t, exec i s = .next t ∧ (getCtx t c).result = 2 ∧ (getCtx t c).lastCmd = cmd ∧ shown t 0xE00 = true ∧
        t.flash = s.flash ∧ t.loader = s.loader)) ∧
  (∀ (c : Nat) (s : State), ctxOpen s c = true → c < s.mgmt.ctxs.length → (getCtx s c).busy = false →
    (cmdRefused s c 1 = 0 → liveBusy s = false → loaderFree s = true → ∃ t, exec (.load c) s = .next t ∧ t.loader.state = .fetch ∧
      t.loader.copy = 2 ∧ (getCtx t c).busy = true ∧ (getCtx t c).result = 1 ∧
      t.loader.job = some { copy := 2, ctx := some c, bytes := s.mgmt.image, written := some (getCtx s c).written }) ∧
    (cmdRefused s c 2 = 0 →
      (liveBusy s = false → s.loader.state = .running → ∃ t, exec (.loadLive c) s = .next t ∧ t.loader.lstate = .verifying ∧
        (getCtx t c).busy = true ∧ t.loader.liveJob.isSome = true) ∧
      (liveBusy s = true ∨ s.loader.state ≠ .running → ∃ t, exec (.loadLive c) s = .next t ∧ (getCtx t c).result = 4 ∧
        t.loader.lreason = 0x11 ∧ shown t 0xE04 = true)) ∧
    (cmdRefused s c 3 = 0 → s.mgmt.flashQ = [] →
      (imageRefusal s.mgmt.keys (some (getCtx s c).written) s.mgmt.image = none → ∃ t, exec (.imgToFlash c) s = .next t ∧
        (getCtx t c).busy = true ∧ t.mgmt.flashQ = [{
          ctx := c, cmd := 3, copy := if (getCtx s c).copy then 1 else 0, bytes := takePad (field s.mgmt.image 0x18 4) s.mgmt.image }]) ∧
      ∀ e, imageRefusal s.mgmt.keys (some (getCtx s c).written) s.mgmt.image = some e → ∃ t, exec (.imgToFlash c) s = .next t ∧
        (getCtx t c).result = 4 ∧ t.loader.reason = e.reason ∧ shown t 0xE01 = true ∧ t.flash = s.flash) ∧
    (cmdRefused s c 4 = 0 → s.mgmt.flashQ = [] →
      (fwCheck s.mgmt.keys s.mgmt.svnMin (some (getCtx s c).written) s.mgmt.firmware = 0 → ∃ t, exec (.fwUpdate c) s = .next t ∧
        (getCtx t c).busy = true ∧ t.mgmt.flashQ ≠ []) ∧
      ∀ r, r ≠ 0 → fwCheck s.mgmt.keys s.mgmt.svnMin (some (getCtx s c).written) s.mgmt.firmware = r →
        ∃ t, exec (.fwUpdate c) s = .next t ∧ (getCtx t c).result = r ∧ shown t 0xE06 = true ∧ t.flash = s.flash) ∧
    (∀ im, s.image = some im → cmdRefused s c 5 = 0 → ∃ t, exec (.hemSave c) s = .next t ∧ (getCtx t c).result = 0 ∧
      (getCtx t c).claim = none ∧ t.mgmt.hem = hemRecord s.clock im.hemd s.hem ∧ shown t 0xE00 = true) ∧
    (∀ im, s.image = some im → cmdRefused s c 6 = 0 →
      (recordCheck im.hemd s.hem s.mgmt.hem = 1 → ∃ t, exec (.hemRestore c) s = .next t ∧ (getCtx t c).result = 0 ∧
        t.hem.restored = true ∧ t.hem.restoreRes = 1 ∧ shown t 0xAE7 = true) ∧
      (recordCheck im.hemd s.hem s.mgmt.hem ≠ 1 → ∃ t, exec (.hemRestore c) s = .next t ∧ (getCtx t c).result = 9 ∧
        t.hem.restoreRes = recordCheck im.hemd s.hem s.mgmt.hem ∧ t.hem.bank = s.hem.bank ∧ shown t 0xAE8 = true)) ∧
    (cmdRefused s c 7 = 0 →
      (orderWhy s s.mgmt.order = 0 → ∃ t, exec (.keyOrder c) s = .next t ∧ (getCtx t c).busy = true ∧
        t.mgmt.fusing = some (fusingOf c s.mgmt.order) ∧ t.mgmt.keys = s.mgmt.keys) ∧
      (orderWhy s s.mgmt.order ≠ 0 → ∃ t, exec (.keyOrder c) s = .next t ∧ (getCtx t c).result = 0xA ∧
        t.mgmt.orderWhy = orderWhy s s.mgmt.order ∧ shown t 0xE09 = true ∧ t.mgmt.keys = s.mgmt.keys)) ∧
    ∃ t, exec (.healthSnap c) s = .next t ∧ (getCtx t c).result = 0 ∧ (getCtx t c).health = healthReport s ∧ shown t 0xE00 = true) ∧
  (∀ (j : FlashJob) (s : State), mgmtUp s = true → s.mgmt.flashQ = [j] → j.ctx < s.mgmt.ctxs.length →
    (∃ t, exec (.flashWriteDone true) s = .next t ∧ t.flash = setFlash j j.bytes s.flash ∧ t.mgmt.flashQ = [] ∧
      (getCtx t j.ctx).result = 0 ∧ (j.cmd = 4 → shown t 0xE05 = true)) ∧
    ∃ t, exec (.flashWriteDone false) s = .next t ∧ t.flash = setFlash j [] s.flash ∧ t.mgmt.flashQ = [] ∧
      (getCtx t j.ctx).result = 7) ∧
  (∀ (f : Fusing) (s : State), mgmtUp s = true → s.mgmt.fusing = some f → f.ctx < s.mgmt.ctxs.length →
    ∃ t, exec .mgwKeyChange s = .next t ∧ t.mgmt.fusing = none ∧ (getCtx t f.ctx).result = 0 ∧ shown t 0xE08 = true ∧
      (∀ k, f.action = 1 → s.mgmt.keys[f.slot]? = some k → k.state = .empty →
        t.mgmt.keys[f.slot]? = some { hash := f.hash, state := .programmed, image := f.image }) ∧
      (∀ k, f.action = 2 → s.mgmt.keys[f.slot]? = some k → k.state = .programmed →
        t.mgmt.keys[f.slot]? = some { k with state := .revoked }) ∧
      (f.action = 3 → t.mgmt.keys = s.mgmt.keys ∧ t.mgmt.svnMin = max s.mgmt.svnMin f.svn)) ∧
  ∀ s : State, mgmtUp s = true → s.mgmt.ctxs.length = 4 →
    ∃ t, exec .mgmtWatchdogReset s = .next t ∧ t.image = s.image ∧ t.mgmt.fusing = none ∧ t.mgmt.flashQ = [] ∧
      t.loader.job = none ∧ t.loader.liveJob = none ∧ t.events.log = [] ∧ shown t 0xC0B = true ∧
      (∀ c, c < 4 → (getCtx t c).claim = none ∧ (getCtx t c).busy = false ∧
        ((getCtx s c).busy = true → (getCtx t c).result = 0xB)) ∧
      (s.mgmt.fusing = none → t.mgmt.keys = s.mgmt.keys ∧ t.mgmt.svnMin = s.mgmt.svnMin) ∧
      (∀ j r, s.mgmt.flashQ = j :: r → t.flash = setFlash j [] s.flash) ∧
      t.hem.stall = (Config.freeWord s.free).toNat

/-- O58. MCTP (R541, R542, R543): orders are carried out as their register writes and answered with the status register, or
turned away with their code; alert registrations; control messages. The model's choices it rests on: log 49, 82. -/
def Obligations.MctpMessages : Prop :=
  (∀ (c code : Nat) (arg : Word) (s : State), ctxOpen s c = true → c < s.mgmt.ctxs.length →
    (code = 0 ∨ 8 < code → ∃ t, exec (.order c code arg) s = .next t ∧ t.out = s.out ++ [.mctp c 1 []] ∧ t.pair = s.pair ∧
      t.trials = s.trials ∧ t.hem = s.hem) ∧
    (orderOpen code s = false → 1 ≤ code → code ≤ 8 → ∃ t, exec (.order c code arg) s = .next t ∧ t.out = s.out ++ [.mctp c 2 []] ∧
      t.pair = s.pair ∧ t.trials = s.trials ∧ t.hem = s.hem) ∧
    (serving s = true → 1 ≤ code → code ≤ 4 → ∃ t, exec (.order c code arg) s = .next t ∧ t.pair.last = code ∧
      .mctp c 0 (leBytes 8 (epgRead t 0x20).toNat) ∈ t.out) ∧
    (orderOpen code s = true → code = 5 → trialRefuse s (parseTrial (bits arg 0 48)) = 0 → ∃ t, exec (.order c code arg) s = .next t ∧
      t.trials.arm = some (parseTrial (bits arg 0 48)) ∧ t.out = s.out ++ [.mctp c 0 (leBytes 8 (trlRead t 0x18).toNat)]) ∧
    (orderOpen code s = true → code = 6 → ∃ t, exec (.order c code arg) s = .next t ∧ t.trials.arm = none ∧
      (s.trials.arm.isSome = true → t.trials.why = 1 ∧ shown t 0xF01 = true)) ∧
    (orderOpen code s = true → code = 7 → bits arg 0 4 = 4 → s.hem.ship = 0 → ∃ t, exec (.order c code arg) s = .next t ∧
      t.hem.ship = 1 ∧ t.out = s.out ++ [.mctp c 0 (leBytes 8 (hemRead t 0x08).toNat)]) ∧
    (orderOpen code s = true → code = 8 → ∃ t, exec (.order c code arg) s = .next t ∧ t.hem.dumpPower = bits arg 0 16 ∧
      t.out = s.out ++ [.mctp c 0 (leBytes 8 (bits arg 0 16))])) ∧
  (∀ (c eid : Nat) (s : State), ctxOpen s c = true →
    (registered s eid (c == 3) = false → s.mgmt.alerts.length < 4 → ∃ t, exec (.alertReg c eid true) s = .next t ∧
      t.mgmt.alerts = s.mgmt.alerts ++ [{ eid := eid, smbus := c == 3, owed := false, urgent := false, sentAt := none }] ∧
      t.out = s.out ++ [.mctp c 0 []]) ∧
    (registered s eid (c == 3) = false → 4 ≤ s.mgmt.alerts.length → ∃ t, exec (.alertReg c eid true) s = .next t ∧
      t.mgmt.alerts = s.mgmt.alerts ∧ t.out = s.out ++ [.mctp c 2 []]) ∧
    (registered s eid (c == 3) = true → ∃ t, exec (.alertReg c eid true) s = .next t ∧ t.mgmt.alerts = s.mgmt.alerts ∧
      t.out = s.out ++ [.mctp c 0 []]) ∧
    ∃ t, exec (.alertReg c eid false) s = .next t ∧ t.out = s.out ++ [.mctp c 0 []] ∧
      registered t eid (c == 3) = false ∧ ∀ a ∈ s.mgmt.alerts, a.eid ≠ eid → a ∈ t.mgmt.alerts) ∧
  ∀ (c code arg : Nat) (s : State), ctxOpen s c = true → s.mgmt.eids.length = 2 →
    (∃ t, exec (.mctpControlMessage c 1 arg) s = .next t ∧ nth 0 t.mgmt.eids (if c = 3 then 1 else 0) = arg % 256 ∧
      t.out = s.out ++ [.mctp c 0 [BitVec.ofNat 8 arg]]) ∧
    (∃ t, exec (.mctpControlMessage c 2 arg) s = .next t ∧ t.mgmt.eids = s.mgmt.eids ∧
      t.out = s.out ++ [.mctp c 0 (leBytes 1 (nth 0 s.mgmt.eids (if c = 3 then 1 else 0)))]) ∧
    (code ≠ 1 → code ≠ 2 → code ≠ 4 → ∃ t, exec (.mctpControlMessage c code arg) s = .next t ∧ t.mgmt.eids = s.mgmt.eids ∧
      t.out = s.out ++ [.mctp c 1 []])

/-- O59. Register writes (R9, R12, R13, R14, R124, R142, R143, R179, R523): a write to no register is discarded; a reserved
bit leaves the writable fields a free value and orders nothing, in a row of its own also; a register's write is the command
of its own row; the MSI-X table and MGW_DATA. The model's choices it rests on: log 2, 12, 23. A clause that a command changes
nothing where its condition fails is log 7. -/
def Obligations.RegisterWrites : Prop :=
  (∀ (f bar off width : Nat) (v : Word) (s : State), bar ≠ 0 → bar ≠ 2 → exec (.registerWrite f bar off width v) s = .next s) ∧
  (∀ (f off : Nat) (v : Word) (s : State), off % 8 = 0 → dataAt s f off = false → maskAt s f off = none →
    exec (.registerWrite f 0 off 8 v) s = .next s) ∧
  (∀ (f off : Nat) (v : Word) (m : RegMask) (s : State), off % 8 = 0 → dataAt s f off = false → maskAt s f off = some m →
    v &&& ~~~ m.all ≠ 0 → bellAt s f off = none →
    m.rw ||| m.w1c = 0 → exec (.registerWrite f 0 off 8 v) s = .next s) ∧
  (∀ (f : Nat) (v : Word) (s : State), pfFull s f = true →
    (bits v 32 32 = 0 → exec (.registerWrite f 0 0x1700018 8 v) s = .next { s with hem := { s.hem with calDirtyMax := bits v 0 32 } }) ∧
    (bits v 32 32 ≠ 0 → exec (.registerWrite f 0 0x1700018 8 v) s = .next { s with
      free := s.free + 1, hem := { s.hem with calDirtyMax := bits (Config.freeWord s.free) 0 32 } }) ∧
    exec (.registerWrite f 0 0x1600020 8 1) s = exec (.join f) s ∧
    exec (.registerWrite f 0 0x1600020 8 2) s = exec (.salvage f) s ∧
    exec (.registerWrite f 0 0x1600020 8 3) s = exec (.switchBack f) s ∧
    exec (.registerWrite f 0 0x1600020 8 4) s = exec (.form f) s ∧
    exec (.registerWrite f 0 0x1700000 8 1) s = exec (.calReq f) s ∧
    exec (.registerWrite f 0 0x1700000 8 2) s = exec (.calAbort f) s ∧
    exec (.registerWrite f 0 0x1700000 8 4) s = exec (.shipReq f) s ∧
    exec (.registerWrite f 0 0x1700000 8 8) s = exec (.shipCancel f) s ∧
    exec (.registerWrite f 0 0x1A00010 8 1) s = exec (.trlArmRequest f) s ∧
    exec (.registerWrite f 0 0x1A00010 8 2) s = exec (.trlDisarm f) s ∧
    exec (.registerWrite f 0 0x1B00028 8 v) s = exec (.hltSnapWrite f) s) ∧
  (∀ (f : Nat) (v : Word) (s : State), pfFull s f = true →
    (reservedSet (plcMask 0x40) v = true → ∃ t, exec (.plcPgSelWrite f v) s = .next t ∧ t.free = s.free + 1 ∧
      t.ledger.pgSel = bits (Config.freeWord s.free) 0 18) ∧
    (reservedSet (epgMask 0x28) v = true → exec (.epgPolicyWrite f v) s = .next { s with
      free := s.free + 1, pair := { s.pair with halt := bit (Config.freeWord s.free) 0 } }) ∧
    (reservedSet (smcMask 0x18) v = true → ∃ t, exec (.smcPreload f v) s = .next t ∧ t.free = s.free + 1 ∧
      t.smc.run = s.smc.run ∧ t.smc.heldOp = s.smc.heldOp ∧ t.smc.lines = s.smc.lines ∧
      (smcPf t.smc f).count = bits (Config.freeWord s.free) 8 24)) ∧
  (∀ (f off g : Nat) (v : Word) (s : State), barOpen s f = true → f ≠ firmware → off % 8 = 0 → bellAt s f off = some g →
    exec (.registerWrite f 0 off 8 v) s = exec (.doorbell f g) s) ∧
  (∀ (f : Nat) (v : Word) (s : State), pfOpen s f = true → ctxOpen s (portOf f) = true →
    exec (.registerWrite f 0 0x1900008 4 v) s = exec (.mgwDataWrite (portOf f) (v.setWidth 32)) s) ∧
  ∀ (f n : Nat) (v : Word) (s : State), barOpen s f = true → n < (ringEnt s f).vectors → n < 2048 → bits v 0 32 ≠ 0 →
    ∃ t, exec (.registerWrite f 2 (16 * n + 8) 4 v) s = .next t ∧
      tabGet (0, 0) (getFunc t f).table n = ((tabGet (0, 0) (getFunc s f).table n).1, bits v 0 32) ∧
      (getFunc t f).vecMask = (getFunc s f).vecMask ∧ ∀ k, k ≠ f → getFunc t k = getFunc s k

/-- O60. Commands whose condition holds take effect: host commands at their turn (R165, R166, R168, R171, R172); the channel
orders (R199, R209); a write to BAR0 or BAR2 (R12); the placement snapshot, the checkpoint, the page read and the tier (R268,
R283, R284, R286); preloads (R307, R308, R312); the steps of a destage (R330, R334, R336); rebuild and scrub (R374, R383,
R385, R387, R391); DRV_POS_MAP (R399); the link's losses and a dropped partner (R454, R463); relay posts (R469, R471, R472);
patrols, memory errors and measurements (R492, R494, R496, R497, R498, R504); EVT_LOG_SEL (R518). Each answers the state of
the operation named; what the operations do is what the statements of their families say. -/
def Obligations.CommandsTakeEffect : Prop :=
  (∀ (cmd : Nat) (c : Cmd) (s : State), serving s = true → findCmd s cmd = some c →
    (c.phase = .decoded → c.entry.opcode = 3 → exec (.writeZeroes cmd) s = .next (tryWrite cmd s)) ∧
    (c.phase = .decoded → c.entry.opcode = 4 → exec (.deallocate cmd) s = .next (tryWrite cmd s)) ∧
    (c.phase = .decoded → c.entry.opcode = 5 → exec (.flush cmd) s = .next (flushVol cmd s)) ∧
    (c.entry.opcode = 0x40 → exec (.volCreate cmd) s = .next (tryVolume cmd s)) ∧
    (c.entry.opcode = 0x41 → exec (.volDelete cmd) s = .next (tryVolume cmd s)) ∧
    (c.entry.opcode = 0x42 → exec (.volResize cmd) s = .next (tryVolume cmd s))) ∧
  (∀ (f ch : Nat) (s : State), chanOpen s f ch = true →
    ((getChan s ch).state = .idle → exec (.dmaStart f ch) s = .next (advance ch (startList ch (getChan s ch).listHead s))) ∧
    ((getChan s ch).state = .halted → exec (.faultActAbort f ch) s = .next (abortList ch s))) ∧
  (∀ (f off width : Nat) (w : Word) (s : State), exec (.registerWrite f 0 off width w) s = .next (bar0Write f off width w s) ∧
    (barSeen s f = true → exec (.registerWrite f 2 off width w) s = .next (bar2Write f off width w s))) ∧
  (∀ s : State, snapshotDue s = true → exec .placementSnapshot s = .next (takeSnapshot s)) ∧
  (∀ s : State, serving s = true → fenceHolder s = true → checkpointDue s = true →
    exec .checkpointStart s = .next (startCheckpoint s)) ∧
  (∀ (n : Nat) (s : State), serving s = true → s.ledger.ckptRun = some n → s.ledger.ckptStage = 2 →
    exec .plcCkpt s = .next (endCheckpoint n s)) ∧
  (∀ (vol page copy : Nat) (s : State), serving s = true →
    (copyArrived (parcelKey vol page) copy s = false →
      exec (.pageMissRead vol page copy) s = .next (pageArrived (parcelKey vol page) s)) ∧
    ∀ id j, copyArrived (parcelKey vol page) copy s = true → pageJob s (parcelKey vol page) = some (id, j) →
      exec (.pageMissRead vol page copy) s = .next (pageRead (parcelKey vol page) (cancelJob id s))) ∧
  (∀ s : State, serving s = true → (s.ledger.aboveHigh = true ∨ tierPages s * 90 < tierUsed s * 100) →
    exec .tierHighWatermark s = .next (evictPages { s with ledger := { s.ledger with aboveHigh := true } })) ∧
  (∀ (f : Nat) (w : Word) (s : State), pfSeen s f = true →
    (reservedSet (plcMask 0x40) w = false → exec (.plcPgSelWrite f w) s = .next (writePgSel w s)) ∧
    (reservedSet (plcMask 0x4028) w = false → fenceHolder s = true →
      exec (.plcLostSelWrite f w) s = .next (writeLostSel w s)) ∧
    (reservedSet (evtMask 0x408) w = false → exec (.evtLogSelWrite f w) s = .next (selectLog (bits w 0 32) s)) ∧
    exec (.hltSnapWrite f) s = .next (snapHealth s)) ∧
  (∀ (f : Nat) (w : Word) (s : State), pfFull s f = true → reservedSet (smcMask 0x18) w = false → bit w 0 = true →
    (bits w 1 2 = 0 → exec (.smcPreload f w) s = .next (writePreload f w s)) ∧
    (bits w 1 2 = 1 → exec (.smcPreloadLock f w) s = .next (writePreload f w s)) ∧
    (bits w 1 2 = 2 → exec (.smcUnlock f w) s = .next (writePreload f w s))) ∧
  (∀ (f pos : Nat) (w : Word) (s : State), pfFull s f = true → pos < 384 → reservedSet (drvMask 0x1000) w = false →
    (bits w 10 2 = 1 → exec (.posMapAdopt f pos w) s = .next (writePosMap pos w s)) ∧
    (bit w 9 = true → exec (.posMapValidSet f pos w) s = .next (writePosMap pos w s))) ∧
  (∀ (stripe : Nat) (i : Intent) (s : State), destages s = true → plannable s stripe = some i → nextToPlan s stripe i = true →
    exec (.destagePlan stripe) s = .next (planDestage stripe i s)) ∧
  (∀ (stripe : Nat) (s : State), serving s = true → dumping s = false →
    exec (.intentRetire stripe) s = .next (retireStep stripe s)) ∧
  (∀ (k : Nat) (s : State), serving s = true → fenceHolder s = true → dumping s = false → restoreEnded s = true →
    s.array.active.length < s.array.parallel → nextParcel s = some k →
    exec .rebuildParcelStart s = .next (noteQueue (startParcel k s))) ∧
  (∀ (vol parcel : Nat) (s : State), serving s = true →
    exec (.rebuildStripeDone vol parcel) s = .next (stripeDone (parcelKey vol parcel) s)) ∧
  (∀ s : State, serving s = true → fenceHolder s = true → dumping s = false → restoreEnded s = true → scrubBusy s = false →
    exec .scrubStripeStart s = .next (startScrub s)) ∧
  (∀ (vol parcel stripe id : Nat) (j : Job) (s : State), serving s = true →
    s.jobs.find? (fun p => p.2.left == 0 && p.2.purpose == .scrubCheck (stripeKey (parcelKey vol parcel) stripe)) = some (id, j) →
    exec (.scrubCheckDone vol parcel stripe) s = .next (endCheck id (stripeKey (parcelKey vol parcel) stripe) s)) ∧
  (∀ (x : Scrub) (s : State), serving s = true → s.array.scrub = some x → scrubLate s x = true →
    exec .scrubBehind s = .next (markBehind x s)) ∧
  (∀ s : State, mgmtUp s = true →
    (s.pair.link.training = true → s.pair.link.l0At + 2000000 ≤ s.clock → exec .retrainTimeout s = .next (declareLoss s)) ∧
    (linkLive s = true → exec .epgLinkDown s = .next (declareLoss s)) ∧
    (s.pair.link.l0 = true → s.pair.link.lastFlit + 100000 ≤ s.clock → exec .flitSilenceTimeout s = .next (declareLoss s)) ∧
    (∀ ms, exec (.agingMeasure ms) s = .next (measureAging ms s)) ∧
    ∀ place loc, exec (.eccUncorrectable place loc) s = .next (meetUe place loc s)) ∧
  (∀ s : State, serving s = true → s.pair.claim.unit = .active → s.pair.mirrored = true →
    (s.pair.phase = 5 → s.pair.ackTick + 1 + 16384 ≤ s.drone.count → exec .digestUnconfirmedDrop s = .next (dropPartner s)) ∧
    (s.pair.link.up = true → s.pair.ackAt + 1000000 ≤ s.clock → exec .ackTimeoutDrop s = .next (dropPartner s))) ∧
  (∀ s : State, roundDue s = true → exec .relayPostRound s = .next (postRound s)) ∧
  (∀ (r : Round) (s : State), serving s = true → s.pair.claim.unit = .active →
    s.pair.rounds.find? (fun r => !r.noted && decide (postMajority s ≤ r.done)) = some r →
    exec .postRoundDurable s = .next (roundDurable r s)) ∧
  (∀ s : State, readDue s = true → exec .postRead s = .next (readPosts s)) ∧
  ∀ s : State, testsOn s = true →
    (∀ found, exec (.sramPatrol found) s = .next (found.foldl patrolSram s)) ∧
    (∀ pc rows ue done, exec (.hbmPatrol pc rows ue done) s = .next (patrolHbm pc rows ue done s)) ∧
    ∀ g pct, exec (.phyMarginMeasure g pct) s = .next (measurePhy g pct s)
end

