-- ==== Sys2Proof/Laws/Bytes.lean ====
section
/-! SUPPORT. What the byte helpers give: lengths, and fields read back from where they were written; with them, that a home page reads
back valid (R282) and a relay post reads back as it was written (R470). -/

namespace Sys2Proof.Machine

@[simp] theorem length_leBytes (n w : Nat) : (leBytes n w).length = n := by
  induction n generalizing w with
  | zero => rfl
  | succ n ih => simp [leBytes, ih]

@[simp] theorem length_zeros (n : Nat) : (zeros n).length = n := by simp [zeros]

@[simp] theorem length_takePad (n : Nat) (bs : List Byte) : (takePad n bs).length = n := by
  induction n generalizing bs with
  | zero => rfl
  | succ n ih => cases bs <;> simp [takePad, ih]

@[simp] theorem length_slice (bs : List Byte) (off n : Nat) : (slice bs off n).length = n := by simp [slice]

theorem takePad_append (a b : List Byte) : takePad a.length (a ++ b) = a := by
  induction a with
  | nil => rfl
  | cons x a ih => simp [takePad, ih]

/-- What stands between two parts is the slice there. -/
theorem slice_append (a b c : List Byte) : slice (a ++ (b ++ c)) a.length b.length = b := by
  simp [slice, takePad_append]

theorem leNat_leBytes (n w : Nat) (h : w < 256 ^ n) : leNat (leBytes n w) = w := by
  induction n generalizing w with
  | zero => simp [leBytes, leNat]; omega
  | succ n ih =>
    have : w / 256 < 256 ^ n := by rw [Nat.div_lt_iff_lt_mul (by decide)]; simpa [Nat.pow_succ] using h
    simp [leBytes, leNat, ih _ this]
    omega

/-- A field reads as the number that was written there. -/
theorem field_append (a b : List Byte) (n w : Nat) (h : w < 256 ^ n) : field (a ++ (leBytes n w ++ b)) a.length n = w := by
  have := slice_append a (leBytes n w) b
  rw [length_leBytes] at this
  rw [field, this, leNat_leBytes n w h]

@[simp] theorem length_relocBytes (r : Option Reloc) : (relocBytes r).length = 6 := by
  cases r <;> simp [relocBytes]

@[simp] theorem length_entryBytes (e : LEntry) : (entryBytes e).length = 32 := by simp [entryBytes]

/-- The parts of a page, read back from where its header puts them. -/
theorem page_parts (v k seq c : Nat) (body : List Byte) (hv : v < 65536) (hk : k < 2 ^ 64) (hc : c < 2 ^ 64) (head bs : List Byte)
    (hh : head = leBytes 2 v ++ zeros 6 ++ leBytes 8 k ++ leBytes 8 seq) (hb : bs = head ++ leBytes 8 c ++ body) :
    bs.length = 32 + body.length ∧ field bs 0 2 = v ∧ field bs 8 8 = k ∧ field bs 24 8 = c ∧
      bs.take 24 ++ bs.drop 32 = head ++ body := by
  subst hb hh
  refine ⟨by simp; omega, ?_, ?_, ?_, ?_⟩
  · simpa [List.append_assoc] using field_append [] (zeros 6 ++ (leBytes 8 k ++ (leBytes 8 seq ++ (leBytes 8 c ++ body)))) 2 v hv
  · simpa [List.append_assoc] using
      field_append (leBytes 2 v ++ zeros 6) (leBytes 8 seq ++ (leBytes 8 c ++ body)) 8 k (by simpa using hk)
  · simpa [List.append_assoc] using
      field_append (leBytes 2 v ++ zeros 6 ++ leBytes 8 k ++ leBytes 8 seq) body 8 c (by simpa using hc)
  · rw [List.append_assoc _ (leBytes 8 c), List.take_append_of_le_length (by simp), List.take_of_length_le (by simp),
      ← List.append_assoc _ (leBytes 8 c), List.drop_append_of_le_length (by simp), List.drop_of_length_le (by simp)]
    rfl

/-- A ledger page is 4 KiB, names its volume and page, and carries the CRC64 of what surrounds the CRC: it reads back valid (R282). -/
theorem pageBytes_valid (s : State) (p seq : Nat) (hv : keyVol p < 65536) (hp : keyParcel p < 2 ^ 64) :
    unitValid (.page p) (pageBytes s p seq) = true := by
  have hb : ∀ l : List Nat, (l.flatMap fun i => entryBytes (getEntry s (parcelKey (keyVol p) (127 * keyParcel p + i)))).length =
      32 * l.length := by
    intro l
    induction l with
    | nil => rfl
    | cons i l ih => simp only [List.flatMap_cons, List.length_append, length_entryBytes, ih, List.length_cons]; omega
  have hl := hb (List.range 127)
  rw [List.length_range] at hl
  obtain ⟨h0, h1, h2, h3, h4⟩ := page_parts (keyVol p) (keyParcel p) seq _ _ hv hp (BitVec.isLt _) _ (pageBytes s p seq) rfl rfl
  simp only [unitValid, h0, h1, h2, h3, h4, hl]
  simp

theorem takePad_short (n : Nat) (bs : List Byte) (h : bs.length ≤ n) : takePad n bs = bs ++ zeros (n - bs.length) := by
  induction bs generalizing n with
  | nil =>
    induction n with
    | zero => rfl
    | succ n ih => simp only [takePad, ih (Nat.zero_le n)]; simp [zeros, List.replicate_succ]
  | cons b r ih =>
    cases n with
    | zero => simp at h
    | succ n => simp [takePad, ih n (by simpa using h)]

/-- The parts of a post, read back from where R470 puts them. -/
theorem post_parts (body : List Byte) (id claim c : Word) (flag gen tick : Nat) (rest : List Byte)
    (hb : body = ascii "RPST" ++ leBytes 2 1 ++ leBytes 2 flag ++ leBytes 8 id.toNat ++ leBytes 8 claim.toNat ++ leBytes 8 gen ++
      leBytes 8 tick ++ rest) (hr : rest.length = 80) (hf : flag < 256) (hg : gen < 2 ^ 64) (ht : tick < 2 ^ 64) (bs : List Byte)
    (hbs : bs = takePad 4096 (body ++ leBytes 8 c.toNat)) :
    slice bs 0 4 = ascii "RPST" ∧ field bs 6 1 = flag ∧ fieldW bs 8 = id ∧ fieldW bs 0x10 = claim ∧ field bs 0x18 8 = gen ∧
      field bs 0x20 8 = tick ∧ slice bs 0 0x78 = body ∧ fieldW bs 0x78 = c := by
  have l4 : (ascii "RPST").length = 4 := by decide
  have lb : body.length = 120 := by subst hb; simp [hr, l4]
  have e : bs = body ++ leBytes 8 c.toNat ++ zeros (4096 - 128) := by
    rw [hbs, takePad_short _ _ (by simp [lb])]; simp [lb]
  have w : ∀ (a b : List Byte) (x : Word), fieldW (a ++ (leBytes 8 x.toNat ++ b)) a.length = x := by
    intro a b x
    rw [fieldW, field_append a b 8 x.toNat x.isLt, BitVec.ofNat_toNat, BitVec.setWidth_eq]
  have hflag : leBytes 2 flag = leBytes 1 flag ++ leBytes 1 (flag / 256) := rfl
  refine ⟨?_, ?_, ?_, ?_, ?_, ?_, ?_, ?_⟩ <;> subst e
  · subst hb
    have := slice_append [] (ascii "RPST") (leBytes 2 1 ++ (leBytes 2 flag ++ (leBytes 8 id.toNat ++ (leBytes 8 claim.toNat ++
      (leBytes 8 gen ++ (leBytes 8 tick ++ (rest ++ (leBytes 8 c.toNat ++ zeros (4096 - 128)))))))))
    simpa only [List.append_assoc, List.nil_append, List.length_nil, l4] using this
  · subst hb
    have := field_append (ascii "RPST" ++ leBytes 2 1) (leBytes 1 (flag / 256) ++ (leBytes 8 id.toNat ++ (leBytes 8 claim.toNat ++
      (leBytes 8 gen ++ (leBytes 8 tick ++ (rest ++ (leBytes 8 c.toNat ++ zeros (4096 - 128)))))))) 1 flag hf
    simpa only [hflag, List.append_assoc, List.length_append, l4, length_leBytes] using this
  · subst hb
    have := w (ascii "RPST" ++ leBytes 2 1 ++ leBytes 2 flag) (leBytes 8 claim.toNat ++
      (leBytes 8 gen ++ (leBytes 8 tick ++ (rest ++ (leBytes 8 c.toNat ++ zeros (4096 - 128)))))) id
    simpa only [List.append_assoc, List.length_append, l4, length_leBytes] using this
  · subst hb
    have := w (ascii "RPST" ++ leBytes 2 1 ++ leBytes 2 flag ++ leBytes 8 id.toNat)
      (leBytes 8 gen ++ (leBytes 8 tick ++ (rest ++ (leBytes 8 c.toNat ++ zeros (4096 - 128))))) claim
    simpa only [List.append_assoc, List.length_append, l4, length_leBytes] using this
  · subst hb
    have := field_append (ascii "RPST" ++ leBytes 2 1 ++ leBytes 2 flag ++ leBytes 8 id.toNat ++ leBytes 8 claim.toNat)
      (leBytes 8 tick ++ (rest ++ (leBytes 8 c.toNat ++ zeros (4096 - 128)))) 8 gen hg
    simpa only [List.append_assoc, List.length_append, l4, length_leBytes] using this
  · subst hb
    have := field_append (ascii "RPST" ++ leBytes 2 1 ++ leBytes 2 flag ++ leBytes 8 id.toNat ++ leBytes 8 claim.toNat ++
      leBytes 8 gen) (rest ++ (leBytes 8 c.toNat ++ zeros (4096 - 128))) 8 tick ht
    simpa only [List.append_assoc, List.length_append, l4, length_leBytes] using this
  · have := slice_append [] body (leBytes 8 c.toNat ++ zeros (4096 - 128))
    simpa only [List.append_assoc, List.nil_append, List.length_nil, lb] using this
  · have := w body (zeros (4096 - 128)) c
    simpa only [List.append_assoc, lb] using this

/-- A post reads back as it was written (R470). -/
theorem parsePost_postBytes (s : State) (gen : Nat) (loc : Bool) (hg : gen < 2 ^ 64) (ht : s.drone.count < 2 ^ 64) :
    parsePost s (postBytes s gen loc) = some { gen := gen, loc := loc, claim := s.pair.claim.claim, tick := s.drone.count } := by
  obtain ⟨body, hb, hp⟩ : ∃ body, body = ascii "RPST" ++ leBytes 2 1 ++ leBytes 2 (if loc then 1 else 0) ++
      leBytes 8 (arrayIdOf s).toNat ++ leBytes 8 s.pair.claim.claim.toNat ++ leBytes 8 gen ++ leBytes 8 s.drone.count ++
      (leBytes 8 s.pair.iseq ++ (leBytes 8 s.ledger.seq ++ (leBytes 8 s.dieId.toNat ++ zeros 56))) ∧
      postBytes s gen loc = takePad 4096 (body ++ leBytes 8 (crc64 body).toNat) :=
    ⟨_, rfl, by rw [postBytes]; simp only [List.append_assoc]⟩
  obtain ⟨h0, h1, h2, h3, h4, h5, h6, h7⟩ := post_parts body (arrayIdOf s) s.pair.claim.claim (crc64 body) (if loc then 1 else 0) gen
    s.drone.count _ hb (by simp) (by cases loc <;> decide) hg ht _ hp
  simp only [parsePost, h0, h1, h2, h3, h4, h5, h6, h7]
  cases loc <;> simp

end Sys2Proof.Machine
end

