-- ==== Sys2Proof/Laws/Frame.lean ====
section
/-! SUPPORT. What every operation leaves alone: a view of a state hides some parts, and each lemma says that one operation
keeps every view that hides the parts it may change. -/

set_option Elab.async false
set_option linter.unusedSimpArgs false

namespace Sys2Proof.Machine

open Sys2Proof

/-- A part hidden or shown. -/
def hide {α : Type} (b : Bool) (x : α) : Option α := if b then none else some x

/-- A state with the parts of a mask hidden. -/
structure View where
  boot : Option (Boot)
  halted : Option (Bool)
  clock : Option (Nat)
  free : Option (Nat)
  dieId : Option (Word)
  image : Option (Option Image)
  loader : Option (Loader)
  ldrState : Option (LdrState)
  imgId : Option (Word)
  drone : Option (Drone)
  tick : Option (Nat)
  posted : Option (List Sub)
  jobs : Option (Tab Job)
  sampled : Option (Sampled)
  slotMap : Option (SlotMap)
  host : Option (HostSide)
  rings : Option (Tab Ring)
  volumes : Option (Tab Volume)
  cmds : Option (List Cmd)
  funcs : Option (Tab Func)
  dma : Option (Dma)
  mem : Option (Memory)
  reeds : Option (Reeds)
  ledger : Option (Ledger)
  entries : Option (Tab LEntry)
  slots : Option (Tab SlotRec)
  smc : Option (Smc)
  lines : Option (Tab SmcLine)
  cache : Option (Cache)
  stripes : Option (Tab StripeDesc)
  appendQ : Option (List JRec)
  vault : Option (Vault)
  array : Option (ArrayPart)
  lost : Option (List Lost)
  drives : Option (Drives)
  clusters : Option (List Cluster)
  posMap : Option (Tab PosMap)
  hem : Option (Hem)
  pair : Option (Pair)
  health : Option (Health)
  why : Option (BitVec 5)
  events : Option (Events)
  trials : Option (Trials)
  mgmt : Option (Mgmt)
  fuses : Option (List KeySlot × Nat)
  flash : Option (Flash)
  copies : Option (List Byte × List Byte × List Byte × List Byte)
  pins : Option (Pins)
  porN : Option (Bool)
  hpPerst : Option (List Bool)
  out : Option (List Output)
  pending : Option (List Instr)

/-- The view of a state through a mask. -/
def view (m : Piece → Bool) (s : State) : View where
  boot := hide (m .boot) s.boot
  halted := hide (m .halted) s.halted
  clock := hide (m .clock) s.clock
  free := hide (m .free) s.free
  dieId := hide (m .dieId) s.dieId
  image := hide (m .image) s.image
  loader := hide (m .loader) s.loader
  ldrState := hide (m .ldrState) s.loader.state
  imgId := hide (m .imgId) s.loader.imgId
  drone := hide (m .drone) s.drone
  tick := hide (m .tick) s.drone.count
  posted := hide (m .posted) s.drone.inflight
  jobs := hide (m .jobs) s.jobs
  sampled := hide (m .sampled) s.sampled
  slotMap := hide (m .slotMap) s.slotMap
  host := hide (m .host) s.host
  rings := hide (m .rings) s.host.rings
  volumes := hide (m .volumes) s.host.volumes
  cmds := hide (m .cmds) s.host.cmds
  funcs := hide (m .funcs) s.host.funcs
  dma := hide (m .dma) s.dma
  mem := hide (m .mem) s.mem
  reeds := hide (m .reeds) s.reeds
  ledger := hide (m .ledger) s.ledger
  entries := hide (m .entries) s.ledger.entries
  slots := hide (m .slots) s.ledger.slots
  smc := hide (m .smc) s.smc
  lines := hide (m .lines) s.smc.lines
  cache := hide (m .cache) s.cache
  stripes := hide (m .stripes) s.cache.stripes
  appendQ := hide (m .appendQ) s.cache.appendQ
  vault := hide (m .vault) s.cache.vault
  array := hide (m .array) s.array
  lost := hide (m .lost) s.array.lost
  drives := hide (m .drives) s.drives
  clusters := hide (m .clusters) s.drives.clusters
  posMap := hide (m .posMap) s.drives.posMap
  hem := hide (m .hem) s.hem
  pair := hide (m .pair) s.pair
  health := hide (m .health) s.health
  why := hide (m .why) s.health.why
  events := hide (m .events) s.events
  trials := hide (m .trials) s.trials
  mgmt := hide (m .mgmt) s.mgmt
  fuses := hide (m .fuses) (s.mgmt.keys, s.mgmt.svnMin)
  flash := hide (m .flash) s.flash
  copies := hide (m .copies) (s.flash.fwA, s.flash.fwB, s.flash.primary, s.flash.secondary)
  pins := hide (m .pins) s.pins
  porN := hide (m .porN) s.pins.porN
  hpPerst := hide (m .hpPerst) s.pins.hpPerst
  out := hide (m .out) s.out
  pending := hide (m .pending) s.pending

@[simp] theorem hide_true {α : Type} (x : α) : hide true x = none := rfl

/-- A part that is hidden, or the same, shows the same. -/
theorem hide_eq {α : Type} {b : Bool} {x y : α} (h : b = true ∨ x = y) : hide b x = hide b y := by
  rcases h with h | h
  · simp [hide, h]
  · rw [h]

/-- A state built from another one shows the same when each part is hidden or the same. -/
@[simp] theorem view_mk (m : Piece → Bool) (t : State) (halted clock free dieId image loader drone jobs sampled slotMap host dma mem reeds ledger smc cache array drives hem pair health events trials mgmt flash pins out pending)
    (h_halted : m .halted = true ∨ halted = t.halted)
    (h_clock : m .clock = true ∨ clock = t.clock)
    (h_free : m .free = true ∨ free = t.free)
    (h_dieId : m .dieId = true ∨ dieId = t.dieId)
    (h_image : m .image = true ∨ image = t.image)
    (h_loader : m .loader = true ∨ loader = t.loader)
    (h_ldrState : m .ldrState = true ∨ loader.state = t.loader.state)
    (h_imgId : m .imgId = true ∨ loader.imgId = t.loader.imgId)
    (h_drone : m .drone = true ∨ drone = t.drone)
    (h_tick : m .tick = true ∨ drone.count = t.drone.count)
    (h_posted : m .posted = true ∨ drone.inflight = t.drone.inflight)
    (h_jobs : m .jobs = true ∨ jobs = t.jobs)
    (h_sampled : m .sampled = true ∨ sampled = t.sampled)
    (h_slotMap : m .slotMap = true ∨ slotMap = t.slotMap)
    (h_host : m .host = true ∨ host = t.host)
    (h_rings : m .rings = true ∨ host.rings = t.host.rings)
    (h_volumes : m .volumes = true ∨ host.volumes = t.host.volumes)
    (h_cmds : m .cmds = true ∨ host.cmds = t.host.cmds)
    (h_funcs : m .funcs = true ∨ host.funcs = t.host.funcs)
    (h_dma : m .dma = true ∨ dma = t.dma)
    (h_mem : m .mem = true ∨ mem = t.mem)
    (h_reeds : m .reeds = true ∨ reeds = t.reeds)
    (h_ledger : m .ledger = true ∨ ledger = t.ledger)
    (h_entries : m .entries = true ∨ ledger.entries = t.ledger.entries)
    (h_slots : m .slots = true ∨ ledger.slots = t.ledger.slots)
    (h_smc : m .smc = true ∨ smc = t.smc)
    (h_lines : m .lines = true ∨ smc.lines = t.smc.lines)
    (h_cache : m .cache = true ∨ cache = t.cache)
    (h_stripes : m .stripes = true ∨ cache.stripes = t.cache.stripes)
    (h_appendQ : m .appendQ = true ∨ cache.appendQ = t.cache.appendQ)
    (h_vault : m .vault = true ∨ cache.vault = t.cache.vault)
    (h_array : m .array = true ∨ array = t.array)
    (h_lost : m .lost = true ∨ array.lost = t.array.lost)
    (h_drives : m .drives = true ∨ drives = t.drives)
    (h_clusters : m .clusters = true ∨ drives.clusters = t.drives.clusters)
    (h_posMap : m .posMap = true ∨ drives.posMap = t.drives.posMap)
    (h_hem : m .hem = true ∨ hem = t.hem)
    (h_pair : m .pair = true ∨ pair = t.pair)
    (h_health : m .health = true ∨ health = t.health)
    (h_why : m .why = true ∨ health.why = t.health.why)
    (h_events : m .events = true ∨ events = t.events)
    (h_trials : m .trials = true ∨ trials = t.trials)
    (h_mgmt : m .mgmt = true ∨ mgmt = t.mgmt)
    (h_fuses : m .fuses = true ∨ (mgmt.keys, mgmt.svnMin) = (t.mgmt.keys, t.mgmt.svnMin))
    (h_flash : m .flash = true ∨ flash = t.flash)
    (h_copies : m .copies = true ∨ (flash.fwA, flash.fwB, flash.primary, flash.secondary) = (t.flash.fwA, t.flash.fwB, t.flash.primary, t.flash.secondary))
    (h_pins : m .pins = true ∨ pins = t.pins)
    (h_porN : m .porN = true ∨ pins.porN = t.pins.porN)
    (h_hpPerst : m .hpPerst = true ∨ pins.hpPerst = t.pins.hpPerst)
    (h_out : m .out = true ∨ out = t.out)
    (h_pending : m .pending = true ∨ pending = t.pending) :
    view m ⟨t.boot, halted, clock, free, dieId, image, loader, drone, jobs, sampled, slotMap, host, dma, mem, reeds, ledger, smc, cache, array, drives, hem, pair, health, events, trials, mgmt, flash, pins, out, pending⟩ = view m t := by
  simp only [view, View.mk.injEq]
  exact ⟨trivial, hide_eq h_halted, hide_eq h_clock, hide_eq h_free, hide_eq h_dieId, hide_eq h_image, hide_eq h_loader, hide_eq h_ldrState, hide_eq h_imgId, hide_eq h_drone, hide_eq h_tick, hide_eq h_posted, hide_eq h_jobs, hide_eq h_sampled, hide_eq h_slotMap, hide_eq h_host, hide_eq h_rings, hide_eq h_volumes, hide_eq h_cmds, hide_eq h_funcs, hide_eq h_dma, hide_eq h_mem, hide_eq h_reeds, hide_eq h_ledger, hide_eq h_entries, hide_eq h_slots, hide_eq h_smc, hide_eq h_lines, hide_eq h_cache, hide_eq h_stripes, hide_eq h_appendQ, hide_eq h_vault, hide_eq h_array, hide_eq h_lost, hide_eq h_drives, hide_eq h_clusters, hide_eq h_posMap, hide_eq h_hem, hide_eq h_pair, hide_eq h_health, hide_eq h_why, hide_eq h_events, hide_eq h_trials, hide_eq h_mgmt, hide_eq h_fuses, hide_eq h_flash, hide_eq h_copies, hide_eq h_pins, hide_eq h_porN, hide_eq h_hpPerst, hide_eq h_out, hide_eq h_pending⟩

/-- A choice between two states. -/
@[simp] theorem view_ite (m : Piece → Bool) (c : Prop) [Decidable c] (a b : State) :
    view m (if c then a else b) = if c then view m a else view m b := by split <;> rfl

/-- A fold whose step keeps the view keeps it. -/
@[simp] theorem view_foldl {α : Type} {m : Piece → Bool} (g : State → α → State) (l : List α) (s : State)
    (h : ∀ t x, view m (g t x) = view m t) : view m (l.foldl g s) = view m s := by
  induction l generalizing s with
  | nil => rfl
  | cons x r ih => simp [ih, h]

/-- A fold over a state paired with an answer. -/
theorem view_foldl_snd {α β : Type} {m : Piece → Bool} (g : β × State → α → β × State) (l : List α) (a : β × State)
    (h : ∀ t x, view m (g t x).2 = view m t.2) : view m (l.foldl g a).2 = view m a.2 := by
  induction l generalizing a with
  | nil => rfl
  | cons x r ih => simp [ih, h]

/-- An operation that an option asks for. -/
@[simp] theorem view_elim {α : Type} {m : Piece → Bool} (o : Option α) (s : State) (f : α → State)
    (h : ∀ x, view m (f x) = view m s) : view m (o.elim s f) = view m s := by
  cases o <;> simp [h]

/-- The place that plans take over is part of the drone. -/
theorem view_drone_heir {m : Piece → Bool} (t : State) (p : Option Nat) (h0 : m .drone = true) :
    view m { t with drone := { t.drone with heir := p } } = view m t := by
  simp [h0]

/-- A part that a mask shows is the same in two states that look alike. -/
theorem same_of_view {m : Piece → Bool} {s t : State} (h : view m t = view m s) {p : Piece} (hp : m p = false) : p.same s t := by
  simp only [view, View.mk.injEq] at h
  cases p <;> simp_all [hide, Piece.same]


@[simp] theorem view_emit {m : Piece → Bool} (a0 : Output) (s : State)
    (h0 : m .pair = true) (h1 : m .out = true) :
    view m (emit a0 s) = view m s := by unfold emit; split <;> simp [*]
@[simp] theorem view_emits {m : Piece → Bool} (a0 : List Output) (s : State)
    (h0 : m .pair = true) (h1 : m .out = true) :
    view m (emits a0 s) = view m s := by simp [emits, *]
@[simp] theorem view_drawFree {m : Piece → Bool} (s : State)
    (h0 : m .free = true) :
    view m (drawFree s).2 = view m s := by simp [drawFree, *]
@[simp] theorem view_raise {m : Piece → Bool} (a0 : Nat) (s : State)
    (h0 : m .hem = true) (h1 : m .events = true) :
    view m (raise a0 s) = view m s := by simp [raise, *]
@[simp] theorem view_raiseIf {m : Piece → Bool} (a0 : Bool) (a1 : Nat) (s : State)
    (h0 : m .hem = true) (h1 : m .events = true) :
    view m (raiseIf a0 a1 s) = view m s := by simp [raiseIf, *]
@[simp] theorem view_setFunc {m : Piece → Bool} (a0 : Nat) (a1 : Func) (s : State)
    (h0 : m .host = true) (h1 : m .funcs = true) :
    view m (setFunc a0 a1 s) = view m s := by simp [setFunc, *]
@[simp] theorem view_setRing {m : Piece → Bool} (a0 : Nat) (a1 : Ring) (s : State)
    (h0 : m .host = true) (h1 : m .rings = true) :
    view m (setRing a0 a1 s) = view m s := by simp [setRing, *]
@[simp] theorem view_modRing {m : Piece → Bool} (a0 : Nat) (a1 : Ring → Ring) (s : State)
    (h0 : m .host = true) (h1 : m .rings = true) :
    view m (modRing a0 a1 s) = view m s := by simp [modRing, *]
@[simp] theorem view_ringEvent {m : Piece → Bool} (a0 : Nat) (s : State)
    (h0 : m .host = true) (h1 : m .rings = true) (h2 : m .hem = true) (h3 : m .events = true) :
    view m (ringEvent a0 s) = view m s := by simp [ringEvent, *]
@[simp] theorem view_setReason {m : Piece → Bool} (a0 : Nat) (s : State)
    (h0 : m .hem = true) (h1 : m .health = true) (h2 : m .why = true) (h3 : m .events = true) (h4 : m .flash = true) (h5 : m .pins = true) :
    view m (setReason a0 s) = view m s := by simp [setReason, *]
@[simp] theorem view_reasonIf {m : Piece → Bool} (a0 : Bool) (a1 : Nat) (s : State)
    (h0 : m .hem = true) (h1 : m .health = true) (h2 : m .why = true) (h3 : m .events = true) (h4 : m .flash = true) (h5 : m .pins = true) :
    view m (reasonIf a0 a1 s) = view m s := by simp [reasonIf, *]
/-- HLT_DEGRADE changed by a function that keeps the replacement reasons. -/
@[simp] theorem view_modDegrade {m : Piece → Bool} (f : Health → Health) (s : State) (h0 : m .health = true)
    (h : ∀ x, (f x).why = x.why) : view m (modDegrade f s) = view m s := by
  unfold modDegrade
  simp [h, h0]
@[simp] theorem view_fatalStop {m : Piece → Bool} (s : State)
    (h0 : m .hem = true) (h1 : m .health = true) (h2 : m .why = true) (h3 : m .events = true) (h4 : m .flash = true) (h5 : m .pins = true) :
    view m (fatalStop s) = view m s := by simp [fatalStop, *]
@[simp] theorem view_checkWtPerm {m : Piece → Bool} (s : State)
    (h0 : m .health = true) (h1 : m .flash = true) :
    view m (checkWtPerm s) = view m s := by simp [checkWtPerm, *]
@[simp] theorem view_retirePc {m : Piece → Bool} (a0 : Nat) (s : State)
    (h0 : m .hem = true) (h1 : m .health = true) (h2 : m .why = true) (h3 : m .events = true) (h4 : m .flash = true) (h5 : m .pins = true) :
    view m (retirePc a0 s) = view m s := by simp [retirePc, *]
@[simp] theorem view_repairRow {m : Piece → Bool} (a0 : Nat) (s : State)
    (h0 : m .hem = true) (h1 : m .health = true) (h2 : m .why = true) (h3 : m .events = true) (h4 : m .flash = true) (h5 : m .pins = true) :
    view m (repairRow a0 s) = view m s := by simp [repairRow, *]
@[simp] theorem view_repairCol {m : Piece → Bool} (a0 : Nat) (s : State)
    (h0 : m .hem = true) (h1 : m .health = true) (h2 : m .why = true) (h3 : m .events = true) (h4 : m .flash = true) (h5 : m .pins = true) :
    view m (repairCol a0 s) = view m s := by simp [repairCol, *]
/-- A change made a number of times. -/
@[simp] theorem view_times {m : Piece → Bool} (n : Nat) (f : State → State) (s : State)
    (h : ∀ t, view m (f t) = view m t) : view m (times n f s) = view m s := by
  induction n generalizing s with
  | zero => rfl
  | succ n ih => simp [times, ih, h]
@[simp] theorem view_patrolGroup {m : Piece → Bool} (s : State) (a1 : SramFind)
    (h0 : m .hem = true) (h1 : m .health = true) (h2 : m .why = true) (h3 : m .events = true) (h4 : m .flash = true) (h5 : m .pins = true) :
    view m (patrolGroup s a1) = view m s := by simp [patrolGroup, *]
@[simp] theorem view_agingEvents {m : Piece → Bool} (a0 : List Nat) (s : State)
    (h0 : m .hem = true) (h1 : m .health = true) (h2 : m .events = true) :
    view m (agingEvents a0 s) = view m s := by simp [agingEvents, *]
@[simp] theorem view_measureAging {m : Piece → Bool} (a0 : List Nat) (s : State)
    (h0 : m .hem = true) (h1 : m .health = true) (h2 : m .why = true) (h3 : m .events = true) (h4 : m .flash = true) (h5 : m .pins = true) :
    view m (measureAging a0 s) = view m s := by simp [measureAging, *]
@[simp] theorem view_phyLow {m : Piece → Bool} (a0 : Nat) (s : State)
    (h0 : m .hem = true) (h1 : m .health = true) (h2 : m .why = true) (h3 : m .events = true) (h4 : m .flash = true) (h5 : m .pins = true) :
    view m (phyLow a0 s) = view m s := by simp [phyLow, *]
@[simp] theorem view_measurePhy {m : Piece → Bool} (a0 a1 : Nat) (s : State)
    (h0 : m .hem = true) (h1 : m .health = true) (h2 : m .why = true) (h3 : m .events = true) (h4 : m .flash = true) (h5 : m .pins = true) :
    view m (measurePhy a0 a1 s) = view m s := by simp [measurePhy, *]
@[simp] theorem view_readTemp {m : Piece → Bool} (a0 : Int) (s : State)
    (h0 : m .hem = true) (h1 : m .health = true) (h2 : m .events = true) :
    view m (readTemp a0 s) = view m s := by simp [readTemp, *]
@[simp] theorem view_snapHealth {m : Piece → Bool} (s : State)
    (h0 : m .health = true) :
    view m (snapHealth s) = view m s := by simp [snapHealth, *]
@[simp] theorem view_requeue {m : Piece → Bool} (a0 : Work) (s : State)
    (h0 : m .drone = true) :
    view m (requeue a0 s) = view m s := by simp [requeue, *]
@[simp] theorem view_queueWorks {m : Piece → Bool} (a0 : Nat) (a1 : WorkClass) (a2 : Bool) (a3 : List Work) (s : State)
    (h0 : m .drone = true) :
    view m (queueWorks a0 a1 a2 a3 s) = view m s := by simp [queueWorks, *]
@[simp] theorem view_newJob {m : Piece → Bool} (a0 : Purpose) (a1 : WorkClass) (a2 : Bool) (a3 : Nat) (a4 : List Work) (s : State)
    (h0 : m .drone = true) (h1 : m .jobs = true) :
    view m (newJob a0 a1 a2 a3 a4 s).2 = view m s := by simp [newJob, *]
/-- What is planned in a place. -/
@[simp] theorem view_withPlace {m : Piece → Bool} (p : Option Nat) (f : State → State) (s : State) (h0 : m .drone = true)
    (h : ∀ t, view m (f t) = view m t) : view m (withPlace p f s) = view m s :=
  (view_drone_heir (f { s with drone := { s.drone with heir := p } }) s.drone.heir h0).trans
    ((h _).trans (view_drone_heir s p h0))
@[simp] theorem view_plan {m : Piece → Bool} (a0 : Purpose) (a1 : WorkClass) (a2 : Bool) (a3 : Nat) (a4 : List Work) (s : State)
    (h0 : m .drone = true) (h1 : m .jobs = true) :
    view m (plan a0 a1 a2 a3 a4 s) = view m s := by simp [plan, *]
@[simp] theorem view_endUrgency {m : Piece → Bool} (s : State) (a1 : Stream)
    (h0 : m .drone = true) (h1 : m .hem = true) (h2 : m .events = true) :
    view m (endUrgency s a1) = view m s := by simp [endUrgency, *]
@[simp] theorem view_dropWork {m : Piece → Bool} (a0 : Work → Bool) (s : State)
    (h0 : m .drone = true) (h1 : m .hem = true) (h2 : m .events = true) :
    view m (dropWork a0 s) = view m s := by simp [dropWork, *]
@[simp] theorem view_setFloors {m : Piece → Bool} (a0 : Bool) (s : State)
    (h0 : m .drone = true) (h1 : m .hem = true) (h2 : m .events = true) :
    view m (setFloors a0 s) = view m s := by simp [setFloors, *]
@[simp] theorem view_placeCaravan {m : Piece → Bool} (a0 a1 : Nat) (s : State)
    (h0 : m .drone = true) (h1 : m .jobs = true) :
    view m (placeCaravan a0 a1 s) = view m s := by simp [placeCaravan, *]
@[simp] theorem view_streamStep {m : Piece → Bool} (s : State) (a1 : Stream)
    (h0 : m .drone = true) (h1 : m .hem = true) (h2 : m .events = true) :
    view m (streamStep s a1) = view m s := by simp [streamStep, *]
@[simp] theorem view_countAdmits {m : Piece → Bool} (s : State)
    (h0 : m .drone = true) :
    view m (countAdmits s) = view m s := by simp [countAdmits, *]
@[simp] theorem view_closeCaravan {m : Piece → Bool} (s : State)
    (h0 : m .drone = true) (h1 : m .hem = true) (h2 : m .events = true) :
    view m (closeCaravan s) = view m s := by simp [closeCaravan, *]
@[simp] theorem view_compileNext {m : Piece → Bool} (a0 a1 : Nat) (a2 : Bool) (s : State)
    (h0 : m .drone = true) (h1 : m .jobs = true) (h2 : m .reeds = true) (h3 : m .hem = true) (h4 : m .events = true) :
    view m (compileNext a0 a1 a2 s) = view m s := by simp [compileNext, *]
@[simp] theorem view_refund {m : Piece → Bool} (s : State) (a1 : Work)
    (h0 : m .drone = true) (h1 : m .jobs = true) :
    view m (refund s a1) = view m s := by unfold refund; (repeat' split) <;> simp [*]
@[simp] theorem view_takeBack {m : Piece → Bool} (a0 : List Work) (s : State)
    (h0 : m .drone = true) (h1 : m .jobs = true) :
    view m (takeBack a0 s) = view m s := by simp [takeBack, *]
@[simp] theorem view_sealAt {m : Piece → Bool} (a0 : Option Nat) (s : State)
    (h0 : m .drone = true) :
    view m (sealAt a0 s) = view m s := by simp [sealAt, *]
@[simp] theorem view_holdStream {m : Piece → Bool} (s : State) (a1 : Stream)
    (h0 : m .drone = true) (h1 : m .hem = true) (h2 : m .events = true) :
    view m (holdStream s a1) = view m s := by simp [holdStream, *]
@[simp] theorem view_adoptHold {m : Piece → Bool} (s : State)
    (h0 : m .drone = true) (h1 : m .hem = true) (h2 : m .events = true) :
    view m (adoptHold s) = view m s := by simp [adoptHold, *]
@[simp] theorem view_writeBgHold {m : Piece → Bool} (a0 : Word) (s : State)
    (h0 : m .drone = true) :
    view m (writeBgHold a0 s) = view m s := by simp [writeBgHold, *]
@[simp] theorem view_setUrgent {m : Piece → Bool} (a0 : Stream) (s : State)
    (h0 : m .drone = true) (h1 : m .hem = true) (h2 : m .events = true) :
    view m (setUrgent a0 s) = view m s := by simp [setUrgent, *]
@[simp] theorem view_growCredit {m : Piece → Bool} (s : State)
    (h0 : m .drone = true) :
    view m (growCredit s) = view m s := by simp [growCredit, *]
@[simp] theorem view_stopLeg {m : Piece → Bool} (a0 : Nat) (s : State)
    (h0 : m .drone = true) :
    view m (stopLeg a0 s) = view m s := by simp [stopLeg, *]
@[simp] theorem view_modLeg {m : Piece → Bool} (a0 : Nat) (a1 : Leg → Leg) (s : State)
    (h0 : m .drone = true) :
    view m (modLeg a0 a1 s) = view m s := by simp [modLeg, *]
@[simp] theorem view_countOverrun {m : Piece → Bool} (s : State) (a1 : Leg)
    (h0 : m .drone = true) (h1 : m .hem = true) (h2 : m .events = true) :
    view m (countOverrun s a1) = view m s := by simp [countOverrun, *]
@[simp] theorem view_delayLeg {m : Piece → Bool} (a0 : Nat) (s : State)
    (h0 : m .drone = true) :
    view m (delayLeg a0 s) = view m s := by simp [delayLeg, *]
@[simp] theorem view_issueFetch {m : Piece → Bool} (a0 a1 : Nat) (a2 : Bool) (s : State)
    (h0 : m .host = true) (h1 : m .rings = true) (h2 : m .pair = true) (h3 : m .out = true) :
    view m (issueFetch a0 a1 a2 s) = view m s := by simp [issueFetch, *]
@[simp] theorem view_stallRing {m : Piece → Bool} (a0 : Nat) (s : State)
    (h0 : m .host = true) (h1 : m .rings = true) (h2 : m .hem = true) (h3 : m .events = true) :
    view m (stallRing a0 s) = view m s := by simp [stallRing, *]
@[simp] theorem view_fetchRing {m : Piece → Bool} (a0 a1 : Nat) (s : State)
    (h0 : m .host = true) (h1 : m .rings = true) (h2 : m .hem = true) (h3 : m .pair = true) (h4 : m .events = true) (h5 : m .out = true) :
    view m (fetchRing a0 a1 s) = view m s := by fun_induction fetchRing a0 a1 s <;> simp_all
@[simp] theorem view_sampleRing {m : Piece → Bool} (a0 : Nat) (s : State)
    (h0 : m .host = true) (h1 : m .rings = true) :
    view m (sampleRing a0 s) = view m s := by simp [sampleRing, *]
@[simp] theorem view_scanRing {m : Piece → Bool} (a0 : Bool) (s : State) (a2 : Nat)
    (h0 : m .host = true) (h1 : m .rings = true) (h2 : m .hem = true) (h3 : m .pair = true) (h4 : m .events = true) (h5 : m .out = true) :
    view m (scanRing a0 s a2) = view m s := by simp [scanRing, *]
@[simp] theorem view_scanEnd {m : Piece → Bool} (a0 : Nat) (s : State)
    (h0 : m .host = true) :
    view m (scanEnd a0 s) = view m s := by simp [scanEnd, *]
@[simp] theorem view_scanPass {m : Piece → Bool} (a0 : Nat) (a1 : Bool) (s : State)
    (h0 : m .host = true) (h1 : m .rings = true) (h2 : m .hem = true) (h3 : m .pair = true) (h4 : m .events = true) (h5 : m .out = true) :
    view m (scanPass a0 a1 s) = view m s := by simp [scanPass, *]
@[simp] theorem view_ringDoorbell {m : Piece → Bool} (a0 : Nat) (s : State)
    (h0 : m .host = true) :
    view m (ringDoorbell a0 s) = view m s := by simp [ringDoorbell, *]
@[simp] theorem view_dropFetches {m : Piece → Bool} (a0 : Nat) (s : State)
    (h0 : m .host = true) (h1 : m .rings = true) :
    view m (dropFetches a0 s) = view m s := by simp [dropFetches, *]
@[simp] theorem view_postEntry {m : Piece → Bool} (a0 a1 : Nat) (a2 : Bool) (a3 : Completion) (s : State)
    (h0 : m .host = true) (h1 : m .rings = true) (h2 : m .pair = true) (h3 : m .out = true) :
    view m (postEntry a0 a1 a2 a3 s) = view m s := by simp [postEntry, *]
@[simp] theorem view_postMirror {m : Piece → Bool} (a0 a1 : Nat) (s : State)
    (h0 : m .host = true) (h1 : m .rings = true) (h2 : m .hem = true) (h3 : m .pair = true) (h4 : m .events = true) (h5 : m .out = true) :
    view m (postMirror a0 a1 s) = view m s := by simp [postMirror, *]
@[simp] theorem view_postOldest {m : Piece → Bool} (a0 a1 : Nat) (a2 : Bool) (s : State)
    (h0 : m .host = true) (h1 : m .rings = true) (h2 : m .pair = true) (h3 : m .out = true) :
    view m (postOldest a0 a1 a2 s) = view m s := by unfold postOldest; split <;> simp [*]
@[simp] theorem view_placeCompletion {m : Piece → Bool} (a0 a1 : Nat) (a2 : Bool) (a3 : Completion) (s : State)
    (h0 : m .host = true) (h1 : m .rings = true) (h2 : m .pair = true) (h3 : m .out = true) :
    view m (placeCompletion a0 a1 a2 a3 s) = view m s := by simp [placeCompletion, *]
@[simp] theorem view_dropCmd {m : Piece → Bool} (a0 : Nat) (s : State)
    (h0 : m .host = true) (h1 : m .cmds = true) :
    view m (dropCmd a0 s) = view m s := by simp [dropCmd, *]
@[simp] theorem view_giveUpPlace {m : Piece → Bool} (a0 : Nat) (a1 : Bool) (s : State)
    (h0 : m .host = true) (h1 : m .rings = true) :
    view m (giveUpPlace a0 a1 s) = view m s := by simp [giveUpPlace, *]
@[simp] theorem view_finishOne {m : Piece → Bool} (a0 a1 : Nat) (s : State) (a3 : Nat)
    (h0 : m .host = true) (h1 : m .rings = true) (h2 : m .cmds = true) (h3 : m .pair = true) (h4 : m .out = true) :
    view m (finishOne a0 a1 s a3) = view m s := by unfold finishOne; (repeat' split) <;> simp [*]
@[simp] theorem view_settleRing {m : Piece → Bool} (a0 : Nat) (s : State)
    (h0 : m .host = true) (h1 : m .rings = true) :
    view m (settleRing a0 s) = view m s := by simp [settleRing, *]
@[simp] theorem view_postRing {m : Piece → Bool} (a0 a1 : Nat) (s : State)
    (h0 : m .host = true) (h1 : m .rings = true) (h2 : m .cmds = true) (h3 : m .hem = true) (h4 : m .pair = true) (h5 : m .events = true) (h6 : m .out = true) :
    view m (postRing a0 a1 s) = view m s := by simp [postRing, *]
@[simp] theorem view_moveCserai {m : Piece → Bool} (a0 a1 a2 : Nat) (s : State)
    (h0 : m .host = true) (h1 : m .rings = true) (h2 : m .pair = true) (h3 : m .out = true) :
    view m (moveCserai a0 a1 a2 s) = view m s := by fun_induction moveCserai a0 a1 a2 s <;> simp_all
@[simp] theorem view_moveDue {m : Piece → Bool} (a0 : Nat) (s : State)
    (h0 : m .host = true) (h1 : m .rings = true) (h2 : m .hem = true) (h3 : m .pair = true) (h4 : m .events = true) (h5 : m .out = true) :
    view m (moveDue a0 s) = view m s := by
  unfold moveDue
  dsimp only
  (repeat' split) <;> simp [*]
@[simp] theorem view_moveAllDue {m : Piece → Bool} (s : State)
    (h0 : m .host = true) (h1 : m .rings = true) (h2 : m .hem = true) (h3 : m .pair = true) (h4 : m .events = true) (h5 : m .out = true) :
    view m (moveAllDue s) = view m s := by simp [moveAllDue, *]
@[simp] theorem view_writeCqCi {m : Piece → Bool} (a0 : Nat) (a1 : Word) (s : State)
    (h0 : m .host = true) (h1 : m .rings = true) (h2 : m .hem = true) (h3 : m .pair = true) (h4 : m .events = true) (h5 : m .out = true) :
    view m (writeCqCi a0 a1 s) = view m s := by simp [writeCqCi, *]
@[simp] theorem view_discardRing {m : Piece → Bool} (a0 : Nat) (s : State)
    (h0 : m .host = true) (h1 : m .rings = true) (h2 : m .cmds = true) (h3 : m .pair = true) (h4 : m .out = true) :
    view m (discardRing a0 s) = view m s := by simp [discardRing, *]
@[simp] theorem view_enableRing {m : Piece → Bool} (a0 a1 : Nat) (s : State)
    (h0 : m .free = true) (h1 : m .host = true) (h2 : m .rings = true) :
    view m (enableRing a0 a1 s) = view m s := by simp [enableRing, *]
@[simp] theorem view_disableRing {m : Piece → Bool} (a0 : Nat) (s : State)
    (h0 : m .host = true) (h1 : m .rings = true) (h2 : m .cmds = true) (h3 : m .pair = true) (h4 : m .out = true) :
    view m (disableRing a0 s) = view m s := by simp [disableRing, *]
@[simp] theorem view_writeDepth {m : Piece → Bool} (a0 a1 : Nat) (s : State)
    (h0 : m .free = true) (h1 : m .host = true) (h2 : m .rings = true) :
    view m (writeDepth a0 a1 s) = view m s := by simp [writeDepth, *]
@[simp] theorem view_writeRngCfg {m : Piece → Bool} (a0 a1 : Nat) (a2 : Word) (s : State)
    (h0 : m .free = true) (h1 : m .host = true) (h2 : m .rings = true) (h3 : m .cmds = true) (h4 : m .pair = true) (h5 : m .out = true) :
    view m (writeRngCfg a0 a1 a2 s) = view m s := by simp [writeRngCfg, *]
@[simp] theorem view_writeRingAddr {m : Piece → Bool} (a0 : Nat) (a1 : Ring → Word) (a2 : Word → Ring → Ring) (a3 : Word) (s : State)
    (h0 : m .free = true) (h1 : m .host = true) (h2 : m .rings = true) :
    view m (writeRingAddr a0 a1 a2 a3 s) = view m s := by simp [writeRingAddr, *]
@[simp] theorem view_touchPage {m : Piece → Bool} (a0 : Nat) (a1 : Option Nat) (s : State)
    (h0 : m .ledger = true) :
    view m (touchPage a0 a1 s) = view m s := by simp [touchPage, *]
@[simp] theorem view_bornPage {m : Piece → Bool} (a0 : Nat) (s : State)
    (h0 : m .ledger = true) :
    view m (bornPage a0 s) = view m s := by simp [bornPage, *]
@[simp] theorem view_prefetchLine {m : Piece → Bool} (a0 a1 : Nat) (s : State)
    (h0 : m .smc = true) :
    view m (prefetchLine a0 a1 s) = view m s := by simp [prefetchLine, *]
@[simp] theorem view_parkLookup {m : Piece → Bool} (a0 a1 a2 : Nat) (a3 : Requester) (s : State)
    (h0 : m .ledger = true) (h1 : m .entries = true) (h2 : m .slots = true) (h3 : m .smc = true) (h4 : m .lines = true) :
    view m (parkLookup a0 a1 a2 a3 s) = view m s := by simp [parkLookup, *]
@[simp] theorem view_missSub {m : Piece → Bool} (a0 a1 a2 : Nat) (a3 : Option Nat) (a4 : Bool) (a5 : Requester) (s : State)
    (h0 : m .ledger = true) (h1 : m .entries = true) (h2 : m .slots = true) (h3 : m .smc = true) (h4 : m .lines = true) :
    view m (missSub a0 a1 a2 a3 a4 a5 s).2 = view m s := by
  unfold missSub
  dsimp only
  (repeat' split) <;> simp [*]
@[simp] theorem view_lookWay {m : Piece → Bool} (a0 : Nat) (a1 : SmcLine) (a2 a3 a4 : Nat) (a5 : Bool) (a6 : Requester) (s : State)
    (h0 : m .ledger = true) (h1 : m .entries = true) (h2 : m .slots = true) (h3 : m .smc = true) (h4 : m .lines = true) :
    view m (lookWay a0 a1 a2 a3 a4 a5 a6 s).2 = view m s := by unfold lookWay; (repeat' split) <;> simp [*]
@[simp] theorem view_lookCore {m : Piece → Bool} (a0 a1 a2 : Nat) (a3 : Bool) (a4 : Requester) (s : State)
    (h0 : m .ledger = true) (h1 : m .entries = true) (h2 : m .slots = true) (h3 : m .smc = true) (h4 : m .lines = true) :
    view m (lookCore a0 a1 a2 a3 a4 s).2 = view m s := by
  unfold lookCore
  dsimp only
  (repeat' split) <;> simp [*]
@[simp] theorem view_afterLook {m : Piece → Bool} (a0 a1 a2 : Nat) (s : State)
    (h0 : m .smc = true) :
    view m (afterLook a0 a1 a2 s) = view m s := by simp [afterLook, *]
@[simp] theorem view_smcLookup {m : Piece → Bool} (a0 a1 a2 : Nat) (a3 : Bool) (a4 : Requester) (s : State)
    (h0 : m .ledger = true) (h1 : m .entries = true) (h2 : m .slots = true) (h3 : m .smc = true) (h4 : m .lines = true) :
    view m (smcLookup a0 a1 a2 a3 a4 s).2 = view m s := by
  unfold smcLookup
  dsimp only
  (repeat' split) <;> simp [*]
@[simp] theorem view_askLook {m : Piece → Bool} (a0 : Parked) (s : State)
    (h0 : m .ledger = true) (h1 : m .entries = true) (h2 : m .slots = true) (h3 : m .smc = true) (h4 : m .lines = true) :
    view m (askLook a0 s) = view m s := by
  unfold askLook
  split
  all_goals
    rename_i h
    have e := congrArg (fun x => view m x.2) h
    simp [h0, h1, h2, h3, h4] at e
    simp [e, h0, h1, h2, h3, h4]
@[simp] theorem view_smcAsk {m : Piece → Bool} (a0 a1 : Nat) (a2 : WorkClass) (s : State)
    (h0 : m .ledger = true) (h1 : m .entries = true) (h2 : m .slots = true) (h3 : m .smc = true) (h4 : m .lines = true) :
    view m (smcAsk a0 a1 a2 s).2 = view m s := by simp [smcAsk, *]
@[simp] theorem view_askAgain {m : Piece → Bool} (s : State)
    (h0 : m .ledger = true) (h1 : m .entries = true) (h2 : m .slots = true) (h3 : m .smc = true) (h4 : m .lines = true) :
    view m (askAgain s) = view m s := by simp [askAgain, *]
@[simp] theorem view_installFill {m : Piece → Bool} (a0 : Fill) (s : State)
    (h0 : m .smc = true) (h1 : m .lines = true) :
    view m (installFill a0 s) = view m s := by unfold installFill; (repeat' split) <;> simp [*]
@[simp] theorem view_answerLook {m : Piece → Bool} (s : State) (a1 : Requester × Nat) (a2 : Nat)
    (h0 : m .host = true) (h1 : m .cmds = true) :
    view m (answerLook s a1 a2) = view m s := by unfold answerLook; split <;> simp [*]
@[simp] theorem view_sideUsed {m : Piece → Bool} (a0 : Fill) (s : State)
    (h0 : m .smc = true) (h1 : m .lines = true) :
    view m (sideUsed a0 s) = view m s := by unfold sideUsed; (repeat' split) <;> simp [*]
@[simp] theorem view_endFill {m : Piece → Bool} (a0 : Fill) (s : State)
    (h0 : m .host = true) (h1 : m .cmds = true) (h2 : m .ledger = true) (h3 : m .entries = true) (h4 : m .slots = true) (h5 : m .smc = true) (h6 : m .lines = true) :
    view m (endFill a0 s) = view m s := by simp [endFill, *]
@[simp] theorem view_preloadRun {m : Piece → Bool} (a0 : Nat) (s : State)
    (h0 : m .ledger = true) (h1 : m .entries = true) (h2 : m .slots = true) (h3 : m .smc = true) (h4 : m .lines = true) :
    view m (preloadRun a0 s) = view m s := by
  induction a0 generalizing s with
  | zero => rfl
  | succ n ih =>
    unfold preloadRun
    split
    · rfl
    · split
      · rfl
      · dsimp only
        split
        · simp [ih, h0, h1, h2, h3, h4]
        · split
          · simp [ih, h0, h1, h2, h3, h4]
          · split
            all_goals
              rename_i h
              have e := congrArg (fun x => view m x.2) h
              simp [h0, h1, h2, h3, h4] at e
              simp [ih, e, h0, h1, h2, h3, h4]
@[simp] theorem view_preloadStep {m : Piece → Bool} (s : State)
    (h0 : m .ledger = true) (h1 : m .entries = true) (h2 : m .slots = true) (h3 : m .smc = true) (h4 : m .lines = true) :
    view m (preloadStep s) = view m s := by unfold preloadStep; split <;> simp [*]
@[simp] theorem view_beginPreload {m : Piece → Bool} (a0 : Preload) (s : State)
    (h0 : m .ledger = true) (h1 : m .entries = true) (h2 : m .slots = true) (h3 : m .smc = true) (h4 : m .lines = true) (h5 : m .hem = true) (h6 : m .events = true) :
    view m (beginPreload a0 s) = view m s := by simp [beginPreload, *]
@[simp] theorem view_startHeld {m : Piece → Bool} (s : State)
    (h0 : m .ledger = true) (h1 : m .entries = true) (h2 : m .slots = true) (h3 : m .smc = true) (h4 : m .lines = true) (h5 : m .hem = true) (h6 : m .events = true) :
    view m (startHeld s) = view m s := by unfold startHeld; split <;> simp [*]
@[simp] theorem view_writePreload {m : Piece → Bool} (a0 : Nat) (a1 : Word) (s : State)
    (h0 : m .ledger = true) (h1 : m .entries = true) (h2 : m .slots = true) (h3 : m .smc = true) (h4 : m .lines = true) (h5 : m .hem = true) (h6 : m .events = true) :
    view m (writePreload a0 a1 s) = view m s := by simp [writePreload, *]
@[simp] theorem view_endPreload {m : Piece → Bool} (s : State)
    (h0 : m .smc = true) (h1 : m .lines = true) (h2 : m .hem = true) (h3 : m .events = true) :
    view m (endPreload s) = view m s := by unfold endPreload; split <;> simp [*]
@[simp] theorem view_unlockAll {m : Piece → Bool} (a0 : Nat) (s : State)
    (h0 : m .smc = true) (h1 : m .lines = true) :
    view m (unlockAll a0 s) = view m s := by simp [unlockAll, *]
@[simp] theorem view_afterFill {m : Piece → Bool} (s : State)
    (h0 : m .ledger = true) (h1 : m .entries = true) (h2 : m .slots = true) (h3 : m .smc = true) (h4 : m .lines = true) :
    view m (afterFill s) = view m s := by simp [afterFill, *]
@[simp] theorem view_representParked {m : Piece → Bool} (a0 : Parked) (s : State)
    (h0 : m .host = true) (h1 : m .cmds = true) (h2 : m .ledger = true) (h3 : m .entries = true) (h4 : m .slots = true) (h5 : m .smc = true) (h6 : m .lines = true) :
    view m (representParked a0 s) = view m s := by
  unfold representParked
  dsimp only
  split
  all_goals
    rename_i h
    have e := congrArg (fun x => view m x.2) h
    simp [h0, h1, h2, h3, h4, h5, h6] at e
    simp [e, h0, h1, h2, h3, h4, h5, h6]
@[simp] theorem view_drainMerge {m : Piece → Bool} (s : State)
    (h0 : m .ledger = true) (h1 : m .smc = true) :
    view m (drainMerge s) = view m s := by unfold drainMerge; split <;> simp [*]
@[simp] theorem view_sendOffer {m : Piece → Bool} (s : State)
    (h0 : m .ledger = true) (h1 : m .smc = true) :
    view m (sendOffer s) = view m s := by unfold sendOffer; split <;> simp [*]
@[simp] theorem view_answerOffer {m : Piece → Bool} (a0 : Evict) (s : State)
    (h0 : m .ledger = true) (h1 : m .entries = true) (h2 : m .slots = true) (h3 : m .smc = true) (h4 : m .lines = true) :
    view m (answerOffer a0 s) = view m s := by simp [answerOffer, *]
@[simp] theorem view_settleSmc {m : Piece → Bool} (s : State)
    (h0 : m .host = true) (h1 : m .cmds = true) (h2 : m .ledger = true) (h3 : m .entries = true) (h4 : m .slots = true) (h5 : m .smc = true) (h6 : m .lines = true) (h7 : m .hem = true) (h8 : m .events = true) :
    view m (settleSmc s) = view m s := by simp [settleSmc, *]
@[simp] theorem view_mergeWrite {m : Piece → Bool} (a0 : Nat) (a1 : LEntry) (s : State)
    (h0 : m .ledger = true) (h1 : m .smc = true) :
    view m (mergeWrite a0 a1 s) = view m s := by simp [mergeWrite, *]
@[simp] theorem view_smcWrite {m : Piece → Bool} (a0 : Nat) (a1 : LEntry) (s : State)
    (h0 : m .ledger = true) (h1 : m .smc = true) (h2 : m .lines = true) :
    view m (smcWrite a0 a1 s) = view m s := by simp [smcWrite, *]
@[simp] theorem view_smcInvalidate {m : Piece → Bool} (a0 a1 a2 : Nat) (s : State)
    (h0 : m .smc = true) (h1 : m .lines = true) (h2 : m .hem = true) (h3 : m .events = true) :
    view m (smcInvalidate a0 a1 a2 s) = view m s := by simp [smcInvalidate, *]
@[simp] theorem view_setSlot {m : Piece → Bool} (a0 : Nat) (a1 : SlotRec) (s : State)
    (h0 : m .ledger = true) (h1 : m .slots = true) :
    view m (setSlot a0 a1 s) = view m s := by simp [setSlot, *]
@[simp] theorem view_setStat {m : Piece → Bool} (a0 : Nat) (a1 : SlotStat) (s : State)
    (h0 : m .drives = true) :
    view m (setStat a0 a1 s) = view m s := by simp [setStat, *]
@[simp] theorem view_setPg {m : Piece → Bool} (a0 : Nat) (a1 : Pg) (s : State)
    (h0 : m .ledger = true) :
    view m (setPg a0 a1 s) = view m s := by simp [setPg, *]
@[simp] theorem view_keepRun {m : Piece → Bool} (a0 : Nat × Nat × Nat) (s : State)
    (h0 : m .drone = true) (h1 : m .hem = true) (h2 : m .events = true) :
    view m (keepRun a0 s) = view m s := by simp [keepRun, *]
@[simp] theorem view_takeRun {m : Piece → Bool} (s : State) (a1 : Nat × Nat × Nat)
    (h0 : m .drone = true) (h1 : m .ledger = true) (h2 : m .slots = true) (h3 : m .hem = true) (h4 : m .events = true) :
    view m (takeRun s a1) = view m s := by simp [takeRun, *]
@[simp] theorem view_releaseRun {m : Piece → Bool} (a0 : Nat) (s : State) (a2 : Nat × Nat × Nat)
    (h0 : m .ledger = true) :
    view m (releaseRun a0 s a2) = view m s := by simp [releaseRun, *]
@[simp] theorem view_releaseKept {m : Piece → Bool} (a0 : Nat) (s : State)
    (h0 : m .ledger = true) :
    view m (releaseKept a0 s) = view m s := by simp [releaseKept, *]
@[simp] theorem view_bumpFill {m : Piece → Bool} (a0 : Nat) (a1 : Nat → Nat) (s : State)
    (h0 : m .ledger = true) :
    view m (bumpFill a0 a1 s) = view m s := by simp [bumpFill, *]
@[simp] theorem view_applyEntry {m : Piece → Bool} (a0 : Nat) (a1 : LEntry) (s : State)
    (h0 : m .drone = true) (h1 : m .ledger = true) (h2 : m .entries = true) (h3 : m .slots = true) (h4 : m .smc = true) (h5 : m .lines = true) (h6 : m .hem = true) (h7 : m .events = true) :
    view m (applyEntry a0 a1 s) = view m s := by simp [applyEntry, *]
@[simp] theorem view_applySnapshot {m : Piece → Bool} (a0 : List Byte) (s : State)
    (h0 : m .ledger = true) :
    view m (applySnapshot a0 s) = view m s := by simp [applySnapshot, *]
@[simp] theorem view_applySlot {m : Piece → Bool} (a0 : Nat) (a1 : List Byte) (s : State)
    (h0 : m .ledger = true) (h1 : m .slots = true) (h2 : m .drives = true) :
    view m (applySlot a0 a1 s) = view m s := by simp [applySlot, *]
@[simp] theorem view_applyVolume {m : Piece → Bool} (a0 : Nat) (a1 : Option Volume) (s : State)
    (h0 : m .host = true) (h1 : m .volumes = true) :
    view m (applyVolume a0 a1 s) = view m s := by simp [applyVolume, *]
@[simp] theorem view_toCompact {m : Piece → Bool} (a0 : Nat) (s : State)
    (h0 : m .ledger = true) :
    view m (toCompact a0 s) = view m s := by simp [toCompact, *]
@[simp] theorem view_noteMask {m : Piece → Bool} (a0 : Nat) (s : State)
    (h0 : m .ledger = true) :
    view m (noteMask a0 s) = view m s := by simp [noteMask, *]
@[simp] theorem view_applyRec {m : Piece → Bool} (a0 : LRec) (s : State)
    (h0 : m .drone = true) (h1 : m .host = true) (h2 : m .volumes = true) (h3 : m .ledger = true) (h4 : m .entries = true) (h5 : m .slots = true) (h6 : m .smc = true) (h7 : m .lines = true) (h8 : m .drives = true) (h9 : m .hem = true) (h10 : m .events = true) :
    view m (applyRec a0 s) = view m s := by unfold applyRec; split <;> simp [*]
@[simp] theorem view_putRec {m : Piece → Bool} (a0 : JRec) (s : State)
    (h0 : m .cache = true) (h1 : m .appendQ = true) (h2 : m .pair = true) :
    view m (putRec a0 s) = view m s := by simp [putRec, *]
@[simp] theorem view_logRec {m : Piece → Bool} (a0 : LRec) (s : State)
    (h0 : m .ledger = true) (h1 : m .cache = true) (h2 : m .appendQ = true) (h3 : m .pair = true) (h4 : m .out = true) :
    view m (logRec a0 s) = view m s := by simp [logRec, *]
@[simp] theorem view_ledgerChange {m : Piece → Bool} (a0 : LType) (a1 a2 : Nat) (a3 : List Byte) (s : State)
    (h0 : m .drone = true) (h1 : m .host = true) (h2 : m .volumes = true) (h3 : m .ledger = true) (h4 : m .entries = true) (h5 : m .slots = true) (h6 : m .smc = true) (h7 : m .lines = true) (h8 : m .cache = true) (h9 : m .appendQ = true) (h10 : m .drives = true) (h11 : m .hem = true) (h12 : m .pair = true) (h13 : m .events = true) (h14 : m .out = true) :
    view m (ledgerChange a0 a1 a2 a3 s) = view m s := by simp [ledgerChange, *]
@[simp] theorem view_changeEntry {m : Piece → Bool} (a0 : LType) (a1 : Nat) (a2 : LEntry → LEntry) (a3 : List Byte) (s : State)
    (h0 : m .drone = true) (h1 : m .host = true) (h2 : m .volumes = true) (h3 : m .ledger = true) (h4 : m .entries = true) (h5 : m .slots = true) (h6 : m .smc = true) (h7 : m .lines = true) (h8 : m .cache = true) (h9 : m .appendQ = true) (h10 : m .drives = true) (h11 : m .hem = true) (h12 : m .pair = true) (h13 : m .events = true) (h14 : m .out = true) :
    view m (changeEntry a0 a1 a2 a3 s) = view m s := by simp [changeEntry, *]
@[simp] theorem view_changePg {m : Piece → Bool} (a0 : Nat) (a1 : Pg → Pg) (s : State)
    (h0 : m .drone = true) (h1 : m .host = true) (h2 : m .volumes = true) (h3 : m .ledger = true) (h4 : m .entries = true) (h5 : m .slots = true) (h6 : m .smc = true) (h7 : m .lines = true) (h8 : m .cache = true) (h9 : m .appendQ = true) (h10 : m .drives = true) (h11 : m .hem = true) (h12 : m .pair = true) (h13 : m .events = true) (h14 : m .out = true) :
    view m (changePg a0 a1 s) = view m s := by simp [changePg, *]
@[simp] theorem view_settlePg {m : Piece → Bool} (a0 : Nat) (s : State)
    (h0 : m .drone = true) (h1 : m .host = true) (h2 : m .volumes = true) (h3 : m .ledger = true) (h4 : m .entries = true) (h5 : m .slots = true) (h6 : m .smc = true) (h7 : m .lines = true) (h8 : m .cache = true) (h9 : m .appendQ = true) (h10 : m .drives = true) (h11 : m .hem = true) (h12 : m .pair = true) (h13 : m .events = true) (h14 : m .out = true) :
    view m (settlePg a0 s) = view m s := by simp [settlePg, *]
@[simp] theorem view_changeSlot {m : Piece → Bool} (a0 : Nat) (a1 : SlotRec → SlotRec) (a2 : SlotStat → SlotStat) (s : State)
    (h0 : m .drone = true) (h1 : m .host = true) (h2 : m .volumes = true) (h3 : m .ledger = true) (h4 : m .entries = true) (h5 : m .slots = true) (h6 : m .smc = true) (h7 : m .lines = true) (h8 : m .cache = true) (h9 : m .appendQ = true) (h10 : m .drives = true) (h11 : m .hem = true) (h12 : m .pair = true) (h13 : m .events = true) (h14 : m .out = true) :
    view m (changeSlot a0 a1 a2 s) = view m s := by simp [changeSlot, *]
@[simp] theorem view_changeVol {m : Piece → Bool} (a0 : Nat) (a1 : Option Volume) (s : State)
    (h0 : m .drone = true) (h1 : m .host = true) (h2 : m .volumes = true) (h3 : m .ledger = true) (h4 : m .entries = true) (h5 : m .slots = true) (h6 : m .smc = true) (h7 : m .lines = true) (h8 : m .cache = true) (h9 : m .appendQ = true) (h10 : m .drives = true) (h11 : m .hem = true) (h12 : m .pair = true) (h13 : m .events = true) (h14 : m .out = true) :
    view m (changeVol a0 a1 s) = view m s := by simp [changeVol, *]
@[simp] theorem view_newPg {m : Piece → Bool} (a0 : Nat) (a1 : Volume) (a2 : List Nat) (s : State)
    (h0 : m .drone = true) (h1 : m .host = true) (h2 : m .volumes = true) (h3 : m .ledger = true) (h4 : m .entries = true) (h5 : m .slots = true) (h6 : m .smc = true) (h7 : m .lines = true) (h8 : m .cache = true) (h9 : m .appendQ = true) (h10 : m .drives = true) (h11 : m .hem = true) (h12 : m .pair = true) (h13 : m .events = true) (h14 : m .out = true) :
    view m (newPg a0 a1 a2 s) = view m s := by simp [newPg, *]
@[simp] theorem view_placeParcel {m : Piece → Bool} (a0 : Nat) (a1 : Volume) (a2 : List Nat) (s : State)
    (h0 : m .drone = true) (h1 : m .host = true) (h2 : m .volumes = true) (h3 : m .ledger = true) (h4 : m .entries = true) (h5 : m .slots = true) (h6 : m .smc = true) (h7 : m .lines = true) (h8 : m .cache = true) (h9 : m .appendQ = true) (h10 : m .drives = true) (h11 : m .hem = true) (h12 : m .pair = true) (h13 : m .events = true) (h14 : m .out = true) :
    view m (placeParcel a0 a1 a2 s).2 = view m s := by
  unfold placeParcel
  dsimp only
  (repeat' split) <;> simp [*]
@[simp] theorem view_firstPlace {m : Piece → Bool} (a0 : Nat) (a1 : Volume) (s : State)
    (h0 : m .drone = true) (h1 : m .host = true) (h2 : m .volumes = true) (h3 : m .ledger = true) (h4 : m .entries = true) (h5 : m .slots = true) (h6 : m .smc = true) (h7 : m .lines = true) (h8 : m .cache = true) (h9 : m .appendQ = true) (h10 : m .drives = true) (h11 : m .hem = true) (h12 : m .pair = true) (h13 : m .events = true) (h14 : m .out = true) :
    view m (firstPlace a0 a1 s).2 = view m s := by
  unfold firstPlace
  dsimp only
  (repeat' split) <;> simp [*]
@[simp] theorem view_deallocRun {m : Piece → Bool} (a0 a1 a2 : Nat) (s : State)
    (h0 : m .drone = true) :
    view m (deallocRun a0 a1 a2 s) = view m s := by simp [deallocRun, *]
@[simp] theorem view_freeWaitRun {m : Piece → Bool} (s : State) (a1 : FreeWait)
    (h0 : m .drone = true) (h1 : m .ledger = true) (h2 : m .slots = true) (h3 : m .hem = true) (h4 : m .events = true) :
    view m (freeWaitRun s a1) = view m s := by simp [freeWaitRun, *]
@[simp] theorem view_freeRuns {m : Piece → Bool} (s : State)
    (h0 : m .drone = true) (h1 : m .ledger = true) (h2 : m .slots = true) (h3 : m .hem = true) (h4 : m .events = true) :
    view m (freeRuns s) = view m s := by simp [freeRuns, *]
@[simp] theorem view_refuseSlot {m : Piece → Bool} (a0 : Nat) (s : State)
    (h0 : m .ledger = true) (h1 : m .slots = true) :
    view m (refuseSlot a0 s) = view m s := by simp [refuseSlot, *]
@[simp] theorem view_writeTag {m : Piece → Bool} (a0 : Nat) (a1 : Word) (s : State)
    (h0 : m .drone = true) (h1 : m .host = true) (h2 : m .volumes = true) (h3 : m .ledger = true) (h4 : m .entries = true) (h5 : m .slots = true) (h6 : m .smc = true) (h7 : m .lines = true) (h8 : m .cache = true) (h9 : m .appendQ = true) (h10 : m .drives = true) (h11 : m .hem = true) (h12 : m .pair = true) (h13 : m .events = true) (h14 : m .out = true) :
    view m (writeTag a0 a1 s) = view m s := by simp [writeTag, *]
@[simp] theorem view_abandonMove {m : Piece → Bool} (a0 : Nat) (s : State)
    (h0 : m .drone = true) (h1 : m .host = true) (h2 : m .volumes = true) (h3 : m .ledger = true) (h4 : m .entries = true) (h5 : m .slots = true) (h6 : m .smc = true) (h7 : m .lines = true) (h8 : m .cache = true) (h9 : m .appendQ = true) (h10 : m .drives = true) (h11 : m .hem = true) (h12 : m .pair = true) (h13 : m .events = true) (h14 : m .out = true) :
    view m (abandonMove a0 s) = view m s := by simp [abandonMove, *]
@[simp] theorem view_beginDrain {m : Piece → Bool} (a0 : Nat) (s : State)
    (h0 : m .drone = true) (h1 : m .host = true) (h2 : m .volumes = true) (h3 : m .ledger = true) (h4 : m .entries = true) (h5 : m .slots = true) (h6 : m .smc = true) (h7 : m .lines = true) (h8 : m .cache = true) (h9 : m .appendQ = true) (h10 : m .drives = true) (h11 : m .hem = true) (h12 : m .pair = true) (h13 : m .events = true) (h14 : m .out = true) :
    view m (beginDrain a0 s) = view m s := by simp [beginDrain, *]
@[simp] theorem view_endDrain {m : Piece → Bool} (a0 : Nat) (s : State)
    (h0 : m .drone = true) (h1 : m .host = true) (h2 : m .volumes = true) (h3 : m .ledger = true) (h4 : m .entries = true) (h5 : m .slots = true) (h6 : m .smc = true) (h7 : m .lines = true) (h8 : m .cache = true) (h9 : m .appendQ = true) (h10 : m .drives = true) (h11 : m .hem = true) (h12 : m .pair = true) (h13 : m .events = true) (h14 : m .out = true) :
    view m (endDrain a0 s) = view m s := by simp [endDrain, *]
@[simp] theorem view_writeSlotCtl {m : Piece → Bool} (a0 : Nat) (a1 : Bool) (s : State)
    (h0 : m .drone = true) (h1 : m .host = true) (h2 : m .volumes = true) (h3 : m .ledger = true) (h4 : m .entries = true) (h5 : m .slots = true) (h6 : m .smc = true) (h7 : m .lines = true) (h8 : m .cache = true) (h9 : m .appendQ = true) (h10 : m .drives = true) (h11 : m .hem = true) (h12 : m .pair = true) (h13 : m .events = true) (h14 : m .out = true) :
    view m (writeSlotCtl a0 a1 s) = view m s := by simp [writeSlotCtl, *]
@[simp] theorem view_snapParts {m : Piece → Bool} (a0 a1 : Nat) (a2 : List (List Nat)) (s : State)
    (h0 : m .drone = true) (h1 : m .host = true) (h2 : m .volumes = true) (h3 : m .ledger = true) (h4 : m .entries = true) (h5 : m .slots = true) (h6 : m .smc = true) (h7 : m .lines = true) (h8 : m .cache = true) (h9 : m .appendQ = true) (h10 : m .drives = true) (h11 : m .hem = true) (h12 : m .pair = true) (h13 : m .events = true) (h14 : m .out = true) :
    view m (snapParts a0 a1 a2 s) = view m s := by fun_induction snapParts a0 a1 a2 s <;> simp_all
@[simp] theorem view_takeSnapshot {m : Piece → Bool} (s : State)
    (h0 : m .drone = true) (h1 : m .host = true) (h2 : m .volumes = true) (h3 : m .ledger = true) (h4 : m .entries = true) (h5 : m .slots = true) (h6 : m .smc = true) (h7 : m .lines = true) (h8 : m .cache = true) (h9 : m .appendQ = true) (h10 : m .drives = true) (h11 : m .hem = true) (h12 : m .pair = true) (h13 : m .events = true) (h14 : m .out = true) :
    view m (takeSnapshot s) = view m s := by simp [takeSnapshot, *]
@[simp] theorem view_startReloc {m : Piece → Bool} (a0 a1 a2 a3 : Nat) (s : State)
    (h0 : m .drone = true) (h1 : m .host = true) (h2 : m .volumes = true) (h3 : m .ledger = true) (h4 : m .entries = true) (h5 : m .slots = true) (h6 : m .smc = true) (h7 : m .lines = true) (h8 : m .cache = true) (h9 : m .appendQ = true) (h10 : m .drives = true) (h11 : m .hem = true) (h12 : m .pair = true) (h13 : m .events = true) (h14 : m .out = true) :
    view m (startReloc a0 a1 a2 a3 s) = view m s := by simp [startReloc, *]
@[simp] theorem view_finishReloc {m : Piece → Bool} (a0 : Nat) (a1 : Bool) (s : State)
    (h0 : m .drone = true) (h1 : m .host = true) (h2 : m .volumes = true) (h3 : m .ledger = true) (h4 : m .entries = true) (h5 : m .slots = true) (h6 : m .smc = true) (h7 : m .lines = true) (h8 : m .cache = true) (h9 : m .appendQ = true) (h10 : m .drives = true) (h11 : m .hem = true) (h12 : m .pair = true) (h13 : m .events = true) (h14 : m .out = true) :
    view m (finishReloc a0 a1 s) = view m s := by simp [finishReloc, *]
@[simp] theorem view_queueReplace {m : Piece → Bool} (a0 : Nat) (s : State)
    (h0 : m .ledger = true) (h1 : m .hem = true) (h2 : m .events = true) :
    view m (queueReplace a0 s) = view m s := by simp [queueReplace, *]
@[simp] theorem view_startMove {m : Piece → Bool} (a0 a1 : Nat) (s : State)
    (h0 : m .drone = true) (h1 : m .host = true) (h2 : m .volumes = true) (h3 : m .ledger = true) (h4 : m .entries = true) (h5 : m .slots = true) (h6 : m .smc = true) (h7 : m .lines = true) (h8 : m .cache = true) (h9 : m .appendQ = true) (h10 : m .drives = true) (h11 : m .hem = true) (h12 : m .pair = true) (h13 : m .events = true) (h14 : m .out = true) :
    view m (startMove a0 a1 s).2 = view m s := by
  unfold startMove
  split
  · rfl
  · dsimp only
    (repeat' split) <;> simp [h0, h1, h2, h3, h4, h5, h6, h7, h8, h9, h10, h11, h12, h13, h14]
@[simp] theorem view_nextMove {m : Piece → Bool} (s : State)
    (h0 : m .drone = true) (h1 : m .host = true) (h2 : m .volumes = true) (h3 : m .ledger = true) (h4 : m .entries = true) (h5 : m .slots = true) (h6 : m .smc = true) (h7 : m .lines = true) (h8 : m .cache = true) (h9 : m .appendQ = true) (h10 : m .drives = true) (h11 : m .hem = true) (h12 : m .pair = true) (h13 : m .events = true) (h14 : m .out = true) :
    view m (nextMove s) = view m s := by
  unfold nextMove
  exact view_foldl_snd _ _ _ fun t x => by split <;> simp [h0, h1, h2, h3, h4, h5, h6, h7, h8, h9, h10, h11, h12, h13, h14]
@[simp] theorem view_commitMove {m : Piece → Bool} (a0 : Nat) (a1 : Migration) (s : State)
    (h0 : m .drone = true) (h1 : m .host = true) (h2 : m .volumes = true) (h3 : m .ledger = true) (h4 : m .entries = true) (h5 : m .slots = true) (h6 : m .smc = true) (h7 : m .lines = true) (h8 : m .cache = true) (h9 : m .appendQ = true) (h10 : m .drives = true) (h11 : m .hem = true) (h12 : m .pair = true) (h13 : m .events = true) (h14 : m .out = true) :
    view m (commitMove a0 a1 s) = view m s := by simp [commitMove, *]
@[simp] theorem view_releaseParcel {m : Piece → Bool} (a0 : Nat) (s : State)
    (h0 : m .drone = true) (h1 : m .host = true) (h2 : m .volumes = true) (h3 : m .ledger = true) (h4 : m .entries = true) (h5 : m .slots = true) (h6 : m .smc = true) (h7 : m .lines = true) (h8 : m .cache = true) (h9 : m .appendQ = true) (h10 : m .drives = true) (h11 : m .hem = true) (h12 : m .pair = true) (h13 : m .events = true) (h14 : m .out = true) :
    view m (releaseParcel a0 s) = view m s := by simp [releaseParcel, *]
@[simp] theorem view_writePgSel {m : Piece → Bool} (a0 : Word) (s : State)
    (h0 : m .ledger = true) :
    view m (writePgSel a0 s) = view m s := by simp [writePgSel, *]
@[simp] theorem view_writeMigCfg {m : Piece → Bool} (a0 : Word) (s : State)
    (h0 : m .ledger = true) :
    view m (writeMigCfg a0 s) = view m s := by simp [writeMigCfg, *]
@[simp] theorem view_adoptMigCfg {m : Piece → Bool} (s : State)
    (h0 : m .ledger = true) :
    view m (adoptMigCfg s) = view m s := by unfold adoptMigCfg; split <;> simp [*]
@[simp] theorem view_modJob {m : Piece → Bool} (a0 : Nat) (a1 : Job → Job) (s : State)
    (h0 : m .jobs = true) :
    view m (modJob a0 a1 s) = view m s := by unfold modJob; split <;> simp [*]
@[simp] theorem view_endJob {m : Piece → Bool} (a0 : Nat) (s : State)
    (h0 : m .drone = true) (h1 : m .jobs = true) :
    view m (endJob a0 s) = view m s := by unfold endJob; split <;> simp [*]
@[simp] theorem view_passBuffers {m : Piece → Bool} (a0 a1 : Nat) (s : State)
    (h0 : m .jobs = true) :
    view m (passBuffers a0 a1 s) = view m s := by unfold passBuffers; split <;> simp [*]
@[simp] theorem view_moreWork {m : Piece → Bool} (a0 : Nat) (a1 : List Work) (s : State)
    (h0 : m .drone = true) (h1 : m .jobs = true) :
    view m (moreWork a0 a1 s) = view m s := by unfold moreWork; split <;> simp [*]
@[simp] theorem view_cancelJob {m : Piece → Bool} (a0 : Nat) (s : State)
    (h0 : m .drone = true) (h1 : m .jobs = true) (h2 : m .hem = true) (h3 : m .events = true) :
    view m (cancelJob a0 s) = view m s := by simp [cancelJob, *]
@[simp] theorem view_wantJob {m : Piece → Bool} (a0 : Purpose) (a1 : WorkClass) (a2 : Bool) (a3 : Nat) (a4 a5 : List Nat) (a6 : Tab (List Byte)) (s : State)
    (h0 : m .drone = true) (h1 : m .jobs = true) :
    view m (wantJob a0 a1 a2 a3 a4 a5 a6 s).2 = view m s := by simp [wantJob, *]
@[simp] theorem view_partDone {m : Piece → Bool} (a0 : Nat) (s : State)
    (h0 : m .jobs = true) :
    view m (partDone a0 s) = view m s := by simp [partDone, *]
@[simp] theorem view_legOutputs {m : Piece → Bool} (a0 : Leg) (s : State)
    (h0 : m .jobs = true) :
    view m (legOutputs a0 s) = view m s := by simp [legOutputs, *]
@[simp] theorem view_touchRows {m : Piece → Bool} (a0 : Nat × Nat × Nat × List Nat) (s : State)
    (h0 : m .reeds = true) :
    view m (touchRows a0 s) = view m s := by simp [touchRows, *]
@[simp] theorem view_forgetRepairs {m : Piece → Bool} (a0 : Nat) (s : State)
    (h0 : m .jobs = true) :
    view m (forgetRepairs a0 s) = view m s := by simp [forgetRepairs, *]
@[simp] theorem view_advanceFetch {m : Piece → Bool} (a0 a1 : Nat) (s : State)
    (h0 : m .drone = true) (h1 : m .jobs = true) (h2 : m .reeds = true) :
    view m (advanceFetch a0 a1 s).2 = view m s := by
  unfold advanceFetch
  dsimp only
  (repeat' split) <;> simp [*]
@[simp] theorem view_storeRead {m : Piece → Bool} (a0 : Sub) (a1 : List Byte) (s : State)
    (h0 : m .jobs = true) :
    view m (storeRead a0 a1 s) = view m s := by unfold storeRead; (repeat' split) <;> simp [*]
@[simp] theorem view_failRead {m : Piece → Bool} (a0 : Sub) (s : State)
    (h0 : m .jobs = true) :
    view m (failRead a0 s) = view m s := by simp [failRead, *]
@[simp] theorem view_inStep {m : Piece → Bool} (a0 : InStep) (s : State)
    (h0 : m .pair = true) (h1 : m .out = true) :
    view m (inStep a0 s) = view m s := by simp [inStep, *]
@[simp] theorem view_mergeLost {m : Piece → Bool} (a0 : Option (Nat × Nat × Nat)) (s : State)
    (h0 : m .array = true) (h1 : m .lost = true) (h2 : m .hem = true) (h3 : m .events = true) :
    view m (mergeLost a0 s) = view m s := by
  unfold mergeLost
  dsimp only
  (repeat' split) <;> simp [*]
@[simp] theorem view_insertLost {m : Piece → Bool} (a0 : Option (Nat × Nat × Nat)) (s : State) (a2 : Lost)
    (h0 : m .array = true) (h1 : m .lost = true) (h2 : m .hem = true) (h3 : m .events = true) :
    view m (insertLost a0 s a2) = view m s := by simp [insertLost, *]
@[simp] theorem view_addLost {m : Piece → Bool} (a0 : Option (Nat × Nat × Nat)) (a1 : List Lost) (s : State)
    (h0 : m .array = true) (h1 : m .lost = true) (h2 : m .hem = true) (h3 : m .pair = true) (h4 : m .events = true) (h5 : m .out = true) :
    view m (addLost a0 a1 s) = view m s := by simp [addLost, *]
@[simp] theorem view_removeLost {m : Piece → Bool} (a0 a1 a2 : Nat) (s : State)
    (h0 : m .array = true) (h1 : m .lost = true) (h2 : m .hem = true) (h3 : m .events = true) :
    view m (removeLost a0 a1 a2 s) = view m s := by simp [removeLost, *]
@[simp] theorem view_setDesc {m : Piece → Bool} (a0 : Nat) (a1 : StripeDesc) (s : State)
    (h0 : m .cache = true) (h1 : m .stripes = true) :
    view m (setDesc a0 a1 s) = view m s := by simp [setDesc, *]
@[simp] theorem view_append {m : Piece → Bool} (a0 : JRec) (s : State)
    (h0 : m .cache = true) (h1 : m .appendQ = true) (h2 : m .pair = true) (h3 : m .out = true) :
    view m (append a0 s) = view m s := by simp [append, *]
@[simp] theorem view_takeJseq {m : Piece → Bool} (s : State)
    (h0 : m .cache = true) :
    view m (takeJseq s).2 = view m s := by simp [takeJseq, *]
@[simp] theorem view_modIntent {m : Piece → Bool} (a0 a1 : Nat) (a2 : Intent → Intent) (s : State)
    (h0 : m .cache = true) (h1 : m .stripes = true) :
    view m (modIntent a0 a1 a2 s) = view m s := by simp [modIntent, *]
@[simp] theorem view_enterStripe {m : Piece → Bool} (a0 : Nat) (a1 : Tab CBlock) (a2 : List Nat) (a3 a4 : Bool) (s : State)
    (h0 : m .cache = true) (h1 : m .stripes = true) (h2 : m .appendQ = true) (h3 : m .pair = true) (h4 : m .out = true) :
    view m (enterStripe a0 a1 a2 a3 a4 s).2 = view m s := by unfold enterStripe; (repeat' split) <;> simp [*]
@[simp] theorem view_retireEmpty {m : Piece → Bool} (a0 a1 : Nat) (s : State)
    (h0 : m .cache = true) (h1 : m .stripes = true) (h2 : m .appendQ = true) (h3 : m .pair = true) (h4 : m .out = true) :
    view m (retireEmpty a0 a1 s) = view m s := by simp [retireEmpty, *]
@[simp] theorem view_discardBlocks {m : Piece → Bool} (a0 a1 a2 : Nat) (s : State)
    (h0 : m .cache = true) (h1 : m .stripes = true) (h2 : m .appendQ = true) (h3 : m .pair = true) (h4 : m .out = true) :
    view m (discardBlocks a0 a1 a2 s) = view m s := by simp [discardBlocks, *]
@[simp] theorem view_advanceTail {m : Piece → Bool} (s : State)
    (h0 : m .cache = true) :
    view m (advanceTail s) = view m s := by simp [advanceTail, *]
@[simp] theorem view_startBatch {m : Piece → Bool} (s : State)
    (h0 : m .drone = true) (h1 : m .jobs = true) (h2 : m .cache = true) :
    view m (startBatch s) = view m s := by simp [startBatch, *]
@[simp] theorem view_dropRetired {m : Piece → Bool} (a0 : List JRec) (s : State)
    (h0 : m .cache = true) (h1 : m .stripes = true) :
    view m (dropRetired a0 s) = view m s := by
  unfold dropRetired
  refine view_foldl _ _ _ fun t x => ?_
  split <;> simp [*]
@[simp] theorem view_checkClean {m : Piece → Bool} (s : State)
    (h0 : m .cache = true) (h1 : m .hem = true) (h2 : m .events = true) :
    view m (checkClean s) = view m s := by simp [checkClean, *]
@[simp] theorem view_endBatch {m : Piece → Bool} (s : State)
    (h0 : m .ledger = true) (h1 : m .cache = true) (h2 : m .stripes = true) (h3 : m .appendQ = true) (h4 : m .hem = true) (h5 : m .events = true) :
    view m (endBatch s) = view m s := by simp [endBatch, *]
@[simp] theorem view_enterWt {m : Piece → Bool} (s : State)
    (h0 : m .cache = true) (h1 : m .hem = true) (h2 : m .events = true) :
    view m (enterWt s) = view m s := by simp [enterWt, *]
@[simp] theorem view_exitWt {m : Piece → Bool} (s : State)
    (h0 : m .cache = true) (h1 : m .hem = true) (h2 : m .events = true) :
    view m (exitWt s) = view m s := by simp [exitWt, *]
@[simp] theorem view_holdCeiling {m : Piece → Bool} (s : State)
    (h0 : m .cache = true) (h1 : m .hem = true) (h2 : m .events = true) :
    view m (holdCeiling s) = view m s := by simp [holdCeiling, *]
@[simp] theorem view_latchCeiling {m : Piece → Bool} (s : State)
    (h0 : m .cache = true) (h1 : m .hem = true) (h2 : m .events = true) :
    view m (latchCeiling s) = view m s := by simp [latchCeiling, *]
@[simp] theorem view_judgeCeiling {m : Piece → Bool} (s : State)
    (h0 : m .cache = true) :
    view m (judgeCeiling s) = view m s := by simp [judgeCeiling, *]
@[simp] theorem view_judgeMode {m : Piece → Bool} (s : State)
    (h0 : m .cache = true) (h1 : m .hem = true) (h2 : m .events = true) :
    view m (judgeMode s) = view m s := by simp [judgeMode, *]
@[simp] theorem view_sampleCache {m : Piece → Bool} (s : State)
    (h0 : m .cache = true) (h1 : m .hem = true) (h2 : m .events = true) :
    view m (sampleCache s) = view m s := by simp [sampleCache, *]
@[simp] theorem view_setWtForce {m : Piece → Bool} (a0 : Bool) (s : State)
    (h0 : m .cache = true) :
    view m (setWtForce a0 s) = view m s := by simp [setWtForce, *]
@[simp] theorem view_destageAll {m : Piece → Bool} (s : State)
    (h0 : m .cache = true) (h1 : m .stripes = true) (h2 : m .hem = true) (h3 : m .events = true) :
    view m (destageAll s) = view m s := by simp [destageAll, *]
@[simp] theorem view_writeJrnCtl {m : Piece → Bool} (a0 : Word) (s : State)
    (h0 : m .cache = true) (h1 : m .stripes = true) (h2 : m .hem = true) (h3 : m .events = true) :
    view m (writeJrnCtl a0 s) = view m s := by simp [writeJrnCtl, *]
@[simp] theorem view_supersede {m : Piece → Bool} (a0 a1 : Nat) (s : State)
    (h0 : m .cache = true) (h1 : m .stripes = true) (h2 : m .appendQ = true) (h3 : m .pair = true) (h4 : m .out = true) :
    view m (supersede a0 a1 s) = view m s := by unfold supersede; split <;> simp [*]
@[simp] theorem view_startGather {m : Piece → Bool} (a0 a1 : Nat) (a2 : List Nat) (s : State)
    (h0 : m .drone = true) (h1 : m .jobs = true) (h2 : m .reeds = true) :
    view m (startGather a0 a1 a2 s) = view m s := by simp [startGather, *]
@[simp] theorem view_replayDestage {m : Piece → Bool} (a0 : Nat) (a1 : Intent) (a2 : Volume) (s : State)
    (h0 : m .drone = true) (h1 : m .jobs = true) (h2 : m .reeds = true) (h3 : m .cache = true) (h4 : m .stripes = true) (h5 : m .appendQ = true) (h6 : m .pair = true) (h7 : m .out = true) :
    view m (replayDestage a0 a1 a2 s) = view m s := by simp [replayDestage, *]
@[simp] theorem view_planDestage {m : Piece → Bool} (a0 : Nat) (a1 : Intent) (s : State)
    (h0 : m .drone = true) (h1 : m .jobs = true) (h2 : m .reeds = true) (h3 : m .ledger = true) (h4 : m .entries = true) (h5 : m .slots = true) (h6 : m .smc = true) (h7 : m .lines = true) (h8 : m .cache = true) (h9 : m .stripes = true) (h10 : m .appendQ = true) (h11 : m .pair = true) (h12 : m .out = true) :
    view m (planDestage a0 a1 s) = view m s := by
  unfold planDestage
  dsimp only
  (repeat' split) <;> simp [*]
@[simp] theorem view_wantDeclare {m : Piece → Bool} (a0 a1 : Nat) (s : State)
    (h0 : m .array = true) :
    view m (wantDeclare a0 a1 s) = view m s := by simp [wantDeclare, *]
@[simp] theorem view_countRepair {m : Piece → Bool} (a0 : Nat) (s : State)
    (h0 : m .array = true) :
    view m (countRepair a0 s) = view m s := by simp [countRepair, *]
@[simp] theorem view_countRepairs {m : Piece → Bool} (a0 : Nat) (a1 : List Nat) (s : State)
    (h0 : m .array = true) :
    view m (countRepairs a0 a1 s) = view m s := by simp [countRepairs, *]
@[simp] theorem view_sendInputs {m : Piece → Bool} (a0 : Nat) (a1 : Tab (List Byte)) (s : State)
    (h0 : m .pair = true) (h1 : m .out = true) :
    view m (sendInputs a0 a1 s) = view m s := by simp [sendInputs, *]
@[simp] theorem view_startEncode {m : Piece → Bool} (a0 a1 a2 : Nat) (a3 : Tab (List Byte)) (s : State)
    (h0 : m .drone = true) (h1 : m .jobs = true) (h2 : m .cache = true) (h3 : m .stripes = true) (h4 : m .pair = true) (h5 : m .out = true) :
    view m (startEncode a0 a1 a2 a3 s) = view m s := by unfold startEncode; split <;> simp [*]
@[simp] theorem view_replan {m : Piece → Bool} (a0 a1 a2 : Nat) (s : State)
    (h0 : m .cache = true) (h1 : m .stripes = true) :
    view m (replan a0 a1 a2 s) = view m s := by simp [replan, *]
@[simp] theorem view_awaitLost {m : Piece → Bool} (a0 a1 : Nat) (s : State)
    (h0 : m .cache = true) (h1 : m .stripes = true) :
    view m (awaitLost a0 a1 s) = view m s := by simp [awaitLost, *]
@[simp] theorem view_loseBlocks {m : Piece → Bool} (a0 a1 : Nat) (a2 : Volume) (a3 : List Nat) (s : State)
    (h0 : m .cache = true) (h1 : m .stripes = true) (h2 : m .array = true) (h3 : m .lost = true) (h4 : m .hem = true) (h5 : m .pair = true) (h6 : m .events = true) (h7 : m .out = true) :
    view m (loseBlocks a0 a1 a2 a3 s) = view m s := by simp [loseBlocks, *]
@[simp] theorem view_losePositions {m : Piece → Bool} (a0 a1 : Nat) (a2 : Volume) (a3 : List Nat) (s : State)
    (h0 : m .cache = true) (h1 : m .stripes = true) (h2 : m .array = true) (h3 : m .lost = true) (h4 : m .hem = true) (h5 : m .pair = true) (h6 : m .events = true) (h7 : m .out = true) :
    view m (losePositions a0 a1 a2 a3 s) = view m s := by simp [losePositions, *]
@[simp] theorem view_healBlocks {m : Piece → Bool} (a0 a1 : Nat) (a2 : Volume) (a3 : Intent) (a4 : Job) (s : State)
    (h0 : m .cache = true) (h1 : m .stripes = true) (h2 : m .array = true) :
    view m (healBlocks a0 a1 a2 a3 a4 s) = view m s := by simp [healBlocks, *]
@[simp] theorem view_pinSurvivors {m : Piece → Bool} (a0 a1 : Nat) (a2 : Volume) (a3 : Tab (List Byte)) (s : State)
    (h0 : m .cache = true) (h1 : m .stripes = true) (h2 : m .appendQ = true) (h3 : m .pair = true) (h4 : m .out = true) :
    view m (pinSurvivors a0 a1 a2 a3 s) = view m s := by simp [pinSurvivors, *]
@[simp] theorem view_gathered {m : Piece → Bool} (a0 a1 a2 : Nat) (s : State)
    (h0 : m .drone = true) (h1 : m .jobs = true) (h2 : m .cache = true) (h3 : m .stripes = true) (h4 : m .appendQ = true) (h5 : m .array = true) (h6 : m .lost = true) (h7 : m .hem = true) (h8 : m .pair = true) (h9 : m .events = true) (h10 : m .out = true) :
    view m (gathered a0 a1 a2 s) = view m s := by unfold gathered; split <;> simp [*]
@[simp] theorem view_runDestageRead {m : Piece → Bool} (a0 a1 a2 : Nat) (s : State)
    (h0 : m .drone = true) (h1 : m .jobs = true) (h2 : m .reeds = true) (h3 : m .cache = true) (h4 : m .stripes = true) (h5 : m .appendQ = true) (h6 : m .array = true) (h7 : m .lost = true) (h8 : m .hem = true) (h9 : m .pair = true) (h10 : m .events = true) (h11 : m .out = true) :
    view m (runDestageRead a0 a1 a2 s) = view m s := by simp [runDestageRead, *]
@[simp] theorem view_startLog {m : Piece → Bool} (a0 a1 : Nat) (a2 : Volume) (a3 : Intent) (s : State)
    (h0 : m .drone = true) (h1 : m .jobs = true) (h2 : m .cache = true) :
    view m (startLog a0 a1 a2 a3 s) = view m s := by simp [startLog, *]
@[simp] theorem view_logged {m : Piece → Bool} (a0 a1 a2 : Nat) (s : State)
    (h0 : m .drone = true) (h1 : m .jobs = true) (h2 : m .cache = true) :
    view m (logged a0 a1 a2 s) = view m s := by simp [logged, *]
@[simp] theorem view_noteParity {m : Piece → Bool} (a0 : Volume) (a1 : Intent) (a2 : Tab (List Byte)) (s : State)
    (h0 : m .pair = true) :
    view m (noteParity a0 a1 a2 s) = view m s := by simp [noteParity, *]
@[simp] theorem view_startWrites {m : Piece → Bool} (a0 a1 a2 : Nat) (a3 : Volume) (a4 : Intent) (a5 : Tab (List Byte)) (s : State)
    (h0 : m .drone = true) (h1 : m .jobs = true) (h2 : m .cache = true) (h3 : m .stripes = true) :
    view m (startWrites a0 a1 a2 a3 a4 a5 s) = view m s := by simp [startWrites, *]
@[simp] theorem view_runDestageEnc {m : Piece → Bool} (a0 a1 a2 : Nat) (s : State)
    (h0 : m .drone = true) (h1 : m .jobs = true) (h2 : m .cache = true) (h3 : m .stripes = true) (h4 : m .pair = true) :
    view m (runDestageEnc a0 a1 a2 s) = view m s := by unfold runDestageEnc; split <;> simp [*]
@[simp] theorem view_freeLog {m : Piece → Bool} (a0 : Nat) (s : State)
    (h0 : m .cache = true) :
    view m (freeLog a0 s) = view m s := by simp [freeLog, *]
@[simp] theorem view_retireIntent {m : Piece → Bool} (a0 : Nat) (a1 : Intent) (s : State)
    (h0 : m .cache = true) (h1 : m .stripes = true) (h2 : m .appendQ = true) (h3 : m .pair = true) (h4 : m .out = true) :
    view m (retireIntent a0 a1 s) = view m s := by simp [retireIntent, *]
@[simp] theorem view_clearGroup {m : Piece → Bool} (a0 : Nat) (s : State)
    (h0 : m .drone = true) (h1 : m .host = true) (h2 : m .volumes = true) (h3 : m .ledger = true) (h4 : m .entries = true) (h5 : m .slots = true) (h6 : m .smc = true) (h7 : m .lines = true) (h8 : m .cache = true) (h9 : m .appendQ = true) (h10 : m .drives = true) (h11 : m .hem = true) (h12 : m .pair = true) (h13 : m .events = true) (h14 : m .out = true) :
    view m (clearGroup a0 s) = view m s := by simp [clearGroup, *]
@[simp] theorem view_retireStep {m : Piece → Bool} (a0 : Nat) (s : State)
    (h0 : m .drone = true) (h1 : m .jobs = true) (h2 : m .host = true) (h3 : m .volumes = true) (h4 : m .ledger = true) (h5 : m .entries = true) (h6 : m .slots = true) (h7 : m .smc = true) (h8 : m .lines = true) (h9 : m .cache = true) (h10 : m .stripes = true) (h11 : m .appendQ = true) (h12 : m .drives = true) (h13 : m .hem = true) (h14 : m .pair = true) (h15 : m .events = true) (h16 : m .out = true) :
    view m (retireStep a0 s) = view m s := by unfold retireStep; (repeat' split) <;> simp [*]
@[simp] theorem view_startRepair {m : Piece → Bool} (a0 : Nat) (a1 : WorkClass) (a2 : List Nat) (a3 : Bool) (a4 : Tab (List Byte)) (s : State)
    (h0 : m .drone = true) (h1 : m .jobs = true) (h2 : m .reeds = true) :
    view m (startRepair a0 a1 a2 a3 a4 s) = view m s := by unfold startRepair; split <;> simp [*]
theorem view_enterAsWrite {m : Piece → Bool} (a0 : Nat) (a1 : Tab CBlock) (s : State)
    (h0 : m .cache = true) (h1 : m .stripes = true) (h2 : m .appendQ = true) (h3 : m .pair = true) (h4 : m .out = true) :
    ∀ t, enterAsWrite a0 a1 s = some t → view m t = view m s := by
  intro t h
  unfold enterAsWrite at h
  dsimp only at h
  (repeat' split at h) <;> simp only [Option.some.injEq, reduceCtorEq] at h
  subst h
  simp [*]
@[simp] theorem view_runRepair {m : Piece → Bool} (a0 a1 : Nat) (s : State)
    (h0 : m .drone = true) (h1 : m .jobs = true) (h2 : m .reeds = true) (h3 : m .cache = true) (h4 : m .stripes = true) (h5 : m .appendQ = true) (h6 : m .pair = true) (h7 : m .out = true) :
    view m (runRepair a0 a1 s) = view m s := by
  unfold runRepair
  dsimp only
  (repeat' split) <;> first
    | (simp [*]; done)
    | (rename_i h
       simp only [view_endJob _ _ ‹_› ‹_›]
       exact (view_enterAsWrite _ _ _ ‹_› ‹_› ‹_› ‹_› ‹_› _ h).trans (by simp [*]))
@[simp] theorem view_setChan {m : Piece → Bool} (a0 : Nat) (a1 : Chan) (s : State)
    (h0 : m .dma = true) :
    view m (setChan a0 a1 s) = view m s := by simp [setChan, *]
@[simp] theorem view_modChan {m : Piece → Bool} (a0 : Nat) (a1 : Chan → Chan) (s : State)
    (h0 : m .dma = true) :
    view m (modChan a0 a1 s) = view m s := by simp [modChan, *]
@[simp] theorem view_endGroup {m : Piece → Bool} (a0 : Nat) (s : State)
    (h0 : m .drone = true) :
    view m (endGroup a0 s) = view m s := by simp [endGroup, *]
@[simp] theorem view_chanEvent {m : Piece → Bool} (a0 : Bool) (a1 : Nat) (s : State)
    (h0 : m .hem = true) (h1 : m .events = true) :
    view m (chanEvent a0 a1 s) = view m s := by simp [chanEvent, *]
@[simp] theorem view_enterHalted {m : Piece → Bool} (a0 : Nat) (s : State)
    (h0 : m .dma = true) (h1 : m .hem = true) (h2 : m .events = true) :
    view m (enterHalted a0 s) = view m s := by simp [enterHalted, *]
@[simp] theorem view_faultAt {m : Piece → Bool} (a0 : Nat) (a1 : Bool) (a2 a3 a4 : Nat) (a5 : Word) (a6 : DescRun) (a7 : Nat) (a8 : Word) (s : State)
    (h0 : m .drone = true) (h1 : m .dma = true) :
    view m (faultAt a0 a1 a2 a3 a4 a5 a6 a7 a8 s) = view m s := by simp [faultAt, *]
@[simp] theorem view_faultEnded {m : Piece → Bool} (a0 a1 a2 a3 : Nat) (a4 : Word) (a5 : DescRun) (s : State)
    (h0 : m .drone = true) (h1 : m .dma = true) :
    view m (faultEnded a0 a1 a2 a3 a4 a5 s) = view m s := by simp [faultEnded, *]
@[simp] theorem view_faultFetch {m : Piece → Bool} (a0 a1 : Nat) (a2 a3 : Word) (s : State)
    (h0 : m .drone = true) (h1 : m .dma = true) :
    view m (faultFetch a0 a1 a2 a3 s) = view m s := by simp [faultFetch, *]
@[simp] theorem view_compatStop {m : Piece → Bool} (a0 : Nat) (s : State) (a2 : Nat)
    (h0 : m .drone = true) (h1 : m .dma = true) :
    view m (compatStop a0 s a2) = view m s := by simp [compatStop, *]
@[simp] theorem view_setDmaGlob {m : Piece → Bool} (a0 : Nat) (a1 : DmaGlobal) (s : State)
    (h0 : m .dma = true) :
    view m (setDmaGlob a0 a1 s) = view m s := by simp [setDmaGlob, *]
@[simp] theorem view_issueWrite {m : Piece → Bool} (a0 : Nat) (a1 : DmaWrite) (s : State)
    (h0 : m .dma = true) (h1 : m .pair = true) (h2 : m .out = true) :
    view m (issueWrite a0 a1 s) = view m s := by simp [issueWrite, *]
@[simp] theorem view_issueWrites {m : Piece → Bool} (a0 : Bool) (a1 a2 : Nat) (s : State)
    (h0 : m .drone = true) (h1 : m .dma = true) (h2 : m .pair = true) (h3 : m .out = true) :
    view m (issueWrites a0 a1 a2 s) = view m s := by fun_induction issueWrites a0 a1 a2 s <;> simp_all
@[simp] theorem view_issueFetchDesc {m : Piece → Bool} (a0 : Nat) (a1 : Word) (s : State)
    (h0 : m .drone = true) (h1 : m .dma = true) (h2 : m .pair = true) (h3 : m .out = true) :
    view m (issueFetchDesc a0 a1 s) = view m s := by simp [issueFetchDesc, *]
@[simp] theorem view_issueRead {m : Piece → Bool} (a0 : Nat) (s : State)
    (h0 : m .drone = true) (h1 : m .dma = true) (h2 : m .pair = true) (h3 : m .out = true) :
    view m (issueRead a0 s) = view m s := by
  unfold issueRead
  dsimp only
  (repeat' split) <;> simp [*]
@[simp] theorem view_issueReads {m : Piece → Bool} (a0 a1 a2 : Nat) (s : State)
    (h0 : m .drone = true) (h1 : m .dma = true) (h2 : m .pair = true) (h3 : m .out = true) :
    view m (issueReads a0 a1 a2 s) = view m s := by fun_induction issueReads a0 a1 a2 s <;> simp_all
@[simp] theorem view_pacedReads {m : Piece → Bool} (a0 a1 : Nat) (s : State)
    (h0 : m .drone = true) (h1 : m .dma = true) (h2 : m .pair = true) (h3 : m .out = true) :
    view m (pacedReads a0 a1 s) = view m s := by fun_induction pacedReads a0 a1 s <;> simp_all
@[simp] theorem view_wantLeg {m : Piece → Bool} (a0 : Nat) (s : State)
    (h0 : m .drone = true) :
    view m (wantLeg a0 s) = view m s := by
  unfold wantLeg
  dsimp only
  (repeat' split) <;> simp [*]
@[simp] theorem view_issueStore {m : Piece → Bool} (a0 : Nat) (a1 : DescRun) (s : State)
    (h0 : m .drone = true) (h1 : m .dma = true) (h2 : m .pair = true) (h3 : m .out = true) :
    view m (issueStore a0 a1 s) = view m s := by simp [issueStore, *]
@[simp] theorem view_endDesc {m : Piece → Bool} (a0 : Nat) (a1 : DescRun) (s : State)
    (h0 : m .dma = true) (h1 : m .hem = true) (h2 : m .events = true) :
    view m (endDesc a0 a1 s) = view m s := by simp [endDesc, *]
@[simp] theorem view_finishDescs {m : Piece → Bool} (a0 : Nat) (a1 : List DescRun) (s : State)
    (h0 : m .drone = true) (h1 : m .dma = true) (h2 : m .hem = true) (h3 : m .pair = true) (h4 : m .events = true) (h5 : m .out = true) :
    view m (finishDescs a0 a1 s) = view m s := by fun_induction finishDescs a0 a1 s <;> simp_all
@[simp] theorem view_startList {m : Piece → Bool} (a0 : Nat) (a1 : Word) (s : State)
    (h0 : m .drone = true) (h1 : m .dma = true) (h2 : m .pair = true) (h3 : m .out = true) :
    view m (startList a0 a1 s) = view m s := by simp [startList, *]
@[simp] theorem view_endList {m : Piece → Bool} (a0 : Nat) (s : State)
    (h0 : m .drone = true) (h1 : m .dma = true) (h2 : m .hem = true) (h3 : m .pair = true) (h4 : m .events = true) (h5 : m .out = true) :
    view m (endList a0 s) = view m s := by
  unfold endList
  dsimp only
  (repeat' split) <;> simp [*]
@[simp] theorem view_followOn {m : Piece → Bool} (a0 : Nat) (a1 : DescRun) (s : State)
    (h0 : m .drone = true) (h1 : m .dma = true) (h2 : m .hem = true) (h3 : m .pair = true) (h4 : m .events = true) (h5 : m .out = true) :
    view m (followOn a0 a1 s) = view m s := by simp [followOn, *]
@[simp] theorem view_goOn {m : Piece → Bool} (a0 : Nat) (s : State)
    (h0 : m .drone = true) (h1 : m .dma = true) (h2 : m .hem = true) (h3 : m .pair = true) (h4 : m .events = true) (h5 : m .out = true) :
    view m (goOn a0 s) = view m s := by
  unfold goOn
  dsimp only
  (repeat' split) <;> simp [*]
@[simp] theorem view_drain {m : Piece → Bool} (a0 : Nat) (s : State)
    (h0 : m .drone = true) (h1 : m .dma = true) (h2 : m .pair = true) (h3 : m .out = true) :
    view m (drain a0 s) = view m s := by simp [drain, *]
@[simp] theorem view_settleHalt {m : Piece → Bool} (a0 : Nat) (s : State)
    (h0 : m .dma = true) (h1 : m .hem = true) (h2 : m .events = true) :
    view m (settleHalt a0 s) = view m s := by simp [settleHalt, *]
@[simp] theorem view_compatSpread {m : Piece → Bool} (a0 : Nat) (s : State)
    (h0 : m .drone = true) (h1 : m .dma = true) (h2 : m .hem = true) (h3 : m .pair = true) (h4 : m .events = true) (h5 : m .out = true) :
    view m (compatSpread a0 s) = view m s := by simp [compatSpread, *]
@[simp] theorem view_spreadFault {m : Piece → Bool} (a0 : Nat) (s : State)
    (h0 : m .drone = true) (h1 : m .dma = true) (h2 : m .hem = true) (h3 : m .pair = true) (h4 : m .events = true) (h5 : m .out = true) :
    view m (spreadFault a0 s) = view m s := by simp [spreadFault, *]
@[simp] theorem view_advance {m : Piece → Bool} (a0 : Nat) (s : State)
    (h0 : m .drone = true) (h1 : m .dma = true) (h2 : m .hem = true) (h3 : m .pair = true) (h4 : m .events = true) (h5 : m .out = true) :
    view m (advance a0 s) = view m s := by simp [advance, *]
@[simp] theorem view_pauseChan {m : Piece → Bool} (a0 : Nat) (s : State)
    (h0 : m .drone = true) (h1 : m .dma = true) (h2 : m .hem = true) (h3 : m .pair = true) (h4 : m .events = true) (h5 : m .out = true) :
    view m (pauseChan a0 s) = view m s := by simp [pauseChan, *]
@[simp] theorem view_unpauseChan {m : Piece → Bool} (a0 : Nat) (s : State)
    (h0 : m .drone = true) (h1 : m .dma = true) (h2 : m .hem = true) (h3 : m .pair = true) (h4 : m .events = true) (h5 : m .out = true) :
    view m (unpauseChan a0 s) = view m s := by simp [unpauseChan, *]
@[simp] theorem view_takeDesc {m : Piece → Bool} (a0 : Nat) (a1 : Desc) (s : State)
    (h0 : m .dma = true) :
    view m (takeDesc a0 a1 s) = view m s := by simp [takeDesc, *]
@[simp] theorem view_paceChan {m : Piece → Bool} (a0 : Nat) (s : State) (a2 : Nat)
    (h0 : m .drone = true) (h1 : m .dma = true) (h2 : m .hem = true) (h3 : m .pair = true) (h4 : m .events = true) (h5 : m .out = true) :
    view m (paceChan a0 s a2) = view m s := by simp [paceChan, *]
@[simp] theorem view_readDone {m : Piece → Bool} (a0 : Nat) (a1 : DmaRead) (a2 : List Byte) (s : State)
    (h0 : m .free = true) (h1 : m .drone = true) (h2 : m .dma = true) (h3 : m .pair = true) (h4 : m .out = true) :
    view m (readDone a0 a1 a2 s) = view m s := by simp [readDone, *]
@[simp] theorem view_movedWrite {m : Piece → Bool} (a0 : Nat) (a1 : DmaWrite) (s : State)
    (h0 : m .dma = true) (h1 : m .hem = true) (h2 : m .events = true) :
    view m (movedWrite a0 a1 s) = view m s := by
  unfold movedWrite
  dsimp only
  (repeat' split) <;> simp [*]
@[simp] theorem view_writeDone {m : Piece → Bool} (a0 : Nat) (a1 : DmaWrite) (s : State)
    (h0 : m .dma = true) (h1 : m .mem = true) (h2 : m .hem = true) (h3 : m .events = true) :
    view m (writeDone a0 a1 s) = view m s := by simp [writeDone, *]
@[simp] theorem view_commitList {m : Piece → Bool} (a0 : Nat) (a1 : Bool) (s : State)
    (h0 : m .drone = true) (h1 : m .dma = true) (h2 : m .hem = true) (h3 : m .pair = true) (h4 : m .events = true) (h5 : m .out = true) :
    view m (commitList a0 a1 s) = view m s := by simp [commitList, *]
@[simp] theorem view_readError {m : Piece → Bool} (a0 a1 a2 : Nat) (a3 : DmaRead) (s : State)
    (h0 : m .drone = true) (h1 : m .dma = true) :
    view m (readError a0 a1 a2 a3 s) = view m s := by unfold readError; split <;> simp [*]
@[simp] theorem view_writeError {m : Piece → Bool} (a0 a1 a2 : Nat) (a3 : DmaWrite) (s : State)
    (h0 : m .drone = true) (h1 : m .dma = true) :
    view m (writeError a0 a1 a2 a3 s) = view m s := by
  unfold writeError
  dsimp only
  (repeat' split) <;> simp [*]
@[simp] theorem view_leaveHalted {m : Piece → Bool} (a0 : Nat) (s : State)
    (h0 : m .drone = true) (h1 : m .dma = true) (h2 : m .hem = true) (h3 : m .pair = true) (h4 : m .events = true) (h5 : m .out = true) :
    view m (leaveHalted a0 s) = view m s := by simp [leaveHalted, *]
@[simp] theorem view_abortList {m : Piece → Bool} (a0 : Nat) (s : State)
    (h0 : m .drone = true) (h1 : m .dma = true) :
    view m (abortList a0 s) = view m s := by simp [abortList, *]
@[simp] theorem view_resumeChan {m : Piece → Bool} (a0 : Nat) (s : State)
    (h0 : m .drone = true) (h1 : m .dma = true) (h2 : m .hem = true) (h3 : m .pair = true) (h4 : m .events = true) (h5 : m .out = true) :
    view m (resumeChan a0 s) = view m s := by simp [resumeChan, *]
@[simp] theorem view_skipChan {m : Piece → Bool} (a0 : Nat) (s : State)
    (h0 : m .drone = true) (h1 : m .dma = true) (h2 : m .hem = true) (h3 : m .pair = true) (h4 : m .events = true) (h5 : m .out = true) :
    view m (skipChan a0 s) = view m s := by simp [skipChan, *]
@[simp] theorem view_startGroup {m : Piece → Bool} (s : State) (a1 : Leg)
    (h0 : m .drone = true) (h1 : m .dma = true) (h2 : m .hem = true) (h3 : m .pair = true) (h4 : m .events = true) (h5 : m .out = true) :
    view m (startGroup s a1) = view m s := by unfold startGroup; split <;> simp [*]
@[simp] theorem view_rewindGroup {m : Piece → Bool} (a0 : Leg) (s : State)
    (h0 : m .drone = true) (h1 : m .dma = true) :
    view m (rewindGroup a0 s) = view m s := by unfold rewindGroup; split <;> simp [*]
@[simp] theorem view_hangGroup {m : Piece → Bool} (a0 : Leg) (s : State)
    (h0 : m .drone = true) (h1 : m .dma = true) (h2 : m .hem = true) (h3 : m .pair = true) (h4 : m .events = true) (h5 : m .out = true) :
    view m (hangGroup a0 s) = view m s := by
  unfold hangGroup
  dsimp only
  (repeat' split) <;> simp [*]
@[simp] theorem view_resetChans {m : Piece → Bool} (a0 : Nat) (s : State)
    (h0 : m .drone = true) (h1 : m .dma = true) :
    view m (resetChans a0 s) = view m s := by simp [resetChans, *]
@[simp] theorem view_faultAct {m : Piece → Bool} (a0 a1 : Nat) (s : State)
    (h0 : m .drone = true) (h1 : m .dma = true) (h2 : m .hem = true) (h3 : m .pair = true) (h4 : m .events = true) (h5 : m .out = true) :
    view m (faultAct a0 a1 s) = view m s := by simp [faultAct, *]
@[simp] theorem view_writeDmaCtl {m : Piece → Bool} (a0 : Nat) (a1 : Word) (s : State)
    (h0 : m .drone = true) (h1 : m .dma = true) (h2 : m .hem = true) (h3 : m .pair = true) (h4 : m .events = true) (h5 : m .out = true) :
    view m (writeDmaCtl a0 a1 s) = view m s := by simp [writeDmaCtl, *]
@[simp] theorem view_chanWrite {m : Piece → Bool} (a0 a1 : Nat) (a2 : Word) (s : State)
    (h0 : m .drone = true) (h1 : m .dma = true) (h2 : m .hem = true) (h3 : m .pair = true) (h4 : m .events = true) (h5 : m .out = true) :
    view m (chanWrite a0 a1 a2 s) = view m s := by simp [chanWrite, *]
@[simp] theorem view_sendMessage {m : Piece → Bool} (a0 a1 : Nat) (s : State)
    (h0 : m .host = true) (h1 : m .funcs = true) (h2 : m .pair = true) (h3 : m .events = true) (h4 : m .out = true) :
    view m (sendMessage a0 a1 s) = view m s := by simp [sendMessage, *]
@[simp] theorem view_deliverVector {m : Piece → Bool} (s : State) (a1 : Nat × Nat)
    (h0 : m .host = true) (h1 : m .funcs = true) (h2 : m .pair = true) (h3 : m .events = true) (h4 : m .out = true) :
    view m (deliverVector s a1) = view m s := by simp [deliverVector, *]
@[simp] theorem view_deliverMsix {m : Piece → Bool} (s : State)
    (h0 : m .host = true) (h1 : m .funcs = true) (h2 : m .pair = true) (h3 : m .events = true) (h4 : m .out = true) :
    view m (deliverMsix s) = view m s := by simp [deliverMsix, *]
@[simp] theorem view_discardPending {m : Piece → Bool} (a0 : Nat) (s : State)
    (h0 : m .host = true) (h1 : m .funcs = true) (h2 : m .events = true) :
    view m (discardPending a0 s) = view m s := by simp [discardPending, *]
@[simp] theorem view_releasePba {m : Piece → Bool} (a0 a1 : Nat) (s : State)
    (h0 : m .host = true) (h1 : m .funcs = true) (h2 : m .pair = true) (h3 : m .out = true) :
    view m (releasePba a0 a1 s) = view m s := by simp [releasePba, *]
@[simp] theorem view_setVecMask {m : Piece → Bool} (a0 a1 : Nat) (a2 : Bool) (s : State)
    (h0 : m .host = true) (h1 : m .funcs = true) (h2 : m .pair = true) (h3 : m .out = true) :
    view m (setVecMask a0 a1 a2 s) = view m s := by simp [setVecMask, *]
@[simp] theorem view_unmaskFunc {m : Piece → Bool} (a0 : Nat) (s : State)
    (h0 : m .host = true) (h1 : m .funcs = true) (h2 : m .pair = true) (h3 : m .out = true) :
    view m (unmaskFunc a0 s) = view m s := by simp [unmaskFunc, *]
@[simp] theorem view_writeEvtMask {m : Piece → Bool} (a0 a1 : Nat) (a2 : Word) (s : State)
    (h0 : m .events = true) :
    view m (writeEvtMask a0 a1 a2 s) = view m s := by simp [writeEvtMask, *]
@[simp] theorem view_writeEvtStat {m : Piece → Bool} (a0 : Nat) (a1 : Word) (s : State)
    (h0 : m .events = true) :
    view m (writeEvtStat a0 a1 s) = view m s := by simp [writeEvtStat, *]
@[simp] theorem view_logWrite {m : Piece → Bool} (s : State) (a1 : Nat × Pend)
    (h0 : m .events = true) (h1 : m .mgmt = true) :
    view m (logWrite s a1) = view m s := by simp [logWrite, *]
@[simp] theorem view_notify {m : Piece → Bool} (s : State) (a1 : Alert)
    (h0 : m .pair = true) (h1 : m .mgmt = true) (h2 : m .out = true) :
    view m (notify s a1) = view m s := by simp [notify, *]
@[simp] theorem view_notifyStep {m : Piece → Bool} (s : State)
    (h0 : m .pair = true) (h1 : m .mgmt = true) (h2 : m .out = true) :
    view m (notifyStep s) = view m s := by simp [notifyStep, *]
@[simp] theorem view_logPending {m : Piece → Bool} (s : State)
    (h0 : m .pair = true) (h1 : m .events = true) (h2 : m .mgmt = true) (h3 : m .out = true) :
    view m (logPending s) = view m s := by simp [logPending, *]
@[simp] theorem view_selectLog {m : Piece → Bool} (a0 : Nat) (s : State)
    (h0 : m .events = true) :
    view m (selectLog a0 s) = view m s := by simp [selectLog, *]
@[simp] theorem view_swapRouting {m : Piece → Bool} (a0 a1 : Option Image) (s : State)
    (h0 : m .host = true) (h1 : m .funcs = true) (h2 : m .events = true) :
    view m (swapRouting a0 a1 s) = view m s := by simp [swapRouting, *]
@[simp] theorem view_modCmd {m : Piece → Bool} (a0 : Nat) (a1 : Cmd → Cmd) (s : State)
    (h0 : m .host = true) (h1 : m .cmds = true) :
    view m (modCmd a0 a1 s) = view m s := by simp [modCmd, *]
@[simp] theorem view_finishCmd {m : Piece → Bool} (a0 a1 : Nat) (a2 : Word) (s : State)
    (h0 : m .host = true) (h1 : m .cmds = true) :
    view m (finishCmd a0 a1 a2 s) = view m s := by unfold finishCmd; split <;> simp [*]
@[simp] theorem view_placeAll {m : Piece → Bool} (a0 : Volume) (a1 : List Nat) (s : State)
    (h0 : m .drone = true) (h1 : m .host = true) (h2 : m .volumes = true) (h3 : m .ledger = true) (h4 : m .entries = true) (h5 : m .slots = true) (h6 : m .smc = true) (h7 : m .lines = true) (h8 : m .cache = true) (h9 : m .appendQ = true) (h10 : m .drives = true) (h11 : m .hem = true) (h12 : m .pair = true) (h13 : m .events = true) (h14 : m .out = true) :
    view m (placeAll a0 a1 s).2 = view m s := by
  induction a1 generalizing s with
  | nil => rfl
  | cons k r ih =>
    unfold placeAll
    dsimp only
    split <;> simp [ih, *]
@[simp] theorem view_acceptData {m : Piece → Bool} (a0 : Nat) (a1 : Entry) (a2 : Nat) (s : State)
    (h0 : m .drone = true) (h1 : m .host = true) (h2 : m .volumes = true) (h3 : m .cmds = true) (h4 : m .ledger = true) (h5 : m .entries = true) (h6 : m .slots = true) (h7 : m .smc = true) (h8 : m .lines = true) (h9 : m .cache = true) (h10 : m .appendQ = true) (h11 : m .drives = true) (h12 : m .hem = true) (h13 : m .pair = true) (h14 : m .events = true) (h15 : m .out = true) :
    view m (acceptData a0 a1 a2 s) = view m s := by unfold acceptData; split <;> simp [*]
@[simp] theorem view_releaseLeft {m : Piece → Bool} (a0 : Nat) (s : State)
    (h0 : m .drone = true) (h1 : m .host = true) (h2 : m .volumes = true) (h3 : m .ledger = true) (h4 : m .entries = true) (h5 : m .slots = true) (h6 : m .smc = true) (h7 : m .lines = true) (h8 : m .cache = true) (h9 : m .appendQ = true) (h10 : m .drives = true) (h11 : m .hem = true) (h12 : m .pair = true) (h13 : m .events = true) (h14 : m .out = true) :
    view m (releaseLeft a0 s) = view m s := by simp [releaseLeft, *]
@[simp] theorem view_volEffect {m : Piece → Bool} (a0 : Entry) (s : State)
    (h0 : m .drone = true) (h1 : m .host = true) (h2 : m .volumes = true) (h3 : m .ledger = true) (h4 : m .entries = true) (h5 : m .slots = true) (h6 : m .smc = true) (h7 : m .lines = true) (h8 : m .cache = true) (h9 : m .appendQ = true) (h10 : m .array = true) (h11 : m .lost = true) (h12 : m .drives = true) (h13 : m .hem = true) (h14 : m .pair = true) (h15 : m .events = true) (h16 : m .out = true) :
    view m (volEffect a0 s) = view m s := by unfold volEffect; split <;> simp [*]
@[simp] theorem view_takeEffect {m : Piece → Bool} (a0 : Cmd) (s : State)
    (h0 : m .drone = true) (h1 : m .host = true) (h2 : m .volumes = true) (h3 : m .cmds = true) (h4 : m .ledger = true) (h5 : m .entries = true) (h6 : m .slots = true) (h7 : m .smc = true) (h8 : m .lines = true) (h9 : m .cache = true) (h10 : m .appendQ = true) (h11 : m .array = true) (h12 : m .lost = true) (h13 : m .drives = true) (h14 : m .hem = true) (h15 : m .pair = true) (h16 : m .events = true) (h17 : m .out = true) :
    view m (takeEffect a0 s) = view m s := by unfold takeEffect; (repeat' split) <;> simp [*]
@[simp] theorem view_acceptVolume {m : Piece → Bool} (a0 : Nat) (a1 : Entry) (a2 : Nat) (s : State)
    (h0 : m .drone = true) (h1 : m .host = true) (h2 : m .volumes = true) (h3 : m .cmds = true) (h4 : m .ledger = true) (h5 : m .entries = true) (h6 : m .slots = true) (h7 : m .smc = true) (h8 : m .lines = true) (h9 : m .cache = true) (h10 : m .appendQ = true) (h11 : m .array = true) (h12 : m .lost = true) (h13 : m .drives = true) (h14 : m .hem = true) (h15 : m .pair = true) (h16 : m .events = true) (h17 : m .out = true) :
    view m (acceptVolume a0 a1 a2 s) = view m s := by
  unfold acceptVolume
  dsimp only
  (repeat' split) <;> simp [*]
@[simp] theorem view_decodeCmd {m : Piece → Bool} (a0 : Cmd) (s : State)
    (h0 : m .drone = true) (h1 : m .host = true) (h2 : m .volumes = true) (h3 : m .cmds = true) (h4 : m .ledger = true) (h5 : m .entries = true) (h6 : m .slots = true) (h7 : m .smc = true) (h8 : m .lines = true) (h9 : m .cache = true) (h10 : m .appendQ = true) (h11 : m .array = true) (h12 : m .lost = true) (h13 : m .drives = true) (h14 : m .hem = true) (h15 : m .pair = true) (h16 : m .events = true) (h17 : m .out = true) :
    view m (decodeCmd a0 s) = view m s := by
  unfold decodeCmd
  dsimp only
  (repeat' split) <;> simp [*]
@[simp] theorem view_entryFetched {m : Piece → Bool} (a0 a1 : Nat) (a2 : List Byte) (s : State)
    (h0 : m .drone = true) (h1 : m .host = true) (h2 : m .rings = true) (h3 : m .volumes = true) (h4 : m .cmds = true) (h5 : m .ledger = true) (h6 : m .entries = true) (h7 : m .slots = true) (h8 : m .smc = true) (h9 : m .lines = true) (h10 : m .cache = true) (h11 : m .appendQ = true) (h12 : m .array = true) (h13 : m .lost = true) (h14 : m .drives = true) (h15 : m .hem = true) (h16 : m .pair = true) (h17 : m .events = true) (h18 : m .out = true) :
    view m (entryFetched a0 a1 a2 s) = view m s := by
  unfold entryFetched
  dsimp only
  (repeat' split) <;> simp [*]
@[simp] theorem view_endCmd05 {m : Piece → Bool} (a0 : Nat) (s : State)
    (h0 : m .host = true) (h1 : m .cmds = true) :
    view m (endCmd05 a0 s) = view m s := by unfold endCmd05; split <;> simp [*]
@[simp] theorem view_endQuery {m : Piece → Bool} (a0 : Nat) (s : State)
    (h0 : m .host = true) (h1 : m .cmds = true) :
    view m (endQuery a0 s) = view m s := by simp [endQuery, *]
@[simp] theorem view_hostError {m : Piece → Bool} (a0 : Nat) (s : State)
    (h0 : m .drone = true) (h1 : m .jobs = true) (h2 : m .host = true) (h3 : m .cmds = true) (h4 : m .hem = true) (h5 : m .events = true) :
    view m (hostError a0 s) = view m s := by unfold hostError; split <;> simp [*]
@[simp] theorem view_lookupAll {m : Piece → Bool} (a0 : Nat) (a1 : List Nat) (s : State)
    (h0 : m .host = true) (h1 : m .cmds = true) (h2 : m .ledger = true) (h3 : m .entries = true) (h4 : m .slots = true) (h5 : m .smc = true) (h6 : m .lines = true) :
    view m (lookupAll a0 a1 s).2 = view m s := by
  unfold lookupAll
  refine (view_foldl_snd _ _ _ fun t x => ?_).trans rfl
  dsimp only
  (repeat' split) <;> simp [*]
@[simp] theorem view_readStripe {m : Piece → Bool} (a0 a1 : Nat) (a2 : Volume) (a3 : Entry) (s : State) (a5 : Nat)
    (h0 : m .drone = true) (h1 : m .jobs = true) (h2 : m .host = true) (h3 : m .cmds = true) (h4 : m .reeds = true) :
    view m (readStripe a0 a1 a2 a3 s a5) = view m s := by
  unfold readStripe
  extract_lets idx qs s1 want r
  have e : view m s1 = view m s := view_foldl _ _ _ fun t q => by split <;> simp [h0, h1, h2, h3, h4]
  clear_value s1
  split
  · exact e
  · simp [r, e, h0, h1, h2, h3, h4]
@[simp] theorem view_launchRead {m : Piece → Bool} (a0 : Cmd) (a1 : Volume) (s : State)
    (h0 : m .drone = true) (h1 : m .jobs = true) (h2 : m .host = true) (h3 : m .cmds = true) (h4 : m .reeds = true) :
    view m (launchRead a0 a1 s) = view m s := by
  unfold launchRead
  dsimp only
  refine view_withPlace _ _ _ (by assumption) fun t => ?_
  refine (view_foldl _ _ _ fun t k => view_readStripe _ _ _ _ _ _ ‹_› ‹_› ‹_› ‹_› ‹_›).trans ?_
  simp [h0, h1, h2, h3, h4]
@[simp] theorem view_verifyStripe {m : Piece → Bool} (a0 : Nat) (a1 : Volume) (a2 : Entry) (s : State) (a4 : Nat)
    (h0 : m .drone = true) (h1 : m .jobs = true) (h2 : m .host = true) (h3 : m .cmds = true) (h4 : m .reeds = true) :
    view m (verifyStripe a0 a1 a2 s a4) = view m s := by simp [verifyStripe, *]
@[simp] theorem view_launchVerify {m : Piece → Bool} (a0 : Cmd) (a1 : Volume) (s : State)
    (h0 : m .drone = true) (h1 : m .jobs = true) (h2 : m .host = true) (h3 : m .cmds = true) (h4 : m .reeds = true) :
    view m (launchVerify a0 a1 s) = view m s := by
  unfold launchVerify
  extract_lets s1
  have e : view m s1 = view m s := by
    refine view_withPlace _ _ _ (by assumption) fun t => ?_
    refine (view_foldl _ _ _ fun t k => view_verifyStripe _ _ _ _ _ ‹_› ‹_› ‹_› ‹_› ‹_›).trans ?_
    simp [h0, h1, h2, h3, h4]
  clear_value s1
  split <;> simp [e, h0, h1, h2, h3, h4]
@[simp] theorem view_tryRead {m : Piece → Bool} (a0 : Nat) (s : State)
    (h0 : m .drone = true) (h1 : m .jobs = true) (h2 : m .host = true) (h3 : m .cmds = true) (h4 : m .reeds = true) (h5 : m .ledger = true) (h6 : m .entries = true) (h7 : m .slots = true) (h8 : m .smc = true) (h9 : m .lines = true) :
    view m (tryRead a0 s) = view m s := by unfold tryRead; (repeat' split) <;> simp [*]
@[simp] theorem view_meetLost {m : Piece → Bool} (a0 : Nat) (a1 : Volume) (a2 : Entry) (a3 : Nat) (a4 : List Nat) (s : State)
    (h0 : m .host = true) (h1 : m .cmds = true) (h2 : m .array = true) (h3 : m .lost = true) (h4 : m .hem = true) (h5 : m .pair = true) (h6 : m .events = true) (h7 : m .out = true) :
    view m (meetLost a0 a1 a2 a3 a4 s) = view m s := by simp [meetLost, *]
@[simp] theorem view_runReadPart {m : Piece → Bool} (a0 a1 a2 a3 : Nat) (s : State)
    (h0 : m .drone = true) (h1 : m .jobs = true) (h2 : m .host = true) (h3 : m .cmds = true) (h4 : m .reeds = true) (h5 : m .array = true) (h6 : m .lost = true) (h7 : m .hem = true) (h8 : m .pair = true) (h9 : m .events = true) (h10 : m .out = true) :
    view m (runReadPart a0 a1 a2 a3 s) = view m s := by
  unfold runReadPart
  dsimp only
  (repeat' split) <;> simp [*]
@[simp] theorem view_runReadOut {m : Piece → Bool} (a0 a1 : Nat) (s : State)
    (h0 : m .drone = true) (h1 : m .jobs = true) :
    view m (runReadOut a0 a1 s) = view m s := by unfold runReadOut; split <;> simp [*]
@[simp] theorem view_runHostOut {m : Piece → Bool} (a0 a1 : Nat) (s : State)
    (h0 : m .drone = true) (h1 : m .jobs = true) (h2 : m .host = true) (h3 : m .cmds = true) (h4 : m .pair = true) (h5 : m .out = true) :
    view m (runHostOut a0 a1 s) = view m s := by unfold runHostOut; split <;> simp [*]
@[simp] theorem view_verifyPart {m : Piece → Bool} (a0 : Nat) (s : State)
    (h0 : m .host = true) (h1 : m .cmds = true) :
    view m (verifyPart a0 s) = view m s := by simp [verifyPart, *]
@[simp] theorem view_runVerifyRead {m : Piece → Bool} (a0 a1 a2 a3 : Nat) (s : State)
    (h0 : m .drone = true) (h1 : m .jobs = true) (h2 : m .host = true) (h3 : m .cmds = true) (h4 : m .reeds = true) (h5 : m .array = true) (h6 : m .lost = true) (h7 : m .hem = true) (h8 : m .pair = true) (h9 : m .events = true) (h10 : m .out = true) :
    view m (runVerifyRead a0 a1 a2 a3 s) = view m s := by
  unfold runVerifyRead
  dsimp only
  (repeat' split) <;> simp [*]
@[simp] theorem view_repairDiffs {m : Piece → Bool} (a0 : Nat) (a1 : WorkClass) (a2 : Volume) (a3 : Job) (a4 : List Nat) (s : State)
    (h0 : m .drone = true) (h1 : m .jobs = true) (h2 : m .reeds = true) :
    view m (repairDiffs a0 a1 a2 a3 a4 s) = view m s := by simp [repairDiffs, *]
@[simp] theorem view_runVerifyCheck {m : Piece → Bool} (a0 a1 a2 : Nat) (s : State)
    (h0 : m .drone = true) (h1 : m .jobs = true) (h2 : m .host = true) (h3 : m .cmds = true) (h4 : m .reeds = true) :
    view m (runVerifyCheck a0 a1 a2 s) = view m s := by unfold runVerifyCheck; split <;> simp [*]
@[simp] theorem view_noteFull {m : Piece → Bool} (a0 a1 : Bool) (s : State)
    (h0 : m .cache = true) (h1 : m .hem = true) (h2 : m .events = true) :
    view m (noteFull a0 a1 s) = view m s := by simp [noteFull, *]
@[simp] theorem view_enterShare {m : Piece → Bool} (v : Volume) (e : Entry) (got : Tab (List Byte)) (elig out : Bool)
    (a : List Nat × State) (key : Nat) (h0 : m .cache = true) (h1 : m .stripes = true) (h2 : m .appendQ = true) (h3 : m .pair = true) (h4 : m .out = true) :
    view m (enterShare v e got elig out a key).2 = view m a.2 := by
  unfold enterShare
  dsimp only
  split <;> simp [*]
@[simp] theorem view_setGroups {m : Piece → Bool} (a0 : Volume) (a1 : Entry) (s : State) (a3 : Nat)
    (h0 : m .drone = true) (h1 : m .host = true) (h2 : m .volumes = true) (h3 : m .ledger = true) (h4 : m .entries = true) (h5 : m .slots = true) (h6 : m .smc = true) (h7 : m .lines = true) (h8 : m .cache = true) (h9 : m .stripes = true) (h10 : m .appendQ = true) (h11 : m .drives = true) (h12 : m .hem = true) (h13 : m .pair = true) (h14 : m .events = true) (h15 : m .out = true) :
    view m (setGroups a0 a1 s a3) = view m s := by
  unfold setGroups
  extract_lets gs ent mask s1
  have e1 : view m s1 = view m s :=
    view_foldl _ _ _ fun t g => view_foldl _ _ _ fun u j => view_discardBlocks _ _ _ _ ‹_› ‹_› ‹_› ‹_› ‹_›
  clear_value s1
  (repeat' split) <;> simp [e1, h0, h1, h2, h3, h4, h5, h6, h7, h8, h9, h10, h11, h12, h13, h14, h15]
@[simp] theorem view_enterCmd {m : Piece → Bool} (a0 : Cmd) (a1 : Volume) (a2 : Tab (List Byte)) (a3 : Bool) (s : State)
    (h0 : m .drone = true) (h1 : m .host = true) (h2 : m .volumes = true) (h3 : m .cmds = true) (h4 : m .ledger = true) (h5 : m .entries = true) (h6 : m .slots = true) (h7 : m .smc = true) (h8 : m .lines = true) (h9 : m .cache = true) (h10 : m .stripes = true) (h11 : m .appendQ = true) (h12 : m .array = true) (h13 : m .lost = true) (h14 : m .drives = true) (h15 : m .hem = true) (h16 : m .pair = true) (h17 : m .events = true) (h18 : m .out = true) :
    view m (enterCmd a0 a1 a2 a3 s) = view m s := by
  unfold enterCmd
  dsimp only
  rw [view_modCmd _ _ _ ‹_› ‹_›]
  refine (view_foldl_snd _ _ _ fun t x => view_enterShare _ _ _ _ _ _ _ ‹_› ‹_› ‹_› ‹_› ‹_›).trans ?_
  split <;> simp [*]
@[simp] theorem view_placeAgain {m : Piece → Bool} (a0 : Cmd) (a1 : Volume) (s : State)
    (h0 : m .drone = true) (h1 : m .host = true) (h2 : m .volumes = true) (h3 : m .ledger = true) (h4 : m .entries = true) (h5 : m .slots = true) (h6 : m .smc = true) (h7 : m .lines = true) (h8 : m .cache = true) (h9 : m .appendQ = true) (h10 : m .drives = true) (h11 : m .hem = true) (h12 : m .pair = true) (h13 : m .events = true) (h14 : m .out = true) :
    view m (placeAgain a0 a1 s).2 = view m s := by simp [placeAgain, *]
@[simp] theorem view_admitIn {m : Piece → Bool} (a0 : Nat) (a1 : Cmd) (a2 : Volume) (a3 : Bool) (s : State)
    (h0 : m .drone = true) (h1 : m .jobs = true) :
    view m (admitIn a0 a1 a2 a3 s) = view m s := by simp [admitIn, *]
@[simp] theorem view_tryWrite {m : Piece → Bool} (a0 : Nat) (s : State)
    (h0 : m .drone = true) (h1 : m .jobs = true) (h2 : m .host = true) (h3 : m .volumes = true) (h4 : m .cmds = true) (h5 : m .ledger = true) (h6 : m .entries = true) (h7 : m .slots = true) (h8 : m .smc = true) (h9 : m .lines = true) (h10 : m .cache = true) (h11 : m .stripes = true) (h12 : m .appendQ = true) (h13 : m .array = true) (h14 : m .lost = true) (h15 : m .drives = true) (h16 : m .hem = true) (h17 : m .pair = true) (h18 : m .events = true) (h19 : m .out = true) :
    view m (tryWrite a0 s) = view m s := by
  unfold tryWrite
  dsimp only
  (repeat' split) <;> simp [*]
@[simp] theorem view_startWrite {m : Piece → Bool} (a0 : Cmd) (a1 a2 : List HostFrag) (s : State)
    (h0 : m .drone = true) (h1 : m .jobs = true) (h2 : m .host = true) (h3 : m .volumes = true) (h4 : m .cmds = true) (h5 : m .ledger = true) (h6 : m .entries = true) (h7 : m .slots = true) (h8 : m .smc = true) (h9 : m .lines = true) (h10 : m .cache = true) (h11 : m .stripes = true) (h12 : m .appendQ = true) (h13 : m .array = true) (h14 : m .lost = true) (h15 : m .drives = true) (h16 : m .hem = true) (h17 : m .pair = true) (h18 : m .events = true) (h19 : m .out = true) :
    view m (startWrite a0 a1 a2 s) = view m s := by simp [startWrite, *]
@[simp] theorem view_runWriteIn {m : Piece → Bool} (a0 a1 : Nat) (s : State)
    (h0 : m .drone = true) (h1 : m .jobs = true) (h2 : m .host = true) (h3 : m .volumes = true) (h4 : m .cmds = true) (h5 : m .ledger = true) (h6 : m .entries = true) (h7 : m .slots = true) (h8 : m .smc = true) (h9 : m .lines = true) (h10 : m .cache = true) (h11 : m .stripes = true) (h12 : m .appendQ = true) (h13 : m .array = true) (h14 : m .lost = true) (h15 : m .drives = true) (h16 : m .hem = true) (h17 : m .pair = true) (h18 : m .events = true) (h19 : m .out = true) :
    view m (runWriteIn a0 a1 s) = view m s := by unfold runWriteIn; (repeat' split) <;> simp [*]
@[simp] theorem view_flushVol {m : Piece → Bool} (a0 : Nat) (s : State)
    (h0 : m .host = true) (h1 : m .cmds = true) :
    view m (flushVol a0 s) = view m s := by simp [flushVol, *]
@[simp] theorem view_discardFrom {m : Piece → Bool} (a0 : Nat) (a1 : Volume) (a2 : Nat) (s : State)
    (h0 : m .cache = true) (h1 : m .stripes = true) (h2 : m .appendQ = true) (h3 : m .pair = true) (h4 : m .out = true) :
    view m (discardFrom a0 a1 a2 s) = view m s := by simp [discardFrom, *]
@[simp] theorem view_zeroFrom {m : Piece → Bool} (a0 : Volume) (a1 : Nat) (s : State) (a3 : Nat)
    (h0 : m .drone = true) (h1 : m .host = true) (h2 : m .volumes = true) (h3 : m .ledger = true) (h4 : m .entries = true) (h5 : m .slots = true) (h6 : m .smc = true) (h7 : m .lines = true) (h8 : m .cache = true) (h9 : m .appendQ = true) (h10 : m .drives = true) (h11 : m .hem = true) (h12 : m .pair = true) (h13 : m .events = true) (h14 : m .out = true) :
    view m (zeroFrom a0 a1 s a3) = view m s := by simp [zeroFrom, *]
@[simp] theorem view_logDelete {m : Piece → Bool} (a0 : Nat) (s : State)
    (h0 : m .ledger = true) (h1 : m .cache = true) (h2 : m .appendQ = true) (h3 : m .pair = true) (h4 : m .out = true) :
    view m (logDelete a0 s) = view m s := by simp [logDelete, *]
@[simp] theorem view_volDone {m : Piece → Bool} (a0 : Nat) (s : State)
    (h0 : m .host = true) (h1 : m .cmds = true) :
    view m (volDone a0 s) = view m s := by simp [volDone, *]
@[simp] theorem view_runRemoval {m : Piece → Bool} (a0 : Cmd) (a1 : Volume) (a2 : Nat) (s : State)
    (h0 : m .drone = true) (h1 : m .host = true) (h2 : m .volumes = true) (h3 : m .cmds = true) (h4 : m .ledger = true) (h5 : m .entries = true) (h6 : m .slots = true) (h7 : m .smc = true) (h8 : m .lines = true) (h9 : m .cache = true) (h10 : m .stripes = true) (h11 : m .appendQ = true) (h12 : m .array = true) (h13 : m .lost = true) (h14 : m .drives = true) (h15 : m .hem = true) (h16 : m .pair = true) (h17 : m .events = true) (h18 : m .out = true) :
    view m (runRemoval a0 a1 a2 s) = view m s := by simp [runRemoval, *]
@[simp] theorem view_runGrow {m : Piece → Bool} (a0 : Cmd) (a1 : Volume) (s : State)
    (h0 : m .drone = true) (h1 : m .host = true) (h2 : m .volumes = true) (h3 : m .cmds = true) (h4 : m .ledger = true) (h5 : m .entries = true) (h6 : m .slots = true) (h7 : m .smc = true) (h8 : m .lines = true) (h9 : m .cache = true) (h10 : m .stripes = true) (h11 : m .appendQ = true) (h12 : m .array = true) (h13 : m .lost = true) (h14 : m .drives = true) (h15 : m .hem = true) (h16 : m .pair = true) (h17 : m .events = true) (h18 : m .out = true) :
    view m (runGrow a0 a1 s) = view m s := by
  unfold runGrow
  dsimp only
  (repeat' split) <;> simp [*]
@[simp] theorem view_runQuery {m : Piece → Bool} (a0 : Cmd) (s : State)
    (h0 : m .drone = true) (h1 : m .jobs = true) (h2 : m .host = true) (h3 : m .cmds = true) :
    view m (runQuery a0 s) = view m s := by simp [runQuery, *]
@[simp] theorem view_runVolume {m : Piece → Bool} (a0 : Nat) (s : State)
    (h0 : m .drone = true) (h1 : m .jobs = true) (h2 : m .host = true) (h3 : m .volumes = true) (h4 : m .cmds = true) (h5 : m .ledger = true) (h6 : m .entries = true) (h7 : m .slots = true) (h8 : m .smc = true) (h9 : m .lines = true) (h10 : m .cache = true) (h11 : m .stripes = true) (h12 : m .appendQ = true) (h13 : m .array = true) (h14 : m .lost = true) (h15 : m .drives = true) (h16 : m .hem = true) (h17 : m .pair = true) (h18 : m .events = true) (h19 : m .out = true) :
    view m (runVolume a0 s) = view m s := by unfold runVolume; (repeat' split) <;> simp [*]
@[simp] theorem view_endVolume {m : Piece → Bool} (a0 : Nat) (s : State)
    (h0 : m .host = true) (h1 : m .volumes = true) (h2 : m .cmds = true) :
    view m (endVolume a0 s) = view m s := by unfold endVolume; (repeat' split) <;> simp [*]
@[simp] theorem view_tryVolume {m : Piece → Bool} (a0 : Nat) (s : State)
    (h0 : m .drone = true) (h1 : m .jobs = true) (h2 : m .host = true) (h3 : m .volumes = true) (h4 : m .cmds = true) (h5 : m .ledger = true) (h6 : m .entries = true) (h7 : m .slots = true) (h8 : m .smc = true) (h9 : m .lines = true) (h10 : m .cache = true) (h11 : m .stripes = true) (h12 : m .appendQ = true) (h13 : m .array = true) (h14 : m .lost = true) (h15 : m .drives = true) (h16 : m .hem = true) (h17 : m .pair = true) (h18 : m .events = true) (h19 : m .out = true) :
    view m (tryVolume a0 s) = view m s := by unfold tryVolume; split <;> simp [*]
@[simp] theorem view_retryCmd {m : Piece → Bool} (s : State) (a1 : Cmd)
    (h0 : m .drone = true) (h1 : m .jobs = true) (h2 : m .host = true) (h3 : m .volumes = true) (h4 : m .cmds = true) (h5 : m .reeds = true) (h6 : m .ledger = true) (h7 : m .entries = true) (h8 : m .slots = true) (h9 : m .smc = true) (h10 : m .lines = true) (h11 : m .cache = true) (h12 : m .stripes = true) (h13 : m .appendQ = true) (h14 : m .array = true) (h15 : m .lost = true) (h16 : m .drives = true) (h17 : m .hem = true) (h18 : m .pair = true) (h19 : m .events = true) (h20 : m .out = true) :
    view m (retryCmd s a1) = view m s := by unfold retryCmd; (repeat' split) <;> simp [*]
@[simp] theorem view_retryCmds {m : Piece → Bool} (s : State)
    (h0 : m .drone = true) (h1 : m .jobs = true) (h2 : m .host = true) (h3 : m .volumes = true) (h4 : m .cmds = true) (h5 : m .reeds = true) (h6 : m .ledger = true) (h7 : m .entries = true) (h8 : m .slots = true) (h9 : m .smc = true) (h10 : m .lines = true) (h11 : m .cache = true) (h12 : m .stripes = true) (h13 : m .appendQ = true) (h14 : m .array = true) (h15 : m .lost = true) (h16 : m .drives = true) (h17 : m .hem = true) (h18 : m .pair = true) (h19 : m .events = true) (h20 : m .out = true) :
    view m (retryCmds s) = view m s := by
  unfold retryCmds
  refine (view_foldl _ _ _ fun t x => ?_).trans (by simp [*])
  split <;> simp [*]
@[simp] theorem view_flrCmd {m : Piece → Bool} (s : State) (a1 : Cmd)
    (h0 : m .drone = true) (h1 : m .jobs = true) (h2 : m .host = true) (h3 : m .cmds = true) (h4 : m .hem = true) (h5 : m .events = true) :
    view m (flrCmd s a1) = view m s := by simp [flrCmd, *]
@[simp] theorem view_resetFunction {m : Piece → Bool} (a0 : Nat) (s : State)
    (h0 : m .drone = true) (h1 : m .jobs = true) (h2 : m .host = true) (h3 : m .rings = true) (h4 : m .cmds = true) (h5 : m .funcs = true) (h6 : m .dma = true) (h7 : m .hem = true) (h8 : m .events = true) :
    view m (resetFunction a0 s) = view m s := by simp [resetFunction, *]
@[simp] theorem view_endFlrs {m : Piece → Bool} (s : State)
    (h0 : m .host = true) :
    view m (endFlrs s) = view m s := by simp [endFlrs, *]
@[simp] theorem view_endDelete {m : Piece → Bool} (a0 : Cmd) (s : State)
    (h0 : m .host = true) (h1 : m .volumes = true) :
    view m (endDelete a0 s) = view m s := by simp [endDelete, *]
@[simp] theorem view_abortAll {m : Piece → Bool} (s : State)
    (h0 : m .drone = true) (h1 : m .jobs = true) (h2 : m .host = true) (h3 : m .rings = true) (h4 : m .volumes = true) (h5 : m .cmds = true) (h6 : m .hem = true) (h7 : m .events = true) :
    view m (abortAll s) = view m s := by
  unfold abortAll
  extract_lets s1
  have e1 : view m s1 = view m s := view_foldl _ _ _ fun t c => by simp [*]
  clear_value s1
  rw [← e1]
  clear e1
  apply view_mk <;> first | exact .inr rfl | exact .inl ‹_›
@[simp] theorem view_placeUnit {m : Piece → Bool} (a0 : HomeUnit) (a1 : Nat) (s : State)
    (h0 : m .ledger = true) :
    view m (placeUnit a0 a1 s).2 = view m s := by simp [placeUnit, *]
@[simp] theorem view_forgetScrub {m : Piece → Bool} (a0 : HomeUnit) (s : State)
    (h0 : m .drone = true) (h1 : m .jobs = true) (h2 : m .hem = true) (h3 : m .events = true) :
    view m (forgetScrub a0 s) = view m s := by simp [forgetScrub, *]
@[simp] theorem view_writeUnit {m : Piece → Bool} (a0 : HomeUnit) (a1 : Nat) (s : State)
    (h0 : m .drone = true) (h1 : m .jobs = true) (h2 : m .ledger = true) (h3 : m .hem = true) (h4 : m .events = true) :
    view m (writeUnit a0 a1 s) = view m s := by simp [writeUnit, *]
@[simp] theorem view_logDurable {m : Piece → Bool} (a0 : Nat) (s : State)
    (h0 : m .ledger = true) (h1 : m .cache = true) (h2 : m .hem = true) (h3 : m .events = true) :
    view m (logDurable a0 s) = view m s := by simp [logDurable, *]
@[simp] theorem view_copyLog {m : Piece → Bool} (s : State)
    (h0 : m .drone = true) (h1 : m .jobs = true) (h2 : m .ledger = true) (h3 : m .cache = true) (h4 : m .hem = true) (h5 : m .events = true) :
    view m (copyLog s) = view m s := by
  unfold copyLog
  dsimp only
  split
  · rfl
  · split
    · simp [h0, h1, h2, h3, h4, h5]
    · split
      · rfl
      · rw [view_plan _ _ _ _ _ _ ‹_› ‹_›]
        exact view_foldl_snd _ _ _ fun t b => by simp [h0, h1, h2, h3, h4, h5]
@[simp] theorem view_pageRead {m : Piece → Bool} (a0 : Nat) (s : State)
    (h0 : m .ledger = true) :
    view m (pageRead a0 s) = view m s := by simp [pageRead, *]
@[simp] theorem view_readPage {m : Piece → Bool} (s : State) (a1 : Nat)
    (h0 : m .drone = true) (h1 : m .jobs = true) (h2 : m .ledger = true) :
    view m (readPage s a1) = view m s := by unfold readPage; split <;> simp [*]
@[simp] theorem view_pageArrived {m : Piece → Bool} (a0 : Nat) (s : State)
    (h0 : m .drone = true) (h1 : m .jobs = true) (h2 : m .ledger = true) (h3 : m .hem = true) (h4 : m .events = true) :
    view m (pageArrived a0 s) = view m s := by unfold pageArrived; split <;> simp [*]
@[simp] theorem view_settlePages {m : Piece → Bool} (s : State)
    (h0 : m .drone = true) (h1 : m .jobs = true) (h2 : m .ledger = true) (h3 : m .hem = true) (h4 : m .events = true) :
    view m (settlePages s) = view m s := by simp [settlePages, *]
@[simp] theorem view_writePage {m : Piece → Bool} (a0 : Nat) (s : State)
    (h0 : m .drone = true) (h1 : m .jobs = true) (h2 : m .ledger = true) (h3 : m .hem = true) (h4 : m .events = true) :
    view m (writePage a0 s) = view m s := by unfold writePage; split <;> simp [*]
@[simp] theorem view_evictPages {m : Piece → Bool} (s : State)
    (h0 : m .drone = true) (h1 : m .jobs = true) (h2 : m .ledger = true) (h3 : m .hem = true) (h4 : m .events = true) :
    view m (evictPages s) = view m s := by simp [evictPages, *]
@[simp] theorem view_drainAll {m : Piece → Bool} (s : State)
    (h0 : m .ledger = true) (h1 : m .smc = true) :
    view m (drainAll s) = view m s := by simp [drainAll, *]
@[simp] theorem view_startCheckpoint {m : Piece → Bool} (s : State)
    (h0 : m .drone = true) (h1 : m .jobs = true) (h2 : m .ledger = true) (h3 : m .smc = true) (h4 : m .hem = true) (h5 : m .events = true) :
    view m (startCheckpoint s) = view m s := by simp [startCheckpoint, *]
@[simp] theorem view_writeLabel {m : Piece → Bool} (a0 : Nat) (s : State)
    (h0 : m .drone = true) :
    view m (writeLabel a0 s) = view m s := by simp [writeLabel, *]
@[simp] theorem view_writeLabels {m : Piece → Bool} (s : State)
    (h0 : m .drone = true) (h1 : m .jobs = true) :
    view m (writeLabels s) = view m s := by simp [writeLabels, *]
@[simp] theorem view_stepCheckpoint {m : Piece → Bool} (s : State)
    (h0 : m .drone = true) (h1 : m .jobs = true) (h2 : m .ledger = true) (h3 : m .hem = true) (h4 : m .events = true) :
    view m (stepCheckpoint s) = view m s := by unfold stepCheckpoint; split <;> simp [*]
@[simp] theorem view_endCheckpoint {m : Piece → Bool} (a0 : Nat) (s : State)
    (h0 : m .ledger = true) (h1 : m .hem = true) (h2 : m .events = true) :
    view m (endCheckpoint a0 s) = view m s := by simp [endCheckpoint, *]
@[simp] theorem view_pageWritten {m : Piece → Bool} (a0 a1 : Nat) (s : State)
    (h0 : m .ledger = true) :
    view m (pageWritten a0 a1 s) = view m s := by unfold pageWritten; split <;> simp [*]
@[simp] theorem view_runHomeWrite {m : Piece → Bool} (a0 : Nat) (a1 : HomeUnit) (a2 : Nat) (s : State)
    (h0 : m .drone = true) (h1 : m .jobs = true) (h2 : m .ledger = true) (h3 : m .cache = true) (h4 : m .array = true) (h5 : m .hem = true) (h6 : m .events = true) :
    view m (runHomeWrite a0 a1 a2 s) = view m s := by unfold runHomeWrite; split <;> simp [*]
@[simp] theorem view_runHomeLabels {m : Piece → Bool} (a0 : Nat) (s : State)
    (h0 : m .drone = true) (h1 : m .jobs = true) (h2 : m .ledger = true) :
    view m (runHomeLabels a0 s) = view m s := by simp [runHomeLabels, *]
@[simp] theorem view_copyLost {m : Piece → Bool} (s : State)
    (h0 : m .drone = true) (h1 : m .jobs = true) (h2 : m .ledger = true) (h3 : m .array = true) (h4 : m .hem = true) (h5 : m .events = true) :
    view m (copyLost s) = view m s := by simp [copyLost, *]
@[simp] theorem view_homeWork {m : Piece → Bool} (s : State)
    (h0 : m .drone = true) (h1 : m .jobs = true) (h2 : m .ledger = true) (h3 : m .cache = true) (h4 : m .array = true) (h5 : m .hem = true) (h6 : m .events = true) :
    view m (homeWork s) = view m s := by simp [homeWork, *]
@[simp] theorem view_takeHome {m : Piece → Bool} (s : State)
    (h0 : m .ledger = true) :
    view m (takeHome s) = view m s := by simp [takeHome, *]
@[simp] theorem view_scrubUnit {m : Piece → Bool} (a0 : HomeUnit) (s : State)
    (h0 : m .drone = true) (h1 : m .jobs = true) :
    view m (scrubUnit a0 s) = view m s := by unfold scrubUnit; split <;> simp [*]
@[simp] theorem view_runHomeScrub {m : Piece → Bool} (a0 : Nat) (a1 : HomeUnit) (s : State)
    (h0 : m .drone = true) (h1 : m .jobs = true) (h2 : m .hem = true) (h3 : m .events = true) :
    view m (runHomeScrub a0 a1 s) = view m s := by
  unfold runHomeScrub
  dsimp only
  (repeat' split) <;> simp [*]
@[simp] theorem view_slotCause {m : Piece → Bool} (a0 a1 : Nat) (s : State)
    (h0 : m .drives = true) (h1 : m .hem = true) (h2 : m .events = true) :
    view m (slotCause a0 a1 s) = view m s := by simp [slotCause, *]
@[simp] theorem view_noteQueue {m : Piece → Bool} (s : State)
    (h0 : m .array = true) (h1 : m .hem = true) (h2 : m .events = true) :
    view m (noteQueue s) = view m s := by simp [noteQueue, *]
@[simp] theorem view_dropRebuild {m : Piece → Bool} (a0 : Nat) (s : State)
    (h0 : m .drone = true) (h1 : m .jobs = true) (h2 : m .array = true) (h3 : m .hem = true) (h4 : m .events = true) :
    view m (dropRebuild a0 s) = view m s := by simp [dropRebuild, *]
@[simp] theorem view_rebuildStripe {m : Piece → Bool} (a0 a1 : Nat) (s : State)
    (h0 : m .drone = true) (h1 : m .jobs = true) (h2 : m .reeds = true) (h3 : m .array = true) :
    view m (rebuildStripe a0 a1 s) = view m s := by
  induction a0 generalizing s with
  | zero => rfl
  | succ n ih =>
    unfold rebuildStripe
    (repeat' split) <;> simp [ih, *]
@[simp] theorem view_skipParcel {m : Piece → Bool} (a0 : Nat) (s : State)
    (h0 : m .array = true) (h1 : m .hem = true) (h2 : m .events = true) :
    view m (skipParcel a0 s) = view m s := by simp [skipParcel, *]
/-- Targets of a rebuild. -/
theorem view_startRelocs {m : Piece → Bool} (pk : Nat) (v : Volume) (l : List Nat) (b : Bool) (s : State)
    (h0 : m .drone = true) (h1 : m .host = true) (h2 : m .volumes = true) (h3 : m .ledger = true) (h4 : m .entries = true) (h5 : m .slots = true) (h6 : m .smc = true) (h7 : m .lines = true) (h8 : m .cache = true) (h9 : m .appendQ = true) (h10 : m .drives = true) (h11 : m .hem = true) (h12 : m .pair = true) (h13 : m .events = true) (h14 : m .out = true) :
    ∀ c t, startRelocs pk v l b s = some (c, t) → view m t = view m s := by
  induction l generalizing b s with
  | nil =>
    intro c t h
    simp only [startRelocs, Option.some.injEq, Prod.mk.injEq] at h
    rw [h.2]
  | cons i r ih =>
    intro c t h
    unfold startRelocs at h
    split at h
    · cases h
    · exact (ih _ _ _ _ h).trans (view_startReloc _ _ _ _ _ ‹_› ‹_› ‹_› ‹_› ‹_› ‹_› ‹_› ‹_› ‹_› ‹_› ‹_› ‹_› ‹_› ‹_› ‹_›)
@[simp] theorem view_formRebuild {m : Piece → Bool} (a0 : Nat) (a1 : Volume) (s : State)
    (h0 : m .drone = true) (h1 : m .jobs = true) (h2 : m .host = true) (h3 : m .volumes = true) (h4 : m .reeds = true) (h5 : m .ledger = true) (h6 : m .entries = true) (h7 : m .slots = true) (h8 : m .smc = true) (h9 : m .lines = true) (h10 : m .cache = true) (h11 : m .appendQ = true) (h12 : m .array = true) (h13 : m .drives = true) (h14 : m .hem = true) (h15 : m .pair = true) (h16 : m .events = true) (h17 : m .out = true) :
    view m (formRebuild a0 a1 s) = view m s := by
  unfold formRebuild
  dsimp only
  (repeat' split)
  · simp [h0, h1, h2, h3, h4, h5, h6, h7, h8, h9, h10, h11, h12, h13, h14, h15, h16, h17]
  · simp [h0, h1, h2, h3, h4, h5, h6, h7, h8, h9, h10, h11, h12, h13, h14, h15, h16, h17]
  · rename_i h
    rw [view_rebuildStripe _ _ _ ‹_› ‹_› ‹_› ‹_›]
    refine Eq.trans ?_ (view_startRelocs _ _ _ _ _ ‹_› ‹_› ‹_› ‹_› ‹_› ‹_› ‹_› ‹_› ‹_› ‹_› ‹_› ‹_› ‹_› ‹_› ‹_› _ _ h)
    simp [h0, h1, h2, h3, h4, h5, h6, h7, h8, h9, h10, h11, h12, h13, h14, h15, h16, h17]
@[simp] theorem view_restartRebuild {m : Piece → Bool} (a0 : Nat) (s : State)
    (h0 : m .drone = true) (h1 : m .jobs = true) (h2 : m .host = true) (h3 : m .volumes = true) (h4 : m .reeds = true) (h5 : m .ledger = true) (h6 : m .entries = true) (h7 : m .slots = true) (h8 : m .smc = true) (h9 : m .lines = true) (h10 : m .cache = true) (h11 : m .appendQ = true) (h12 : m .array = true) (h13 : m .drives = true) (h14 : m .hem = true) (h15 : m .pair = true) (h16 : m .events = true) (h17 : m .out = true) :
    view m (restartRebuild a0 s) = view m s := by unfold restartRebuild; split <;> simp [*]
@[simp] theorem view_clearRelocs {m : Piece → Bool} (a0 a1 : Nat) (s : State)
    (h0 : m .drone = true) (h1 : m .host = true) (h2 : m .volumes = true) (h3 : m .ledger = true) (h4 : m .entries = true) (h5 : m .slots = true) (h6 : m .smc = true) (h7 : m .lines = true) (h8 : m .cache = true) (h9 : m .appendQ = true) (h10 : m .drives = true) (h11 : m .hem = true) (h12 : m .pair = true) (h13 : m .events = true) (h14 : m .out = true) :
    view m (clearRelocs a0 a1 s) = view m s := by simp [clearRelocs, *]
@[simp] theorem view_restartOn {m : Piece → Bool} (a0 : Nat) (s : State)
    (h0 : m .drone = true) (h1 : m .jobs = true) (h2 : m .host = true) (h3 : m .volumes = true) (h4 : m .reeds = true) (h5 : m .ledger = true) (h6 : m .entries = true) (h7 : m .slots = true) (h8 : m .smc = true) (h9 : m .lines = true) (h10 : m .cache = true) (h11 : m .appendQ = true) (h12 : m .array = true) (h13 : m .drives = true) (h14 : m .hem = true) (h15 : m .pair = true) (h16 : m .events = true) (h17 : m .out = true) :
    view m (restartOn a0 s) = view m s := by simp [restartOn, *]
@[simp] theorem view_abandonSub {m : Piece → Bool} (a0 : Sub) (s : State)
    (h0 : m .jobs = true) :
    view m (abandonSub a0 s) = view m s := by simp [abandonSub, *]
@[simp] theorem view_dropInflight {m : Piece → Bool} (a0 : Sub) (s : State)
    (h0 : m .drone = true) (h1 : m .posted = true) :
    view m (dropInflight a0 s) = view m s := by unfold dropInflight; split <;> simp [*]
@[simp] theorem view_dropSlotWork {m : Piece → Bool} (a0 : Nat) (s : State)
    (h0 : m .drone = true) (h1 : m .posted = true) (h2 : m .jobs = true) (h3 : m .hem = true) (h4 : m .events = true) :
    view m (dropSlotWork a0 s) = view m s := by simp [dropSlotWork, *]
@[simp] theorem view_stopDrive {m : Piece → Bool} (a0 a1 : Nat) (s : State)
    (h0 : m .drives = true) :
    view m (stopDrive a0 a1 s) = view m s := by unfold stopDrive; split <;> simp [*]
@[simp] theorem view_degradePgs {m : Piece → Bool} (a0 : Nat) (s : State)
    (h0 : m .drone = true) (h1 : m .host = true) (h2 : m .volumes = true) (h3 : m .ledger = true) (h4 : m .entries = true) (h5 : m .slots = true) (h6 : m .smc = true) (h7 : m .lines = true) (h8 : m .cache = true) (h9 : m .appendQ = true) (h10 : m .drives = true) (h11 : m .hem = true) (h12 : m .pair = true) (h13 : m .events = true) (h14 : m .out = true) :
    view m (degradePgs a0 s) = view m s := by simp [degradePgs, *]
@[simp] theorem view_declareFailed {m : Piece → Bool} (a0 a1 : Nat) (s : State)
    (h0 : m .drone = true) (h1 : m .posted = true) (h2 : m .jobs = true) (h3 : m .host = true) (h4 : m .volumes = true) (h5 : m .reeds = true) (h6 : m .ledger = true) (h7 : m .entries = true) (h8 : m .slots = true) (h9 : m .smc = true) (h10 : m .lines = true) (h11 : m .cache = true) (h12 : m .appendQ = true) (h13 : m .array = true) (h14 : m .drives = true) (h15 : m .hem = true) (h16 : m .pair = true) (h17 : m .events = true) (h18 : m .out = true) :
    view m (declareFailed a0 a1 s) = view m s := by simp [declareFailed, *]
@[simp] theorem view_declareAll {m : Piece → Bool} (s : State)
    (h0 : m .drone = true) (h1 : m .posted = true) (h2 : m .jobs = true) (h3 : m .host = true) (h4 : m .volumes = true) (h5 : m .reeds = true) (h6 : m .ledger = true) (h7 : m .entries = true) (h8 : m .slots = true) (h9 : m .smc = true) (h10 : m .lines = true) (h11 : m .cache = true) (h12 : m .appendQ = true) (h13 : m .array = true) (h14 : m .drives = true) (h15 : m .hem = true) (h16 : m .pair = true) (h17 : m .events = true) (h18 : m .out = true) :
    view m (declareAll s) = view m s := by simp [declareAll, *]
@[simp] theorem view_orderFail {m : Piece → Bool} (a0 : Nat) (s : State)
    (h0 : m .array = true) :
    view m (orderFail a0 s) = view m s := by simp [orderFail, *]
/-- PLC_FAIL_CTL written with an effect. -/
@[simp] theorem view_writeFailSlot {m : Piece → Bool} (slot : Nat) (act : State → State) (s : State)
    (h0 : m .ledger = true) (h1 : m .slots = true) (h2 : m .array = true) (h : ∀ t, view m (act t) = view m t) :
    view m (writeFailSlot slot act s) = view m s := by
  unfold writeFailSlot
  split <;> simp [h, h0, h1, h2]
@[simp] theorem view_startParcel {m : Piece → Bool} (a0 : Nat) (s : State)
    (h0 : m .drone = true) (h1 : m .jobs = true) (h2 : m .host = true) (h3 : m .volumes = true) (h4 : m .reeds = true) (h5 : m .ledger = true) (h6 : m .entries = true) (h7 : m .slots = true) (h8 : m .smc = true) (h9 : m .lines = true) (h10 : m .cache = true) (h11 : m .appendQ = true) (h12 : m .array = true) (h13 : m .drives = true) (h14 : m .hem = true) (h15 : m .pair = true) (h16 : m .events = true) (h17 : m .out = true) :
    view m (startParcel a0 s) = view m s := by unfold startParcel; split <;> simp [*]
@[simp] theorem view_runRebuildRead {m : Piece → Bool} (a0 a1 : Nat) (s : State)
    (h0 : m .drone = true) (h1 : m .jobs = true) (h2 : m .reeds = true) (h3 : m .array = true) :
    view m (runRebuildRead a0 a1 s) = view m s := by
  unfold runRebuildRead
  dsimp only
  (repeat' split) <;> simp [*]
@[simp] theorem view_endStripes {m : Piece → Bool} (a0 : Nat) (s : State)
    (h0 : m .array = true) (h1 : m .lost = true) (h2 : m .hem = true) (h3 : m .pair = true) (h4 : m .events = true) (h5 : m .out = true) :
    view m (endStripes a0 s) = view m s := by unfold endStripes; split <;> simp [*]
@[simp] theorem view_rebuildNext {m : Piece → Bool} (a0 : Nat) (s : State)
    (h0 : m .drone = true) (h1 : m .jobs = true) (h2 : m .reeds = true) (h3 : m .array = true) (h4 : m .lost = true) (h5 : m .hem = true) (h6 : m .pair = true) (h7 : m .events = true) (h8 : m .out = true) :
    view m (rebuildNext a0 s) = view m s := by simp [rebuildNext, *]
@[simp] theorem view_stripeDone {m : Piece → Bool} (a0 : Nat) (s : State)
    (h0 : m .drone = true) (h1 : m .jobs = true) (h2 : m .reeds = true) (h3 : m .array = true) (h4 : m .lost = true) (h5 : m .hem = true) (h6 : m .pair = true) (h7 : m .events = true) (h8 : m .out = true) :
    view m (stripeDone a0 s) = view m s := by unfold stripeDone; split <;> simp [*]
@[simp] theorem view_relocDone {m : Piece → Bool} (a0 : Nat) (s : State)
    (h0 : m .drone = true) (h1 : m .host = true) (h2 : m .volumes = true) (h3 : m .ledger = true) (h4 : m .entries = true) (h5 : m .slots = true) (h6 : m .smc = true) (h7 : m .lines = true) (h8 : m .cache = true) (h9 : m .appendQ = true) (h10 : m .array = true) (h11 : m .drives = true) (h12 : m .hem = true) (h13 : m .pair = true) (h14 : m .events = true) (h15 : m .out = true) :
    view m (relocDone a0 s) = view m s := by simp [relocDone, *]
@[simp] theorem view_unskip {m : Piece → Bool} (s : State)
    (h0 : m .ledger = true) (h1 : m .array = true) :
    view m (unskip s) = view m s := by simp [unskip, *]
@[simp] theorem view_restartAll {m : Piece → Bool} (s : State)
    (h0 : m .drone = true) (h1 : m .jobs = true) (h2 : m .host = true) (h3 : m .volumes = true) (h4 : m .reeds = true) (h5 : m .ledger = true) (h6 : m .entries = true) (h7 : m .slots = true) (h8 : m .smc = true) (h9 : m .lines = true) (h10 : m .cache = true) (h11 : m .appendQ = true) (h12 : m .array = true) (h13 : m .drives = true) (h14 : m .hem = true) (h15 : m .pair = true) (h16 : m .events = true) (h17 : m .out = true) :
    view m (restartAll s) = view m s := by
  unfold restartAll
  dsimp only
  refine (view_foldl _ _ _ fun t k => view_elim _ _ _ fun v => view_formRebuild _ _ _ ‹_› ‹_› ‹_› ‹_› ‹_› ‹_› ‹_› ‹_› ‹_› ‹_› ‹_› ‹_› ‹_› ‹_› ‹_› ‹_› ‹_› ‹_›).trans ?_
  simp [h0, h1, h2, h3, h4, h5, h6, h7, h8, h9, h10, h11, h12, h13, h14, h15, h16, h17]
@[simp] theorem view_modMig {m : Piece → Bool} (a0 : Nat) (a1 : Migration → Migration) (s : State)
    (h0 : m .ledger = true) :
    view m (modMig a0 a1 s) = view m s := by unfold modMig; split <;> simp [*]
@[simp] theorem view_copyStripe {m : Piece → Bool} (a0 : Nat) (s : State)
    (h0 : m .drone = true) (h1 : m .jobs = true) (h2 : m .reeds = true) (h3 : m .ledger = true) (h4 : m .entries = true) (h5 : m .slots = true) (h6 : m .smc = true) (h7 : m .lines = true) :
    view m (copyStripe a0 s) = view m s := by
  unfold copyStripe
  (repeat' split) <;> (try dsimp only) <;> (repeat' split) <;> simp [h0, h1, h2, h3, h4, h5, h6, h7]
@[simp] theorem view_copyAll {m : Piece → Bool} (s : State)
    (h0 : m .drone = true) (h1 : m .jobs = true) (h2 : m .reeds = true) (h3 : m .ledger = true) (h4 : m .entries = true) (h5 : m .slots = true) (h6 : m .smc = true) (h7 : m .lines = true) :
    view m (copyAll s) = view m s := by simp [copyAll, *]
@[simp] theorem view_runMoveRead {m : Piece → Bool} (a0 a1 : Nat) (s : State)
    (h0 : m .drone = true) (h1 : m .jobs = true) (h2 : m .reeds = true) (h3 : m .array = true) (h4 : m .lost = true) (h5 : m .hem = true) (h6 : m .pair = true) (h7 : m .events = true) (h8 : m .out = true) :
    view m (runMoveRead a0 a1 s) = view m s := by
  unfold runMoveRead
  dsimp only
  (repeat' split) <;> simp [*]
@[simp] theorem view_runMoveEnc {m : Piece → Bool} (a0 a1 : Nat) (s : State)
    (h0 : m .drone = true) (h1 : m .jobs = true) :
    view m (runMoveEnc a0 a1 s) = view m s := by unfold runMoveEnc; split <;> simp [*]
@[simp] theorem view_runMoveWrite {m : Piece → Bool} (a0 a1 : Nat) (s : State)
    (h0 : m .drone = true) (h1 : m .jobs = true) (h2 : m .reeds = true) (h3 : m .ledger = true) (h4 : m .entries = true) (h5 : m .slots = true) (h6 : m .smc = true) (h7 : m .lines = true) :
    view m (runMoveWrite a0 a1 s) = view m s := by simp [runMoveWrite, *]
@[simp] theorem view_giveUpMove {m : Piece → Bool} (a0 : Nat) (s : State)
    (h0 : m .drone = true) (h1 : m .jobs = true) (h2 : m .host = true) (h3 : m .volumes = true) (h4 : m .ledger = true) (h5 : m .entries = true) (h6 : m .slots = true) (h7 : m .smc = true) (h8 : m .lines = true) (h9 : m .cache = true) (h10 : m .appendQ = true) (h11 : m .drives = true) (h12 : m .hem = true) (h13 : m .pair = true) (h14 : m .events = true) (h15 : m .out = true) :
    view m (giveUpMove a0 s) = view m s := by simp [giveUpMove, *]
@[simp] theorem view_endMove {m : Piece → Bool} (a0 : Nat) (a1 : Migration) (s : State)
    (h0 : m .drone = true) (h1 : m .jobs = true) (h2 : m .host = true) (h3 : m .volumes = true) (h4 : m .ledger = true) (h5 : m .entries = true) (h6 : m .slots = true) (h7 : m .smc = true) (h8 : m .lines = true) (h9 : m .cache = true) (h10 : m .appendQ = true) (h11 : m .array = true) (h12 : m .drives = true) (h13 : m .hem = true) (h14 : m .pair = true) (h15 : m .events = true) (h16 : m .out = true) :
    view m (endMove a0 a1 s) = view m s := by simp [endMove, *]
@[simp] theorem view_giveUpMoves {m : Piece → Bool} (s : State)
    (h0 : m .drone = true) (h1 : m .jobs = true) (h2 : m .host = true) (h3 : m .volumes = true) (h4 : m .ledger = true) (h5 : m .entries = true) (h6 : m .slots = true) (h7 : m .smc = true) (h8 : m .lines = true) (h9 : m .cache = true) (h10 : m .appendQ = true) (h11 : m .drives = true) (h12 : m .hem = true) (h13 : m .pair = true) (h14 : m .events = true) (h15 : m .out = true) :
    view m (giveUpMoves s) = view m s := by simp [giveUpMoves, *]
@[simp] theorem view_scrubCount {m : Piece → Bool} (a0 : Nat) (s : State)
    (h0 : m .array = true) :
    view m (scrubCount a0 s) = view m s := by simp [scrubCount, *]
@[simp] theorem view_checkStripe {m : Piece → Bool} (a0 : Nat) (a1 : Scrub) (s : State)
    (h0 : m .drone = true) (h1 : m .jobs = true) (h2 : m .reeds = true) (h3 : m .array = true) :
    view m (checkStripe a0 a1 s) = view m s := by unfold checkStripe; split <;> simp [*]
@[simp] theorem view_scrubNext {m : Piece → Bool} (a0 : Nat) (a1 : Scrub) (s : State)
    (h0 : m .drone = true) (h1 : m .jobs = true) (h2 : m .reeds = true) (h3 : m .ledger = true) (h4 : m .entries = true) (h5 : m .slots = true) (h6 : m .smc = true) (h7 : m .lines = true) (h8 : m .array = true) (h9 : m .hem = true) (h10 : m .events = true) :
    view m (scrubNext a0 a1 s) = view m s := by
  induction a0 generalizing a1 s with
  | zero => simp [scrubNext, h0, h1, h2, h3, h4, h5, h6, h7, h8, h9, h10]
  | succ n ih =>
    unfold scrubNext
    (repeat' split) <;> (try dsimp only) <;> (repeat' split) <;> simp [ih, h0, h1, h2, h3, h4, h5, h6, h7, h8, h9, h10]
@[simp] theorem view_scrubStep {m : Piece → Bool} (a0 : Scrub) (s : State)
    (h0 : m .drone = true) (h1 : m .jobs = true) (h2 : m .reeds = true) (h3 : m .ledger = true) (h4 : m .entries = true) (h5 : m .slots = true) (h6 : m .smc = true) (h7 : m .lines = true) (h8 : m .array = true) (h9 : m .hem = true) (h10 : m .events = true) :
    view m (scrubStep a0 s) = view m s := by unfold scrubStep; split <;> simp [*]
@[simp] theorem view_startScrub {m : Piece → Bool} (s : State)
    (h0 : m .drone = true) (h1 : m .jobs = true) (h2 : m .reeds = true) (h3 : m .ledger = true) (h4 : m .entries = true) (h5 : m .slots = true) (h6 : m .smc = true) (h7 : m .lines = true) (h8 : m .array = true) (h9 : m .hem = true) (h10 : m .events = true) :
    view m (startScrub s) = view m s := by simp [startScrub, *]
@[simp] theorem view_runScrubRead {m : Piece → Bool} (a0 a1 : Nat) (s : State)
    (h0 : m .drone = true) (h1 : m .jobs = true) (h2 : m .reeds = true) :
    view m (runScrubRead a0 a1 s) = view m s := by
  unfold runScrubRead
  dsimp only
  (repeat' split) <;> simp [*]
@[simp] theorem view_checkAgain {m : Piece → Bool} (a0 a1 : Nat) (a2 : Volume) (a3 : Job) (s : State)
    (h0 : m .drone = true) (h1 : m .jobs = true) (h2 : m .reeds = true) :
    view m (checkAgain a0 a1 a2 a3 s) = view m s := by simp [checkAgain, *]
@[simp] theorem view_judgePosition {m : Piece → Bool} (a0 : Nat) (a1 : Volume) (a2 : Job) (s : State) (a4 : Nat)
    (h0 : m .drone = true) (h1 : m .jobs = true) (h2 : m .reeds = true) (h3 : m .array = true) (h4 : m .lost = true) (h5 : m .hem = true) (h6 : m .pair = true) (h7 : m .events = true) (h8 : m .out = true) :
    view m (judgePosition a0 a1 a2 s a4) = view m s := by simp [judgePosition, *]
@[simp] theorem view_runScrubAgain {m : Piece → Bool} (a0 a1 : Nat) (s : State)
    (h0 : m .drone = true) (h1 : m .jobs = true) (h2 : m .reeds = true) (h3 : m .array = true) (h4 : m .lost = true) (h5 : m .hem = true) (h6 : m .pair = true) (h7 : m .events = true) (h8 : m .out = true) :
    view m (runScrubAgain a0 a1 s) = view m s := by
  unfold runScrubAgain
  dsimp only
  (repeat' split) <;> simp [*]
@[simp] theorem view_endCheck {m : Piece → Bool} (a0 a1 : Nat) (s : State)
    (h0 : m .drone = true) (h1 : m .jobs = true) (h2 : m .reeds = true) :
    view m (endCheck a0 a1 s) = view m s := by unfold endCheck; split <;> simp [*]
@[simp] theorem view_markBehind {m : Piece → Bool} (a0 : Scrub) (s : State)
    (h0 : m .array = true) (h1 : m .hem = true) (h2 : m .events = true) :
    view m (markBehind a0 s) = view m s := by simp [markBehind, *]
@[simp] theorem view_writeLostSel {m : Piece → Bool} (a0 : Word) (s : State)
    (h0 : m .array = true) :
    view m (writeLostSel a0 s) = view m s := by simp [writeLostSel, *]
@[simp] theorem view_writeRbldCtl {m : Piece → Bool} (a0 : Word) (s : State)
    (h0 : m .array = true) :
    view m (writeRbldCtl a0 s) = view m s := by simp [writeRbldCtl, *]
@[simp] theorem view_adoptParallel {m : Piece → Bool} (s : State)
    (h0 : m .array = true) :
    view m (adoptParallel s) = view m s := by unfold adoptParallel; split <;> simp [*]
@[simp] theorem view_answerTrial {m : Piece → Bool} (a0 : Trial) (s : State)
    (h0 : m .hem = true) (h1 : m .events = true) (h2 : m .trials = true) :
    view m (answerTrial a0 s) = view m s := by simp [answerTrial, *]
@[simp] theorem view_endTrial {m : Piece → Bool} (a0 : Nat) (s : State)
    (h0 : m .hem = true) (h1 : m .events = true) (h2 : m .trials = true) :
    view m (endTrial a0 s) = view m s := by simp [endTrial, *]
@[simp] theorem view_finishCount {m : Piece → Bool} (s : State)
    (h0 : m .hem = true) (h1 : m .events = true) (h2 : m .trials = true) :
    view m (finishCount s) = view m s := by simp [finishCount, *]
@[simp] theorem view_fired {m : Piece → Bool} (a0 : Bool) (s : State)
    (h0 : m .trials = true) :
    view m (fired a0 s) = view m s := by simp [fired, *]
@[simp] theorem view_reedUnit {m : Piece → Bool} (a0 : Nat) (s : State)
    (h0 : m .trials = true) :
    view m (reedUnit a0 s).2 = view m s := by unfold reedUnit; (repeat' split) <;> simp [*]
@[simp] theorem view_epongUnit {m : Piece → Bool} (s : State)
    (h0 : m .trials = true) :
    view m (epongUnit s).2 = view m s := by unfold epongUnit; (repeat' split) <;> simp [*]
@[simp] theorem view_driveUnit {m : Piece → Bool} (a0 : Nat) (s : State)
    (h0 : m .trials = true) :
    view m (driveUnit a0 s).2 = view m s := by unfold driveUnit; (repeat' split) <;> simp [*]
@[simp] theorem view_strikeTlp {m : Piece → Bool} (a0 : Bool) (a1 : Nat) (s : State)
    (h0 : m .trials = true) :
    view m (strikeTlp a0 a1 s).2 = view m s := by unfold strikeTlp; (repeat' split) <;> simp [*]
@[simp] theorem view_sampleTrial {m : Piece → Bool} (s : State)
    (h0 : m .sampled = true) (h1 : m .hem = true) (h2 : m .events = true) (h3 : m .trials = true) :
    view m (sampleTrial s) = view m s := by simp [sampleTrial, *]
@[simp] theorem view_modPair {m : Piece → Bool} (a0 : Nat) (a1 : PairStat → PairStat) (s : State)
    (h0 : m .reeds = true) :
    view m (modPair a0 a1 s) = view m s := by simp [modPair, *]
@[simp] theorem view_writeSlotMap {m : Piece → Bool} (s : State)
    (h0 : m .slotMap = true) (h1 : m .reeds = true) (h2 : m .hem = true) (h3 : m .health = true) (h4 : m .why = true) (h5 : m .events = true) (h6 : m .flash = true) (h7 : m .pins = true) :
    view m (writeSlotMap s) = view m s := by simp [writeSlotMap, *]
@[simp] theorem view_placeVote {m : Piece → Bool} (s : State) (a1 : Nat)
    (h0 : m .drone = true) (h1 : m .reeds = true) :
    view m (placeVote s a1) = view m s := by unfold placeVote; (repeat' split) <;> simp [*]
@[simp] theorem view_placeVotes {m : Piece → Bool} (s : State)
    (h0 : m .drone = true) (h1 : m .reeds = true) (h2 : m .hem = true) (h3 : m .events = true) :
    view m (placeVotes s) = view m s := by simp [placeVotes, *]
@[simp] theorem view_withdrawPair {m : Piece → Bool} (a0 : Nat) (s : State)
    (h0 : m .drone = true) (h1 : m .reeds = true) (h2 : m .hem = true) (h3 : m .events = true) :
    view m (withdrawPair a0 s) = view m s := by simp [withdrawPair, *]
@[simp] theorem view_condemn {m : Piece → Bool} (a0 a1 : Nat) (s : State)
    (h0 : m .drone = true) (h1 : m .slotMap = true) (h2 : m .reeds = true) (h3 : m .hem = true) (h4 : m .health = true) (h5 : m .why = true) (h6 : m .events = true) (h7 : m .flash = true) (h8 : m .pins = true) :
    view m (condemn a0 a1 s) = view m s := by simp [condemn, *]
@[simp] theorem view_confirmFault {m : Piece → Bool} (a0 : Nat) (a1 : Bool) (s : State)
    (h0 : m .drone = true) (h1 : m .slotMap = true) (h2 : m .reeds = true) (h3 : m .hem = true) (h4 : m .health = true) (h5 : m .why = true) (h6 : m .events = true) (h7 : m .flash = true) (h8 : m .pins = true) :
    view m (confirmFault a0 a1 s) = view m s := by simp [confirmFault, *]
@[simp] theorem view_countHang {m : Piece → Bool} (a0 : Nat) (s : State)
    (h0 : m .drone = true) (h1 : m .slotMap = true) (h2 : m .reeds = true) (h3 : m .hem = true) (h4 : m .health = true) (h5 : m .why = true) (h6 : m .events = true) (h7 : m .flash = true) (h8 : m .pins = true) :
    view m (countHang a0 s) = view m s := by simp [countHang, *]
@[simp] theorem view_endPairTrial {m : Piece → Bool} (a0 : List Nat) (s : State)
    (h0 : m .hem = true) (h1 : m .events = true) (h2 : m .trials = true) :
    view m (endPairTrial a0 s) = view m s := by simp [endPairTrial, *]
@[simp] theorem view_sampleSlotMap {m : Piece → Bool} (s : State)
    (h0 : m .sampled = true) (h1 : m .reeds = true) (h2 : m .hem = true) (h3 : m .events = true) (h4 : m .trials = true) :
    view m (sampleSlotMap s) = view m s := by simp [sampleSlotMap, *]
@[simp] theorem view_applyRetired {m : Piece → Bool} (s : State)
    (h0 : m .sampled = true) (h1 : m .slotMap = true) (h2 : m .reeds = true) :
    view m (applyRetired s) = view m s := by simp [applyRetired, *]
@[simp] theorem view_toVote {m : Piece → Bool} (a0 : Leg) (a1 : List (Nat × Nat × List Byte × List Byte)) (a2 : Option Bool) (s : State)
    (h0 : m .drone = true) (h1 : m .reeds = true) (h2 : m .hem = true) (h3 : m .events = true) :
    view m (toVote a0 a1 a2 s) = view m s := by unfold toVote; split <;> simp [*]
@[simp] theorem view_finishLeg {m : Piece → Bool} (a0 : Leg) (s : State)
    (h0 : m .drone = true) (h1 : m .jobs = true) :
    view m (finishLeg a0 s) = view m s := by unfold finishLeg; split <;> simp [*]
@[simp] theorem view_writeSegment {m : Piece → Bool} (a0 : Leg) (a1 : List Byte) (s : State)
    (h0 : m .drone = true) (h1 : m .jobs = true) :
    view m (writeSegment a0 a1 s) = view m s := by simp [writeSegment, *]
@[simp] theorem view_forcedError {m : Piece → Bool} (s : State) (a1 : Nat)
    (h0 : m .free = true) :
    view m (forcedError s a1).2 = view m s := by simp [forcedError, *]
@[simp] theorem view_compareSegment {m : Piece → Bool} (a0 : Leg) (a1 a2 : List Byte) (s : State)
    (h0 : m .free = true) (h1 : m .drone = true) (h2 : m .jobs = true) (h3 : m .reeds = true) (h4 : m .hem = true) (h5 : m .events = true) (h6 : m .trials = true) :
    view m (compareSegment a0 a1 a2 s) = view m s := by
  unfold compareSegment
  dsimp only
  (repeat' split) <;> simp [*]
@[simp] theorem view_runOut {m : Piece → Bool} (a0 a1 : Nat) (s : State)
    (h0 : m .free = true) (h1 : m .drone = true) (h2 : m .jobs = true) (h3 : m .reeds = true) (h4 : m .hem = true) (h5 : m .events = true) (h6 : m .trials = true) :
    view m (runOut a0 a1 s) = view m s := by fun_induction runOut a0 a1 s <;> simp_all
@[simp] theorem view_endReedLeg {m : Piece → Bool} (s : State) (a1 : Leg)
    (h0 : m .free = true) (h1 : m .drone = true) (h2 : m .jobs = true) (h3 : m .reeds = true) (h4 : m .hem = true) (h5 : m .events = true) (h6 : m .trials = true) :
    view m (endReedLeg s a1) = view m s := by simp [endReedLeg, *]
@[simp] theorem view_logVote {m : Piece → Bool} (a0 : Vote) (a1 a2 : Nat) (s : State)
    (h0 : m .reeds = true) :
    view m (logVote a0 a1 a2 s) = view m s := by simp [logVote, *]
@[simp] theorem view_judge {m : Piece → Bool} (a0 : Option Bool) (a1 : Leg) (a2 : Nat × Nat × List Byte × List Byte) (s : State)
    (h0 : m .drone = true) (h1 : m .slotMap = true) (h2 : m .reeds = true) (h3 : m .hem = true) (h4 : m .health = true) (h5 : m .why = true) (h6 : m .events = true) (h7 : m .flash = true) (h8 : m .pins = true) :
    view m (judge a0 a1 a2 s) = view m s := by simp [judge, *]
@[simp] theorem view_dropVote {m : Piece → Bool} (a0 : Nat) (s : State)
    (h0 : m .reeds = true) :
    view m (dropVote a0 s) = view m s := by simp [dropVote, *]
@[simp] theorem view_decideVote {m : Piece → Bool} (a0 : Vote) (a1 : Leg) (s : State)
    (h0 : m .drone = true) (h1 : m .jobs = true) (h2 : m .slotMap = true) (h3 : m .reeds = true) (h4 : m .hem = true) (h5 : m .health = true) (h6 : m .why = true) (h7 : m .events = true) (h8 : m .flash = true) (h9 : m .pins = true) :
    view m (decideVote a0 a1 s) = view m s := by unfold decideVote; split <;> simp [*]
@[simp] theorem view_abandonHost {m : Piece → Bool} (a0 a1 : Nat) (a2 : Leg) (s : State)
    (h0 : m .jobs = true) (h1 : m .host = true) (h2 : m .cmds = true) :
    view m (abandonHost a0 a1 a2 s) = view m s := by unfold abandonHost; (repeat' split) <;> simp [*]
@[simp] theorem view_abandonWork {m : Piece → Bool} (a0 : Leg) (s : State)
    (h0 : m .drone = true) (h1 : m .jobs = true) (h2 : m .host = true) (h3 : m .cmds = true) (h4 : m .reeds = true) (h5 : m .ledger = true) (h6 : m .entries = true) (h7 : m .slots = true) (h8 : m .smc = true) (h9 : m .lines = true) (h10 : m .cache = true) (h11 : m .stripes = true) (h12 : m .array = true) (h13 : m .hem = true) (h14 : m .events = true) :
    view m (abandonWork a0 s) = view m s := by unfold abandonWork; (repeat' split) <;> simp [*]
@[simp] theorem view_undecided {m : Piece → Bool} (a0 : Vote) (s : State)
    (h0 : m .drone = true) (h1 : m .jobs = true) (h2 : m .host = true) (h3 : m .cmds = true) (h4 : m .reeds = true) (h5 : m .ledger = true) (h6 : m .entries = true) (h7 : m .slots = true) (h8 : m .smc = true) (h9 : m .lines = true) (h10 : m .cache = true) (h11 : m .stripes = true) (h12 : m .array = true) (h13 : m .hem = true) (h14 : m .events = true) :
    view m (undecided a0 s) = view m s := by simp [undecided, *]
@[simp] theorem view_voteResult {m : Piece → Bool} (s : State) (a1 : Nat)
    (h0 : m .drone = true) (h1 : m .jobs = true) (h2 : m .slotMap = true) (h3 : m .host = true) (h4 : m .cmds = true) (h5 : m .reeds = true) (h6 : m .ledger = true) (h7 : m .entries = true) (h8 : m .slots = true) (h9 : m .smc = true) (h10 : m .lines = true) (h11 : m .cache = true) (h12 : m .stripes = true) (h13 : m .array = true) (h14 : m .hem = true) (h15 : m .health = true) (h16 : m .why = true) (h17 : m .events = true) (h18 : m .flash = true) (h19 : m .pins = true) :
    view m (voteResult s a1) = view m s := by unfold voteResult; (repeat' split) <;> simp [*]
@[simp] theorem view_settleVotes {m : Piece → Bool} (s : State)
    (h0 : m .drone = true) (h1 : m .jobs = true) (h2 : m .slotMap = true) (h3 : m .host = true) (h4 : m .cmds = true) (h5 : m .reeds = true) (h6 : m .ledger = true) (h7 : m .entries = true) (h8 : m .slots = true) (h9 : m .smc = true) (h10 : m .lines = true) (h11 : m .cache = true) (h12 : m .stripes = true) (h13 : m .array = true) (h14 : m .hem = true) (h15 : m .health = true) (h16 : m .why = true) (h17 : m .events = true) (h18 : m .flash = true) (h19 : m .pins = true) :
    view m (settleVotes s) = view m s := by simp [settleVotes, *]
@[simp] theorem view_queueTest {m : Piece → Bool} (a0 : Nat) (s : State)
    (h0 : m .drone = true) :
    view m (queueTest a0 s) = view m s := by simp [queueTest, *]
@[simp] theorem view_testResult {m : Piece → Bool} (a0 : Leg) (a1 a2 a3 : Bool) (s : State)
    (h0 : m .drone = true) (h1 : m .slotMap = true) (h2 : m .reeds = true) (h3 : m .hem = true) (h4 : m .health = true) (h5 : m .why = true) (h6 : m .events = true) (h7 : m .trials = true) (h8 : m .flash = true) (h9 : m .pins = true) :
    view m (testResult a0 a1 a2 a3 s) = view m s := by simp [testResult, *]
@[simp] theorem view_hangDma {m : Piece → Bool} (a0 : Leg) (s : State)
    (h0 : m .drone = true) (h1 : m .jobs = true) (h2 : m .host = true) (h3 : m .cmds = true) (h4 : m .dma = true) (h5 : m .hem = true) (h6 : m .pair = true) (h7 : m .health = true) (h8 : m .events = true) (h9 : m .out = true) :
    view m (hangDma a0 s) = view m s := by
  unfold hangDma
  dsimp only
  (repeat' split) <;> simp [*]
@[simp] theorem view_hangHbm {m : Piece → Bool} (a0 : Leg) (s : State)
    (h0 : m .drone = true) (h1 : m .hem = true) (h2 : m .health = true) (h3 : m .why = true) (h4 : m .events = true) (h5 : m .flash = true) (h6 : m .pins = true) :
    view m (hangHbm a0 s) = view m s := by simp [hangHbm, *]
@[simp] theorem view_hangLeg {m : Piece → Bool} (s : State) (a1 : Leg)
    (h0 : m .drone = true) (h1 : m .jobs = true) (h2 : m .slotMap = true) (h3 : m .host = true) (h4 : m .cmds = true) (h5 : m .dma = true) (h6 : m .reeds = true) (h7 : m .hem = true) (h8 : m .pair = true) (h9 : m .health = true) (h10 : m .why = true) (h11 : m .events = true) (h12 : m .flash = true) (h13 : m .pins = true) (h14 : m .out = true) :
    view m (hangLeg s a1) = view m s := by simp [hangLeg, *]
@[simp] theorem view_settleLegs {m : Piece → Bool} (a0 : Nat) (s : State)
    (h0 : m .drone = true) (h1 : m .jobs = true) (h2 : m .slotMap = true) (h3 : m .host = true) (h4 : m .cmds = true) (h5 : m .dma = true) (h6 : m .reeds = true) (h7 : m .hem = true) (h8 : m .pair = true) (h9 : m .health = true) (h10 : m .why = true) (h11 : m .events = true) (h12 : m .flash = true) (h13 : m .pins = true) (h14 : m .out = true) :
    view m (settleLegs a0 s) = view m s := by simp [settleLegs, *]
@[simp] theorem view_modClu {m : Piece → Bool} (a0 : Nat) (a1 : Cluster → Cluster) (s : State)
    (h0 : m .drives = true) (h1 : m .clusters = true) :
    view m (modClu a0 a1 s) = view m s := by simp [modClu, *]
@[simp] theorem view_limitRate {m : Piece → Bool} (a0 : Nat) (s : State)
    (h0 : m .drives = true) (h1 : m .clusters = true) :
    view m (limitRate a0 s) = view m s := by simp [limitRate, *]
@[simp] theorem view_modDrive {m : Piece → Bool} (a0 : Nat) (a1 : Drive → Drive) (s : State)
    (h0 : m .drives = true) :
    view m (modDrive a0 a1 s) = view m s := by unfold modDrive; split <;> simp [*]
@[simp] theorem view_seeClaim {m : Piece → Bool} (a0 : Word) (s : State)
    (h0 : m .pair = true) :
    view m (seeClaim a0 s) = view m s := by simp [seeClaim, *]
@[simp] theorem view_freeDriveBytes {m : Piece → Bool} (a0 : Nat) (s : State)
    (h0 : m .drone = true) (h1 : m .jobs = true) :
    view m (freeDriveBytes a0 s) = view m s := by
  unfold freeDriveBytes
  dsimp only
  (repeat' split) <;> simp [*]
@[simp] theorem view_departDrive {m : Piece → Bool} (a0 : Nat) (s : State)
    (h0 : m .drone = true) (h1 : m .jobs = true) (h2 : m .array = true) (h3 : m .drives = true) (h4 : m .hem = true) (h5 : m .events = true) :
    view m (departDrive a0 s) = view m s := by
  unfold departDrive
  dsimp only
  split
  · rfl
  · rename_i d _
    have e : view m (d.slot.elim s fun n => freeDriveBytes n s) = view m s := by simp [*]
    split
    · simp [e, *]
    · split <;> simp [e, *]
@[simp] theorem view_cluDown {m : Piece → Bool} (a0 : Nat) (s : State)
    (h0 : m .drone = true) (h1 : m .jobs = true) (h2 : m .array = true) (h3 : m .drives = true) (h4 : m .clusters = true) (h5 : m .hem = true) (h6 : m .events = true) :
    view m (cluDown a0 s) = view m s := by simp [cluDown, *]
@[simp] theorem view_endClusterTrial {m : Piece → Bool} (a0 : Nat) (s : State)
    (h0 : m .hem = true) (h1 : m .events = true) (h2 : m .trials = true) :
    view m (endClusterTrial a0 s) = view m s := by simp [endClusterTrial, *]
@[simp] theorem view_writeCluCfg {m : Piece → Bool} (a0 : Nat) (a1 : Word) (s : State)
    (h0 : m .drone = true) (h1 : m .jobs = true) (h2 : m .array = true) (h3 : m .drives = true) (h4 : m .clusters = true) (h5 : m .hem = true) (h6 : m .events = true) (h7 : m .trials = true) :
    view m (writeCluCfg a0 a1 s) = view m s := by simp [writeCluCfg, *]
@[simp] theorem view_haltDrive {m : Piece → Bool} (a0 : Nat) (a1 : BringUp) (s : State)
    (h0 : m .drives = true) :
    view m (haltDrive a0 a1 s) = view m s := by simp [haltDrive, *]
@[simp] theorem view_refuseAt {m : Piece → Bool} (a0 a1 : Nat) (s : State)
    (h0 : m .drives = true) (h1 : m .hem = true) (h2 : m .events = true) :
    view m (refuseAt a0 a1 s) = view m s := by simp [refuseAt, *]
@[simp] theorem view_refuseDrive {m : Piece → Bool} (a0 a1 : Nat) (s : State)
    (h0 : m .drives = true) (h1 : m .hem = true) (h2 : m .events = true) :
    view m (refuseDrive a0 a1 s) = view m s := by simp [refuseDrive, *]
@[simp] theorem view_adminStep {m : Piece → Bool} (a0 : Nat) (a1 : BringUp) (s : State)
    (h0 : m .drives = true) (h1 : m .pair = true) (h2 : m .out = true) :
    view m (adminStep a0 a1 s) = view m s := by simp [adminStep, *]
@[simp] theorem view_afterSlot {m : Piece → Bool} (a0 : Nat) (s : State)
    (h0 : m .drives = true) (h1 : m .pair = true) (h2 : m .out = true) :
    view m (afterSlot a0 s) = view m s := by simp [afterSlot, *]
@[simp] theorem view_takeSlot {m : Piece → Bool} (a0 a1 : Nat) (s : State)
    (h0 : m .drone = true) (h1 : m .host = true) (h2 : m .volumes = true) (h3 : m .ledger = true) (h4 : m .entries = true) (h5 : m .slots = true) (h6 : m .smc = true) (h7 : m .lines = true) (h8 : m .cache = true) (h9 : m .appendQ = true) (h10 : m .drives = true) (h11 : m .hem = true) (h12 : m .pair = true) (h13 : m .events = true) (h14 : m .out = true) :
    view m (takeSlot a0 a1 s) = view m s := by unfold takeSlot; split <;> simp [*]
@[simp] theorem view_returnDrive {m : Piece → Bool} (a0 a1 : Nat) (s : State)
    (h0 : m .drone = true) (h1 : m .host = true) (h2 : m .volumes = true) (h3 : m .ledger = true) (h4 : m .entries = true) (h5 : m .slots = true) (h6 : m .smc = true) (h7 : m .lines = true) (h8 : m .cache = true) (h9 : m .appendQ = true) (h10 : m .drives = true) (h11 : m .hem = true) (h12 : m .pair = true) (h13 : m .events = true) (h14 : m .out = true) :
    view m (returnDrive a0 a1 s) = view m s := by simp [returnDrive, *]
@[simp] theorem view_mappedSlot {m : Piece → Bool} (a0 : Nat) (s : State)
    (h0 : m .drone = true) (h1 : m .host = true) (h2 : m .volumes = true) (h3 : m .ledger = true) (h4 : m .entries = true) (h5 : m .slots = true) (h6 : m .smc = true) (h7 : m .lines = true) (h8 : m .cache = true) (h9 : m .appendQ = true) (h10 : m .drives = true) (h11 : m .hem = true) (h12 : m .pair = true) (h13 : m .events = true) (h14 : m .out = true) :
    view m (mappedSlot a0 s) = view m s := by simp [mappedSlot, *]
@[simp] theorem view_assignSlot {m : Piece → Bool} (a0 : Nat) (s : State)
    (h0 : m .drone = true) (h1 : m .host = true) (h2 : m .volumes = true) (h3 : m .ledger = true) (h4 : m .entries = true) (h5 : m .slots = true) (h6 : m .smc = true) (h7 : m .lines = true) (h8 : m .cache = true) (h9 : m .appendQ = true) (h10 : m .drives = true) (h11 : m .hem = true) (h12 : m .pair = true) (h13 : m .events = true) (h14 : m .out = true) :
    view m (assignSlot a0 s) = view m s := by unfold assignSlot; (repeat' split) <;> simp [*]
@[simp] theorem view_assignWaiting {m : Piece → Bool} (s : State)
    (h0 : m .drone = true) (h1 : m .host = true) (h2 : m .volumes = true) (h3 : m .ledger = true) (h4 : m .entries = true) (h5 : m .slots = true) (h6 : m .smc = true) (h7 : m .lines = true) (h8 : m .cache = true) (h9 : m .appendQ = true) (h10 : m .drives = true) (h11 : m .hem = true) (h12 : m .pair = true) (h13 : m .events = true) (h14 : m .out = true) :
    view m (assignWaiting s) = view m s := by
  unfold assignWaiting
  refine view_foldl _ _ _ fun t x => ?_
  split
  · rfl
  · dsimp only
    split <;> simp [*]
@[simp] theorem view_bringUp {m : Piece → Bool} (a0 : Nat) (s : State)
    (h0 : m .drives = true) (h1 : m .pair = true) (h2 : m .out = true) :
    view m (bringUp a0 s) = view m s := by simp [bringUp, *]
@[simp] theorem view_joinSlot {m : Piece → Bool} (a0 : Nat) (s : State)
    (h0 : m .drone = true) (h1 : m .host = true) (h2 : m .volumes = true) (h3 : m .ledger = true) (h4 : m .entries = true) (h5 : m .slots = true) (h6 : m .smc = true) (h7 : m .lines = true) (h8 : m .cache = true) (h9 : m .appendQ = true) (h10 : m .array = true) (h11 : m .drives = true) (h12 : m .hem = true) (h13 : m .pair = true) (h14 : m .events = true) (h15 : m .out = true) :
    view m (joinSlot a0 s) = view m s := by simp [joinSlot, *]
@[simp] theorem view_readyDrive {m : Piece → Bool} (a0 : Nat) (s : State)
    (h0 : m .drone = true) (h1 : m .host = true) (h2 : m .volumes = true) (h3 : m .ledger = true) (h4 : m .entries = true) (h5 : m .slots = true) (h6 : m .smc = true) (h7 : m .lines = true) (h8 : m .cache = true) (h9 : m .appendQ = true) (h10 : m .array = true) (h11 : m .drives = true) (h12 : m .hem = true) (h13 : m .pair = true) (h14 : m .events = true) (h15 : m .out = true) :
    view m (readyDrive a0 s) = view m s := by unfold readyDrive; (repeat' split) <;> simp [*]
@[simp] theorem view_readSmart {m : Piece → Bool} (a0 a1 a2 : Nat) (s : State)
    (h0 : m .ledger = true) (h1 : m .array = true) (h2 : m .drives = true) (h3 : m .hem = true) (h4 : m .events = true) :
    view m (readSmart a0 a1 a2 s) = view m s := by simp [readSmart, *]
@[simp] theorem view_noteReport {m : Piece → Bool} (a0 : Nat) (a1 : Option Word) (a2 : Bool) (s : State)
    (h0 : m .drives = true) (h1 : m .pair = true) :
    view m (noteReport a0 a1 a2 s) = view m s := by
  unfold noteReport
  dsimp only
  split <;> cases a1 <;> simp [*]
@[simp] theorem view_identified {m : Piece → Bool} (a0 : Nat) (a1 : Drive) (a2 : DriveInfo) (a3 a4 a5 a6 a7 : Bool) (s : State)
    (h0 : m .drives = true) (h1 : m .hem = true) (h2 : m .pair = true) (h3 : m .events = true) (h4 : m .out = true) :
    view m (identified a0 a1 a2 a3 a4 a5 a6 a7 s) = view m s := by unfold identified; split <;> simp [*]
@[simp] theorem view_adminAnswer {m : Piece → Bool} (a0 : Nat) (a1 : Drive) (a2 : AdminAnswer) (s : State)
    (h0 : m .drone = true) (h1 : m .host = true) (h2 : m .volumes = true) (h3 : m .ledger = true) (h4 : m .entries = true) (h5 : m .slots = true) (h6 : m .smc = true) (h7 : m .lines = true) (h8 : m .cache = true) (h9 : m .appendQ = true) (h10 : m .array = true) (h11 : m .drives = true) (h12 : m .hem = true) (h13 : m .pair = true) (h14 : m .events = true) (h15 : m .out = true) :
    view m (adminAnswer a0 a1 a2 s) = view m s := by
  unfold adminAnswer
  dsimp only
  split <;> first | rfl | simp [*] | (split <;> simp [*])
@[simp] theorem view_arrive {m : Piece → Bool} (a0 a1 a2 a3 a4 : Nat) (s : State)
    (h0 : m .drone = true) (h1 : m .jobs = true) (h2 : m .array = true) (h3 : m .drives = true) (h4 : m .clusters = true) (h5 : m .hem = true) (h6 : m .pair = true) (h7 : m .events = true) (h8 : m .out = true) :
    view m (arrive a0 a1 a2 a3 a4 s) = view m s := by
  unfold arrive
  dsimp only
  (repeat' split) <;> simp [*]
@[simp] theorem view_pollCsts {m : Piece → Bool} (a0 : Drive) (a1 : Bool) (s : State)
    (h0 : m .array = true) :
    view m (pollCsts a0 a1 s) = view m s := by unfold pollCsts; split <;> simp [*]
@[simp] theorem view_writePosMap {m : Piece → Bool} (a0 : Nat) (a1 : Word) (s : State)
    (h0 : m .drone = true) (h1 : m .host = true) (h2 : m .volumes = true) (h3 : m .ledger = true) (h4 : m .entries = true) (h5 : m .slots = true) (h6 : m .smc = true) (h7 : m .lines = true) (h8 : m .cache = true) (h9 : m .appendQ = true) (h10 : m .drives = true) (h11 : m .posMap = true) (h12 : m .hem = true) (h13 : m .pair = true) (h14 : m .events = true) (h15 : m .out = true) :
    view m (writePosMap a0 a1 s) = view m s := by
  unfold writePosMap
  dsimp only
  (repeat' split) <;> simp [*]
@[simp] theorem view_timeOut {m : Piece → Bool} (a0 : Sub) (s : State)
    (h0 : m .drone = true) (h1 : m .posted = true) (h2 : m .jobs = true) (h3 : m .array = true) :
    view m (timeOut a0 s) = view m s := by simp [timeOut, *]
@[simp] theorem view_accept {m : Piece → Bool} (a0 a1 : Nat) (a2 : List Byte) (s : State)
    (h0 : m .drives = true) :
    view m (accept a0 a1 a2 s) = view m s := by simp [accept, *]
@[simp] theorem view_corruptArrival {m : Piece → Bool} (a0 : Sub) (a1 : Nat) (a2 : List Byte) (s : State)
    (h0 : m .free = true) (h1 : m .drives = true) :
    view m (corruptArrival a0 a1 a2 s) = view m s := by simp [corruptArrival, *]
@[simp] theorem view_arrival {m : Piece → Bool} (a0 : Sub) (a1 : Nat) (a2 : List Byte) (s : State)
    (h0 : m .free = true) (h1 : m .drives = true) (h2 : m .trials = true) :
    view m (arrival a0 a1 a2 s) = view m s := by simp [arrival, *]
@[simp] theorem view_forget {m : Piece → Bool} (a0 : Nat) (s : State)
    (h0 : m .drone = true) (h1 : m .host = true) (h2 : m .volumes = true) (h3 : m .ledger = true) (h4 : m .entries = true) (h5 : m .slots = true) (h6 : m .smc = true) (h7 : m .lines = true) (h8 : m .cache = true) (h9 : m .appendQ = true) (h10 : m .array = true) (h11 : m .drives = true) (h12 : m .hem = true) (h13 : m .pair = true) (h14 : m .events = true) (h15 : m .out = true) :
    view m (forget a0 s) = view m s := by
  unfold forget
  dsimp only
  (repeat' split) <;> simp [*]
@[simp] theorem view_clearCauses {m : Piece → Bool} (a0 : Nat) (a1 : Word) (s : State)
    (h0 : m .drives = true) :
    view m (clearCauses a0 a1 s) = view m s := by simp [clearCauses, *]
@[simp] theorem view_hemApply {m : Piece → Bool} (a0 : Hem → Hem × List Nat) (s : State)
    (h0 : m .hem = true) (h1 : m .events = true) :
    view m (hemApply a0 s) = view m s := by simp [hemApply, *]
@[simp] theorem view_settleHem {m : Piece → Bool} (s : State)
    (h0 : m .hem = true) (h1 : m .events = true) :
    view m (settleHem s) = view m s := by unfold settleHem; split <;> simp [*]
@[simp] theorem view_takeSample {m : Piece → Bool} (a0 a1 a2 : BitVec 16) (s : State)
    (h0 : m .hem = true) (h1 : m .events = true) :
    view m (takeSample a0 a1 a2 s) = view m s := by unfold takeSample; split <;> simp [*]
@[simp] theorem view_hemWhen {m : Piece → Bool} (a0 : Hemd → Hem → Bool) (a1 : Hemd → Hem → Hem × List Nat) (s : State)
    (h0 : m .hem = true) (h1 : m .events = true) :
    view m (hemWhen a0 a1 s) = view m s := by unfold hemWhen; split <;> simp [*]
@[simp] theorem view_computeCeiling {m : Piece → Bool} (s : State)
    (h0 : m .hem = true) (h1 : m .events = true) :
    view m (computeCeiling s) = view m s := by unfold computeCeiling; split <;> simp [*]
@[simp] theorem view_modCtx {m : Piece → Bool} (a0 : Nat) (a1 : Ctx → Ctx) (s : State)
    (h0 : m .mgmt = true) :
    view m (modCtx a0 a1 s) = view m s := by simp [modCtx, *]
@[simp] theorem view_touchCtx {m : Piece → Bool} (a0 : Nat) (s : State)
    (h0 : m .mgmt = true) :
    view m (touchCtx a0 s) = view m s := by simp [touchCtx, *]
@[simp] theorem view_writeData {m : Piece → Bool} (a0 : Nat) (a1 : BitVec 32) (s : State)
    (h0 : m .mgmt = true) (h1 : m .fuses = true) :
    view m (writeData a0 a1 s) = view m s := by
  have p : ∀ t o w (m : Mgmt), (pokeTarget t o w m).keys = m.keys ∧ (pokeTarget t o w m).svnMin = m.svnMin := by
    intro t o w m
    unfold pokeTarget
    split <;> exact ⟨rfl, rfl⟩
  unfold writeData
  dsimp only
  split <;> simp [p, *]
@[simp] theorem view_readData {m : Piece → Bool} (a0 : Nat) (s : State)
    (h0 : m .free = true) (h1 : m .mgmt = true) :
    view m (readData a0 s).2 = view m s := by
  unfold readData
  dsimp only
  (repeat' split) <;> simp [*]
@[simp] theorem view_claimTarget {m : Piece → Bool} (a0 : Nat) (s : State)
    (h0 : m .mgmt = true) :
    view m (claimTarget a0 s) = view m s := by simp [claimTarget, *]
@[simp] theorem view_dropClaim {m : Piece → Bool} (a0 : Nat) (s : State)
    (h0 : m .mgmt = true) :
    view m (dropClaim a0 s) = view m s := by simp [dropClaim, *]
@[simp] theorem view_breakClaim {m : Piece → Bool} (a0 : Nat) (s : State)
    (h0 : m .hem = true) (h1 : m .events = true) (h2 : m .mgmt = true) :
    view m (breakClaim a0 s) = view m s := by simp [breakClaim, *]
@[simp] theorem view_breakClaims {m : Piece → Bool} (s : State)
    (h0 : m .hem = true) (h1 : m .events = true) (h2 : m .mgmt = true) :
    view m (breakClaims s) = view m s := by simp [breakClaims, *]
@[simp] theorem view_endCmd {m : Piece → Bool} (a0 a1 : Nat) (s : State)
    (h0 : m .hem = true) (h1 : m .events = true) (h2 : m .mgmt = true) :
    view m (endCmd a0 a1 s) = view m s := by simp [endCmd, *]
@[simp] theorem view_endCmdOf {m : Piece → Bool} (a0 : Option Nat) (a1 : Nat) (s : State)
    (h0 : m .hem = true) (h1 : m .events = true) (h2 : m .mgmt = true) :
    view m (endCmdOf a0 a1 s) = view m s := by unfold endCmdOf; split <;> simp [*]
@[simp] theorem view_beginCmd {m : Piece → Bool} (a0 a1 : Nat) (s : State)
    (h0 : m .mgmt = true) :
    view m (beginCmd a0 a1 s) = view m s := by simp [beginCmd, *]
@[simp] theorem view_runCmd {m : Piece → Bool} (c cmd : Nat) (act : State → State) (s : State)
    (h0 : m .hem = true) (h1 : m .events = true) (h2 : m .mgmt = true) (h : ∀ t, view m (act t) = view m t) :
    view m (runCmd c cmd act s) = view m s := by
  unfold runCmd
  dsimp only
  split
  · simp [*]
  · split <;> simp [h, h0, h1, h2]
@[simp] theorem view_refuseLive {m : Piece → Bool} (a0 a1 : Nat) (s : State)
    (h0 : m .loader = true) (h1 : m .hem = true) (h2 : m .events = true) (h3 : m .mgmt = true) :
    view m (refuseLive a0 a1 s) = view m s := by simp [refuseLive, *]
@[simp] theorem view_cancelLive {m : Piece → Bool} (s : State)
    (h0 : m .loader = true) (h1 : m .hem = true) (h2 : m .events = true) (h3 : m .mgmt = true) :
    view m (cancelLive s) = view m s := by simp [cancelLive, *]
@[simp] theorem view_startLoad {m : Piece → Bool} (a0 : LoadJob) (s : State)
    (h0 : m .loader = true) (h1 : m .ldrState = true) :
    view m (startLoad a0 s) = view m s := by simp [startLoad, *]
@[simp] theorem view_beginLoad {m : Piece → Bool} (a0 : Nat) (s : State)
    (h0 : m .loader = true) (h1 : m .ldrState = true) (h2 : m .hem = true) (h3 : m .events = true) (h4 : m .mgmt = true) :
    view m (beginLoad a0 s) = view m s := by simp [beginLoad, *]
@[simp] theorem view_startWaiting {m : Piece → Bool} (s : State)
    (h0 : m .loader = true) (h1 : m .ldrState = true) :
    view m (startWaiting s) = view m s := by unfold startWaiting; split <;> simp [*]
@[simp] theorem view_loadCmd {m : Piece → Bool} (a0 : Nat) (s : State)
    (h0 : m .loader = true) (h1 : m .ldrState = true) (h2 : m .hem = true) (h3 : m .events = true) (h4 : m .mgmt = true) :
    view m (loadCmd a0 s) = view m s := by simp [loadCmd, *]
@[simp] theorem view_beginLive {m : Piece → Bool} (a0 : Nat) (s : State)
    (h0 : m .loader = true) (h1 : m .hem = true) (h2 : m .events = true) (h3 : m .mgmt = true) :
    view m (beginLive a0 s) = view m s := by simp [beginLive, *]
@[simp] theorem view_loadLiveCmd {m : Piece → Bool} (a0 : Nat) (s : State)
    (h0 : m .loader = true) (h1 : m .hem = true) (h2 : m .events = true) (h3 : m .mgmt = true) :
    view m (loadLiveCmd a0 s) = view m s := by simp [loadLiveCmd, *]
@[simp] theorem view_showRefusal {m : Piece → Bool} (a0 : Nat) (a1 : ImgRefusal) (s : State)
    (h0 : m .loader = true) (h1 : m .hem = true) (h2 : m .events = true) :
    view m (showRefusal a0 a1 s) = view m s := by simp [showRefusal, *]
@[simp] theorem view_startFlash {m : Piece → Bool} (a0 : List FlashJob) (s : State)
    (h0 : m .loader = true) (h1 : m .hem = true) (h2 : m .events = true) (h3 : m .mgmt = true) :
    view m (startFlash a0 s) = view m s := by fun_induction startFlash a0 s <;> simp_all
@[simp] theorem view_queueFlash {m : Piece → Bool} (a0 : FlashJob) (s : State)
    (h0 : m .loader = true) (h1 : m .hem = true) (h2 : m .events = true) (h3 : m .mgmt = true) :
    view m (queueFlash a0 s) = view m s := by unfold queueFlash; split <;> simp [*]
@[simp] theorem view_imgToFlashCmd {m : Piece → Bool} (a0 : Nat) (s : State)
    (h0 : m .loader = true) (h1 : m .hem = true) (h2 : m .events = true) (h3 : m .mgmt = true) :
    view m (imgToFlashCmd a0 s) = view m s := by simp [imgToFlashCmd, *]
@[simp] theorem view_fwUpdateCmd {m : Piece → Bool} (a0 : Nat) (s : State)
    (h0 : m .loader = true) (h1 : m .hem = true) (h2 : m .events = true) (h3 : m .mgmt = true) :
    view m (fwUpdateCmd a0 s) = view m s := by simp [fwUpdateCmd, *]
@[simp] theorem view_finishFlash {m : Piece → Bool} (a0 : FlashJob) (a1 : Bool) (s : State)
    (h0 : m .hem = true) (h1 : m .events = true) (h2 : m .mgmt = true) (h3 : m .flash = true) (h4 : m .copies = true) :
    view m (finishFlash a0 a1 s) = view m s := by simp [finishFlash, *]
@[simp] theorem view_breakFlash {m : Piece → Bool} (s : State)
    (h0 : m .mgmt = true) (h1 : m .flash = true) (h2 : m .copies = true) :
    view m (breakFlash s) = view m s := by unfold breakFlash; split <;> simp [*]
@[simp] theorem view_hemSaveCmd {m : Piece → Bool} (a0 : Nat) (s : State)
    (h0 : m .hem = true) (h1 : m .events = true) (h2 : m .mgmt = true) :
    view m (hemSaveCmd a0 s) = view m s := by
  refine view_runCmd _ _ _ _ ‹_› ‹_› ‹_› fun t => ?_
  split <;> simp [*]
@[simp] theorem view_hemRestoreCmd {m : Piece → Bool} (a0 : Nat) (s : State)
    (h0 : m .hem = true) (h1 : m .events = true) (h2 : m .mgmt = true) :
    view m (hemRestoreCmd a0 s) = view m s := by
  refine view_runCmd _ _ _ _ ‹_› ‹_› ‹_› fun t => ?_
  split <;> simp [*]
@[simp] theorem view_healthSnapCmd {m : Piece → Bool} (a0 : Nat) (s : State)
    (h0 : m .hem = true) (h1 : m .events = true) (h2 : m .mgmt = true) :
    view m (healthSnapCmd a0 s) = view m s := by simp [healthSnapCmd, *]
@[simp] theorem view_beginOrder {m : Piece → Bool} (a0 : Nat) (s : State)
    (h0 : m .hem = true) (h1 : m .events = true) (h2 : m .mgmt = true) :
    view m (beginOrder a0 s) = view m s := by unfold beginOrder; split <;> simp [*]
@[simp] theorem view_keyOrderCmd {m : Piece → Bool} (a0 : Nat) (s : State)
    (h0 : m .hem = true) (h1 : m .events = true) (h2 : m .mgmt = true) :
    view m (keyOrderCmd a0 s) = view m s := by simp [keyOrderCmd, *]
@[simp] theorem view_breakFusing {m : Piece → Bool} (s : State)
    (h0 : m .free = true) (h1 : m .mgmt = true) (h2 : m .fuses = true) :
    view m (breakFusing s) = view m s := by unfold breakFusing; split <;> simp [*]
@[simp] theorem view_startCmd {m : Piece → Bool} (a0 a1 : Nat) (s : State)
    (h0 : m .loader = true) (h1 : m .ldrState = true) (h2 : m .hem = true) (h3 : m .events = true) (h4 : m .mgmt = true) :
    view m (startCmd a0 a1 s) = view m s := by unfold startCmd; split <;> simp [*]
@[simp] theorem view_writeAddr {m : Piece → Bool} (a0 : Nat) (a1 : Word) (s : State)
    (h0 : m .mgmt = true) :
    view m (writeAddr a0 a1 s) = view m s := by simp [writeAddr, *]
@[simp] theorem view_writeCtl {m : Piece → Bool} (a0 : Nat) (a1 : Word) (s : State)
    (h0 : m .loader = true) (h1 : m .ldrState = true) (h2 : m .hem = true) (h3 : m .events = true) (h4 : m .mgmt = true) :
    view m (writeCtl a0 a1 s) = view m s := by simp [writeCtl, *]
@[simp] theorem view_writeWords {m : Piece → Bool} (a0 : Nat) (a1 : List (BitVec 32)) (s : State)
    (h0 : m .mgmt = true) (h1 : m .fuses = true) :
    view m (writeWords a0 a1 s) = view m s := by fun_induction writeWords a0 a1 s <;> simp_all
@[simp] theorem view_readWords {m : Piece → Bool} (a0 a1 : Nat) (s : State)
    (h0 : m .free = true) (h1 : m .mgmt = true) :
    view m (readWords a0 a1 s).2 = view m s := by
  induction a1 generalizing s with
  | zero => rfl
  | succ n ih => simp [readWords, ih, *]
@[simp] theorem view_respond {m : Piece → Bool} (a0 a1 : Nat) (a2 : List Byte) (s : State)
    (h0 : m .pair = true) (h1 : m .mgmt = true) (h2 : m .out = true) :
    view m (respond a0 a1 a2 s) = view m s := by simp [respond, *]
@[simp] theorem view_watchdogCtx {m : Piece → Bool} (s : State) (a1 : Nat)
    (h0 : m .hem = true) (h1 : m .events = true) (h2 : m .mgmt = true) :
    view m (watchdogCtx s a1) = view m s := by simp [watchdogCtx, *]
@[simp] theorem view_abandonLoad {m : Piece → Bool} (s : State)
    (h0 : m .loader = true) (h1 : m .ldrState = true) (h2 : m .imgId = true) :
    view m (abandonLoad s) = view m s := by simp [abandonLoad, *]
@[simp] theorem view_emptyLog {m : Piece → Bool} (s : State)
    (h0 : m .hem = true) (h1 : m .events = true) :
    view m (emptyLog s) = view m s := by simp [emptyLog, *]
@[simp] theorem view_stallHem {m : Piece → Bool} (s : State)
    (h0 : m .free = true) (h1 : m .hem = true) :
    view m (stallHem s) = view m s := by simp [stallHem, *]
@[simp] theorem view_watchdogReset {m : Piece → Bool} (s : State)
    (h0 : m .free = true) (h1 : m .loader = true) (h2 : m .ldrState = true) (h3 : m .imgId = true) (h4 : m .hem = true) (h5 : m .events = true) (h6 : m .mgmt = true) (h7 : m .fuses = true) (h8 : m .flash = true) (h9 : m .copies = true) :
    view m (watchdogReset s) = view m s := by simp [watchdogReset, *]
@[simp] theorem view_postSub {m : Piece → Bool} (a0 : Sub) (s : State)
    (h0 : m .drone = true) (h1 : m .posted = true) (h2 : m .jobs = true) (h3 : m .drives = true) (h4 : m .pair = true) (h5 : m .trials = true) (h6 : m .out = true) :
    view m (postSub a0 s) = view m s := by
  unfold postSub
  dsimp only
  split
  · simp [*]
  · refine (view_elim _ _ _ fun x => ?_).trans ?_ <;> simp [*]
@[simp] theorem view_postDump {m : Piece → Bool} (a0 : Purpose) (a1 : List Work) (s : State)
    (h0 : m .drone = true) (h1 : m .jobs = true) :
    view m (postDump a0 a1 s) = view m s := by simp [postDump, *]
@[simp] theorem view_powerFail {m : Piece → Bool} (s : State)
    (h0 : m .cache = true) (h1 : m .vault = true) (h2 : m .hem = true) (h3 : m .events = true) (h4 : m .trials = true) :
    view m (powerFail s) = view m s := by simp [powerFail, *]
@[simp] theorem view_resumeRestore {m : Piece → Bool} (s : State)
    (h0 : m .cache = true) (h1 : m .vault = true) (h2 : m .pins = true) :
    view m (resumeRestore s) = view m s := by simp [resumeRestore, *]
@[simp] theorem view_abandonReload {m : Piece → Bool} (s : State)
    (h0 : m .loader = true) (h1 : m .ldrState = true) (h2 : m .host = true) (h3 : m .cache = true) (h4 : m .hem = true) (h5 : m .events = true) (h6 : m .mgmt = true) :
    view m (abandonReload s) = view m s := by simp [abandonReload, *]
@[simp] theorem view_haltPlane {m : Piece → Bool} (s : State)
    (h0 : m .halted = true) (h1 : m .drives = true) (h2 : m .clusters = true) :
    view m (haltPlane s) = view m s := by simp [haltPlane, *]
@[simp] theorem view_flushJournal {m : Piece → Bool} (s : State)
    (h0 : m .drone = true) (h1 : m .jobs = true) (h2 : m .ledger = true) (h3 : m .cache = true) (h4 : m .stripes = true) (h5 : m .appendQ = true) (h6 : m .hem = true) (h7 : m .events = true) :
    view m (flushJournal s) = view m s := by simp [flushJournal, *]
@[simp] theorem view_setDump {m : Piece → Bool} (a0 : DumpPhase) (s : State)
    (h0 : m .cache = true) (h1 : m .vault = true) :
    view m (setDump a0 s) = view m s := by simp [setDump, *]
@[simp] theorem view_beginDump {m : Piece → Bool} (s : State)
    (h0 : m .drone = true) (h1 : m .jobs = true) (h2 : m .host = true) (h3 : m .volumes = true) (h4 : m .ledger = true) (h5 : m .entries = true) (h6 : m .slots = true) (h7 : m .smc = true) (h8 : m .lines = true) (h9 : m .cache = true) (h10 : m .stripes = true) (h11 : m .appendQ = true) (h12 : m .vault = true) (h13 : m .drives = true) (h14 : m .hem = true) (h15 : m .pair = true) (h16 : m .events = true) (h17 : m .out = true) :
    view m (beginDump s) = view m s := by simp [beginDump, *]
@[simp] theorem view_startDump {m : Piece → Bool} (s : State)
    (h0 : m .halted = true) (h1 : m .loader = true) (h2 : m .ldrState = true) (h3 : m .drone = true) (h4 : m .jobs = true) (h5 : m .host = true) (h6 : m .volumes = true) (h7 : m .ledger = true) (h8 : m .entries = true) (h9 : m .slots = true) (h10 : m .smc = true) (h11 : m .lines = true) (h12 : m .cache = true) (h13 : m .stripes = true) (h14 : m .appendQ = true) (h15 : m .vault = true) (h16 : m .drives = true) (h17 : m .clusters = true) (h18 : m .hem = true) (h19 : m .pair = true) (h20 : m .events = true) (h21 : m .mgmt = true) (h22 : m .out = true) :
    view m (startDump s) = view m s := by simp [startDump, *]
@[simp] theorem view_endVaultJobs {m : Piece → Bool} (s : State)
    (h0 : m .drone = true) (h1 : m .jobs = true) :
    view m (endVaultJobs s) = view m s := by simp [endVaultJobs, *]
@[simp] theorem view_dumpPhase {m : Piece → Bool} (a0 : DumpPhase) (a1 : Nat) (a2 : List Work) (s : State)
    (h0 : m .drone = true) (h1 : m .jobs = true) (h2 : m .cache = true) (h3 : m .vault = true) :
    view m (dumpPhase a0 a1 a2 s) = view m s := by simp [dumpPhase, *]
/-- Content placed in segments. -/
@[simp] theorem view_placeContent {m : Piece → Bool} (kind : Nat) (bs : List Byte) (a : List Work × State) (h0 : m .cache = true) (h1 : m .vault = true) :
    view m (placeContent kind bs a).2 = view m a.2 := by
  unfold placeContent
  refine view_foldl_snd _ _ _ fun t x => ?_
  unfold placeSegment
  simp [*]
@[simp] theorem view_dumpStep {m : Piece → Bool} (s : State)
    (h0 : m .drone = true) (h1 : m .jobs = true) (h2 : m .cache = true) (h3 : m .vault = true) :
    view m (dumpStep s) = view m s := by
  have p : ∀ k xs (a : List Work × State), view m (placeContent k xs a).2 = view m a.2 := by
    intro k xs a
    unfold placeContent
    refine view_foldl_snd _ _ _ fun t x => ?_
    unfold placeSegment
    simp [*]
  unfold dumpStep
  dsimp only
  (repeat' split) <;> first | rfl | simp [p, *]
@[simp] theorem view_endDump {m : Piece → Bool} (s : State)
    (h0 : m .halted = true) (h1 : m .cache = true) (h2 : m .vault = true) (h3 : m .drives = true) (h4 : m .clusters = true) (h5 : m .hem = true) (h6 : m .events = true) :
    view m (endDump s) = view m s := by simp [endDump, *]
@[simp] theorem view_dumpFenceLost {m : Piece → Bool} (s : State)
    (h0 : m .halted = true) (h1 : m .drives = true) (h2 : m .clusters = true) :
    view m (dumpFenceLost s) = view m s := by simp [dumpFenceLost, *]
@[simp] theorem view_loadTables {m : Piece → Bool} (a0 : RootFind) (a1 : List Lost) (s : State)
    (h0 : m .host = true) (h1 : m .volumes = true) (h2 : m .ledger = true) (h3 : m .entries = true) (h4 : m .slots = true) (h5 : m .array = true) (h6 : m .lost = true) (h7 : m .drives = true) :
    view m (loadTables a0 a1 s) = view m s := by simp [loadTables, *]
@[simp] theorem view_applyHome {m : Piece → Bool} (a0 : Bool) (s : State) (a2 : LRec)
    (h0 : m .drone = true) (h1 : m .host = true) (h2 : m .volumes = true) (h3 : m .ledger = true) (h4 : m .entries = true) (h5 : m .slots = true) (h6 : m .smc = true) (h7 : m .lines = true) (h8 : m .drives = true) (h9 : m .hem = true) (h10 : m .events = true) :
    view m (applyHome a0 s a2) = view m s := by simp [applyHome, *]
@[simp] theorem view_loadLedger {m : Piece → Bool} (a0 : RestoreFind) (s : State)
    (h0 : m .drone = true) (h1 : m .host = true) (h2 : m .volumes = true) (h3 : m .ledger = true) (h4 : m .entries = true) (h5 : m .slots = true) (h6 : m .smc = true) (h7 : m .lines = true) (h8 : m .array = true) (h9 : m .lost = true) (h10 : m .drives = true) (h11 : m .hem = true) (h12 : m .events = true) :
    view m (loadLedger a0 s) = view m s := by unfold loadLedger; split <;> simp [*]
@[simp] theorem view_applyHeld {m : Piece → Bool} (a0 : List JRec) (s : State)
    (h0 : m .drone = true) (h1 : m .host = true) (h2 : m .volumes = true) (h3 : m .ledger = true) (h4 : m .entries = true) (h5 : m .slots = true) (h6 : m .smc = true) (h7 : m .lines = true) (h8 : m .drives = true) (h9 : m .hem = true) (h10 : m .events = true) :
    view m (applyHeld a0 s) = view m s := by
  unfold applyHeld
  refine view_foldl _ _ _ fun t x => ?_
  split
  · split <;> simp [*]
  · rfl
@[simp] theorem view_settleEntries {m : Piece → Bool} (s : State)
    (h0 : m .drone = true) (h1 : m .host = true) (h2 : m .volumes = true) (h3 : m .ledger = true) (h4 : m .entries = true) (h5 : m .slots = true) (h6 : m .smc = true) (h7 : m .lines = true) (h8 : m .cache = true) (h9 : m .appendQ = true) (h10 : m .drives = true) (h11 : m .hem = true) (h12 : m .pair = true) (h13 : m .events = true) (h14 : m .out = true) :
    view m (settleEntries s) = view m s := by simp [settleEntries, *]
@[simp] theorem view_joinRestored {m : Piece → Bool} (s : State) (a1 : Nat) (a2 : Drive)
    (h0 : m .drone = true) (h1 : m .host = true) (h2 : m .volumes = true) (h3 : m .ledger = true) (h4 : m .entries = true) (h5 : m .slots = true) (h6 : m .smc = true) (h7 : m .lines = true) (h8 : m .cache = true) (h9 : m .appendQ = true) (h10 : m .array = true) (h11 : m .drives = true) (h12 : m .hem = true) (h13 : m .pair = true) (h14 : m .events = true) (h15 : m .out = true) :
    view m (joinRestored s a1 a2) = view m s := by unfold joinRestored; (repeat' split) <;> simp [*]
@[simp] theorem view_joinAll {m : Piece → Bool} (s : State)
    (h0 : m .drone = true) (h1 : m .host = true) (h2 : m .volumes = true) (h3 : m .ledger = true) (h4 : m .entries = true) (h5 : m .slots = true) (h6 : m .smc = true) (h7 : m .lines = true) (h8 : m .cache = true) (h9 : m .appendQ = true) (h10 : m .array = true) (h11 : m .drives = true) (h12 : m .hem = true) (h13 : m .pair = true) (h14 : m .events = true) (h15 : m .out = true) :
    view m (joinAll s) = view m s := by simp [joinAll, *]
@[simp] theorem view_chooseEpoch {m : Piece → Bool} (a0 : RestoreFind) (a1 : List (VaultHead × VaultFind)) (s : State)
    (h0 : m .hem = true) (h1 : m .events = true) :
    view m (chooseEpoch a0 a1 s).2 = view m s := by fun_induction chooseEpoch a0 a1 s <;> simp_all
@[simp] theorem view_loseStripe {m : Piece → Bool} (a0 a1 : Nat) (s : State)
    (h0 : m .array = true) (h1 : m .lost = true) (h2 : m .hem = true) (h3 : m .pair = true) (h4 : m .events = true) (h5 : m .out = true) (h6 : m .cache = true) :
    view m (loseStripe a0 a1 s) = view m s := by unfold loseStripe; split <;> simp [*]
@[simp] theorem view_restoreIntent {m : Piece → Bool} (a0 : List DescFind) (s : State) (a2 : IntentRec)
    (h0 : m .cache = true) (h1 : m .stripes = true) (h2 : m .array = true) (h3 : m .lost = true) (h4 : m .hem = true) (h5 : m .pair = true) (h6 : m .events = true) (h7 : m .out = true) :
    view m (restoreIntent a0 s a2) = view m s := by unfold restoreIntent; split <;> simp [*]
@[simp] theorem view_readOnlyAll {m : Piece → Bool} (s : State)
    (h0 : m .drone = true) (h1 : m .host = true) (h2 : m .volumes = true) (h3 : m .ledger = true) (h4 : m .entries = true) (h5 : m .slots = true) (h6 : m .smc = true) (h7 : m .lines = true) (h8 : m .cache = true) (h9 : m .appendQ = true) (h10 : m .drives = true) (h11 : m .hem = true) (h12 : m .pair = true) (h13 : m .events = true) (h14 : m .out = true) :
    view m (readOnlyAll s) = view m s := by simp [readOnlyAll, *]
@[simp] theorem view_scrubNow {m : Piece → Bool} (s : State)
    (h0 : m .array = true) :
    view m (scrubNow s) = view m s := by simp [scrubNow, *]
@[simp] theorem view_journalGap {m : Piece → Bool} (s : State)
    (h0 : m .drone = true) (h1 : m .host = true) (h2 : m .volumes = true) (h3 : m .ledger = true) (h4 : m .entries = true) (h5 : m .slots = true) (h6 : m .smc = true) (h7 : m .lines = true) (h8 : m .cache = true) (h9 : m .appendQ = true) (h10 : m .array = true) (h11 : m .drives = true) (h12 : m .hem = true) (h13 : m .pair = true) (h14 : m .events = true) (h15 : m .out = true) :
    view m (journalGap s) = view m s := by simp [journalGap, *]
@[simp] theorem view_setRestore {m : Piece → Bool} (a0 : RestorePhase) (s : State)
    (h0 : m .cache = true) (h1 : m .vault = true) :
    view m (setRestore a0 s) = view m s := by simp [setRestore, *]
@[simp] theorem view_loadEpoch {m : Piece → Bool} (a0 : VaultHead) (a1 : VaultFind) (a2 : List VaultHead) (s : State)
    (h0 : m .drone = true) (h1 : m .host = true) (h2 : m .volumes = true) (h3 : m .ledger = true) (h4 : m .entries = true) (h5 : m .slots = true) (h6 : m .smc = true) (h7 : m .lines = true) (h8 : m .cache = true) (h9 : m .stripes = true) (h10 : m .appendQ = true) (h11 : m .vault = true) (h12 : m .array = true) (h13 : m .lost = true) (h14 : m .drives = true) (h15 : m .hem = true) (h16 : m .pair = true) (h17 : m .events = true) (h18 : m .out = true) :
    view m (loadEpoch a0 a1 a2 s) = view m s := by simp [loadEpoch, *]
@[simp] theorem view_holdEpoch {m : Piece → Bool} (s : State)
    (h0 : m .cache = true) (h1 : m .vault = true) (h2 : m .hem = true) (h3 : m .events = true) :
    view m (holdEpoch s) = view m s := by simp [holdEpoch, *]
@[simp] theorem view_restoreStep {m : Piece → Bool} (s : State)
    (h0 : m .drone = true) (h1 : m .host = true) (h2 : m .volumes = true) (h3 : m .ledger = true) (h4 : m .entries = true) (h5 : m .slots = true) (h6 : m .smc = true) (h7 : m .lines = true) (h8 : m .cache = true) (h9 : m .appendQ = true) (h10 : m .vault = true) (h11 : m .array = true) (h12 : m .drives = true) (h13 : m .hem = true) (h14 : m .pair = true) (h15 : m .events = true) (h16 : m .out = true) :
    view m (restoreStep s) = view m s := by simp [restoreStep, *]
@[simp] theorem view_offlineAll {m : Piece → Bool} (s : State)
    (h0 : m .drone = true) (h1 : m .host = true) (h2 : m .volumes = true) (h3 : m .ledger = true) (h4 : m .entries = true) (h5 : m .slots = true) (h6 : m .smc = true) (h7 : m .lines = true) (h8 : m .cache = true) (h9 : m .appendQ = true) (h10 : m .drives = true) (h11 : m .hem = true) (h12 : m .pair = true) (h13 : m .events = true) (h14 : m .out = true) :
    view m (offlineAll s) = view m s := by simp [offlineAll, *]
/-- Restore begun. -/
theorem view_beginRestore {m : Piece → Bool} (f : RestoreFind) (held : State → State) (s : State)
    (h0 : m .drone = true) (h1 : m .host = true) (h2 : m .volumes = true) (h3 : m .ledger = true) (h4 : m .entries = true) (h5 : m .slots = true) (h6 : m .smc = true) (h7 : m .lines = true) (h8 : m .cache = true) (h9 : m .stripes = true) (h10 : m .appendQ = true) (h11 : m .vault = true) (h12 : m .array = true) (h13 : m .lost = true) (h14 : m .drives = true) (h15 : m .hem = true) (h16 : m .pair = true) (h17 : m .events = true) (h18 : m .out = true) (h : ∀ t, view m (held t) = view m t) :
    view m (beginRestore f held s) = view m s := by
  unfold beginRestore
  dsimp only
  split
  · simp [h, h0, h1, h2, h3, h4, h5, h6, h7, h8, h9, h10, h11, h12, h13, h14, h15, h16, h17, h18]
  · rw [view_restoreStep _ ‹_› ‹_› ‹_› ‹_› ‹_› ‹_› ‹_› ‹_› ‹_› ‹_› ‹_› ‹_› ‹_› ‹_› ‹_› ‹_› ‹_›, view_assignWaiting _ ‹_› ‹_› ‹_› ‹_› ‹_› ‹_› ‹_› ‹_› ‹_› ‹_› ‹_› ‹_› ‹_› ‹_› ‹_›, view_offlineAll _ ‹_› ‹_› ‹_› ‹_› ‹_› ‹_› ‹_› ‹_› ‹_› ‹_› ‹_› ‹_› ‹_› ‹_› ‹_›, view_settleEntries _ ‹_› ‹_› ‹_› ‹_› ‹_› ‹_› ‹_› ‹_› ‹_› ‹_› ‹_› ‹_› ‹_› ‹_› ‹_›]
    refine (view_elim _ _ _ fun x => ?_).trans ?_ <;> simp [h, h0, h1, h2, h3, h4, h5, h6, h7, h8, h9, h10, h11, h12, h13, h14, h15, h16, h17, h18]
@[simp] theorem view_putPage {m : Piece → Bool} (s : State) (a1 : PageFind)
    (h0 : m .cache = true) (h1 : m .stripes = true) :
    view m (putPage s a1) = view m s := by simp [putPage, *]
@[simp] theorem view_loseUnsaved {m : Piece → Bool} (a0 : Nat) (s : State) (a2 : Nat × StripeDesc)
    (h0 : m .cache = true) (h1 : m .stripes = true) (h2 : m .appendQ = true) (h3 : m .array = true) (h4 : m .lost = true) (h5 : m .hem = true) (h6 : m .pair = true) (h7 : m .events = true) (h8 : m .out = true) :
    view m (loseUnsaved a0 s a2) = view m s := by unfold loseUnsaved; split <;> simp [*]
@[simp] theorem view_losePages {m : Piece → Bool} (a0 : Nat) (s : State)
    (h0 : m .cache = true) (h1 : m .stripes = true) (h2 : m .appendQ = true) (h3 : m .array = true) (h4 : m .lost = true) (h5 : m .hem = true) (h6 : m .pair = true) (h7 : m .events = true) (h8 : m .out = true) :
    view m (losePages a0 s) = view m s := by simp [losePages, *]
@[simp] theorem view_replay {m : Piece → Bool} (s : State)
    (h0 : m .drone = true) (h1 : m .jobs = true) (h2 : m .reeds = true) (h3 : m .ledger = true) (h4 : m .entries = true) (h5 : m .slots = true) (h6 : m .smc = true) (h7 : m .lines = true) (h8 : m .cache = true) (h9 : m .stripes = true) (h10 : m .appendQ = true) (h11 : m .vault = true) (h12 : m .pair = true) (h13 : m .out = true) :
    view m (replay s) = view m s := by
  unfold replay
  dsimp only
  refine (view_foldl _ _ _ fun t x => ?_).trans (by simp [*])
  simp [*]
@[simp] theorem view_releaseEpoch {m : Piece → Bool} (s : State)
    (h0 : m .drone = true) (h1 : m .jobs = true) (h2 : m .cache = true) (h3 : m .vault = true) :
    view m (releaseEpoch s) = view m s := by simp [releaseEpoch, *]
@[simp] theorem view_modEpg {m : Piece → Bool} (a0 : Pair → Pair) (s : State)
    (h0 : m .pair = true) :
    view m (modEpg a0 s) = view m s := by simp [modEpg, *]
@[simp] theorem view_setClaim {m : Piece → Bool} (a0 : Word) (a1 : UnitState) (s : State)
    (h0 : m .pair = true) :
    view m (setClaim a0 a1 s) = view m s := by simp [setClaim, *]
@[simp] theorem view_setUnit {m : Piece → Bool} (a0 : UnitState) (s : State)
    (h0 : m .pair = true) :
    view m (setUnit a0 s) = view m s := by simp [setUnit, *]
@[simp] theorem view_adoptClaim {m : Piece → Bool} (a0 : Word) (s : State)
    (h0 : m .pair = true) :
    view m (adoptClaim a0 s) = view m s := by simp [adoptClaim, *]
@[simp] theorem view_dropCopy {m : Piece → Bool} (s : State)
    (h0 : m .drone = true) (h1 : m .jobs = true) (h2 : m .host = true) (h3 : m .volumes = true) (h4 : m .ledger = true) (h5 : m .entries = true) (h6 : m .slots = true) (h7 : m .cache = true) (h8 : m .stripes = true) (h9 : m .appendQ = true) (h10 : m .vault = true) (h11 : m .array = true) (h12 : m .lost = true) (h13 : m .hem = true) (h14 : m .pair = true) (h15 : m .events = true) :
    view m (dropCopy s) = view m s := by simp [dropCopy, *]
@[simp] theorem view_sendHello {m : Piece → Bool} (s : State)
    (h0 : m .pair = true) (h1 : m .out = true) :
    view m (sendHello s) = view m s := by simp [sendHello, *]
@[simp] theorem view_modLink {m : Piece → Bool} (a0 : Link → Link) (s : State)
    (h0 : m .pair = true) :
    view m (modLink a0 s) = view m s := by simp [modLink, *]
@[simp] theorem view_stopMirror {m : Piece → Bool} (s : State)
    (h0 : m .pair = true) :
    view m (stopMirror s) = view m s := by simp [stopMirror, *]
@[simp] theorem view_pairLoss {m : Piece → Bool} (s : State)
    (h0 : m .cache = true) (h1 : m .vault = true) (h2 : m .pair = true) :
    view m (pairLoss s) = view m s := by simp [pairLoss, *]
@[simp] theorem view_declareLoss {m : Piece → Bool} (s : State)
    (h0 : m .cache = true) (h1 : m .vault = true) (h2 : m .hem = true) (h3 : m .pair = true) (h4 : m .events = true) :
    view m (declareLoss s) = view m s := by simp [declareLoss, *]
@[simp] theorem view_acceptFlit {m : Piece → Bool} (a0 : Nat) (s : State)
    (h0 : m .pair = true) (h1 : m .out = true) :
    view m (acceptFlit a0 s) = view m s := by simp [acceptFlit, *]
@[simp] theorem view_retrain {m : Piece → Bool} (s : State)
    (h0 : m .pair = true) :
    view m (retrain s) = view m s := by simp [retrain, *]
@[simp] theorem view_replayFlits {m : Piece → Bool} (a0 : Nat) (s : State)
    (h0 : m .pair = true) (h1 : m .out = true) :
    view m (replayFlits a0 s) = view m s := by simp [replayFlits, *]
@[simp] theorem view_linkUp {m : Piece → Bool} (s : State)
    (h0 : m .drone = true) (h1 : m .jobs = true) (h2 : m .host = true) (h3 : m .volumes = true) (h4 : m .ledger = true) (h5 : m .entries = true) (h6 : m .slots = true) (h7 : m .cache = true) (h8 : m .stripes = true) (h9 : m .appendQ = true) (h10 : m .vault = true) (h11 : m .array = true) (h12 : m .lost = true) (h13 : m .hem = true) (h14 : m .pair = true) (h15 : m .events = true) (h16 : m .out = true) :
    view m (linkUp s) = view m s := by
  unfold linkUp
  dsimp only
  split <;> split <;> simp [*]
@[simp] theorem view_strikeFlits {m : Piece → Bool} (a0 : Nat) (s : State)
    (h0 : m .pair = true) (h1 : m .trials = true) (h2 : m .out = true) :
    view m (strikeFlits a0 s) = view m s := by
  induction a0 generalizing s with
  | zero => rfl
  | succ n ih =>
    unfold strikeFlits
    dsimp only
    rw [ih]
    split <;> simp [*]
@[simp] theorem view_countFlits {m : Piece → Bool} (s : State)
    (h0 : m .pair = true) (h1 : m .trials = true) (h2 : m .out = true) :
    view m (countFlits s) = view m s := by simp [countFlits, *]
@[simp] theorem view_applyImage {m : Piece → Bool} (a0 : Image) (s : State)
    (h0 : m .image = true) (h1 : m .loader = true) (h2 : m .ldrState = true) (h3 : m .drone = true) (h4 : m .tick = true) (h5 : m .posted = true) (h6 : m .jobs = true) (h7 : m .host = true) (h8 : m .rings = true) (h9 : m .volumes = true) (h10 : m .cmds = true) (h11 : m .funcs = true) (h12 : m .dma = true) (h13 : m .reeds = true) (h14 : m .ledger = true) (h15 : m .entries = true) (h16 : m .slots = true) (h17 : m .smc = true) (h18 : m .lines = true) (h19 : m .cache = true) (h20 : m .stripes = true) (h21 : m .array = true) (h22 : m .drives = true) (h23 : m .hem = true) (h24 : m .pair = true) (h25 : m .events = true) (h26 : m .trials = true) :
    view m (applyImage a0 s) = view m s := by
  unfold applyImage Drone.applied HostSide.applied Ledger.applied Smc.applied Cache.applied
  dsimp only
  simp [h0, h1, h2, h3, h4, h5, h6, h7, h8, h9, h10, h11, h12, h13, h14, h15, h16, h17, h18, h19, h20, h21, h22, h23, h24, h25, h26]
@[simp] theorem view_refuseImage {m : Piece → Bool} (a0 : LoadJob) (a1 : ImgRefusal) (s : State)
    (h0 : m .loader = true) (h1 : m .ldrState = true) (h2 : m .hem = true) (h3 : m .events = true) (h4 : m .mgmt = true) :
    view m (refuseImage a0 a1 s) = view m s := by simp [refuseImage, *]
@[simp] theorem view_showAccepted {m : Piece → Bool} (a0 : LoadJob) (a1 : Image) (s : State)
    (h0 : m .loader = true) :
    view m (showAccepted a0 a1 s) = view m s := by simp [showAccepted, *]
@[simp] theorem view_verdict {m : Piece → Bool} (a0 : LoadJob) (s : State)
    (h0 : m .image = true) (h1 : m .loader = true) (h2 : m .ldrState = true) (h3 : m .drone = true) (h4 : m .tick = true) (h5 : m .posted = true) (h6 : m .jobs = true) (h7 : m .host = true) (h8 : m .rings = true) (h9 : m .volumes = true) (h10 : m .cmds = true) (h11 : m .funcs = true) (h12 : m .dma = true) (h13 : m .reeds = true) (h14 : m .ledger = true) (h15 : m .entries = true) (h16 : m .slots = true) (h17 : m .smc = true) (h18 : m .lines = true) (h19 : m .cache = true) (h20 : m .stripes = true) (h21 : m .array = true) (h22 : m .drives = true) (h23 : m .hem = true) (h24 : m .pair = true) (h25 : m .events = true) (h26 : m .trials = true) (h27 : m .mgmt = true) :
    view m (verdict a0 s) = view m s := by unfold verdict; split <;> simp [*]
@[simp] theorem view_leavePair {m : Piece → Bool} (s : State)
    (h0 : m .drone = true) (h1 : m .jobs = true) (h2 : m .host = true) (h3 : m .volumes = true) (h4 : m .ledger = true) (h5 : m .entries = true) (h6 : m .slots = true) (h7 : m .cache = true) (h8 : m .stripes = true) (h9 : m .appendQ = true) (h10 : m .vault = true) (h11 : m .array = true) (h12 : m .lost = true) (h13 : m .hem = true) (h14 : m .pair = true) (h15 : m .events = true) (h16 : m .out = true) :
    view m (leavePair s) = view m s := by simp [leavePair, *]
@[simp] theorem view_sealLedger {m : Piece → Bool} (s : State)
    (h0 : m .drone = true) (h1 : m .jobs = true) (h2 : m .ledger = true) (h3 : m .smc = true) (h4 : m .cache = true) (h5 : m .stripes = true) (h6 : m .appendQ = true) (h7 : m .hem = true) (h8 : m .events = true) :
    view m (sealLedger s) = view m s := by simp [sealLedger, *]
@[simp] theorem view_reloadDestage {m : Piece → Bool} (s : State)
    (h0 : m .cache = true) (h1 : m .stripes = true) (h2 : m .hem = true) (h3 : m .events = true) :
    view m (reloadDestage s) = view m s := by simp [reloadDestage, *]
@[simp] theorem view_prepare {m : Piece → Bool} (s : State)
    (h0 : m .loader = true) (h1 : m .drone = true) (h2 : m .jobs = true) (h3 : m .host = true) (h4 : m .volumes = true) (h5 : m .ledger = true) (h6 : m .entries = true) (h7 : m .slots = true) (h8 : m .smc = true) (h9 : m .cache = true) (h10 : m .stripes = true) (h11 : m .appendQ = true) (h12 : m .vault = true) (h13 : m .array = true) (h14 : m .lost = true) (h15 : m .hem = true) (h16 : m .pair = true) (h17 : m .events = true) (h18 : m .out = true) :
    view m (prepare s) = view m s := by simp [prepare, *]
@[simp] theorem view_afterReload {m : Piece → Bool} (s : State)
    (h0 : m .drone = true) (h1 : m .jobs = true) (h2 : m .host = true) (h3 : m .volumes = true) (h4 : m .reeds = true) (h5 : m .ledger = true) (h6 : m .entries = true) (h7 : m .slots = true) (h8 : m .smc = true) (h9 : m .lines = true) (h10 : m .cache = true) (h11 : m .appendQ = true) (h12 : m .array = true) (h13 : m .drives = true) (h14 : m .hem = true) (h15 : m .pair = true) (h16 : m .events = true) (h17 : m .out = true) :
    view m (afterReload s) = view m s := by simp [afterReload, *]
@[simp] theorem view_releaseHeld {m : Piece → Bool} (s : State)
    (h0 : m .cache = true) (h1 : m .vault = true) :
    view m (releaseHeld s) = view m s := by simp [releaseHeld, *]
@[simp] theorem view_runImage {m : Piece → Bool} (a0 : Image) (s : State)
    (h0 : m .loader = true) (h1 : m .ldrState = true) (h2 : m .imgId = true) (h3 : m .drone = true) (h4 : m .jobs = true) (h5 : m .host = true) (h6 : m .volumes = true) (h7 : m .reeds = true) (h8 : m .ledger = true) (h9 : m .entries = true) (h10 : m .slots = true) (h11 : m .smc = true) (h12 : m .lines = true) (h13 : m .cache = true) (h14 : m .appendQ = true) (h15 : m .vault = true) (h16 : m .array = true) (h17 : m .drives = true) (h18 : m .hem = true) (h19 : m .pair = true) (h20 : m .health = true) (h21 : m .events = true) (h22 : m .mgmt = true) (h23 : m .flash = true) (h24 : m .out = true) :
    view m (runImage a0 s) = view m s := by simp [runImage, *]
@[simp] theorem view_fixTarget {m : Piece → Bool} (s : State)
    (h0 : m .loader = true) (h1 : m .pair = true) (h2 : m .out = true) :
    view m (fixTarget s) = view m s := by unfold fixTarget; split <;> simp [*]
@[simp] theorem view_acceptLive {m : Piece → Bool} (a0 : LoadJob) (a1 : Image) (s : State)
    (h0 : m .loader = true) (h1 : m .pair = true) (h2 : m .out = true) :
    view m (acceptLive a0 a1 s) = view m s := by simp [acceptLive, *]
@[simp] theorem view_liveVerdict {m : Piece → Bool} (a0 : LoadJob) (s : State)
    (h0 : m .loader = true) (h1 : m .hem = true) (h2 : m .pair = true) (h3 : m .events = true) (h4 : m .mgmt = true) (h5 : m .out = true) :
    view m (liveVerdict a0 s) = view m s := by
  unfold liveVerdict
  dsimp only
  (repeat' split) <;> simp [*]
@[simp] theorem view_unmatchedLive {m : Piece → Bool} (s : State)
    (h0 : m .loader = true) (h1 : m .hem = true) (h2 : m .events = true) (h3 : m .mgmt = true) :
    view m (unmatchedLive s) = view m s := by simp [unmatchedLive, *]
@[simp] theorem view_applyLive {m : Piece → Bool} (a0 : LiveReq) (s : State)
    (h0 : m .image = true) (h1 : m .loader = true) (h2 : m .imgId = true) (h3 : m .hem = true) (h4 : m .pair = true) (h5 : m .events = true) (h6 : m .mgmt = true) (h7 : m .out = true) :
    view m (applyLive a0 s) = view m s := by simp [applyLive, *]
@[simp] theorem view_liveEdge {m : Piece → Bool} (s : State)
    (h0 : m .image = true) (h1 : m .loader = true) (h2 : m .imgId = true) (h3 : m .hem = true) (h4 : m .pair = true) (h5 : m .events = true) (h6 : m .mgmt = true) (h7 : m .out = true) :
    view m (liveEdge s) = view m s := by unfold liveEdge; split <;> simp [*]
@[simp] theorem view_liveStamp {m : Piece → Bool} (a0 : Nat) (s : State)
    (h0 : m .image = true) (h1 : m .loader = true) (h2 : m .imgId = true) (h3 : m .hem = true) (h4 : m .pair = true) (h5 : m .events = true) (h6 : m .mgmt = true) (h7 : m .out = true) :
    view m (liveStamp a0 s) = view m s := by unfold liveStamp; split <;> simp [*]
/-- A change the standby makes itself. -/
@[simp] theorem view_asStandby {m : Piece → Bool} (f : State → State) (s : State)
    (h0 : m .cache = true) (h1 : m .pair = true) (h2 : m .appendQ = true) (h : ∀ t, view m (f t) = view m t) : view m (asStandby f s) = view m s := by
  unfold asStandby
  dsimp only
  rw [← h s]
  generalize f s = t
  simp [h0, h1, h2]
@[simp] theorem view_volLost {m : Piece → Bool} (a0 : Entry) (s : State)
    (h0 : m .array = true) (h1 : m .lost = true) (h2 : m .hem = true) (h3 : m .events = true) :
    view m (volLost a0 s) = view m s := by unfold volLost; split <;> simp [*]
@[simp] theorem view_applyWhat {m : Piece → Bool} (a0 : InStep) (s : State)
    (h0 : m .drone = true) (h1 : m .host = true) (h2 : m .volumes = true) (h3 : m .ledger = true) (h4 : m .entries = true) (h5 : m .slots = true) (h6 : m .smc = true) (h7 : m .lines = true) (h8 : m .cache = true) (h9 : m .appendQ = true) (h10 : m .array = true) (h11 : m .lost = true) (h12 : m .drives = true) (h13 : m .hem = true) (h14 : m .pair = true) (h15 : m .events = true) (h16 : m .out = true) :
    view m (applyWhat a0 s) = view m s := by unfold applyWhat; (repeat' split) <;> simp [*]
@[simp] theorem view_applyInput {m : Piece → Bool} (a0 : Nat) (a1 : InStep) (s : State)
    (h0 : m .drone = true) (h1 : m .host = true) (h2 : m .volumes = true) (h3 : m .ledger = true) (h4 : m .entries = true) (h5 : m .slots = true) (h6 : m .smc = true) (h7 : m .lines = true) (h8 : m .cache = true) (h9 : m .appendQ = true) (h10 : m .array = true) (h11 : m .lost = true) (h12 : m .drives = true) (h13 : m .hem = true) (h14 : m .pair = true) (h15 : m .events = true) (h16 : m .out = true) :
    view m (applyInput a0 a1 s) = view m s := by simp [applyInput, *]
@[simp] theorem view_emptyGroups {m : Piece → Bool} (a0 a1 : BitVec 32) (a2 : Nat) (s : State)
    (h0 : m .cache = true) (h1 : m .stripes = true) :
    view m (emptyGroups a0 a1 a2 s) = view m s := by simp [emptyGroups, *]
@[simp] theorem view_applyLedger {m : Piece → Bool} (a0 : LRec) (s : State)
    (h0 : m .drone = true) (h1 : m .host = true) (h2 : m .volumes = true) (h3 : m .ledger = true) (h4 : m .entries = true) (h5 : m .slots = true) (h6 : m .smc = true) (h7 : m .lines = true) (h8 : m .cache = true) (h9 : m .stripes = true) (h10 : m .appendQ = true) (h11 : m .drives = true) (h12 : m .hem = true) (h13 : m .pair = true) (h14 : m .events = true) (h15 : m .out = true) :
    view m (applyLedger a0 s) = view m s := by simp [applyLedger, *]
@[simp] theorem view_takeLedger {m : Piece → Bool} (a0 : LRec) (s : State)
    (h0 : m .drone = true) (h1 : m .host = true) (h2 : m .volumes = true) (h3 : m .ledger = true) (h4 : m .entries = true) (h5 : m .slots = true) (h6 : m .smc = true) (h7 : m .lines = true) (h8 : m .cache = true) (h9 : m .stripes = true) (h10 : m .appendQ = true) (h11 : m .drives = true) (h12 : m .hem = true) (h13 : m .pair = true) (h14 : m .events = true) (h15 : m .out = true) :
    view m (takeLedger a0 s) = view m s := by unfold takeLedger; split <;> simp [*]
@[simp] theorem view_seeJseq {m : Piece → Bool} (a0 : Nat) (s : State)
    (h0 : m .cache = true) :
    view m (seeJseq a0 s) = view m s := by simp [seeJseq, *]
@[simp] theorem view_adoptIntent {m : Piece → Bool} (a0 : IntentRec) (s : State)
    (h0 : m .cache = true) (h1 : m .stripes = true) :
    view m (adoptIntent a0 s) = view m s := by simp [adoptIntent, *]
@[simp] theorem view_takeRetire {m : Piece → Bool} (a0 a1 a2 : Nat) (s : State)
    (h0 : m .cache = true) (h1 : m .stripes = true) (h2 : m .pair = true) :
    view m (takeRetire a0 a1 a2 s) = view m s := by simp [takeRetire, *]
@[simp] theorem view_lateRetires {m : Piece → Bool} (s : State)
    (h0 : m .cache = true) (h1 : m .stripes = true) (h2 : m .pair = true) :
    view m (lateRetires s) = view m s := by simp [lateRetires, *]
@[simp] theorem view_takeRec {m : Piece → Bool} (a0 : JRec) (s : State)
    (h0 : m .drone = true) (h1 : m .host = true) (h2 : m .volumes = true) (h3 : m .ledger = true) (h4 : m .entries = true) (h5 : m .slots = true) (h6 : m .smc = true) (h7 : m .lines = true) (h8 : m .cache = true) (h9 : m .stripes = true) (h10 : m .appendQ = true) (h11 : m .drives = true) (h12 : m .hem = true) (h13 : m .pair = true) (h14 : m .events = true) (h15 : m .out = true) :
    view m (takeRec a0 s) = view m s := by unfold takeRec; split <;> simp [*]
@[simp] theorem view_takePage {m : Piece → Bool} (a0 a1 a2 : Nat) (a3 a4 : List Byte) (s : State)
    (h0 : m .cache = true) (h1 : m .stripes = true) :
    view m (takePage a0 a1 a2 a3 a4 s) = view m s := by simp [takePage, *]
@[simp] theorem view_startParity {m : Piece → Bool} (a0 : Nat) (s : State)
    (h0 : m .drone = true) (h1 : m .jobs = true) (h2 : m .pair = true) :
    view m (startParity a0 s) = view m s := by unfold startParity; (repeat' split) <;> simp [*]
@[simp] theorem view_startParities {m : Piece → Bool} (s : State)
    (h0 : m .drone = true) (h1 : m .jobs = true) (h2 : m .pair = true) :
    view m (startParities s) = view m s := by simp [startParities, *]
@[simp] theorem view_runParity {m : Piece → Bool} (a0 a1 a2 : Nat) (s : State)
    (h0 : m .drone = true) (h1 : m .jobs = true) (h2 : m .pair = true) :
    view m (runParity a0 a1 a2 s) = view m s := by unfold runParity; split <;> simp [*]
@[simp] theorem view_noteMismatch {m : Piece → Bool} (s : State)
    (h0 : m .pair = true) :
    view m (noteMismatch s) = view m s := by simp [noteMismatch, *]
@[simp] theorem view_mismatchAt {m : Piece → Bool} (a0 : Nat) (s : State)
    (h0 : m .drone = true) (h1 : m .jobs = true) (h2 : m .host = true) (h3 : m .volumes = true) (h4 : m .ledger = true) (h5 : m .entries = true) (h6 : m .slots = true) (h7 : m .cache = true) (h8 : m .stripes = true) (h9 : m .appendQ = true) (h10 : m .vault = true) (h11 : m .array = true) (h12 : m .lost = true) (h13 : m .hem = true) (h14 : m .pair = true) (h15 : m .events = true) (h16 : m .out = true) :
    view m (mismatchAt a0 s) = view m s := by simp [mismatchAt, *]
@[simp] theorem view_takeDigest {m : Piece → Bool} (a0 a1 a2 a3 : Nat) (a4 a5 : Word) (a6 : List Nat) (s : State)
    (h0 : m .drone = true) (h1 : m .jobs = true) (h2 : m .pair = true) :
    view m (takeDigest a0 a1 a2 a3 a4 a5 a6 s) = view m s := by simp [takeDigest, *]
@[simp] theorem view_synced {m : Piece → Bool} (s : State)
    (h0 : m .hem = true) (h1 : m .pair = true) (h2 : m .events = true) :
    view m (synced s) = view m s := by simp [synced, *]
@[simp] theorem view_confirmed {m : Piece → Bool} (a0 : DigestIn) (s : State)
    (h0 : m .hem = true) (h1 : m .pair = true) (h2 : m .events = true) :
    view m (confirmed a0 s) = view m s := by simp [confirmed, *]
@[simp] theorem view_confirmDigests {m : Piece → Bool} (a0 : Nat) (s : State)
    (h0 : m .drone = true) (h1 : m .jobs = true) (h2 : m .host = true) (h3 : m .volumes = true) (h4 : m .ledger = true) (h5 : m .entries = true) (h6 : m .slots = true) (h7 : m .cache = true) (h8 : m .stripes = true) (h9 : m .appendQ = true) (h10 : m .vault = true) (h11 : m .array = true) (h12 : m .lost = true) (h13 : m .hem = true) (h14 : m .pair = true) (h15 : m .events = true) (h16 : m .out = true) :
    view m (confirmDigests a0 s) = view m s := by fun_induction confirmDigests a0 s <;> simp_all
@[simp] theorem view_applyFrame {m : Piece → Bool} (a0 : Nat) (a1 : Frame) (s : State)
    (h0 : m .image = true) (h1 : m .loader = true) (h2 : m .imgId = true) (h3 : m .drone = true) (h4 : m .jobs = true) (h5 : m .host = true) (h6 : m .volumes = true) (h7 : m .ledger = true) (h8 : m .entries = true) (h9 : m .slots = true) (h10 : m .smc = true) (h11 : m .lines = true) (h12 : m .cache = true) (h13 : m .stripes = true) (h14 : m .appendQ = true) (h15 : m .vault = true) (h16 : m .array = true) (h17 : m .lost = true) (h18 : m .drives = true) (h19 : m .hem = true) (h20 : m .pair = true) (h21 : m .events = true) (h22 : m .mgmt = true) (h23 : m .out = true) :
    view m (applyFrame a0 a1 s) = view m s := by unfold applyFrame; split <;> simp [*]
@[simp] theorem view_dropPlans {m : Piece → Bool} (s : State)
    (h0 : m .drone = true) (h1 : m .jobs = true) (h2 : m .cache = true) (h3 : m .hem = true) (h4 : m .events = true) :
    view m (dropPlans s) = view m s := by simp [dropPlans, *]
@[simp] theorem view_stepDown {m : Piece → Bool} (s : State)
    (h0 : m .drone = true) (h1 : m .jobs = true) (h2 : m .host = true) (h3 : m .cache = true) (h4 : m .hem = true) (h5 : m .pair = true) (h6 : m .events = true) :
    view m (stepDown s) = view m s := by simp [stepDown, *]
@[simp] theorem view_seeStream {m : Piece → Bool} (s : State)
    (h0 : m .drone = true) (h1 : m .jobs = true) (h2 : m .host = true) (h3 : m .cache = true) (h4 : m .hem = true) (h5 : m .pair = true) (h6 : m .events = true) :
    view m (seeStream s) = view m s := by simp [seeStream, *]
@[simp] theorem view_receive {m : Piece → Bool} (a0 : Nat) (a1 : Frame) (s : State)
    (h0 : m .image = true) (h1 : m .loader = true) (h2 : m .imgId = true) (h3 : m .drone = true) (h4 : m .jobs = true) (h5 : m .host = true) (h6 : m .volumes = true) (h7 : m .ledger = true) (h8 : m .entries = true) (h9 : m .slots = true) (h10 : m .smc = true) (h11 : m .lines = true) (h12 : m .cache = true) (h13 : m .stripes = true) (h14 : m .appendQ = true) (h15 : m .vault = true) (h16 : m .array = true) (h17 : m .lost = true) (h18 : m .drives = true) (h19 : m .hem = true) (h20 : m .pair = true) (h21 : m .events = true) (h22 : m .mgmt = true) (h23 : m .out = true) :
    view m (receive a0 a1 s) = view m s := by simp [receive, *]
@[simp] theorem view_baseLedger {m : Piece → Bool} (a0 : LRec) (s : State)
    (h0 : m .drone = true) (h1 : m .host = true) (h2 : m .volumes = true) (h3 : m .ledger = true) (h4 : m .entries = true) (h5 : m .slots = true) (h6 : m .smc = true) (h7 : m .lines = true) (h8 : m .cache = true) (h9 : m .stripes = true) (h10 : m .appendQ = true) (h11 : m .drives = true) (h12 : m .hem = true) (h13 : m .pair = true) (h14 : m .events = true) (h15 : m .out = true) :
    view m (baseLedger a0 s) = view m s := by simp [baseLedger, *]
@[simp] theorem view_takeBase {m : Piece → Bool} (a0 : Frame) (s : State)
    (h0 : m .drone = true) (h1 : m .host = true) (h2 : m .volumes = true) (h3 : m .ledger = true) (h4 : m .entries = true) (h5 : m .slots = true) (h6 : m .smc = true) (h7 : m .lines = true) (h8 : m .cache = true) (h9 : m .stripes = true) (h10 : m .appendQ = true) (h11 : m .drives = true) (h12 : m .hem = true) (h13 : m .pair = true) (h14 : m .events = true) (h15 : m .out = true) :
    view m (takeBase a0 s) = view m s := by unfold takeBase; split <;> simp [*]
@[simp] theorem view_applyBuffer {m : Piece → Bool} (s : State)
    (h0 : m .image = true) (h1 : m .loader = true) (h2 : m .imgId = true) (h3 : m .drone = true) (h4 : m .jobs = true) (h5 : m .host = true) (h6 : m .volumes = true) (h7 : m .ledger = true) (h8 : m .entries = true) (h9 : m .slots = true) (h10 : m .smc = true) (h11 : m .lines = true) (h12 : m .cache = true) (h13 : m .stripes = true) (h14 : m .appendQ = true) (h15 : m .vault = true) (h16 : m .array = true) (h17 : m .lost = true) (h18 : m .drives = true) (h19 : m .hem = true) (h20 : m .pair = true) (h21 : m .events = true) (h22 : m .mgmt = true) (h23 : m .out = true) :
    view m (applyBuffer s) = view m s := by
  unfold applyBuffer
  dsimp only
  refine (view_foldl _ _ _ fun t x => ?_).trans ((view_foldl _ _ _ fun t x => ?_).trans (by simp [*]))
  · split <;> simp [*]
  · split <;> simp [*]
@[simp] theorem view_endBase {m : Piece → Bool} (s : State)
    (h0 : m .image = true) (h1 : m .loader = true) (h2 : m .imgId = true) (h3 : m .drone = true) (h4 : m .jobs = true) (h5 : m .host = true) (h6 : m .volumes = true) (h7 : m .ledger = true) (h8 : m .entries = true) (h9 : m .slots = true) (h10 : m .smc = true) (h11 : m .lines = true) (h12 : m .cache = true) (h13 : m .stripes = true) (h14 : m .appendQ = true) (h15 : m .vault = true) (h16 : m .array = true) (h17 : m .lost = true) (h18 : m .drives = true) (h19 : m .hem = true) (h20 : m .pair = true) (h21 : m .events = true) (h22 : m .mgmt = true) (h23 : m .out = true) :
    view m (endBase s) = view m s := by simp [endBase, *]
@[simp] theorem view_sendAck {m : Piece → Bool} (s : State)
    (h0 : m .pair = true) (h1 : m .out = true) :
    view m (sendAck s) = view m s := by simp [sendAck, *]
@[simp] theorem view_askReport {m : Piece → Bool} (a0 : Nat) (s : State)
    (h0 : m .drone = true) (h1 : m .jobs = true) :
    view m (askReport a0 s) = view m s := by simp [askReport, *]
@[simp] theorem view_askReports {m : Piece → Bool} (s : State)
    (h0 : m .drone = true) (h1 : m .jobs = true) :
    view m (askReports s) = view m s := by simp [askReports, *]
@[simp] theorem view_takeClaim {m : Piece → Bool} (a0 : Word) (s : State)
    (h0 : m .drone = true) (h1 : m .jobs = true) (h2 : m .pair = true) :
    view m (takeClaim a0 s) = view m s := by simp [takeClaim, *]
@[simp] theorem view_loseFence {m : Piece → Bool} (s : State)
    (h0 : m .drone = true) (h1 : m .jobs = true) (h2 : m .host = true) (h3 : m .volumes = true) (h4 : m .ledger = true) (h5 : m .entries = true) (h6 : m .slots = true) (h7 : m .cache = true) (h8 : m .stripes = true) (h9 : m .appendQ = true) (h10 : m .vault = true) (h11 : m .array = true) (h12 : m .lost = true) (h13 : m .hem = true) (h14 : m .pair = true) (h15 : m .events = true) :
    view m (loseFence s) = view m s := by simp [loseFence, *]
@[simp] theorem view_startTake {m : Piece → Bool} (a0 : TakeWhy) (s : State)
    (h0 : m .drone = true) (h1 : m .jobs = true) (h2 : m .pair = true) :
    view m (startTake a0 s) = view m s := by simp [startTake, *]
@[simp] theorem view_readPosts {m : Piece → Bool} (s : State)
    (h0 : m .drone = true) (h1 : m .pair = true) :
    view m (readPosts s) = view m s := by simp [readPosts, *]
@[simp] theorem view_tookSlot {m : Piece → Bool} (a0 : Nat) (a1 : Bool) (s : State)
    (h0 : m .drone = true) (h1 : m .pair = true) :
    view m (tookSlot a0 a1 s) = view m s := by unfold tookSlot; split <;> simp [*]
@[simp] theorem view_takeStep {m : Piece → Bool} (a0 : Nat) (s : State)
    (h0 : m .drone = true) (h1 : m .jobs = true) (h2 : m .pair = true) :
    view m (takeStep a0 s) = view m s := by fun_induction takeStep a0 s <;> simp_all
@[simp] theorem view_noteTake {m : Piece → Bool} (a0 : Sub) (a1 : Nat) (s : State)
    (h0 : m .jobs = true) :
    view m (noteTake a0 a1 s) = view m s := by unfold noteTake; (repeat' split) <;> simp [*]
@[simp] theorem view_takeConflict {m : Piece → Bool} (a0 : Take) (s : State)
    (h0 : m .drone = true) (h1 : m .jobs = true) (h2 : m .host = true) (h3 : m .volumes = true) (h4 : m .ledger = true) (h5 : m .entries = true) (h6 : m .slots = true) (h7 : m .cache = true) (h8 : m .stripes = true) (h9 : m .appendQ = true) (h10 : m .vault = true) (h11 : m .array = true) (h12 : m .lost = true) (h13 : m .hem = true) (h14 : m .pair = true) (h15 : m .events = true) :
    view m (takeConflict a0 s) = view m s := by simp [takeConflict, *]
@[simp] theorem view_runTake {m : Piece → Bool} (a0 a1 : Nat) (s : State)
    (h0 : m .drone = true) (h1 : m .jobs = true) (h2 : m .host = true) (h3 : m .volumes = true) (h4 : m .ledger = true) (h5 : m .entries = true) (h6 : m .slots = true) (h7 : m .cache = true) (h8 : m .stripes = true) (h9 : m .appendQ = true) (h10 : m .vault = true) (h11 : m .array = true) (h12 : m .lost = true) (h13 : m .hem = true) (h14 : m .pair = true) (h15 : m .events = true) :
    view m (runTake a0 a1 s) = view m s := by unfold runTake; split <;> simp [*]
@[simp] theorem view_postRound {m : Piece → Bool} (s : State)
    (h0 : m .drone = true) (h1 : m .jobs = true) (h2 : m .pair = true) :
    view m (postRound s) = view m s := by simp [postRound, *]
@[simp] theorem view_postWritten {m : Piece → Bool} (a0 a1 : Nat) (s : State)
    (h0 : m .pair = true) :
    view m (postWritten a0 a1 s) = view m s := by unfold postWritten; split <;> simp [*]
@[simp] theorem view_runPost {m : Piece → Bool} (a0 a1 : Nat) (s : State)
    (h0 : m .drone = true) (h1 : m .jobs = true) (h2 : m .hem = true) (h3 : m .events = true) :
    view m (runPost a0 a1 s) = view m s := by simp [runPost, *]
@[simp] theorem view_roundDurable {m : Piece → Bool} (a0 : Round) (s : State)
    (h0 : m .hem = true) (h1 : m .pair = true) (h2 : m .events = true) :
    view m (roundDurable a0 s) = view m s := by simp [roundDurable, *]
@[simp] theorem view_roundStep {m : Piece → Bool} (s : State)
    (h0 : m .hem = true) (h1 : m .pair = true) (h2 : m .events = true) :
    view m (roundStep s) = view m s := by unfold roundStep; split <;> simp [*]
@[simp] theorem view_readStep {m : Piece → Bool} (s : State)
    (h0 : m .drone = true) (h1 : m .pair = true) :
    view m (readStep s) = view m s := by simp [readStep, *]
@[simp] theorem view_notePosts {m : Piece → Bool} (a0 : List (Option PostVal)) (s : State)
    (h0 : m .pair = true) :
    view m (notePosts a0 s) = view m s := by simp [notePosts, *]
@[simp] theorem view_splitOff {m : Piece → Bool} (s : State)
    (h0 : m .drone = true) (h1 : m .jobs = true) (h2 : m .host = true) (h3 : m .volumes = true) (h4 : m .ledger = true) (h5 : m .entries = true) (h6 : m .slots = true) (h7 : m .cache = true) (h8 : m .stripes = true) (h9 : m .appendQ = true) (h10 : m .vault = true) (h11 : m .array = true) (h12 : m .lost = true) (h13 : m .hem = true) (h14 : m .pair = true) (h15 : m .events = true) :
    view m (splitOff s) = view m s := by simp [splitOff, *]
@[simp] theorem view_judgeSplit {m : Piece → Bool} (s : State)
    (h0 : m .drone = true) (h1 : m .jobs = true) (h2 : m .host = true) (h3 : m .volumes = true) (h4 : m .ledger = true) (h5 : m .entries = true) (h6 : m .slots = true) (h7 : m .cache = true) (h8 : m .stripes = true) (h9 : m .appendQ = true) (h10 : m .vault = true) (h11 : m .array = true) (h12 : m .lost = true) (h13 : m .hem = true) (h14 : m .pair = true) (h15 : m .events = true) :
    view m (judgeSplit s) = view m s := by simp [judgeSplit, *]
@[simp] theorem view_turnSalvage {m : Piece → Bool} (a0 : Take) (s : State)
    (h0 : m .hem = true) (h1 : m .pair = true) (h2 : m .events = true) :
    view m (turnSalvage a0 s) = view m s := by simp [turnSalvage, *]
@[simp] theorem view_judgeReread {m : Piece → Bool} (s : State)
    (h0 : m .hem = true) (h1 : m .pair = true) (h2 : m .events = true) :
    view m (judgeReread s) = view m s := by unfold judgeReread; split <;> simp [*]
@[simp] theorem view_takeoverStep {m : Piece → Bool} (s : State)
    (h0 : m .drone = true) (h1 : m .jobs = true) (h2 : m .hem = true) (h3 : m .pair = true) (h4 : m .events = true) :
    view m (takeoverStep s) = view m s := by simp [takeoverStep, *]
@[simp] theorem view_activeLostStep {m : Piece → Bool} (s : State)
    (h0 : m .hem = true) (h1 : m .pair = true) (h2 : m .events = true) :
    view m (activeLostStep s) = view m s := by simp [activeLostStep, *]
@[simp] theorem view_settleStream {m : Piece → Bool} (s : State)
    (h0 : m .drone = true) (h1 : m .jobs = true) (h2 : m .cache = true) (h3 : m .stripes = true) (h4 : m .appendQ = true) (h5 : m .hem = true) (h6 : m .pair = true) (h7 : m .events = true) :
    view m (settleStream s) = view m s := by simp [settleStream, *]
@[simp] theorem view_becomeActive {m : Piece → Bool} (s : State)
    (h0 : m .drone = true) (h1 : m .host = true) (h2 : m .volumes = true) (h3 : m .ledger = true) (h4 : m .entries = true) (h5 : m .slots = true) (h6 : m .smc = true) (h7 : m .lines = true) (h8 : m .cache = true) (h9 : m .appendQ = true) (h10 : m .drives = true) (h11 : m .hem = true) (h12 : m .pair = true) (h13 : m .events = true) (h14 : m .out = true) :
    view m (becomeActive s) = view m s := by simp [becomeActive, *]
@[simp] theorem view_afterTakeover {m : Piece → Bool} (s : State)
    (h0 : m .drone = true) (h1 : m .jobs = true) (h2 : m .host = true) (h3 : m .volumes = true) (h4 : m .reeds = true) (h5 : m .ledger = true) (h6 : m .entries = true) (h7 : m .slots = true) (h8 : m .smc = true) (h9 : m .lines = true) (h10 : m .cache = true) (h11 : m .stripes = true) (h12 : m .appendQ = true) (h13 : m .vault = true) (h14 : m .array = true) (h15 : m .drives = true) (h16 : m .hem = true) (h17 : m .pair = true) (h18 : m .events = true) (h19 : m .out = true) :
    view m (afterTakeover s) = view m s := by simp [afterTakeover, *]
@[simp] theorem view_afterSwitch {m : Piece → Bool} (s : State)
    (h0 : m .drone = true) (h1 : m .jobs = true) (h2 : m .reeds = true) (h3 : m .ledger = true) (h4 : m .entries = true) (h5 : m .slots = true) (h6 : m .smc = true) (h7 : m .lines = true) (h8 : m .cache = true) (h9 : m .stripes = true) (h10 : m .appendQ = true) (h11 : m .vault = true) (h12 : m .hem = true) (h13 : m .pair = true) (h14 : m .events = true) (h15 : m .out = true) :
    view m (afterSwitch s) = view m s := by simp [afterSwitch, *]
@[simp] theorem view_salvageRestore {m : Piece → Bool} (s : State)
    (h0 : m .cache = true) (h1 : m .vault = true) (h2 : m .pair = true) :
    view m (salvageRestore s) = view m s := by simp [salvageRestore, *]
@[simp] theorem view_claimAcquired {m : Piece → Bool} (a0 : Take) (s : State)
    (h0 : m .drone = true) (h1 : m .posted = true) (h2 : m .jobs = true) (h3 : m .host = true) (h4 : m .volumes = true) (h5 : m .reeds = true) (h6 : m .ledger = true) (h7 : m .entries = true) (h8 : m .slots = true) (h9 : m .smc = true) (h10 : m .lines = true) (h11 : m .cache = true) (h12 : m .stripes = true) (h13 : m .appendQ = true) (h14 : m .vault = true) (h15 : m .array = true) (h16 : m .drives = true) (h17 : m .hem = true) (h18 : m .pair = true) (h19 : m .events = true) (h20 : m .out = true) :
    view m (claimAcquired a0 s) = view m s := by unfold claimAcquired; split <;> simp [*]
@[simp] theorem view_acquiredStep {m : Piece → Bool} (s : State)
    (h0 : m .drone = true) (h1 : m .posted = true) (h2 : m .jobs = true) (h3 : m .host = true) (h4 : m .volumes = true) (h5 : m .reeds = true) (h6 : m .ledger = true) (h7 : m .entries = true) (h8 : m .slots = true) (h9 : m .smc = true) (h10 : m .lines = true) (h11 : m .cache = true) (h12 : m .stripes = true) (h13 : m .appendQ = true) (h14 : m .vault = true) (h15 : m .array = true) (h16 : m .drives = true) (h17 : m .hem = true) (h18 : m .pair = true) (h19 : m .events = true) (h20 : m .out = true) :
    view m (acquiredStep s) = view m s := by unfold acquiredStep; split <;> simp [*]
@[simp] theorem view_decideHolder {m : Piece → Bool} (a0 : Option (Word × Bool)) (s : State)
    (h0 : m .drone = true) (h1 : m .jobs = true) (h2 : m .hem = true) (h3 : m .pair = true) (h4 : m .events = true) :
    view m (decideHolder a0 s) = view m s := by unfold decideHolder; split <;> simp [*]
@[simp] theorem view_powerActive {m : Piece → Bool} (s : State)
    (h0 : m .drone = true) (h1 : m .host = true) (h2 : m .volumes = true) (h3 : m .ledger = true) (h4 : m .entries = true) (h5 : m .slots = true) (h6 : m .smc = true) (h7 : m .lines = true) (h8 : m .cache = true) (h9 : m .appendQ = true) (h10 : m .drives = true) (h11 : m .hem = true) (h12 : m .pair = true) (h13 : m .events = true) (h14 : m .out = true) :
    view m (powerActive s) = view m s := by simp [powerActive, *]
@[simp] theorem view_salvageHeld {m : Piece → Bool} (s : State)
    (h0 : m .image = true) (h1 : m .loader = true) (h2 : m .imgId = true) (h3 : m .drone = true) (h4 : m .jobs = true) (h5 : m .host = true) (h6 : m .volumes = true) (h7 : m .ledger = true) (h8 : m .entries = true) (h9 : m .slots = true) (h10 : m .smc = true) (h11 : m .lines = true) (h12 : m .cache = true) (h13 : m .stripes = true) (h14 : m .appendQ = true) (h15 : m .vault = true) (h16 : m .array = true) (h17 : m .lost = true) (h18 : m .drives = true) (h19 : m .hem = true) (h20 : m .pair = true) (h21 : m .events = true) (h22 : m .mgmt = true) (h23 : m .out = true) :
    view m (salvageHeld s) = view m s := by simp [salvageHeld, *]
@[simp] theorem view_seeFound {m : Piece → Bool} (a0 : RestoreFind) (s : State)
    (h0 : m .pair = true) :
    view m (seeFound a0 s) = view m s := by simp [seeFound, *]
@[simp] theorem view_fillHoles {m : Piece → Bool} (a0 : Nat) (s : State)
    (h0 : m .cache = true) (h1 : m .stripes = true) (h2 : m .array = true) (h3 : m .lost = true) (h4 : m .hem = true) (h5 : m .pair = true) (h6 : m .events = true) (h7 : m .out = true) :
    view m (fillHoles a0 s) = view m s := by unfold fillHoles; split <;> simp [*]
@[simp] theorem view_salvageVolumes {m : Piece → Bool} (a0 : Nat) (a1 : List Nat) (s : State)
    (h0 : m .drone = true) (h1 : m .host = true) (h2 : m .volumes = true) (h3 : m .ledger = true) (h4 : m .entries = true) (h5 : m .slots = true) (h6 : m .smc = true) (h7 : m .lines = true) (h8 : m .cache = true) (h9 : m .appendQ = true) (h10 : m .drives = true) (h11 : m .hem = true) (h12 : m .pair = true) (h13 : m .events = true) (h14 : m .out = true) :
    view m (salvageVolumes a0 a1 s) = view m s := by simp [salvageVolumes, *]
@[simp] theorem view_finishSalvage {m : Piece → Bool} (s : State)
    (h0 : m .drone = true) (h1 : m .host = true) (h2 : m .volumes = true) (h3 : m .ledger = true) (h4 : m .entries = true) (h5 : m .slots = true) (h6 : m .smc = true) (h7 : m .lines = true) (h8 : m .cache = true) (h9 : m .appendQ = true) (h10 : m .array = true) (h11 : m .drives = true) (h12 : m .hem = true) (h13 : m .pair = true) (h14 : m .events = true) (h15 : m .out = true) :
    view m (finishSalvage s) = view m s := by simp [finishSalvage, *]
@[simp] theorem view_orderDone {m : Piece → Bool} (a0 a1 : Nat) (s : State)
    (h0 : m .pair = true) :
    view m (orderDone a0 a1 s) = view m s := by simp [orderDone, *]
@[simp] theorem view_orderJoin {m : Piece → Bool} (s : State)
    (h0 : m .pair = true) :
    view m (orderJoin s) = view m s := by simp [orderJoin, *]
@[simp] theorem view_startSalvage {m : Piece → Bool} (s : State)
    (h0 : m .drone = true) (h1 : m .jobs = true) (h2 : m .host = true) (h3 : m .volumes = true) (h4 : m .ledger = true) (h5 : m .entries = true) (h6 : m .slots = true) (h7 : m .cache = true) (h8 : m .stripes = true) (h9 : m .appendQ = true) (h10 : m .vault = true) (h11 : m .array = true) (h12 : m .lost = true) (h13 : m .hem = true) (h14 : m .pair = true) (h15 : m .events = true) :
    view m (startSalvage s) = view m s := by simp [startSalvage, *]
@[simp] theorem view_claimRace {m : Piece → Bool} (s : State)
    (h0 : m .free = true) (h1 : m .hem = true) (h2 : m .events = true) :
    view m (claimRace s) = view m s := by simp [claimRace, *]
@[simp] theorem view_orderSalvage {m : Piece → Bool} (s : State)
    (h0 : m .drone = true) (h1 : m .jobs = true) (h2 : m .host = true) (h3 : m .volumes = true) (h4 : m .ledger = true) (h5 : m .entries = true) (h6 : m .slots = true) (h7 : m .cache = true) (h8 : m .stripes = true) (h9 : m .appendQ = true) (h10 : m .vault = true) (h11 : m .array = true) (h12 : m .lost = true) (h13 : m .hem = true) (h14 : m .pair = true) (h15 : m .events = true) (h16 : m .free = true) :
    view m (orderSalvage s) = view m s := by simp [orderSalvage, *]
@[simp] theorem view_orderSwitch {m : Piece → Bool} (s : State)
    (h0 : m .pair = true) :
    view m (orderSwitch s) = view m s := by simp [orderSwitch, *]
@[simp] theorem view_formSlots {m : Piece → Bool} (s : State)
    (h0 : m .drone = true) (h1 : m .host = true) (h2 : m .volumes = true) (h3 : m .ledger = true) (h4 : m .entries = true) (h5 : m .slots = true) (h6 : m .smc = true) (h7 : m .lines = true) (h8 : m .cache = true) (h9 : m .appendQ = true) (h10 : m .drives = true) (h11 : m .hem = true) (h12 : m .pair = true) (h13 : m .events = true) (h14 : m .out = true) :
    view m (formSlots s) = view m s := by
  unfold formSlots
  refine view_foldl _ _ _ fun t x => ?_
  dsimp only
  (repeat' split) <;> simp [*]
@[simp] theorem view_orderForm {m : Piece → Bool} (s : State)
    (h0 : m .drone = true) (h1 : m .jobs = true) (h2 : m .host = true) (h3 : m .volumes = true) (h4 : m .ledger = true) (h5 : m .entries = true) (h6 : m .slots = true) (h7 : m .smc = true) (h8 : m .lines = true) (h9 : m .cache = true) (h10 : m .appendQ = true) (h11 : m .drives = true) (h12 : m .hem = true) (h13 : m .pair = true) (h14 : m .events = true) (h15 : m .out = true) :
    view m (orderForm s) = view m s := by simp [orderForm, *]
@[simp] theorem view_switchEdge {m : Piece → Bool} (s : State)
    (h0 : m .host = true) (h1 : m .pair = true) :
    view m (switchEdge s) = view m s := by simp [switchEdge, *]
@[simp] theorem view_quiesceStep {m : Piece → Bool} (s : State)
    (h0 : m .drone = true) (h1 : m .jobs = true) (h2 : m .host = true) (h3 : m .volumes = true) (h4 : m .ledger = true) (h5 : m .entries = true) (h6 : m .slots = true) (h7 : m .smc = true) (h8 : m .lines = true) (h9 : m .cache = true) (h10 : m .appendQ = true) (h11 : m .drives = true) (h12 : m .hem = true) (h13 : m .pair = true) (h14 : m .events = true) (h15 : m .out = true) :
    view m (quiesceStep s) = view m s := by simp [quiesceStep, *]
@[simp] theorem view_handOver {m : Piece → Bool} (s : State)
    (h0 : m .pair = true) (h1 : m .out = true) :
    view m (handOver s) = view m s := by unfold handOver; split <;> simp [*]
@[simp] theorem view_watchFence {m : Piece → Bool} (s : State)
    (h0 : m .drone = true) (h1 : m .jobs = true) (h2 : m .pair = true) :
    view m (watchFence s) = view m s := by simp [watchFence, *]
@[simp] theorem view_lapseStep {m : Piece → Bool} (s : State)
    (h0 : m .host = true) (h1 : m .pair = true) :
    view m (lapseStep s) = view m s := by simp [lapseStep, *]
@[simp] theorem view_settlePair {m : Piece → Bool} (s : State)
    (h0 : m .drone = true) (h1 : m .posted = true) (h2 : m .jobs = true) (h3 : m .host = true) (h4 : m .volumes = true) (h5 : m .reeds = true) (h6 : m .ledger = true) (h7 : m .entries = true) (h8 : m .slots = true) (h9 : m .smc = true) (h10 : m .lines = true) (h11 : m .cache = true) (h12 : m .stripes = true) (h13 : m .appendQ = true) (h14 : m .vault = true) (h15 : m .array = true) (h16 : m .drives = true) (h17 : m .hem = true) (h18 : m .pair = true) (h19 : m .events = true) (h20 : m .out = true) :
    view m (settlePair s) = view m s := by simp [settlePair, *]
@[simp] theorem view_takeHandover {m : Piece → Bool} (s : State)
    (h0 : m .drone = true) (h1 : m .jobs = true) (h2 : m .pair = true) :
    view m (takeHandover s) = view m s := by simp [takeHandover, *]
@[simp] theorem view_takeConflicts {m : Piece → Bool} (a0 : Nat) (s : State)
    (h0 : m .pair = true) :
    view m (takeConflicts a0 s).2 = view m s := by simp [takeConflicts, *]
@[simp] theorem view_reissue {m : Piece → Bool} (a0 : List Sub) (s : State)
    (h0 : m .drone = true) (h1 : m .drives = true) :
    view m (reissue a0 s) = view m s := by simp [reissue, *]
@[simp] theorem view_judgeReport {m : Piece → Bool} (a0 : Nat) (a1 : Option (Word × Bool)) (s : State)
    (h0 : m .drone = true) (h1 : m .jobs = true) (h2 : m .host = true) (h3 : m .volumes = true) (h4 : m .ledger = true) (h5 : m .entries = true) (h6 : m .slots = true) (h7 : m .cache = true) (h8 : m .stripes = true) (h9 : m .appendQ = true) (h10 : m .vault = true) (h11 : m .array = true) (h12 : m .lost = true) (h13 : m .drives = true) (h14 : m .hem = true) (h15 : m .pair = true) (h16 : m .events = true) :
    view m (judgeReport a0 a1 s) = view m s := by unfold judgeReport; (repeat' split) <;> simp [*]
@[simp] theorem view_runReport {m : Piece → Bool} (a0 a1 : Nat) (s : State)
    (h0 : m .drone = true) (h1 : m .jobs = true) (h2 : m .host = true) (h3 : m .volumes = true) (h4 : m .ledger = true) (h5 : m .entries = true) (h6 : m .slots = true) (h7 : m .cache = true) (h8 : m .stripes = true) (h9 : m .appendQ = true) (h10 : m .vault = true) (h11 : m .array = true) (h12 : m .lost = true) (h13 : m .drives = true) (h14 : m .hem = true) (h15 : m .pair = true) (h16 : m .events = true) :
    view m (runReport a0 a1 s) = view m s := by unfold runReport; split <;> simp [*]
@[simp] theorem view_conflict {m : Piece → Bool} (a0 : Sub) (s : State)
    (h0 : m .drone = true) (h1 : m .jobs = true) (h2 : m .drives = true) (h3 : m .hem = true) (h4 : m .pair = true) (h5 : m .events = true) :
    view m (conflict a0 s) = view m s := by simp [conflict, *]
@[simp] theorem view_helloActive {m : Piece → Bool} (a0 : Word) (a1 : UnitState) (a2 : List Word) (a3 : Nat) (s : State)
    (h0 : m .hem = true) (h1 : m .pair = true) (h2 : m .events = true) :
    view m (helloActive a0 a1 a2 a3 s) = view m s := by simp [helloActive, *]
@[simp] theorem view_startJoin {m : Piece → Bool} (s : State)
    (h0 : m .drone = true) (h1 : m .jobs = true) (h2 : m .host = true) (h3 : m .volumes = true) (h4 : m .ledger = true) (h5 : m .entries = true) (h6 : m .slots = true) (h7 : m .cache = true) (h8 : m .stripes = true) (h9 : m .appendQ = true) (h10 : m .vault = true) (h11 : m .array = true) (h12 : m .lost = true) (h13 : m .hem = true) (h14 : m .pair = true) (h15 : m .events = true) :
    view m (startJoin s) = view m s := by simp [startJoin, *]
@[simp] theorem view_helloJoiner {m : Piece → Bool} (a0 a1 : Word) (a2 : List Word) (s : State)
    (h0 : m .drone = true) (h1 : m .jobs = true) (h2 : m .host = true) (h3 : m .volumes = true) (h4 : m .ledger = true) (h5 : m .entries = true) (h6 : m .slots = true) (h7 : m .cache = true) (h8 : m .stripes = true) (h9 : m .appendQ = true) (h10 : m .vault = true) (h11 : m .array = true) (h12 : m .lost = true) (h13 : m .hem = true) (h14 : m .pair = true) (h15 : m .events = true) :
    view m (helloJoiner a0 a1 a2 s) = view m s := by simp [helloJoiner, *]
@[simp] theorem view_takeHello {m : Piece → Bool} (a0 : Word) (a1 : UnitState) (a2 : Word) (a3 : List Word) (a4 : Nat) (s : State)
    (h0 : m .drone = true) (h1 : m .jobs = true) (h2 : m .host = true) (h3 : m .volumes = true) (h4 : m .ledger = true) (h5 : m .entries = true) (h6 : m .slots = true) (h7 : m .cache = true) (h8 : m .stripes = true) (h9 : m .appendQ = true) (h10 : m .vault = true) (h11 : m .array = true) (h12 : m .lost = true) (h13 : m .hem = true) (h14 : m .pair = true) (h15 : m .events = true) :
    view m (takeHello a0 a1 a2 a3 a4 s) = view m s := by simp [takeHello, *]
@[simp] theorem view_startResync {m : Piece → Bool} (s : State)
    (h0 : m .pair = true) (h1 : m .out = true) :
    view m (startResync s) = view m s := by simp [startResync, *]
@[simp] theorem view_resyncEdge {m : Piece → Bool} (s : State)
    (h0 : m .pair = true) (h1 : m .out = true) :
    view m (resyncEdge s) = view m s := by simp [resyncEdge, *]
@[simp] theorem view_sendPages {m : Piece → Bool} (a0 a1 : Nat) (s : State)
    (h0 : m .pair = true) (h1 : m .out = true) :
    view m (sendPages a0 a1 s) = view m s := by
  induction a0 generalizing a1 s with
  | zero => rfl
  | succ n ih =>
    unfold sendPages
    (repeat' split) <;> simp [ih, *]
@[simp] theorem view_sendBase {m : Piece → Bool} (s : State)
    (h0 : m .pair = true) (h1 : m .out = true) :
    view m (sendBase s) = view m s := by simp [sendBase, *]
@[simp] theorem view_sendDigest {m : Piece → Bool} (s : State)
    (h0 : m .pair = true) (h1 : m .out = true) :
    view m (sendDigest s) = view m s := by simp [sendDigest, *]
@[simp] theorem view_takeAck {m : Piece → Bool} (a0 a1 a2 : Nat) (s : State)
    (h0 : m .hem = true) (h1 : m .pair = true) (h2 : m .events = true) :
    view m (takeAck a0 a1 a2 s) = view m s := by simp [takeAck, *]
@[simp] theorem view_dropPartner {m : Piece → Bool} (s : State)
    (h0 : m .hem = true) (h1 : m .pair = true) (h2 : m .events = true) (h3 : m .out = true) :
    view m (dropPartner s) = view m s := by simp [dropPartner, *]
@[simp] theorem view_takeTarget {m : Piece → Bool} (a0 : Word) (a1 : Nat) (s : State)
    (h0 : m .loader = true) :
    view m (takeTarget a0 a1 s) = view m s := by simp [takeTarget, *]
@[simp] theorem view_announceHalt {m : Piece → Bool} (s : State)
    (h0 : m .hem = true) (h1 : m .pair = true) (h2 : m .events = true) :
    view m (announceHalt s) = view m s := by simp [announceHalt, *]
@[simp] theorem view_writePolicy {m : Piece → Bool} (a0 : Word) (s : State)
    (h0 : m .pair = true) :
    view m (writePolicy a0 s) = view m s := by simp [writePolicy, *]
@[simp] theorem view_writeVolClear {m : Piece → Bool} (a0 : Word) (s : State)
    (h0 : m .drone = true) (h1 : m .host = true) (h2 : m .volumes = true) (h3 : m .ledger = true) (h4 : m .entries = true) (h5 : m .slots = true) (h6 : m .smc = true) (h7 : m .lines = true) (h8 : m .cache = true) (h9 : m .appendQ = true) (h10 : m .drives = true) (h11 : m .hem = true) (h12 : m .pair = true) (h13 : m .events = true) (h14 : m .out = true) :
    view m (writeVolClear a0 s) = view m s := by
  unfold writeVolClear
  dsimp only
  (repeat' split) <;> simp [*]
@[simp] theorem view_failOwner {m : Piece → Bool} (a0 : Leg) (s : State)
    (h0 : m .drone = true) (h1 : m .jobs = true) (h2 : m .host = true) (h3 : m .cmds = true) (h4 : m .reeds = true) (h5 : m .ledger = true) (h6 : m .entries = true) (h7 : m .slots = true) (h8 : m .smc = true) (h9 : m .lines = true) (h10 : m .cache = true) (h11 : m .stripes = true) (h12 : m .array = true) (h13 : m .hem = true) (h14 : m .events = true) :
    view m (failOwner a0 s) = view m s := by
  unfold failOwner
  dsimp only
  (repeat' split) <;> simp [*]
@[simp] theorem view_bufferError {m : Piece → Bool} (a0 : Nat) (s : State)
    (h0 : m .drone = true) (h1 : m .jobs = true) (h2 : m .slotMap = true) (h3 : m .host = true) (h4 : m .cmds = true) (h5 : m .dma = true) (h6 : m .reeds = true) (h7 : m .ledger = true) (h8 : m .entries = true) (h9 : m .slots = true) (h10 : m .smc = true) (h11 : m .lines = true) (h12 : m .cache = true) (h13 : m .stripes = true) (h14 : m .array = true) (h15 : m .hem = true) (h16 : m .pair = true) (h17 : m .health = true) (h18 : m .why = true) (h19 : m .events = true) (h20 : m .flash = true) (h21 : m .pins = true) (h22 : m .out = true) :
    view m (bufferError a0 s) = view m s := by unfold bufferError; split <;> simp [*]
@[simp] theorem view_chanError {m : Piece → Bool} (a0 : Nat) (s : State)
    (h0 : m .drone = true) (h1 : m .dma = true) (h2 : m .hem = true) (h3 : m .pair = true) (h4 : m .events = true) (h5 : m .out = true) :
    view m (chanError a0 s) = view m s := by unfold chanError; split <;> simp [*]
@[simp] theorem view_pageLost {m : Piece → Bool} (a0 a1 : Nat) (s : State)
    (h0 : m .cache = true) (h1 : m .stripes = true) (h2 : m .appendQ = true) (h3 : m .array = true) (h4 : m .lost = true) (h5 : m .hem = true) (h6 : m .pair = true) (h7 : m .events = true) (h8 : m .out = true) :
    view m (pageLost a0 a1 s) = view m s := by unfold pageLost; split <;> simp [*]
@[simp] theorem view_ledgerPageError {m : Piece → Bool} (a0 : Nat) (s : State)
    (h0 : m .ledger = true) :
    view m (ledgerPageError a0 s) = view m s := by unfold ledgerPageError; split <;> simp [*]
@[simp] theorem view_eccEffect {m : Piece → Bool} (a0 : EccLoc) (s : State)
    (h0 : m .drone = true) (h1 : m .jobs = true) (h2 : m .slotMap = true) (h3 : m .host = true) (h4 : m .cmds = true) (h5 : m .dma = true) (h6 : m .reeds = true) (h7 : m .ledger = true) (h8 : m .entries = true) (h9 : m .slots = true) (h10 : m .smc = true) (h11 : m .lines = true) (h12 : m .cache = true) (h13 : m .stripes = true) (h14 : m .appendQ = true) (h15 : m .array = true) (h16 : m .lost = true) (h17 : m .hem = true) (h18 : m .pair = true) (h19 : m .health = true) (h20 : m .why = true) (h21 : m .events = true) (h22 : m .flash = true) (h23 : m .pins = true) (h24 : m .out = true) :
    view m (eccEffect a0 s) = view m s := by unfold eccEffect; split <;> simp [*]
@[simp] theorem view_meetUe {m : Piece → Bool} (a0 : Nat) (a1 : EccLoc) (s : State)
    (h0 : m .drone = true) (h1 : m .jobs = true) (h2 : m .slotMap = true) (h3 : m .host = true) (h4 : m .cmds = true) (h5 : m .dma = true) (h6 : m .reeds = true) (h7 : m .ledger = true) (h8 : m .entries = true) (h9 : m .slots = true) (h10 : m .smc = true) (h11 : m .lines = true) (h12 : m .cache = true) (h13 : m .stripes = true) (h14 : m .appendQ = true) (h15 : m .array = true) (h16 : m .lost = true) (h17 : m .hem = true) (h18 : m .pair = true) (h19 : m .health = true) (h20 : m .why = true) (h21 : m .events = true) (h22 : m .flash = true) (h23 : m .pins = true) (h24 : m .out = true) :
    view m (meetUe a0 a1 s) = view m s := by simp [meetUe, *]
@[simp] theorem view_patrolSram {m : Piece → Bool} (s : State) (a1 : SramFind)
    (h0 : m .drone = true) (h1 : m .jobs = true) (h2 : m .slotMap = true) (h3 : m .host = true) (h4 : m .cmds = true) (h5 : m .dma = true) (h6 : m .reeds = true) (h7 : m .ledger = true) (h8 : m .entries = true) (h9 : m .slots = true) (h10 : m .smc = true) (h11 : m .lines = true) (h12 : m .cache = true) (h13 : m .stripes = true) (h14 : m .appendQ = true) (h15 : m .array = true) (h16 : m .lost = true) (h17 : m .hem = true) (h18 : m .pair = true) (h19 : m .health = true) (h20 : m .why = true) (h21 : m .events = true) (h22 : m .flash = true) (h23 : m .pins = true) (h24 : m .out = true) :
    view m (patrolSram s a1) = view m s := by simp [patrolSram, *]
@[simp] theorem view_markRows {m : Piece → Bool} (a0 : Nat) (a1 : List Nat) (s : State)
    (h0 : m .hem = true) (h1 : m .health = true) (h2 : m .why = true) (h3 : m .events = true) (h4 : m .flash = true) (h5 : m .pins = true) :
    view m (markRows a0 a1 s) = view m s := by simp [markRows, *]
@[simp] theorem view_patrolHbm {m : Piece → Bool} (a0 : Nat) (a1 : List Nat) (a2 : List EccLoc) (a3 : Bool) (s : State)
    (h0 : m .drone = true) (h1 : m .jobs = true) (h2 : m .slotMap = true) (h3 : m .host = true) (h4 : m .cmds = true) (h5 : m .dma = true) (h6 : m .reeds = true) (h7 : m .ledger = true) (h8 : m .entries = true) (h9 : m .slots = true) (h10 : m .smc = true) (h11 : m .lines = true) (h12 : m .cache = true) (h13 : m .stripes = true) (h14 : m .appendQ = true) (h15 : m .array = true) (h16 : m .lost = true) (h17 : m .hem = true) (h18 : m .pair = true) (h19 : m .health = true) (h20 : m .why = true) (h21 : m .events = true) (h22 : m .flash = true) (h23 : m .pins = true) (h24 : m .out = true) :
    view m (patrolHbm a0 a1 a2 a3 s) = view m s := by simp [patrolHbm, *]
/-- A device reset leaves the die identity, the input pins, the trace and the queue. -/
theorem view_deviceReset {m : Piece → Bool} (s : State) (h0 : m .boot = true) (h1 : m .halted = true) (h2 : m .clock = true) (h3 : m .free = true) (h4 : m .image = true) (h5 : m .loader = true) (h6 : m .ldrState = true) (h7 : m .imgId = true) (h8 : m .drone = true) (h9 : m .tick = true) (h10 : m .posted = true) (h11 : m .jobs = true) (h12 : m .sampled = true) (h13 : m .slotMap = true) (h14 : m .host = true) (h15 : m .rings = true) (h16 : m .volumes = true) (h17 : m .cmds = true) (h18 : m .funcs = true) (h19 : m .dma = true) (h20 : m .mem = true) (h21 : m .reeds = true) (h22 : m .ledger = true) (h23 : m .entries = true) (h24 : m .slots = true) (h25 : m .smc = true) (h26 : m .lines = true) (h27 : m .cache = true) (h28 : m .stripes = true) (h29 : m .appendQ = true) (h30 : m .vault = true) (h31 : m .array = true) (h32 : m .lost = true) (h33 : m .drives = true) (h34 : m .clusters = true) (h35 : m .posMap = true) (h36 : m .hem = true) (h37 : m .pair = true) (h38 : m .health = true) (h39 : m .why = true) (h40 : m .events = true) (h41 : m .trials = true) (h42 : m .mgmt = true) (h43 : m .fuses = true) (h44 : m .flash = true) (h45 : m .copies = true) (h46 : m .pins = true) :
    view m (deviceReset s) = view m s := by
  unfold deviceReset breakFlash breakFusing
  dsimp only
  (repeat' split) <;> simp [view, drawFree, *]
@[simp] theorem view_applyRecord {m : Piece → Bool} (s : State)
    (h0 : m .sampled = true) (h1 : m .slotMap = true) (h2 : m .reeds = true) (h3 : m .hem = true) (h4 : m .health = true) (h5 : m .why = true) (h6 : m .events = true) (h7 : m .flash = true) (h8 : m .pins = true) :
    view m (applyRecord s) = view m s := by simp [applyRecord, *]
/-- The boot stage. -/
theorem view_boot {m : Piece → Bool} (s : State) (b : Boot) (h0 : m .boot = true) : view m { s with boot := b } = view m s := by
  simp [view, h0]

@[simp] theorem view_bootUp {m : Piece → Bool} (s : State)
    (h0 : m .boot = true) (h1 : m .loader = true) (h2 : m .ldrState = true) (h3 : m .sampled = true) (h4 : m .slotMap = true) (h5 : m .reeds = true) (h6 : m .hem = true) (h7 : m .health = true) (h8 : m .why = true) (h9 : m .events = true) (h10 : m .mgmt = true) (h11 : m .flash = true) (h12 : m .pins = true) :
    view m (bootUp s) = view m s := by
  have b : ∀ t : State, view m { t with boot := .up } = view m t := fun t => by simp [view, *]
  have e : view m { s with
      boot := .up
      pins := { s.pins with cold := false }
      mgmt := { s.mgmt with recovery := (selectFw s).isNone, fw := (selectFw s).map (firmwareOf s) } } = view m s :=
    (b { s with
      pins := { s.pins with cold := false }
      mgmt := { s.mgmt with recovery := (selectFw s).isNone, fw := (selectFw s).map (firmwareOf s) } }).trans (by simp [*])
  unfold bootUp
  dsimp only
  split
  · rw [view_raiseIf _ _ _ ‹_› ‹_›, view_applyRecord _ ‹_› ‹_› ‹_› ‹_› ‹_› ‹_› ‹_› ‹_› ‹_›]
    exact e
  · rw [view_startLoad _ _ ‹_› ‹_›, view_raiseIf _ _ _ ‹_› ‹_›, view_applyRecord _ ‹_› ‹_› ‹_› ‹_› ‹_› ‹_› ‹_› ‹_› ‹_›]
    exact e
@[simp] theorem view_thermalStop {m : Piece → Bool} (s : State)
    (h0 : m .cache = true) (h1 : m .vault = true) (h2 : m .hem = true) (h3 : m .health = true) (h4 : m .events = true) (h5 : m .trials = true) (h6 : m .pins = true) :
    view m (thermalStop s) = view m s := by simp [thermalStop, *]
@[simp] theorem view_clearDoorbells {m : Piece → Bool} (a0 : Nat) (s : State)
    (h0 : m .host = true) :
    view m (clearDoorbells a0 s) = view m s := by simp [clearDoorbells, *]
@[simp] theorem view_portReset {m : Piece → Bool} (a0 : Nat) (s : State)
    (h0 : m .drone = true) (h1 : m .jobs = true) (h2 : m .host = true) (h3 : m .rings = true) (h4 : m .cmds = true) (h5 : m .funcs = true) (h6 : m .dma = true) (h7 : m .hem = true) (h8 : m .events = true) (h9 : m .mgmt = true) (h10 : m .pins = true) (h11 : m .hpPerst = true) :
    view m (portReset a0 s) = view m s := by simp [portReset, *]
@[simp] theorem view_ringWrite {m : Piece → Bool} (a0 a1 a2 : Nat) (a3 : Word) (s : State)
    (h0 : m .free = true) (h1 : m .host = true) (h2 : m .rings = true) (h3 : m .cmds = true) (h4 : m .hem = true) (h5 : m .pair = true) (h6 : m .events = true) (h7 : m .out = true) :
    view m (ringWrite a0 a1 a2 a3 s) = view m s := by simp [ringWrite, *]
@[simp] theorem view_writeGctl {m : Piece → Bool} (a0 : Nat) (a1 : Word) (s : State)
    (h0 : m .dma = true) :
    view m (writeGctl a0 a1 s) = view m s := by simp [writeGctl, *]
@[simp] theorem view_smcRegWrite {m : Piece → Bool} (a0 a1 : Nat) (a2 : Word) (s : State)
    (h0 : m .ledger = true) (h1 : m .entries = true) (h2 : m .slots = true) (h3 : m .smc = true) (h4 : m .lines = true) (h5 : m .hem = true) (h6 : m .events = true) :
    view m (smcRegWrite a0 a1 a2 s) = view m s := by simp [smcRegWrite, *]
@[simp] theorem view_writeFailCtl {m : Piece → Bool} (a0 : Word) (s : State)
    (h0 : m .drone = true) (h1 : m .host = true) (h2 : m .volumes = true) (h3 : m .ledger = true) (h4 : m .entries = true) (h5 : m .slots = true) (h6 : m .smc = true) (h7 : m .lines = true) (h8 : m .cache = true) (h9 : m .appendQ = true) (h10 : m .array = true) (h11 : m .drives = true) (h12 : m .hem = true) (h13 : m .pair = true) (h14 : m .events = true) (h15 : m .out = true) :
    view m (writeFailCtl a0 s) = view m s := by unfold writeFailCtl; (repeat' split) <;> simp [*]
@[simp] theorem view_plcWrite {m : Piece → Bool} (a0 : Nat) (a1 : Word) (s : State)
    (h0 : m .drone = true) (h1 : m .host = true) (h2 : m .volumes = true) (h3 : m .ledger = true) (h4 : m .entries = true) (h5 : m .slots = true) (h6 : m .smc = true) (h7 : m .lines = true) (h8 : m .cache = true) (h9 : m .appendQ = true) (h10 : m .array = true) (h11 : m .drives = true) (h12 : m .hem = true) (h13 : m .pair = true) (h14 : m .events = true) (h15 : m .out = true) :
    view m (plcWrite a0 a1 s) = view m s := by simp [plcWrite, *]
@[simp] theorem view_drvWrite {m : Piece → Bool} (a0 : Nat) (a1 : Word) (s : State)
    (h0 : m .drone = true) (h1 : m .jobs = true) (h2 : m .host = true) (h3 : m .volumes = true) (h4 : m .ledger = true) (h5 : m .entries = true) (h6 : m .slots = true) (h7 : m .smc = true) (h8 : m .lines = true) (h9 : m .cache = true) (h10 : m .appendQ = true) (h11 : m .array = true) (h12 : m .drives = true) (h13 : m .clusters = true) (h14 : m .posMap = true) (h15 : m .hem = true) (h16 : m .pair = true) (h17 : m .events = true) (h18 : m .trials = true) (h19 : m .out = true) :
    view m (drvWrite a0 a1 s) = view m s := by simp [drvWrite, *]
@[simp] theorem view_writeHemCtl {m : Piece → Bool} (a0 : Word) (s : State)
    (h0 : m .hem = true) (h1 : m .events = true) :
    view m (writeHemCtl a0 s) = view m s := by simp [writeHemCtl, *]
@[simp] theorem view_writeDumpPower {m : Piece → Bool} (a0 : Word) (s : State)
    (h0 : m .hem = true) :
    view m (writeDumpPower a0 s) = view m s := by simp [writeDumpPower, *]
@[simp] theorem view_writeVdiv {m : Piece → Bool} (a0 : Word) (s : State)
    (h0 : m .free = true) (h1 : m .hem = true) :
    view m (writeVdiv a0 s) = view m s := by simp [writeVdiv, *]
@[simp] theorem view_hemWrite {m : Piece → Bool} (a0 : Nat) (a1 : Word) (s : State)
    (h0 : m .free = true) (h1 : m .hem = true) (h2 : m .events = true) :
    view m (hemWrite a0 a1 s) = view m s := by simp [hemWrite, *]
@[simp] theorem view_giveOrder {m : Piece → Bool} (a0 : Nat) (s : State)
    (h0 : m .drone = true) (h1 : m .jobs = true) (h2 : m .host = true) (h3 : m .volumes = true) (h4 : m .ledger = true) (h5 : m .entries = true) (h6 : m .slots = true) (h7 : m .smc = true) (h8 : m .lines = true) (h9 : m .cache = true) (h10 : m .stripes = true) (h11 : m .appendQ = true) (h12 : m .vault = true) (h13 : m .array = true) (h14 : m .lost = true) (h15 : m .drives = true) (h16 : m .hem = true) (h17 : m .pair = true) (h18 : m .events = true) (h19 : m .out = true) (h20 : m .free = true) :
    view m (giveOrder a0 s) = view m s := by unfold giveOrder; split <;> simp [*]
@[simp] theorem view_epgWrite {m : Piece → Bool} (a0 : Nat) (a1 : Word) (s : State)
    (h0 : m .drone = true) (h1 : m .jobs = true) (h2 : m .host = true) (h3 : m .volumes = true) (h4 : m .ledger = true) (h5 : m .entries = true) (h6 : m .slots = true) (h7 : m .smc = true) (h8 : m .lines = true) (h9 : m .cache = true) (h10 : m .stripes = true) (h11 : m .appendQ = true) (h12 : m .vault = true) (h13 : m .array = true) (h14 : m .lost = true) (h15 : m .drives = true) (h16 : m .hem = true) (h17 : m .pair = true) (h18 : m .events = true) (h19 : m .out = true) (h20 : m .free = true) :
    view m (epgWrite a0 a1 s) = view m s := by simp [epgWrite, *]
@[simp] theorem view_evtWrite {m : Piece → Bool} (a0 a1 : Nat) (a2 : Word) (s : State)
    (h0 : m .events = true) :
    view m (evtWrite a0 a1 a2 s) = view m s := by simp [evtWrite, *]
@[simp] theorem view_writeTrlReq {m : Piece → Bool} (a0 : Word) (s : State)
    (h0 : m .trials = true) :
    view m (writeTrlReq a0 s) = view m s := by simp [writeTrlReq, *]
@[simp] theorem view_trlWrite {m : Piece → Bool} (a0 : Nat) (a1 : Word) (s : State)
    (h0 : m .hem = true) (h1 : m .events = true) (h2 : m .trials = true) :
    view m (trlWrite a0 a1 s) = view m s := by simp [trlWrite, *]
@[simp] theorem view_mgwWrite {m : Piece → Bool} (a0 a1 : Nat) (a2 : Word) (s : State)
    (h0 : m .loader = true) (h1 : m .ldrState = true) (h2 : m .hem = true) (h3 : m .events = true) (h4 : m .mgmt = true) :
    view m (mgwWrite a0 a1 a2 s) = view m s := by simp [mgwWrite, *]
@[simp] theorem view_blockWrite {m : Piece → Bool} (a0 a1 : Nat) (a2 : Word) (s : State)
    (h0 : m .free = true) (h1 : m .loader = true) (h2 : m .ldrState = true) (h3 : m .drone = true) (h4 : m .jobs = true) (h5 : m .host = true) (h6 : m .volumes = true) (h7 : m .dma = true) (h8 : m .ledger = true) (h9 : m .entries = true) (h10 : m .slots = true) (h11 : m .smc = true) (h12 : m .lines = true) (h13 : m .cache = true) (h14 : m .stripes = true) (h15 : m .appendQ = true) (h16 : m .vault = true) (h17 : m .array = true) (h18 : m .lost = true) (h19 : m .drives = true) (h20 : m .clusters = true) (h21 : m .posMap = true) (h22 : m .hem = true) (h23 : m .pair = true) (h24 : m .health = true) (h25 : m .events = true) (h26 : m .trials = true) (h27 : m .mgmt = true) (h28 : m .out = true) :
    view m (blockWrite a0 a1 a2 s) = view m s := by unfold blockWrite; split <;> simp [*]
@[simp] theorem view_barWrite {m : Piece → Bool} (a0 a1 : Nat) (a2 : Word) (s : State)
    (h0 : m .free = true) (h1 : m .loader = true) (h2 : m .ldrState = true) (h3 : m .drone = true) (h4 : m .jobs = true) (h5 : m .host = true) (h6 : m .rings = true) (h7 : m .volumes = true) (h8 : m .cmds = true) (h9 : m .dma = true) (h10 : m .ledger = true) (h11 : m .entries = true) (h12 : m .slots = true) (h13 : m .smc = true) (h14 : m .lines = true) (h15 : m .cache = true) (h16 : m .stripes = true) (h17 : m .appendQ = true) (h18 : m .vault = true) (h19 : m .array = true) (h20 : m .lost = true) (h21 : m .drives = true) (h22 : m .clusters = true) (h23 : m .posMap = true) (h24 : m .hem = true) (h25 : m .pair = true) (h26 : m .health = true) (h27 : m .events = true) (h28 : m .trials = true) (h29 : m .mgmt = true) (h30 : m .out = true) :
    view m (barWrite a0 a1 a2 s) = view m s := by unfold barWrite; (repeat' split) <;> simp [*]
/-- A register left at free values. -/
@[simp] theorem view_freeWrite {m : Piece → Bool} (x : RegMask) (act : Word → State → State) (s : State) (h0 : m .free = true)
    (h : ∀ w t, view m (act w t) = view m t) : view m (freeWrite x act s) = view m s := by
  unfold freeWrite
  dsimp only
  split <;> simp [h, h0]
@[simp] theorem view_regError {m : Piece → Bool} (a0 a1 : Nat) (s : State)
    (h0 : m .free = true) (h1 : m .loader = true) (h2 : m .ldrState = true) (h3 : m .drone = true) (h4 : m .jobs = true) (h5 : m .host = true) (h6 : m .rings = true) (h7 : m .volumes = true) (h8 : m .cmds = true) (h9 : m .dma = true) (h10 : m .ledger = true) (h11 : m .entries = true) (h12 : m .slots = true) (h13 : m .smc = true) (h14 : m .lines = true) (h15 : m .cache = true) (h16 : m .stripes = true) (h17 : m .appendQ = true) (h18 : m .vault = true) (h19 : m .array = true) (h20 : m .lost = true) (h21 : m .drives = true) (h22 : m .clusters = true) (h23 : m .posMap = true) (h24 : m .hem = true) (h25 : m .pair = true) (h26 : m .health = true) (h27 : m .events = true) (h28 : m .trials = true) (h29 : m .mgmt = true) (h30 : m .out = true) :
    view m (regError a0 a1 s) = view m s := by unfold regError; split <;> simp [*]
@[simp] theorem view_regWrite {m : Piece → Bool} (a0 a1 : Nat) (a2 : Word) (s : State)
    (h0 : m .free = true) (h1 : m .loader = true) (h2 : m .ldrState = true) (h3 : m .drone = true) (h4 : m .jobs = true) (h5 : m .host = true) (h6 : m .rings = true) (h7 : m .volumes = true) (h8 : m .cmds = true) (h9 : m .dma = true) (h10 : m .ledger = true) (h11 : m .entries = true) (h12 : m .slots = true) (h13 : m .smc = true) (h14 : m .lines = true) (h15 : m .cache = true) (h16 : m .stripes = true) (h17 : m .appendQ = true) (h18 : m .vault = true) (h19 : m .array = true) (h20 : m .lost = true) (h21 : m .drives = true) (h22 : m .clusters = true) (h23 : m .posMap = true) (h24 : m .hem = true) (h25 : m .pair = true) (h26 : m .health = true) (h27 : m .events = true) (h28 : m .trials = true) (h29 : m .mgmt = true) (h30 : m .out = true) :
    view m (regWrite a0 a1 a2 s) = view m s := by unfold regWrite; split <;> simp [*]
@[simp] theorem view_regWriteHalf {m : Piece → Bool} (a0 a1 : Nat) (a2 : Bool) (a3 : Word) (s : State)
    (h0 : m .free = true) (h1 : m .loader = true) (h2 : m .ldrState = true) (h3 : m .drone = true) (h4 : m .jobs = true) (h5 : m .host = true) (h6 : m .rings = true) (h7 : m .volumes = true) (h8 : m .cmds = true) (h9 : m .dma = true) (h10 : m .ledger = true) (h11 : m .entries = true) (h12 : m .slots = true) (h13 : m .smc = true) (h14 : m .lines = true) (h15 : m .cache = true) (h16 : m .stripes = true) (h17 : m .appendQ = true) (h18 : m .vault = true) (h19 : m .array = true) (h20 : m .lost = true) (h21 : m .drives = true) (h22 : m .clusters = true) (h23 : m .posMap = true) (h24 : m .hem = true) (h25 : m .pair = true) (h26 : m .health = true) (h27 : m .events = true) (h28 : m .trials = true) (h29 : m .mgmt = true) (h30 : m .out = true) :
    view m (regWriteHalf a0 a1 a2 a3 s) = view m s := by unfold regWriteHalf; split <;> simp [*]
@[simp] theorem view_dataWrite {m : Piece → Bool} (a0 a1 a2 : Nat) (a3 : Word) (s : State)
    (h0 : m .free = true) (h1 : m .mgmt = true) (h2 : m .fuses = true) :
    view m (dataWrite a0 a1 a2 a3 s) = view m s := by simp [dataWrite, *]
@[simp] theorem view_bar0Write {m : Piece → Bool} (a0 a1 a2 : Nat) (a3 : Word) (s : State)
    (h0 : m .free = true) (h1 : m .loader = true) (h2 : m .ldrState = true) (h3 : m .drone = true) (h4 : m .jobs = true) (h5 : m .host = true) (h6 : m .rings = true) (h7 : m .volumes = true) (h8 : m .cmds = true) (h9 : m .dma = true) (h10 : m .ledger = true) (h11 : m .entries = true) (h12 : m .slots = true) (h13 : m .smc = true) (h14 : m .lines = true) (h15 : m .cache = true) (h16 : m .stripes = true) (h17 : m .appendQ = true) (h18 : m .vault = true) (h19 : m .array = true) (h20 : m .lost = true) (h21 : m .drives = true) (h22 : m .clusters = true) (h23 : m .posMap = true) (h24 : m .hem = true) (h25 : m .pair = true) (h26 : m .health = true) (h27 : m .events = true) (h28 : m .trials = true) (h29 : m .mgmt = true) (h30 : m .fuses = true) (h31 : m .out = true) :
    view m (bar0Write a0 a1 a2 a3 s) = view m s := by simp [bar0Write, *]
@[simp] theorem view_msixPoke {m : Piece → Bool} (a0 a1 a2 a3 : Nat) (s : State)
    (h0 : m .host = true) (h1 : m .funcs = true) (h2 : m .pair = true) (h3 : m .out = true) :
    view m (msixPoke a0 a1 a2 a3 s) = view m s := by unfold msixPoke; split <;> simp [*]
@[simp] theorem view_bar2Word {m : Piece → Bool} (a0 a1 a2 : Nat) (s : State)
    (h0 : m .host = true) (h1 : m .funcs = true) (h2 : m .pair = true) (h3 : m .out = true) :
    view m (bar2Word a0 a1 a2 s) = view m s := by simp [bar2Word, *]
@[simp] theorem view_bar2Write {m : Piece → Bool} (a0 a1 a2 : Nat) (a3 : Word) (s : State)
    (h0 : m .free = true) (h1 : m .host = true) (h2 : m .funcs = true) (h3 : m .pair = true) (h4 : m .out = true) :
    view m (bar2Write a0 a1 a2 a3 s) = view m s := by simp [bar2Write, *]
/-- A register written by its row. -/
@[simp] theorem view_rowWrite {m : Piece → Bool} (x : Option RegMask) (w : Word) (act : Word → State → State) (s : State)
    (h0 : m .free = true) (h : ∀ w t, view m (act w t) = view m t) : view m (rowWrite x w act s) = view m s := by
  unfold rowWrite
  split
  · exact view_elim _ _ _ fun y => by simp [h, h0]
  · exact h _ _
@[simp] theorem view_endLeg {m : Piece → Bool} (s : State) (a1 : Leg)
    (h0 : m .free = true) (h1 : m .drone = true) (h2 : m .jobs = true) (h3 : m .slotMap = true) (h4 : m .reeds = true) (h5 : m .hem = true) (h6 : m .health = true) (h7 : m .why = true) (h8 : m .events = true) (h9 : m .trials = true) (h10 : m .flash = true) (h11 : m .pins = true) :
    view m (endLeg s a1) = view m s := by unfold endLeg; split <;> simp [*]
@[simp] theorem view_endLegs {m : Piece → Bool} (s : State)
    (h0 : m .free = true) (h1 : m .drone = true) (h2 : m .jobs = true) (h3 : m .slotMap = true) (h4 : m .reeds = true) (h5 : m .hem = true) (h6 : m .health = true) (h7 : m .why = true) (h8 : m .events = true) (h9 : m .trials = true) (h10 : m .flash = true) (h11 : m .pins = true) :
    view m (endLegs s) = view m s := by simp [endLegs, *]
@[simp] theorem view_runDue {m : Piece → Bool} (s : State) (a1 : Nat × Job)
    (h0 : m .drone = true) (h1 : m .jobs = true) (h2 : m .host = true) (h3 : m .volumes = true) (h4 : m .reeds = true) (h5 : m .ledger = true) (h6 : m .entries = true) (h7 : m .slots = true) (h8 : m .smc = true) (h9 : m .lines = true) (h10 : m .cache = true) (h11 : m .stripes = true) (h12 : m .appendQ = true) (h13 : m .array = true) (h14 : m .lost = true) (h15 : m .drives = true) (h16 : m .hem = true) (h17 : m .pair = true) (h18 : m .events = true) (h19 : m .out = true) :
    view m (runDue s a1) = view m s := by unfold runDue; (repeat' split) <;> simp [*]
@[simp] theorem view_retireZeroing {m : Piece → Bool} (s : State)
    (h0 : m .drone = true) (h1 : m .jobs = true) (h2 : m .host = true) (h3 : m .volumes = true) (h4 : m .ledger = true) (h5 : m .entries = true) (h6 : m .slots = true) (h7 : m .smc = true) (h8 : m .lines = true) (h9 : m .cache = true) (h10 : m .stripes = true) (h11 : m .appendQ = true) (h12 : m .drives = true) (h13 : m .hem = true) (h14 : m .pair = true) (h15 : m .events = true) (h16 : m .out = true) :
    view m (retireZeroing s) = view m s := by simp [retireZeroing, *]
@[simp] theorem view_endParcels {m : Piece → Bool} (s : State)
    (h0 : m .drone = true) (h1 : m .host = true) (h2 : m .volumes = true) (h3 : m .ledger = true) (h4 : m .entries = true) (h5 : m .slots = true) (h6 : m .smc = true) (h7 : m .lines = true) (h8 : m .cache = true) (h9 : m .appendQ = true) (h10 : m .array = true) (h11 : m .drives = true) (h12 : m .hem = true) (h13 : m .pair = true) (h14 : m .events = true) (h15 : m .out = true) :
    view m (endParcels s) = view m s := by simp [endParcels, *]
@[simp] theorem view_endMoves {m : Piece → Bool} (s : State)
    (h0 : m .drone = true) (h1 : m .jobs = true) (h2 : m .host = true) (h3 : m .volumes = true) (h4 : m .ledger = true) (h5 : m .entries = true) (h6 : m .slots = true) (h7 : m .smc = true) (h8 : m .lines = true) (h9 : m .cache = true) (h10 : m .appendQ = true) (h11 : m .array = true) (h12 : m .drives = true) (h13 : m .hem = true) (h14 : m .pair = true) (h15 : m .events = true) (h16 : m .out = true) :
    view m (endMoves s) = view m s := by simp [endMoves, *]
@[simp] theorem view_settleLedger {m : Piece → Bool} (s : State)
    (h0 : m .drone = true) (h1 : m .jobs = true) (h2 : m .host = true) (h3 : m .volumes = true) (h4 : m .ledger = true) (h5 : m .entries = true) (h6 : m .slots = true) (h7 : m .smc = true) (h8 : m .lines = true) (h9 : m .cache = true) (h10 : m .appendQ = true) (h11 : m .drives = true) (h12 : m .hem = true) (h13 : m .pair = true) (h14 : m .events = true) (h15 : m .out = true) :
    view m (settleLedger s) = view m s := by
  unfold settleLedger
  extract_lets a b
  have ea : view m a = view m s := by
    simp only [a]
    split <;> simp [h0, h1, h2, h3, h4, h5, h6, h7, h8, h9, h10, h11, h12, h13, h14, h15]
  have eb : view m b = view m s := by
    simp only [b]
    split
    · cases a.ledger.ckptRun <;> simp [ea, h0, h1, h2, h3, h4, h5, h6, h7, h8, h9, h10, h11, h12, h13, h14, h15]
    · exact ea
  clear_value b
  split <;> simp [eb, h0, h1, h2, h3, h4, h5, h6, h7, h8, h9, h10, h11, h12, h13, h14, h15]
@[simp] theorem view_settleDue {m : Piece → Bool} (s : State)
    (h0 : m .loader = true) (h1 : m .drone = true) (h2 : m .jobs = true) (h3 : m .host = true) (h4 : m .rings = true) (h5 : m .volumes = true) (h6 : m .cmds = true) (h7 : m .reeds = true) (h8 : m .ledger = true) (h9 : m .entries = true) (h10 : m .slots = true) (h11 : m .smc = true) (h12 : m .lines = true) (h13 : m .cache = true) (h14 : m .stripes = true) (h15 : m .appendQ = true) (h16 : m .vault = true) (h17 : m .array = true) (h18 : m .lost = true) (h19 : m .drives = true) (h20 : m .hem = true) (h21 : m .pair = true) (h22 : m .events = true) (h23 : m .out = true) :
    view m (settleDue s) = view m s := by simp [settleDue, *]
@[simp] theorem view_runJob {m : Piece → Bool} (s : State) (a1 : Nat × Job)
    (h0 : m .drone = true) (h1 : m .jobs = true) (h2 : m .host = true) (h3 : m .volumes = true) (h4 : m .cmds = true) (h5 : m .reeds = true) (h6 : m .ledger = true) (h7 : m .entries = true) (h8 : m .slots = true) (h9 : m .smc = true) (h10 : m .lines = true) (h11 : m .cache = true) (h12 : m .stripes = true) (h13 : m .appendQ = true) (h14 : m .vault = true) (h15 : m .array = true) (h16 : m .lost = true) (h17 : m .drives = true) (h18 : m .hem = true) (h19 : m .pair = true) (h20 : m .events = true) (h21 : m .out = true) :
    view m (runJob s a1) = view m s := by unfold runJob; (repeat' split) <;> simp [*]
@[simp] theorem view_continueLegs {m : Piece → Bool} (s : State)
    (h0 : m .drone = true) (h1 : m .jobs = true) (h2 : m .slotMap = true) (h3 : m .host = true) (h4 : m .volumes = true) (h5 : m .cmds = true) (h6 : m .reeds = true) (h7 : m .ledger = true) (h8 : m .entries = true) (h9 : m .slots = true) (h10 : m .smc = true) (h11 : m .lines = true) (h12 : m .cache = true) (h13 : m .stripes = true) (h14 : m .appendQ = true) (h15 : m .vault = true) (h16 : m .array = true) (h17 : m .lost = true) (h18 : m .drives = true) (h19 : m .hem = true) (h20 : m .pair = true) (h21 : m .health = true) (h22 : m .why = true) (h23 : m .events = true) (h24 : m .flash = true) (h25 : m .pins = true) (h26 : m .out = true) :
    view m (continueLegs s) = view m s := by simp [continueLegs, *]
@[simp] theorem view_compileStep {m : Piece → Bool} (a0 : Nat) (s : State)
    (h0 : m .drone = true) (h1 : m .jobs = true) (h2 : m .reeds = true) (h3 : m .hem = true) (h4 : m .events = true) :
    view m (compileStep a0 s) = view m s := by simp [compileStep, *]
@[simp] theorem view_endTick {m : Piece → Bool} (s : State)
    (h0 : m .free = true) (h1 : m .loader = true) (h2 : m .drone = true) (h3 : m .jobs = true) (h4 : m .slotMap = true) (h5 : m .host = true) (h6 : m .rings = true) (h7 : m .volumes = true) (h8 : m .cmds = true) (h9 : m .reeds = true) (h10 : m .ledger = true) (h11 : m .entries = true) (h12 : m .slots = true) (h13 : m .smc = true) (h14 : m .lines = true) (h15 : m .cache = true) (h16 : m .stripes = true) (h17 : m .appendQ = true) (h18 : m .vault = true) (h19 : m .array = true) (h20 : m .lost = true) (h21 : m .drives = true) (h22 : m .hem = true) (h23 : m .pair = true) (h24 : m .health = true) (h25 : m .why = true) (h26 : m .events = true) (h27 : m .trials = true) (h28 : m .flash = true) (h29 : m .pins = true) (h30 : m .out = true) :
    view m (endTick s) = view m s := by simp [endTick, *]
@[simp] theorem view_countTick {m : Piece → Bool} (s : State)
    (h0 : m .clock = true) (h1 : m .drone = true) (h2 : m .tick = true) :
    view m (countTick s) = view m s := by simp [countTick, *]
@[simp] theorem view_samplePcs {m : Piece → Bool} (s : State)
    (h0 : m .drone = true) (h1 : m .sampled = true) :
    view m (samplePcs s) = view m s := by simp [samplePcs, *]
@[simp] theorem view_sampleWords {m : Piece → Bool} (s : State)
    (h0 : m .sampled = true) :
    view m (sampleWords s) = view m s := by simp [sampleWords, *]
@[simp] theorem view_sampleSet {m : Piece → Bool} (s : State)
    (h0 : m .drone = true) (h1 : m .sampled = true) (h2 : m .reeds = true) (h3 : m .cache = true) (h4 : m .drives = true) (h5 : m .clusters = true) (h6 : m .hem = true) (h7 : m .events = true) (h8 : m .trials = true) :
    view m (sampleSet s) = view m s := by simp [sampleSet, *]
@[simp] theorem view_applyClaim {m : Piece → Bool} (s : State)
    (h0 : m .halted = true) (h1 : m .drone = true) (h2 : m .jobs = true) (h3 : m .sampled = true) (h4 : m .host = true) (h5 : m .rings = true) (h6 : m .volumes = true) (h7 : m .cmds = true) (h8 : m .ledger = true) (h9 : m .entries = true) (h10 : m .slots = true) (h11 : m .smc = true) (h12 : m .lines = true) (h13 : m .cache = true) (h14 : m .appendQ = true) (h15 : m .drives = true) (h16 : m .clusters = true) (h17 : m .hem = true) (h18 : m .pair = true) (h19 : m .events = true) (h20 : m .out = true) :
    view m (applyClaim s) = view m s := by simp [applyClaim, *]
@[simp] theorem view_latchStep {m : Piece → Bool} (s : State)
    (h0 : m .cache = true) (h1 : m .hem = true) (h2 : m .events = true) :
    view m (latchStep s) = view m s := by simp [latchStep, *]
@[simp] theorem view_countCharge {m : Piece → Bool} (a0 : Sub) (s : State)
    (h0 : m .ledger = true) :
    view m (countCharge a0 s) = view m s := by unfold countCharge; split <;> simp [*]
@[simp] theorem view_postOne {m : Piece → Bool} (s : State) (a1 : Work)
    (h0 : m .drone = true) (h1 : m .posted = true) (h2 : m .jobs = true) (h3 : m .ledger = true) (h4 : m .drives = true) (h5 : m .pair = true) (h6 : m .trials = true) (h7 : m .out = true) :
    view m (postOne s a1) = view m s := by unfold postOne; split <;> simp [*]
@[simp] theorem view_postCaravan {m : Piece → Bool} (s : State)
    (h0 : m .drone = true) (h1 : m .posted = true) (h2 : m .jobs = true) (h3 : m .ledger = true) (h4 : m .drives = true) (h5 : m .pair = true) (h6 : m .trials = true) (h7 : m .out = true) :
    view m (postCaravan s) = view m s := by simp [postCaravan, *]
@[simp] theorem view_postDumps {m : Piece → Bool} (s : State)
    (h0 : m .drone = true) (h1 : m .posted = true) (h2 : m .jobs = true) (h3 : m .drives = true) (h4 : m .pair = true) (h5 : m .trials = true) (h6 : m .out = true) :
    view m (postDumps s) = view m s := by simp [postDumps, *]
@[simp] theorem view_noteHold {m : Piece → Bool} (a0 : Sub) (s : State)
    (h0 : m .drives = true) :
    view m (noteHold a0 s) = view m s := by unfold noteHold; split <;> simp [*]
@[simp] theorem view_goodSub {m : Piece → Bool} (a0 : Sub) (a1 : List Byte) (s : State)
    (h0 : m .jobs = true) (h1 : m .drives = true) (h2 : m .pair = true) :
    view m (goodSub a0 a1 s) = view m s := by
  unfold goodSub
  dsimp only
  (repeat' split) <;> simp [*]
@[simp] theorem view_badSub {m : Piece → Bool} (a0 : Sub) (a1 : Nat) (s : State)
    (h0 : m .jobs = true) (h1 : m .array = true) :
    view m (badSub a0 a1 s) = view m s := by simp [badSub, *]
@[simp] theorem view_failedRead {m : Piece → Bool} (a0 : Sub) (a1 : Nat) (s : State)
    (h0 : m .drone = true) (h1 : m .jobs = true) (h2 : m .array = true) (h3 : m .drives = true) :
    view m (failedRead a0 a1 s) = view m s := by simp [failedRead, *]
@[simp] theorem view_failedSub {m : Piece → Bool} (a0 : Sub) (a1 : Nat) (s : State)
    (h0 : m .halted = true) (h1 : m .drone = true) (h2 : m .jobs = true) (h3 : m .array = true) (h4 : m .drives = true) (h5 : m .clusters = true) (h6 : m .hem = true) (h7 : m .pair = true) (h8 : m .events = true) :
    view m (failedSub a0 a1 s) = view m s := by unfold failedSub; (repeat' split) <;> simp [*]
@[simp] theorem view_collectOne {m : Piece → Bool} (s : State) (a1 : Nat × Nat × Nat × List Byte)
    (h0 : m .halted = true) (h1 : m .drone = true) (h2 : m .posted = true) (h3 : m .jobs = true) (h4 : m .array = true) (h5 : m .drives = true) (h6 : m .clusters = true) (h7 : m .hem = true) (h8 : m .pair = true) (h9 : m .events = true) (h10 : m .out = true) :
    view m (collectOne s a1) = view m s := by unfold collectOne; split <;> simp [*]
@[simp] theorem view_collect {m : Piece → Bool} (s : State)
    (h0 : m .halted = true) (h1 : m .drone = true) (h2 : m .posted = true) (h3 : m .jobs = true) (h4 : m .array = true) (h5 : m .drives = true) (h6 : m .clusters = true) (h7 : m .hem = true) (h8 : m .pair = true) (h9 : m .events = true) (h10 : m .out = true) :
    view m (collect s) = view m s := by simp [collect, *]
@[simp] theorem view_checkDrives {m : Piece → Bool} (s : State)
    (h0 : m .drone = true) (h1 : m .posted = true) (h2 : m .jobs = true) (h3 : m .array = true) (h4 : m .drives = true) (h5 : m .hem = true) (h6 : m .events = true) :
    view m (checkDrives s) = view m s := by simp [checkDrives, *]
@[simp] theorem view_declareStep {m : Piece → Bool} (s : State)
    (h0 : m .drone = true) (h1 : m .posted = true) (h2 : m .jobs = true) (h3 : m .host = true) (h4 : m .volumes = true) (h5 : m .reeds = true) (h6 : m .ledger = true) (h7 : m .entries = true) (h8 : m .slots = true) (h9 : m .smc = true) (h10 : m .lines = true) (h11 : m .cache = true) (h12 : m .appendQ = true) (h13 : m .array = true) (h14 : m .drives = true) (h15 : m .hem = true) (h16 : m .pair = true) (h17 : m .events = true) (h18 : m .out = true) :
    view m (declareStep s) = view m s := by simp [declareStep, *]
@[simp] theorem view_growStep {m : Piece → Bool} (s : State)
    (h0 : m .drone = true) (h1 : m .ledger = true) :
    view m (growStep s) = view m s := by simp [growStep, *]
@[simp] theorem view_drawPc {m : Piece → Bool} (s : State) (a1 : Leg)
    (h0 : m .free = true) :
    view m (drawPc s a1).2 = view m s := by unfold drawPc; split <;> simp [*]
@[simp] theorem view_startLeg {m : Piece → Bool} (s : State) (a1 : Leg)
    (h0 : m .free = true) (h1 : m .drone = true) (h2 : m .dma = true) (h3 : m .hem = true) (h4 : m .pair = true) (h5 : m .events = true) (h6 : m .out = true) :
    view m (startLeg s a1) = view m s := by simp [startLeg, *]
@[simp] theorem view_startCaravan {m : Piece → Bool} (s : State)
    (h0 : m .free = true) (h1 : m .drone = true) (h2 : m .dma = true) (h3 : m .hem = true) (h4 : m .pair = true) (h5 : m .events = true) (h6 : m .out = true) :
    view m (startCaravan s) = view m s := by simp [startCaravan, *]
@[simp] theorem view_restoreWork {m : Piece → Bool} (s : State)
    (h0 : m .drone = true) (h1 : m .host = true) (h2 : m .volumes = true) (h3 : m .ledger = true) (h4 : m .entries = true) (h5 : m .slots = true) (h6 : m .smc = true) (h7 : m .lines = true) (h8 : m .cache = true) (h9 : m .appendQ = true) (h10 : m .vault = true) (h11 : m .array = true) (h12 : m .drives = true) (h13 : m .hem = true) (h14 : m .pair = true) (h15 : m .events = true) (h16 : m .out = true) :
    view m (restoreWork s) = view m s := by simp [restoreWork, *]
@[simp] theorem view_arrayWork {m : Piece → Bool} (s : State)
    (h0 : m .drone = true) (h1 : m .jobs = true) (h2 : m .reeds = true) (h3 : m .ledger = true) (h4 : m .entries = true) (h5 : m .slots = true) (h6 : m .smc = true) (h7 : m .lines = true) (h8 : m .cache = true) (h9 : m .array = true) (h10 : m .hem = true) (h11 : m .events = true) :
    view m (arrayWork s) = view m s := by simp [arrayWork, *]
@[simp] theorem view_testWork {m : Piece → Bool} (s : State)
    (h0 : m .drone = true) :
    view m (testWork s) = view m s := by simp [testWork, *]
@[simp] theorem view_partnerGone {m : Piece → Bool} (s : State)
    (h0 : m .pair = true) :
    view m (partnerGone s) = view m s := by simp [partnerGone, *]
@[simp] theorem view_pairWork {m : Piece → Bool} (s : State)
    (h0 : m .drone = true) (h1 : m .posted = true) (h2 : m .jobs = true) (h3 : m .host = true) (h4 : m .volumes = true) (h5 : m .reeds = true) (h6 : m .ledger = true) (h7 : m .entries = true) (h8 : m .slots = true) (h9 : m .smc = true) (h10 : m .lines = true) (h11 : m .cache = true) (h12 : m .stripes = true) (h13 : m .appendQ = true) (h14 : m .vault = true) (h15 : m .array = true) (h16 : m .lost = true) (h17 : m .drives = true) (h18 : m .hem = true) (h19 : m .pair = true) (h20 : m .events = true) (h21 : m .out = true) :
    view m (pairWork s) = view m s := by simp [pairWork, *]
@[simp] theorem view_newTick {m : Piece → Bool} (s : State)
    (h0 : m .drone = true) (h1 : m .posted = true) (h2 : m .jobs = true) (h3 : m .host = true) (h4 : m .volumes = true) (h5 : m .cmds = true) (h6 : m .reeds = true) (h7 : m .ledger = true) (h8 : m .entries = true) (h9 : m .slots = true) (h10 : m .smc = true) (h11 : m .lines = true) (h12 : m .cache = true) (h13 : m .stripes = true) (h14 : m .appendQ = true) (h15 : m .vault = true) (h16 : m .array = true) (h17 : m .lost = true) (h18 : m .drives = true) (h19 : m .hem = true) (h20 : m .pair = true) (h21 : m .events = true) (h22 : m .out = true) :
    view m (newTick s) = view m s := by simp [newTick, *]
@[simp] theorem view_workStep {m : Piece → Bool} (s : State)
    (h0 : m .halted = true) (h1 : m .free = true) (h2 : m .drone = true) (h3 : m .posted = true) (h4 : m .jobs = true) (h5 : m .host = true) (h6 : m .volumes = true) (h7 : m .cmds = true) (h8 : m .dma = true) (h9 : m .reeds = true) (h10 : m .ledger = true) (h11 : m .entries = true) (h12 : m .slots = true) (h13 : m .smc = true) (h14 : m .lines = true) (h15 : m .cache = true) (h16 : m .stripes = true) (h17 : m .appendQ = true) (h18 : m .vault = true) (h19 : m .array = true) (h20 : m .lost = true) (h21 : m .drives = true) (h22 : m .clusters = true) (h23 : m .hem = true) (h24 : m .pair = true) (h25 : m .events = true) (h26 : m .trials = true) (h27 : m .out = true) :
    view m (workStep s) = view m s := by simp [workStep, *]
@[simp] theorem view_planeEdge {m : Piece → Bool} (s : State)
    (h0 : m .halted = true) (h1 : m .free = true) (h2 : m .image = true) (h3 : m .loader = true) (h4 : m .ldrState = true) (h5 : m .imgId = true) (h6 : m .drone = true) (h7 : m .posted = true) (h8 : m .jobs = true) (h9 : m .sampled = true) (h10 : m .slotMap = true) (h11 : m .host = true) (h12 : m .rings = true) (h13 : m .volumes = true) (h14 : m .cmds = true) (h15 : m .dma = true) (h16 : m .reeds = true) (h17 : m .ledger = true) (h18 : m .entries = true) (h19 : m .slots = true) (h20 : m .smc = true) (h21 : m .lines = true) (h22 : m .cache = true) (h23 : m .stripes = true) (h24 : m .appendQ = true) (h25 : m .vault = true) (h26 : m .array = true) (h27 : m .lost = true) (h28 : m .drives = true) (h29 : m .clusters = true) (h30 : m .hem = true) (h31 : m .pair = true) (h32 : m .health = true) (h33 : m .why = true) (h34 : m .events = true) (h35 : m .trials = true) (h36 : m .mgmt = true) (h37 : m .flash = true) (h38 : m .pins = true) (h39 : m .out = true) :
    view m (planeEdge s) = view m s := by simp [planeEdge, *]
@[simp] theorem view_ceilingStep {m : Piece → Bool} (s : State)
    (h0 : m .hem = true) (h1 : m .events = true) :
    view m (ceilingStep s) = view m s := by simp [ceilingStep, *]
@[simp] theorem view_fetchDone {m : Piece → Bool} (s : State)
    (h0 : m .loader = true) (h1 : m .ldrState = true) :
    view m (fetchDone s) = view m s := by simp [fetchDone, *]
@[simp] theorem view_smcReady {m : Piece → Bool} (s : State)
    (h0 : m .smc = true) :
    view m (smcReady s) = view m s := by simp [smcReady, *]
@[simp] theorem view_endCounted {m : Piece → Bool} (s : State)
    (h0 : m .hem = true) (h1 : m .events = true) (h2 : m .trials = true) :
    view m (endCounted s) = view m s := by simp [endCounted, *]
@[simp] theorem view_mgmtEdge {m : Piece → Bool} (s : State)
    (h0 : m .loader = true) (h1 : m .ldrState = true) (h2 : m .host = true) (h3 : m .funcs = true) (h4 : m .smc = true) (h5 : m .cache = true) (h6 : m .vault = true) (h7 : m .hem = true) (h8 : m .pair = true) (h9 : m .health = true) (h10 : m .events = true) (h11 : m .trials = true) (h12 : m .mgmt = true) (h13 : m .pins = true) (h14 : m .out = true) :
    view m (mgmtEdge s) = view m s := by simp [mgmtEdge, *]

/-- An order carried out. -/
theorem view_runOrder {m : Piece → Bool} (code : Nat) (arg : Word) (s : State)
    (h0 : m .drone = true) (h1 : m .jobs = true) (h2 : m .host = true) (h3 : m .volumes = true) (h4 : m .ledger = true) (h5 : m .entries = true) (h6 : m .slots = true) (h7 : m .smc = true) (h8 : m .lines = true) (h9 : m .cache = true) (h10 : m .stripes = true) (h11 : m .appendQ = true) (h12 : m .vault = true) (h13 : m .array = true) (h14 : m .lost = true) (h15 : m .drives = true) (h16 : m .hem = true) (h17 : m .pair = true) (h18 : m .events = true) (h19 : m .trials = true) (h20 : m .out = true) (h21 : m .free = true) :
    ∀ t w, runOrder code arg s = some (t, w) → view m t = view m s := by
  intro t w h
  unfold runOrder at h
  dsimp only at h
  (repeat' split at h) <;> simp only [Option.some.injEq, Prod.mk.injEq, reduceCtorEq] at h <;> obtain ⟨h, _⟩ := h <;> subst h <;> simp [*]

end Sys2Proof.Machine
end

