-- ==== Sys2Proof/Laws/Commands.lean ====
section
/-! SUPPORT. What every command leaves alone: one lemma per constructor, over the lemmas of the operations it calls. -/

set_option Elab.async false
set_option linter.unusedSimpArgs false

namespace Sys2Proof.Machine

open Sys2Proof

theorem view_execDeviceReset {m : Piece → Bool} (a0 : State) (t : State) (h0 : m .boot = true) (h1 : m .halted = true) (h2 : m .clock = true) (h3 : m .free = true) (h4 : m .image = true) (h5 : m .loader = true) (h6 : m .ldrState = true) (h7 : m .imgId = true) (h8 : m .drone = true) (h9 : m .tick = true) (h10 : m .posted = true) (h11 : m .jobs = true) (h12 : m .sampled = true) (h13 : m .slotMap = true) (h14 : m .host = true) (h15 : m .rings = true) (h16 : m .volumes = true) (h17 : m .cmds = true) (h18 : m .funcs = true) (h19 : m .dma = true) (h20 : m .mem = true) (h21 : m .reeds = true) (h22 : m .ledger = true) (h23 : m .entries = true) (h24 : m .slots = true) (h25 : m .smc = true) (h26 : m .lines = true) (h27 : m .cache = true) (h28 : m .stripes = true) (h29 : m .appendQ = true) (h30 : m .vault = true) (h31 : m .array = true) (h32 : m .lost = true) (h33 : m .drives = true) (h34 : m .clusters = true) (h35 : m .posMap = true) (h36 : m .hem = true) (h37 : m .pair = true) (h38 : m .health = true) (h39 : m .why = true) (h40 : m .events = true) (h41 : m .trials = true) (h42 : m .mgmt = true) (h43 : m .fuses = true) (h44 : m .flash = true) (h45 : m .copies = true) (h46 : m .pins = true) (h47 : m .porN = true) (h : execDeviceReset a0 = .next t) : view m t = view m a0 := by
  unfold execDeviceReset at h
  simp only [Host.Outcome.next.injEq] at h
  subst h
  exact (view_deviceReset _ ‹_› ‹_› ‹_› ‹_› ‹_› ‹_› ‹_› ‹_› ‹_› ‹_› ‹_› ‹_› ‹_› ‹_› ‹_› ‹_› ‹_› ‹_› ‹_› ‹_› ‹_› ‹_› ‹_› ‹_› ‹_› ‹_› ‹_› ‹_› ‹_› ‹_› ‹_› ‹_› ‹_› ‹_› ‹_› ‹_› ‹_› ‹_› ‹_› ‹_› ‹_› ‹_› ‹_› ‹_› ‹_› ‹_› ‹_›).trans (by simp [*])

theorem view_execSupplyBrownout {m : Piece → Bool} (a0 : State) (t : State) (h0 : m .boot = true) (h1 : m .halted = true) (h2 : m .clock = true) (h3 : m .free = true) (h4 : m .image = true) (h5 : m .loader = true) (h6 : m .ldrState = true) (h7 : m .imgId = true) (h8 : m .drone = true) (h9 : m .tick = true) (h10 : m .posted = true) (h11 : m .jobs = true) (h12 : m .sampled = true) (h13 : m .slotMap = true) (h14 : m .host = true) (h15 : m .rings = true) (h16 : m .volumes = true) (h17 : m .cmds = true) (h18 : m .funcs = true) (h19 : m .dma = true) (h20 : m .mem = true) (h21 : m .reeds = true) (h22 : m .ledger = true) (h23 : m .entries = true) (h24 : m .slots = true) (h25 : m .smc = true) (h26 : m .lines = true) (h27 : m .cache = true) (h28 : m .stripes = true) (h29 : m .appendQ = true) (h30 : m .vault = true) (h31 : m .array = true) (h32 : m .lost = true) (h33 : m .drives = true) (h34 : m .clusters = true) (h35 : m .posMap = true) (h36 : m .hem = true) (h37 : m .pair = true) (h38 : m .health = true) (h39 : m .why = true) (h40 : m .events = true) (h41 : m .trials = true) (h42 : m .mgmt = true) (h43 : m .fuses = true) (h44 : m .flash = true) (h45 : m .copies = true) (h46 : m .pins = true) (h : execSupplyBrownout a0 = .next t) : view m t = view m a0 := by
  unfold execSupplyBrownout at h
  simp only [Host.Outcome.next.injEq] at h
  subst h
  exact view_deviceReset _ ‹_› ‹_› ‹_› ‹_› ‹_› ‹_› ‹_› ‹_› ‹_› ‹_› ‹_› ‹_› ‹_› ‹_› ‹_› ‹_› ‹_› ‹_› ‹_› ‹_› ‹_› ‹_› ‹_› ‹_› ‹_› ‹_› ‹_› ‹_› ‹_› ‹_› ‹_› ‹_› ‹_› ‹_› ‹_› ‹_› ‹_› ‹_› ‹_› ‹_› ‹_› ‹_› ‹_› ‹_› ‹_› ‹_› ‹_›

theorem view_execPorNRelease {m : Piece → Bool} (a0 : BitVec 2) (a1 : Int) (a2 : State) (t : State) (h0 : m .boot = true) (h1 : m .loader = true) (h2 : m .ldrState = true) (h3 : m .sampled = true) (h4 : m .slotMap = true) (h5 : m .reeds = true) (h6 : m .hem = true) (h7 : m .health = true) (h8 : m .why = true) (h9 : m .events = true) (h10 : m .mgmt = true) (h11 : m .flash = true) (h12 : m .pins = true) (h13 : m .porN = true) (h : execPorNRelease a0 a1 a2 = .next t) : view m t = view m a2 := by
  unfold execPorNRelease at h
  dsimp only at h
  (repeat' split at h) <;> simp only [Host.Outcome.next.injEq] at h <;> subst h
  · rfl
  · exact (view_boot { a2 with pins := { a2.pins with porN := true, cold := true }, mgmt := { a2.mgmt with smbAddr := a0 }, health := { a2.health with tjNow := a1, tjMax := a1 } } .booting ‹_›).trans (by simp [*])
  · exact (view_bootUp _ ‹_› ‹_› ‹_› ‹_› ‹_› ‹_› ‹_› ‹_› ‹_› ‹_› ‹_› ‹_› ‹_›).trans (by simp [*])

theorem view_execImageVerifyDone {m : Piece → Bool} (a0 : State) (t : State) (h0 : m .image = true) (h1 : m .loader = true) (h2 : m .ldrState = true) (h3 : m .drone = true) (h4 : m .tick = true) (h5 : m .posted = true) (h6 : m .jobs = true) (h7 : m .host = true) (h8 : m .rings = true) (h9 : m .volumes = true) (h10 : m .cmds = true) (h11 : m .funcs = true) (h12 : m .dma = true) (h13 : m .reeds = true) (h14 : m .ledger = true) (h15 : m .entries = true) (h16 : m .slots = true) (h17 : m .smc = true) (h18 : m .lines = true) (h19 : m .cache = true) (h20 : m .stripes = true) (h21 : m .array = true) (h22 : m .drives = true) (h23 : m .hem = true) (h24 : m .pair = true) (h25 : m .events = true) (h26 : m .trials = true) (h27 : m .mgmt = true) (h : execImageVerifyDone a0 = .next t) : view m t = view m a0 := by
  unfold execImageVerifyDone at h
  (try dsimp only at h)
  (repeat' split at h) <;> (simp only [Host.Outcome.next.injEq] at h; subst h; first | (simp [*]; done) | with_reducible rfl)

theorem view_execReloadPrepare {m : Piece → Bool} (a0 : State) (t : State) (h0 : m .loader = true) (h1 : m .drone = true) (h2 : m .jobs = true) (h3 : m .host = true) (h4 : m .volumes = true) (h5 : m .ledger = true) (h6 : m .entries = true) (h7 : m .slots = true) (h8 : m .smc = true) (h9 : m .cache = true) (h10 : m .stripes = true) (h11 : m .appendQ = true) (h12 : m .vault = true) (h13 : m .array = true) (h14 : m .lost = true) (h15 : m .hem = true) (h16 : m .pair = true) (h17 : m .events = true) (h18 : m .out = true) (h : execReloadPrepare a0 = .next t) : view m t = view m a0 := by
  unfold execReloadPrepare at h
  (try dsimp only at h)
  (repeat' split at h) <;> (simp only [Host.Outcome.next.injEq] at h; subst h; first | (simp [*]; done) | with_reducible rfl)

theorem view_execReloadApply {m : Piece → Bool} (a0 : State) (t : State) (h0 : m .image = true) (h1 : m .loader = true) (h2 : m .ldrState = true) (h3 : m .drone = true) (h4 : m .tick = true) (h5 : m .posted = true) (h6 : m .jobs = true) (h7 : m .host = true) (h8 : m .rings = true) (h9 : m .volumes = true) (h10 : m .cmds = true) (h11 : m .funcs = true) (h12 : m .dma = true) (h13 : m .reeds = true) (h14 : m .ledger = true) (h15 : m .entries = true) (h16 : m .slots = true) (h17 : m .smc = true) (h18 : m .lines = true) (h19 : m .cache = true) (h20 : m .stripes = true) (h21 : m .appendQ = true) (h22 : m .array = true) (h23 : m .drives = true) (h24 : m .hem = true) (h25 : m .pair = true) (h26 : m .events = true) (h27 : m .trials = true) (h : execReloadApply a0 = .next t) : view m t = view m a0 := by
  unfold execReloadApply at h
  (try dsimp only at h)
  (repeat' split at h) <;> (simp only [Host.Outcome.next.injEq] at h; subst h; first | (simp [*]; done) | with_reducible rfl)

theorem view_execImageRunning {m : Piece → Bool} (a0 : State) (t : State) (h0 : m .loader = true) (h1 : m .ldrState = true) (h2 : m .imgId = true) (h3 : m .drone = true) (h4 : m .jobs = true) (h5 : m .host = true) (h6 : m .volumes = true) (h7 : m .reeds = true) (h8 : m .ledger = true) (h9 : m .entries = true) (h10 : m .slots = true) (h11 : m .smc = true) (h12 : m .lines = true) (h13 : m .cache = true) (h14 : m .appendQ = true) (h15 : m .vault = true) (h16 : m .array = true) (h17 : m .drives = true) (h18 : m .hem = true) (h19 : m .pair = true) (h20 : m .health = true) (h21 : m .events = true) (h22 : m .mgmt = true) (h23 : m .flash = true) (h24 : m .out = true) (h : execImageRunning a0 = .next t) : view m t = view m a0 := by
  unfold execImageRunning at h
  (try dsimp only at h)
  (repeat' split at h) <;> (simp only [Host.Outcome.next.injEq] at h; subst h; first | (simp [*]; done) | with_reducible rfl)

theorem view_execLiveVerifyDone {m : Piece → Bool} (a0 : State) (t : State) (h0 : m .loader = true) (h1 : m .hem = true) (h2 : m .pair = true) (h3 : m .events = true) (h4 : m .mgmt = true) (h5 : m .out = true) (h : execLiveVerifyDone a0 = .next t) : view m t = view m a0 := by
  unfold execLiveVerifyDone at h
  (try dsimp only at h)
  (repeat' split at h) <;> (simp only [Host.Outcome.next.injEq] at h; subst h; first | (simp [*]; done) | with_reducible rfl)

theorem view_execLivePairTimeout {m : Piece → Bool} (a0 : State) (t : State) (h0 : m .loader = true) (h1 : m .hem = true) (h2 : m .events = true) (h3 : m .mgmt = true) (h : execLivePairTimeout a0 = .next t) : view m t = view m a0 := by
  unfold execLivePairTimeout at h
  (try dsimp only at h)
  (repeat' split at h) <;> (simp only [Host.Outcome.next.injEq] at h; subst h; first | (simp [*]; done) | with_reducible rfl)

theorem view_execTickEdge {m : Piece → Bool} (a0 : State) (t : State) (h0 : m .halted = true) (h1 : m .clock = true) (h2 : m .free = true) (h3 : m .image = true) (h4 : m .loader = true) (h5 : m .ldrState = true) (h6 : m .imgId = true) (h7 : m .drone = true) (h8 : m .tick = true) (h9 : m .posted = true) (h10 : m .jobs = true) (h11 : m .sampled = true) (h12 : m .slotMap = true) (h13 : m .host = true) (h14 : m .rings = true) (h15 : m .volumes = true) (h16 : m .cmds = true) (h17 : m .funcs = true) (h18 : m .dma = true) (h19 : m .reeds = true) (h20 : m .ledger = true) (h21 : m .entries = true) (h22 : m .slots = true) (h23 : m .smc = true) (h24 : m .lines = true) (h25 : m .cache = true) (h26 : m .stripes = true) (h27 : m .appendQ = true) (h28 : m .vault = true) (h29 : m .array = true) (h30 : m .lost = true) (h31 : m .drives = true) (h32 : m .clusters = true) (h33 : m .hem = true) (h34 : m .pair = true) (h35 : m .health = true) (h36 : m .why = true) (h37 : m .events = true) (h38 : m .trials = true) (h39 : m .mgmt = true) (h40 : m .flash = true) (h41 : m .pins = true) (h42 : m .out = true) (h : execTickEdge a0 = .next t) : view m t = view m a0 := by
  unfold execTickEdge at h
  (try dsimp only at h)
  (repeat' split at h) <;> (simp only [Host.Outcome.next.injEq] at h; subst h; first | (simp [*]; done) | with_reducible rfl)

theorem view_execCaravanSeal {m : Piece → Bool} (a0 : Option Nat) (a1 : State) (t : State) (h0 : m .drone = true) (h1 : m .hem = true) (h2 : m .events = true) (h : execCaravanSeal a0 a1 = .next t) : view m t = view m a1 := by
  unfold execCaravanSeal at h
  (try dsimp only at h)
  (repeat' split at h) <;> (simp only [Host.Outcome.next.injEq] at h; subst h; first | (simp [*]; done) | with_reducible rfl)

theorem view_execDrnOverrun {m : Piece → Bool} (a0 : Nat) (a1 : State) (t : State) (h0 : m .drone = true) (h : execDrnOverrun a0 a1 = .next t) : view m t = view m a1 := by
  unfold execDrnOverrun at h
  (try dsimp only at h)
  (repeat' split at h) <;> (simp only [Host.Outcome.next.injEq] at h; subst h; first | (simp [*]; done) | with_reducible rfl)

theorem view_execDrnLegHung {m : Piece → Bool} (a0 : Nat) (a1 : State) (t : State) (h0 : m .drone = true) (h : execDrnLegHung a0 a1 = .next t) : view m t = view m a1 := by
  unfold execDrnLegHung at h
  (try dsimp only at h)
  (repeat' split at h) <;> (simp only [Host.Outcome.next.injEq] at h; subst h; first | (simp [*]; done) | with_reducible rfl)

theorem view_execDrnUrgentSet {m : Piece → Bool} (a0 : Nat) (a1 : State) (t : State) (h0 : m .drone = true) (h1 : m .hem = true) (h2 : m .events = true) (h : execDrnUrgentSet a0 a1 = .next t) : view m t = view m a1 := by
  unfold execDrnUrgentSet at h
  (try dsimp only at h)
  (repeat' split at h) <;> (simp only [Host.Outcome.next.injEq] at h; subst h; first | (simp [*]; done) | with_reducible rfl)

theorem view_execDrnBgHoldWrite {m : Piece → Bool} (a0 : Nat) (a1 : Word) (a2 : State) (t : State) (h0 : m .free = true) (h1 : m .drone = true) (h : execDrnBgHoldWrite a0 a1 a2 = .next t) : view m t = view m a2 := by
  unfold execDrnBgHoldWrite at h
  (try dsimp only at h)
  (repeat' split at h) <;> (simp only [Host.Outcome.next.injEq] at h; subst h; first | (simp [*]; done) | with_reducible rfl)

theorem view_execJrnCeilStale {m : Piece → Bool} (a0 : State) (t : State) (h0 : m .cache = true) (h1 : m .hem = true) (h2 : m .events = true) (h : execJrnCeilStale a0 = .next t) : view m t = view m a0 := by
  unfold execJrnCeilStale at h
  (try dsimp only at h)
  (repeat' split at h) <;> (simp only [Host.Outcome.next.injEq] at h; subst h; first | (simp [*]; done) | with_reducible rfl)

theorem view_execJrnWtExit {m : Piece → Bool} (a0 : State) (t : State) (h0 : m .cache = true) (h1 : m .hem = true) (h2 : m .events = true) (h : execJrnWtExit a0 = .next t) : view m t = view m a0 := by
  unfold execJrnWtExit at h
  (try dsimp only at h)
  (repeat' split at h) <;> (simp only [Host.Outcome.next.injEq] at h; subst h; first | (simp [*]; done) | with_reducible rfl)

theorem view_execRingEnable {m : Piece → Bool} (a0 : Nat) (a1 : Nat) (a2 : Word) (a3 : State) (t : State) (h0 : m .free = true) (h1 : m .host = true) (h2 : m .rings = true) (h3 : m .cmds = true) (h4 : m .pair = true) (h5 : m .out = true) (h : execRingEnable a0 a1 a2 a3 = .next t) : view m t = view m a3 := by
  unfold execRingEnable at h
  (try dsimp only at h)
  (repeat' split at h) <;> (simp only [Host.Outcome.next.injEq] at h; subst h; first | (simp [*]; done) | with_reducible rfl)

theorem view_execRingDisable {m : Piece → Bool} (a0 : Nat) (a1 : Nat) (a2 : Word) (a3 : State) (t : State) (h0 : m .free = true) (h1 : m .host = true) (h2 : m .rings = true) (h3 : m .cmds = true) (h4 : m .pair = true) (h5 : m .out = true) (h : execRingDisable a0 a1 a2 a3 = .next t) : view m t = view m a3 := by
  unfold execRingDisable at h
  (try dsimp only at h)
  (repeat' split at h) <;> (simp only [Host.Outcome.next.injEq] at h; subst h; first | (simp [*]; done) | with_reducible rfl)

theorem view_execDoorbell {m : Piece → Bool} (a0 : Nat) (a1 : Nat) (a2 : State) (t : State) (h0 : m .host = true) (h : execDoorbell a0 a1 a2 = .next t) : view m t = view m a2 := by
  unfold execDoorbell at h
  (try dsimp only at h)
  (repeat' split at h) <;> (simp only [Host.Outcome.next.injEq] at h; subst h; first | (simp [*]; done) | with_reducible rfl)

theorem view_execGroupScan {m : Piece → Bool} (a0 : State) (t : State) (h0 : m .host = true) (h1 : m .rings = true) (h2 : m .hem = true) (h3 : m .pair = true) (h4 : m .events = true) (h5 : m .out = true) (h : execGroupScan a0 = .next t) : view m t = view m a0 := by
  unfold execGroupScan at h
  (try dsimp only at h)
  (repeat' split at h) <;> (simp only [Host.Outcome.next.injEq] at h; subst h; first | (simp [*]; done) | with_reducible rfl)

theorem view_execEntryFetchDone {m : Piece → Bool} (a0 : Nat) (a1 : List Byte) (a2 : State) (t : State) (h0 : m .drone = true) (h1 : m .host = true) (h2 : m .rings = true) (h3 : m .volumes = true) (h4 : m .cmds = true) (h5 : m .ledger = true) (h6 : m .entries = true) (h7 : m .slots = true) (h8 : m .smc = true) (h9 : m .lines = true) (h10 : m .cache = true) (h11 : m .appendQ = true) (h12 : m .array = true) (h13 : m .lost = true) (h14 : m .drives = true) (h15 : m .hem = true) (h16 : m .pair = true) (h17 : m .events = true) (h18 : m .out = true) (h : execEntryFetchDone a0 a1 a2 = .next t) : view m t = view m a2 := by
  unfold execEntryFetchDone at h
  (try dsimp only at h)
  (repeat' split at h) <;> (simp only [Host.Outcome.next.injEq] at h; subst h; first | (simp [*]; done) | with_reducible rfl)

theorem view_execSqFetchError {m : Piece → Bool} (a0 : Nat) (a1 : State) (t : State) (h0 : m .host = true) (h1 : m .rings = true) (h2 : m .hem = true) (h3 : m .events = true) (h : execSqFetchError a0 a1 = .next t) : view m t = view m a1 := by
  unfold execSqFetchError at h
  (try dsimp only at h)
  (repeat' split at h) <;> (simp only [Host.Outcome.next.injEq] at h; subst h; first | (simp [*]; done) | with_reducible rfl)

theorem view_execStallRelease {m : Piece → Bool} (a0 : Nat) (a1 : State) (t : State) (h0 : m .host = true) (h1 : m .rings = true) (h2 : m .hem = true) (h3 : m .pair = true) (h4 : m .events = true) (h5 : m .out = true) (h : execStallRelease a0 a1 = .next t) : view m t = view m a1 := by
  unfold execStallRelease at h
  (try dsimp only at h)
  (repeat' split at h) <;> (simp only [Host.Outcome.next.injEq] at h; subst h; first | (simp [*]; done) | with_reducible rfl)

theorem view_execCqCiWrite {m : Piece → Bool} (a0 : Nat) (a1 : Nat) (a2 : Word) (a3 : State) (t : State) (h0 : m .free = true) (h1 : m .host = true) (h2 : m .rings = true) (h3 : m .hem = true) (h4 : m .pair = true) (h5 : m .events = true) (h6 : m .out = true) (h : execCqCiWrite a0 a1 a2 a3 = .next t) : view m t = view m a3 := by
  unfold execCqCiWrite at h
  (try dsimp only at h)
  (repeat' split at h) <;> (simp only [Host.Outcome.next.injEq] at h; subst h; first | (simp [*]; done) | with_reducible rfl)

theorem view_execCseraiMove {m : Piece → Bool} (a0 : Nat) (a1 : State) (t : State) (h0 : m .host = true) (h1 : m .rings = true) (h2 : m .hem = true) (h3 : m .pair = true) (h4 : m .events = true) (h5 : m .out = true) (h : execCseraiMove a0 a1 = .next t) : view m t = view m a1 := by
  unfold execCseraiMove at h
  (try dsimp only at h)
  (repeat' split at h) <;> (simp only [Host.Outcome.next.injEq] at h; subst h; first | (simp [*]; done) | with_reducible rfl)

theorem view_execCommandComplete {m : Piece → Bool} (a0 : Nat) (a1 : State) (t : State) (h0 : m .host = true) (h1 : m .rings = true) (h2 : m .cmds = true) (h3 : m .hem = true) (h4 : m .pair = true) (h5 : m .events = true) (h6 : m .out = true) (h : execCommandComplete a0 a1 = .next t) : view m t = view m a1 := by
  unfold execCommandComplete at h
  (try dsimp only at h)
  (repeat' split at h) <;> (simp only [Host.Outcome.next.injEq] at h; subst h; first | (simp [*]; done) | with_reducible rfl)

theorem view_execCqWriteError {m : Piece → Bool} (a0 : Nat) (a1 : State) (t : State) (h0 : m .host = true) (h1 : m .rings = true) (h2 : m .cmds = true) (h3 : m .pair = true) (h4 : m .out = true) (h : execCqWriteError a0 a1 = .next t) : view m t = view m a1 := by
  unfold execCqWriteError at h
  (try dsimp only at h)
  (repeat' split at h) <;> (simp only [Host.Outcome.next.injEq] at h; subst h; first | (simp [*]; done) | with_reducible rfl)

theorem view_execFunctionLevelReset {m : Piece → Bool} (a0 : Nat) (a1 : State) (t : State) (h0 : m .drone = true) (h1 : m .jobs = true) (h2 : m .host = true) (h3 : m .rings = true) (h4 : m .cmds = true) (h5 : m .funcs = true) (h6 : m .dma = true) (h7 : m .hem = true) (h8 : m .events = true) (h : execFunctionLevelReset a0 a1 = .next t) : view m t = view m a1 := by
  unfold execFunctionLevelReset at h
  (try dsimp only at h)
  (repeat' split at h) <;> (simp only [Host.Outcome.next.injEq] at h; subst h; first | (simp [*]; done) | with_reducible rfl)

theorem view_execMsixDisable {m : Piece → Bool} (a0 : Nat) (a1 : State) (t : State) (h0 : m .host = true) (h1 : m .funcs = true) (h2 : m .events = true) (h : execMsixDisable a0 a1 = .next t) : view m t = view m a1 := by
  unfold execMsixDisable at h
  (try dsimp only at h)
  (repeat' split at h) <;> (simp only [Host.Outcome.next.injEq] at h; subst h; first | (simp [*]; done) | with_reducible rfl)

theorem view_execRead {m : Piece → Bool} (a0 : Nat) (a1 : List HostFrag) (a2 : State) (t : State) (h0 : m .drone = true) (h1 : m .jobs = true) (h2 : m .host = true) (h3 : m .cmds = true) (h4 : m .reeds = true) (h5 : m .ledger = true) (h6 : m .entries = true) (h7 : m .slots = true) (h8 : m .smc = true) (h9 : m .lines = true) (h : execRead a0 a1 a2 = .next t) : view m t = view m a2 := by
  unfold execRead at h
  (try dsimp only at h)
  (repeat' split at h) <;> (simp only [Host.Outcome.next.injEq] at h; subst h; first | (simp [*]; done) | with_reducible rfl)

theorem view_execWrite {m : Piece → Bool} (a0 : Nat) (a1 a3 : List HostFrag) (a2 : State) (t : State) (h0 : m .drone = true) (h1 : m .jobs = true) (h2 : m .host = true) (h3 : m .volumes = true) (h4 : m .cmds = true) (h5 : m .ledger = true) (h6 : m .entries = true) (h7 : m .slots = true) (h8 : m .smc = true) (h9 : m .lines = true) (h10 : m .cache = true) (h11 : m .stripes = true) (h12 : m .appendQ = true) (h13 : m .array = true) (h14 : m .lost = true) (h15 : m .drives = true) (h16 : m .hem = true) (h17 : m .pair = true) (h18 : m .events = true) (h19 : m .out = true) (h : execWrite a0 a1 a3 a2 = .next t) : view m t = view m a2 := by
  unfold execWrite at h
  (try dsimp only at h)
  (repeat' split at h) <;> (simp only [Host.Outcome.next.injEq] at h; subst h; first | (simp [*]; done) | with_reducible rfl)

theorem view_execWriteZeroes {m : Piece → Bool} (a0 : Nat) (a1 : State) (t : State) (h0 : m .drone = true) (h1 : m .jobs = true) (h2 : m .host = true) (h3 : m .volumes = true) (h4 : m .cmds = true) (h5 : m .ledger = true) (h6 : m .entries = true) (h7 : m .slots = true) (h8 : m .smc = true) (h9 : m .lines = true) (h10 : m .cache = true) (h11 : m .stripes = true) (h12 : m .appendQ = true) (h13 : m .array = true) (h14 : m .lost = true) (h15 : m .drives = true) (h16 : m .hem = true) (h17 : m .pair = true) (h18 : m .events = true) (h19 : m .out = true) (h : execWriteZeroes a0 a1 = .next t) : view m t = view m a1 := by
  unfold execWriteZeroes at h
  (try dsimp only at h)
  (repeat' split at h) <;> (simp only [Host.Outcome.next.injEq] at h; subst h; first | (simp [*]; done) | with_reducible rfl)

theorem view_execDeallocate {m : Piece → Bool} (a0 : Nat) (a1 : State) (t : State) (h0 : m .drone = true) (h1 : m .jobs = true) (h2 : m .host = true) (h3 : m .volumes = true) (h4 : m .cmds = true) (h5 : m .ledger = true) (h6 : m .entries = true) (h7 : m .slots = true) (h8 : m .smc = true) (h9 : m .lines = true) (h10 : m .cache = true) (h11 : m .stripes = true) (h12 : m .appendQ = true) (h13 : m .array = true) (h14 : m .lost = true) (h15 : m .drives = true) (h16 : m .hem = true) (h17 : m .pair = true) (h18 : m .events = true) (h19 : m .out = true) (h : execDeallocate a0 a1 = .next t) : view m t = view m a1 := by
  unfold execDeallocate at h
  (try dsimp only at h)
  (repeat' split at h) <;> (simp only [Host.Outcome.next.injEq] at h; subst h; first | (simp [*]; done) | with_reducible rfl)

theorem view_execFlush {m : Piece → Bool} (a0 : Nat) (a1 : State) (t : State) (h0 : m .host = true) (h1 : m .cmds = true) (h : execFlush a0 a1 = .next t) : view m t = view m a1 := by
  unfold execFlush at h
  (try dsimp only at h)
  (repeat' split at h) <;> (simp only [Host.Outcome.next.injEq] at h; subst h; first | (simp [*]; done) | with_reducible rfl)

theorem view_execVerify {m : Piece → Bool} (a0 : Nat) (a1 : State) (t : State) (h0 : m .drone = true) (h1 : m .jobs = true) (h2 : m .host = true) (h3 : m .cmds = true) (h4 : m .reeds = true) (h5 : m .ledger = true) (h6 : m .entries = true) (h7 : m .slots = true) (h8 : m .smc = true) (h9 : m .lines = true) (h : execVerify a0 a1 = .next t) : view m t = view m a1 := by
  unfold execVerify at h
  (try dsimp only at h)
  (repeat' split at h) <;> (simp only [Host.Outcome.next.injEq] at h; subst h; first | (simp [*]; done) | with_reducible rfl)

theorem view_execVolCreate {m : Piece → Bool} (a0 : Nat) (a1 : State) (t : State) (h0 : m .drone = true) (h1 : m .jobs = true) (h2 : m .host = true) (h3 : m .volumes = true) (h4 : m .cmds = true) (h5 : m .ledger = true) (h6 : m .entries = true) (h7 : m .slots = true) (h8 : m .smc = true) (h9 : m .lines = true) (h10 : m .cache = true) (h11 : m .stripes = true) (h12 : m .appendQ = true) (h13 : m .array = true) (h14 : m .lost = true) (h15 : m .drives = true) (h16 : m .hem = true) (h17 : m .pair = true) (h18 : m .events = true) (h19 : m .out = true) (h : execVolCreate a0 a1 = .next t) : view m t = view m a1 := by
  unfold execVolCreate at h
  (try dsimp only at h)
  (repeat' split at h) <;> (simp only [Host.Outcome.next.injEq] at h; subst h; first | (simp [*]; done) | with_reducible rfl)

theorem view_execVolDelete {m : Piece → Bool} (a0 : Nat) (a1 : State) (t : State) (h0 : m .drone = true) (h1 : m .jobs = true) (h2 : m .host = true) (h3 : m .volumes = true) (h4 : m .cmds = true) (h5 : m .ledger = true) (h6 : m .entries = true) (h7 : m .slots = true) (h8 : m .smc = true) (h9 : m .lines = true) (h10 : m .cache = true) (h11 : m .stripes = true) (h12 : m .appendQ = true) (h13 : m .array = true) (h14 : m .lost = true) (h15 : m .drives = true) (h16 : m .hem = true) (h17 : m .pair = true) (h18 : m .events = true) (h19 : m .out = true) (h : execVolDelete a0 a1 = .next t) : view m t = view m a1 := by
  unfold execVolDelete at h
  (try dsimp only at h)
  (repeat' split at h) <;> (simp only [Host.Outcome.next.injEq] at h; subst h; first | (simp [*]; done) | with_reducible rfl)

theorem view_execVolResize {m : Piece → Bool} (a0 : Nat) (a1 : State) (t : State) (h0 : m .drone = true) (h1 : m .jobs = true) (h2 : m .host = true) (h3 : m .volumes = true) (h4 : m .cmds = true) (h5 : m .ledger = true) (h6 : m .entries = true) (h7 : m .slots = true) (h8 : m .smc = true) (h9 : m .lines = true) (h10 : m .cache = true) (h11 : m .stripes = true) (h12 : m .appendQ = true) (h13 : m .array = true) (h14 : m .lost = true) (h15 : m .drives = true) (h16 : m .hem = true) (h17 : m .pair = true) (h18 : m .events = true) (h19 : m .out = true) (h : execVolResize a0 a1 = .next t) : view m t = view m a1 := by
  unfold execVolResize at h
  (try dsimp only at h)
  (repeat' split at h) <;> (simp only [Host.Outcome.next.injEq] at h; subst h; first | (simp [*]; done) | with_reducible rfl)

theorem view_execVolQuery {m : Piece → Bool} (a0 : Nat) (a1 : State) (t : State) (h0 : m .drone = true) (h1 : m .jobs = true) (h2 : m .host = true) (h3 : m .volumes = true) (h4 : m .cmds = true) (h5 : m .ledger = true) (h6 : m .entries = true) (h7 : m .slots = true) (h8 : m .smc = true) (h9 : m .lines = true) (h10 : m .cache = true) (h11 : m .stripes = true) (h12 : m .appendQ = true) (h13 : m .array = true) (h14 : m .lost = true) (h15 : m .drives = true) (h16 : m .hem = true) (h17 : m .pair = true) (h18 : m .events = true) (h19 : m .out = true) (h : execVolQuery a0 a1 = .next t) : view m t = view m a1 := by
  unfold execVolQuery at h
  (try dsimp only at h)
  (repeat' split at h) <;> (simp only [Host.Outcome.next.injEq] at h; subst h; first | (simp [*]; done) | with_reducible rfl)

theorem view_execHostMemoryError {m : Piece → Bool} (a0 : Nat) (a1 : State) (t : State) (h0 : m .drone = true) (h1 : m .jobs = true) (h2 : m .host = true) (h3 : m .cmds = true) (h4 : m .hem = true) (h5 : m .events = true) (h : execHostMemoryError a0 a1 = .next t) : view m t = view m a1 := by
  unfold execHostMemoryError at h
  (try dsimp only at h)
  (repeat' split at h) <;> (simp only [Host.Outcome.next.injEq] at h; subst h; first | (simp [*]; done) | with_reducible rfl)

theorem view_execDmaStart {m : Piece → Bool} (a0 : Nat) (a1 : Nat) (a2 : State) (t : State) (h0 : m .drone = true) (h1 : m .dma = true) (h2 : m .hem = true) (h3 : m .pair = true) (h4 : m .events = true) (h5 : m .out = true) (h : execDmaStart a0 a1 a2 = .next t) : view m t = view m a2 := by
  unfold execDmaStart at h
  (try dsimp only at h)
  (repeat' split at h) <;> (simp only [Host.Outcome.next.injEq] at h; subst h; first | (simp [*]; done) | with_reducible rfl)

theorem view_execDmaPause {m : Piece → Bool} (a0 : Nat) (a1 : Nat) (a2 : State) (t : State) (h0 : m .drone = true) (h1 : m .dma = true) (h2 : m .hem = true) (h3 : m .pair = true) (h4 : m .events = true) (h5 : m .out = true) (h : execDmaPause a0 a1 a2 = .next t) : view m t = view m a2 := by
  unfold execDmaPause at h
  (try dsimp only at h)
  (repeat' split at h) <;> (simp only [Host.Outcome.next.injEq] at h; subst h; first | (simp [*]; done) | with_reducible rfl)

theorem view_execDmaUnpause {m : Piece → Bool} (a0 : Nat) (a1 : Nat) (a2 : State) (t : State) (h0 : m .drone = true) (h1 : m .dma = true) (h2 : m .hem = true) (h3 : m .pair = true) (h4 : m .events = true) (h5 : m .out = true) (h : execDmaUnpause a0 a1 a2 = .next t) : view m t = view m a2 := by
  unfold execDmaUnpause at h
  (try dsimp only at h)
  (repeat' split at h) <;> (simp only [Host.Outcome.next.injEq] at h; subst h; first | (simp [*]; done) | with_reducible rfl)

theorem view_execDmaPaused {m : Piece → Bool} (a0 : Nat) (a1 : State) (t : State) (h0 : m .dma = true) (h : execDmaPaused a0 a1 = .next t) : view m t = view m a1 := by
  unfold execDmaPaused at h
  (try dsimp only at h)
  (repeat' split at h) <;> (simp only [Host.Outcome.next.injEq] at h; subst h; first | (simp [*]; done) | with_reducible rfl)

theorem view_execDescriptorFetch {m : Piece → Bool} (a0 : Nat) (a1 : List Byte) (a2 : State) (t : State) (h0 : m .drone = true) (h1 : m .dma = true) (h2 : m .hem = true) (h3 : m .pair = true) (h4 : m .events = true) (h5 : m .out = true) (h : execDescriptorFetch a0 a1 a2 = .next t) : view m t = view m a2 := by
  unfold execDescriptorFetch at h
  (try dsimp only at h)
  (repeat' split at h) <;> (simp only [Host.Outcome.next.injEq] at h; subst h; first | (simp [*]; done) | with_reducible rfl)

theorem view_execPacingRequest {m : Piece → Bool} (a0 : Nat) (a1 : State) (t : State) (h0 : m .drone = true) (h1 : m .dma = true) (h2 : m .hem = true) (h3 : m .pair = true) (h4 : m .events = true) (h5 : m .out = true) (h : execPacingRequest a0 a1 = .next t) : view m t = view m a1 := by
  unfold execPacingRequest at h
  (try dsimp only at h)
  (repeat' split at h) <;> (simp only [Host.Outcome.next.injEq] at h; subst h; first | (simp [*]; done) | with_reducible rfl)

theorem view_execDmaWriteResponse {m : Piece → Bool} (a0 : Nat) (a1 : State) (t : State) (h0 : m .drone = true) (h1 : m .dma = true) (h2 : m .mem = true) (h3 : m .hem = true) (h4 : m .pair = true) (h5 : m .events = true) (h6 : m .out = true) (h : execDmaWriteResponse a0 a1 = .next t) : view m t = view m a1 := by
  unfold execDmaWriteResponse at h
  (try dsimp only at h)
  (repeat' split at h) <;> (simp only [Host.Outcome.next.injEq] at h; subst h; first | (simp [*]; done) | with_reducible rfl)

theorem view_execDmaShCommit {m : Piece → Bool} (a0 : Nat) (a1 : Nat) (a2 : Bool) (a3 : State) (t : State) (h0 : m .drone = true) (h1 : m .dma = true) (h2 : m .hem = true) (h3 : m .pair = true) (h4 : m .events = true) (h5 : m .out = true) (h : execDmaShCommit a0 a1 a2 a3 = .next t) : view m t = view m a3 := by
  unfold execDmaShCommit at h
  (try dsimp only at h)
  (repeat' split at h) <;> (simp only [Host.Outcome.next.injEq] at h; subst h; first | (simp [*]; done) | with_reducible rfl)

theorem view_execDmaBusError {m : Piece → Bool} (a0 : Nat) (a1 : Bool) (a2 : Nat) (a3 : Nat) (a4 : Nat) (a5 : State) (t : State) (h0 : m .drone = true) (h1 : m .dma = true) (h2 : m .hem = true) (h3 : m .pair = true) (h4 : m .events = true) (h5 : m .out = true) (h : execDmaBusError a0 a1 a2 a3 a4 a5 = .next t) : view m t = view m a5 := by
  unfold execDmaBusError at h
  (try dsimp only at h)
  (repeat' split at h) <;> (simp only [Host.Outcome.next.injEq] at h; subst h; first | (simp [*]; done) | with_reducible rfl)

theorem view_execFaultActResume {m : Piece → Bool} (a0 : Nat) (a1 : Nat) (a2 : State) (t : State) (h0 : m .drone = true) (h1 : m .dma = true) (h2 : m .hem = true) (h3 : m .pair = true) (h4 : m .events = true) (h5 : m .out = true) (h : execFaultActResume a0 a1 a2 = .next t) : view m t = view m a2 := by
  unfold execFaultActResume at h
  (try dsimp only at h)
  (repeat' split at h) <;> (simp only [Host.Outcome.next.injEq] at h; subst h; first | (simp [*]; done) | with_reducible rfl)

theorem view_execFaultActSkip {m : Piece → Bool} (a0 : Nat) (a1 : Nat) (a2 : State) (t : State) (h0 : m .drone = true) (h1 : m .dma = true) (h2 : m .hem = true) (h3 : m .pair = true) (h4 : m .events = true) (h5 : m .out = true) (h : execFaultActSkip a0 a1 a2 = .next t) : view m t = view m a2 := by
  unfold execFaultActSkip at h
  (try dsimp only at h)
  (repeat' split at h) <;> (simp only [Host.Outcome.next.injEq] at h; subst h; first | (simp [*]; done) | with_reducible rfl)

theorem view_execFaultActAbort {m : Piece → Bool} (a0 : Nat) (a1 : Nat) (a2 : State) (t : State) (h0 : m .drone = true) (h1 : m .dma = true) (h : execFaultActAbort a0 a1 a2 = .next t) : view m t = view m a2 := by
  unfold execFaultActAbort at h
  (try dsimp only at h)
  (repeat' split at h) <;> (simp only [Host.Outcome.next.injEq] at h; subst h; first | (simp [*]; done) | with_reducible rfl)

theorem view_execReedSegmentCompare {m : Piece → Bool} (a0 : Nat) (a1 : List Byte) (a2 : List Byte) (a3 : State) (t : State) (h0 : m .free = true) (h1 : m .drone = true) (h2 : m .jobs = true) (h3 : m .reeds = true) (h4 : m .hem = true) (h5 : m .events = true) (h6 : m .trials = true) (h : execReedSegmentCompare a0 a1 a2 a3 = .next t) : view m t = view m a3 := by
  unfold execReedSegmentCompare at h
  (try dsimp only at h)
  (repeat' split at h) <;> (simp only [Host.Outcome.next.injEq] at h; subst h; first | (simp [*]; done) | with_reducible rfl)

theorem view_execVoteResult {m : Piece → Bool} (a0 : Nat) (a1 : State) (t : State) (h0 : m .drone = true) (h1 : m .jobs = true) (h2 : m .slotMap = true) (h3 : m .host = true) (h4 : m .cmds = true) (h5 : m .reeds = true) (h6 : m .ledger = true) (h7 : m .entries = true) (h8 : m .slots = true) (h9 : m .smc = true) (h10 : m .lines = true) (h11 : m .cache = true) (h12 : m .stripes = true) (h13 : m .array = true) (h14 : m .hem = true) (h15 : m .health = true) (h16 : m .why = true) (h17 : m .events = true) (h18 : m .flash = true) (h19 : m .pins = true) (h : execVoteResult a0 a1 = .next t) : view m t = view m a1 := by
  unfold execVoteResult at h
  (try dsimp only at h)
  (repeat' split at h) <;> (simp only [Host.Outcome.next.injEq] at h; subst h; first | (simp [*]; done) | with_reducible rfl)

theorem view_execReedTestDue {m : Piece → Bool} (a0 : Nat) (a1 : State) (t : State) (h0 : m .drone = true) (h : execReedTestDue a0 a1 = .next t) : view m t = view m a1 := by
  unfold execReedTestDue at h
  (try dsimp only at h)
  (repeat' split at h) <;> (simp only [Host.Outcome.next.injEq] at h; subst h; first | (simp [*]; done) | with_reducible rfl)

theorem view_execReedTestResult {m : Piece → Bool} (a0 : Nat) (a1 : Bool) (a2 : Bool) (a3 : Bool) (a4 : State) (t : State) (h0 : m .drone = true) (h1 : m .slotMap = true) (h2 : m .reeds = true) (h3 : m .hem = true) (h4 : m .health = true) (h5 : m .why = true) (h6 : m .events = true) (h7 : m .trials = true) (h8 : m .flash = true) (h9 : m .pins = true) (h : execReedTestResult a0 a1 a2 a3 a4 = .next t) : view m t = view m a4 := by
  unfold execReedTestResult at h
  (try dsimp only at h)
  (repeat' split at h) <;> (simp only [Host.Outcome.next.injEq] at h; subst h; first | (simp [*]; done) | with_reducible rfl)

theorem view_execPlcSlotTagWrite {m : Piece → Bool} (a0 : Nat) (a1 : Nat) (a2 : Word) (a3 : State) (t : State) (h0 : m .free = true) (h1 : m .drone = true) (h2 : m .host = true) (h3 : m .volumes = true) (h4 : m .ledger = true) (h5 : m .entries = true) (h6 : m .slots = true) (h7 : m .smc = true) (h8 : m .lines = true) (h9 : m .cache = true) (h10 : m .appendQ = true) (h11 : m .drives = true) (h12 : m .hem = true) (h13 : m .pair = true) (h14 : m .events = true) (h15 : m .out = true) (h : execPlcSlotTagWrite a0 a1 a2 a3 = .next t) : view m t = view m a3 := by
  unfold execPlcSlotTagWrite at h
  (try dsimp only at h)
  (repeat' split at h) <;> (simp only [Host.Outcome.next.injEq] at h; subst h; first | (simp [*]; done) | with_reducible rfl)

theorem view_execDrainSet {m : Piece → Bool} (a0 : Nat) (a1 : Nat) (a2 : State) (t : State) (h0 : m .drone = true) (h1 : m .host = true) (h2 : m .volumes = true) (h3 : m .ledger = true) (h4 : m .entries = true) (h5 : m .slots = true) (h6 : m .smc = true) (h7 : m .lines = true) (h8 : m .cache = true) (h9 : m .appendQ = true) (h10 : m .drives = true) (h11 : m .hem = true) (h12 : m .pair = true) (h13 : m .events = true) (h14 : m .out = true) (h : execDrainSet a0 a1 a2 = .next t) : view m t = view m a2 := by
  unfold execDrainSet at h
  (try dsimp only at h)
  (repeat' split at h) <;> (simp only [Host.Outcome.next.injEq] at h; subst h; first | (simp [*]; done) | with_reducible rfl)

theorem view_execDrainClear {m : Piece → Bool} (a0 : Nat) (a1 : Nat) (a2 : State) (t : State) (h0 : m .drone = true) (h1 : m .host = true) (h2 : m .volumes = true) (h3 : m .ledger = true) (h4 : m .entries = true) (h5 : m .slots = true) (h6 : m .smc = true) (h7 : m .lines = true) (h8 : m .cache = true) (h9 : m .appendQ = true) (h10 : m .drives = true) (h11 : m .hem = true) (h12 : m .pair = true) (h13 : m .events = true) (h14 : m .out = true) (h : execDrainClear a0 a1 a2 = .next t) : view m t = view m a2 := by
  unfold execDrainClear at h
  (try dsimp only at h)
  (repeat' split at h) <;> (simp only [Host.Outcome.next.injEq] at h; subst h; first | (simp [*]; done) | with_reducible rfl)

theorem view_execPlacementSnapshot {m : Piece → Bool} (a0 : State) (t : State) (h0 : m .drone = true) (h1 : m .host = true) (h2 : m .volumes = true) (h3 : m .ledger = true) (h4 : m .entries = true) (h5 : m .slots = true) (h6 : m .smc = true) (h7 : m .lines = true) (h8 : m .cache = true) (h9 : m .appendQ = true) (h10 : m .drives = true) (h11 : m .hem = true) (h12 : m .pair = true) (h13 : m .events = true) (h14 : m .out = true) (h : execPlacementSnapshot a0 = .next t) : view m t = view m a0 := by
  unfold execPlacementSnapshot at h
  (try dsimp only at h)
  (repeat' split at h) <;> (simp only [Host.Outcome.next.injEq] at h; subst h; first | (simp [*]; done) | with_reducible rfl)

theorem view_execRelocDone {m : Piece → Bool} (a0 : Nat) (a1 : Nat) (a2 : State) (t : State) (h0 : m .drone = true) (h1 : m .host = true) (h2 : m .volumes = true) (h3 : m .ledger = true) (h4 : m .entries = true) (h5 : m .slots = true) (h6 : m .smc = true) (h7 : m .lines = true) (h8 : m .cache = true) (h9 : m .appendQ = true) (h10 : m .array = true) (h11 : m .drives = true) (h12 : m .hem = true) (h13 : m .pair = true) (h14 : m .events = true) (h15 : m .out = true) (h : execRelocDone a0 a1 a2 = .next t) : view m t = view m a2 := by
  unfold execRelocDone at h
  (try dsimp only at h)
  (repeat' split at h) <;> (simp only [Host.Outcome.next.injEq] at h; subst h; first | (simp [*]; done) | with_reducible rfl)

theorem view_execMoveStart {m : Piece → Bool} (a0 : State) (t : State) (h0 : m .drone = true) (h1 : m .host = true) (h2 : m .volumes = true) (h3 : m .ledger = true) (h4 : m .entries = true) (h5 : m .slots = true) (h6 : m .smc = true) (h7 : m .lines = true) (h8 : m .cache = true) (h9 : m .appendQ = true) (h10 : m .drives = true) (h11 : m .hem = true) (h12 : m .pair = true) (h13 : m .events = true) (h14 : m .out = true) (h : execMoveStart a0 = .next t) : view m t = view m a0 := by
  unfold execMoveStart at h
  (try dsimp only at h)
  (repeat' split at h) <;> (simp only [Host.Outcome.next.injEq] at h; subst h; first | (simp [*]; done) | with_reducible rfl)

theorem view_execMoveCommit {m : Piece → Bool} (a0 : Nat) (a1 : Nat) (a2 : State) (t : State) (h0 : m .drone = true) (h1 : m .jobs = true) (h2 : m .host = true) (h3 : m .volumes = true) (h4 : m .ledger = true) (h5 : m .entries = true) (h6 : m .slots = true) (h7 : m .smc = true) (h8 : m .lines = true) (h9 : m .cache = true) (h10 : m .appendQ = true) (h11 : m .array = true) (h12 : m .drives = true) (h13 : m .hem = true) (h14 : m .pair = true) (h15 : m .events = true) (h16 : m .out = true) (h : execMoveCommit a0 a1 a2 = .next t) : view m t = view m a2 := by
  unfold execMoveCommit at h
  (try dsimp only at h)
  (repeat' split at h) <;> (simp only [Host.Outcome.next.injEq] at h; subst h; first | (simp [*]; done) | with_reducible rfl)

theorem view_execMoveAbandon {m : Piece → Bool} (a0 : Nat) (a1 : Nat) (a2 : State) (t : State) (h0 : m .drone = true) (h1 : m .jobs = true) (h2 : m .host = true) (h3 : m .volumes = true) (h4 : m .ledger = true) (h5 : m .entries = true) (h6 : m .slots = true) (h7 : m .smc = true) (h8 : m .lines = true) (h9 : m .cache = true) (h10 : m .appendQ = true) (h11 : m .drives = true) (h12 : m .hem = true) (h13 : m .pair = true) (h14 : m .events = true) (h15 : m .out = true) (h : execMoveAbandon a0 a1 a2 = .next t) : view m t = view m a2 := by
  unfold execMoveAbandon at h
  (try dsimp only at h)
  (repeat' split at h) <;> (simp only [Host.Outcome.next.injEq] at h; subst h; first | (simp [*]; done) | with_reducible rfl)

theorem view_execRunFree {m : Piece → Bool} (a0 : Nat) (a1 : Nat) (a2 : State) (t : State) (h0 : m .drone = true) (h1 : m .ledger = true) (h2 : m .slots = true) (h3 : m .hem = true) (h4 : m .events = true) (h : execRunFree a0 a1 a2 = .next t) : view m t = view m a2 := by
  unfold execRunFree at h
  (try dsimp only at h)
  (repeat' split at h) <;> (simp only [Host.Outcome.next.injEq] at h; subst h; first | (simp [*]; done) | with_reducible rfl)

theorem view_execRelease {m : Piece → Bool} (a0 : Nat) (a1 : Nat) (a2 : State) (t : State) (h0 : m .drone = true) (h1 : m .host = true) (h2 : m .volumes = true) (h3 : m .ledger = true) (h4 : m .entries = true) (h5 : m .slots = true) (h6 : m .smc = true) (h7 : m .lines = true) (h8 : m .cache = true) (h9 : m .appendQ = true) (h10 : m .drives = true) (h11 : m .hem = true) (h12 : m .pair = true) (h13 : m .events = true) (h14 : m .out = true) (h : execRelease a0 a1 a2 = .next t) : view m t = view m a2 := by
  unfold execRelease at h
  (try dsimp only at h)
  (repeat' split at h) <;> (simp only [Host.Outcome.next.injEq] at h; subst h; first | (simp [*]; done) | with_reducible rfl)

theorem view_execCheckpointStart {m : Piece → Bool} (a0 : State) (t : State) (h0 : m .drone = true) (h1 : m .jobs = true) (h2 : m .ledger = true) (h3 : m .smc = true) (h4 : m .hem = true) (h5 : m .events = true) (h : execCheckpointStart a0 = .next t) : view m t = view m a0 := by
  unfold execCheckpointStart at h
  (try dsimp only at h)
  (repeat' split at h) <;> (simp only [Host.Outcome.next.injEq] at h; subst h; first | (simp [*]; done) | with_reducible rfl)

theorem view_execPlcCkpt {m : Piece → Bool} (a0 : State) (t : State) (h0 : m .ledger = true) (h1 : m .hem = true) (h2 : m .events = true) (h : execPlcCkpt a0 = .next t) : view m t = view m a0 := by
  unfold execPlcCkpt at h
  (try dsimp only at h)
  (repeat' split at h) <;> (simp only [Host.Outcome.next.injEq] at h; subst h; first | (simp [*]; done) | with_reducible rfl)

theorem view_execPageMissRead {m : Piece → Bool} (a0 a1 a3 : Nat) (a2 : State) (t : State) (h0 : m .drone = true) (h1 : m .jobs = true) (h2 : m .ledger = true) (h3 : m .hem = true) (h4 : m .events = true) (h : execPageMissRead a0 a1 a3 a2 = .next t) : view m t = view m a2 := by
  unfold execPageMissRead at h
  (try dsimp only at h)
  (repeat' split at h) <;> (simp only [Host.Outcome.next.injEq] at h; subst h; first | (simp [*]; done) | with_reducible rfl)

theorem view_execTierHighWatermark {m : Piece → Bool} (a0 : State) (t : State) (h0 : m .drone = true) (h1 : m .jobs = true) (h2 : m .ledger = true) (h3 : m .hem = true) (h4 : m .events = true) (h : execTierHighWatermark a0 = .next t) : view m t = view m a0 := by
  unfold execTierHighWatermark at h
  (try dsimp only at h)
  (repeat' split at h) <;> (simp only [Host.Outcome.next.injEq] at h; subst h; first | (simp [*]; done) | with_reducible rfl)

theorem view_execPlcPgSelWrite {m : Piece → Bool} (a0 : Nat) (a1 : Word) (a2 : State) (t : State) (h0 : m .free = true) (h1 : m .ledger = true) (h : execPlcPgSelWrite a0 a1 a2 = .next t) : view m t = view m a2 := by
  unfold execPlcPgSelWrite at h
  (try dsimp only at h)
  (repeat' split at h) <;> (simp only [Host.Outcome.next.injEq] at h; subst h; first | (simp [*]; done) | with_reducible rfl)

theorem view_execSmcFill {m : Piece → Bool} (a0 : Nat) (a1 : Nat) (a2 : State) (t : State) (h0 : m .host = true) (h1 : m .cmds = true) (h2 : m .ledger = true) (h3 : m .entries = true) (h4 : m .slots = true) (h5 : m .smc = true) (h6 : m .lines = true) (h : execSmcFill a0 a1 a2 = .next t) : view m t = view m a2 := by
  unfold execSmcFill at h
  (try dsimp only at h)
  (repeat' split at h) <;> (simp only [Host.Outcome.next.injEq] at h; subst h; first | (simp [*]; done) | with_reducible rfl)

theorem view_execSmcParkedRepresent {m : Piece → Bool} (a0 : Nat) (a1 : Nat) (a2 : State) (t : State) (h0 : m .host = true) (h1 : m .cmds = true) (h2 : m .ledger = true) (h3 : m .entries = true) (h4 : m .slots = true) (h5 : m .smc = true) (h6 : m .lines = true) (h : execSmcParkedRepresent a0 a1 a2 = .next t) : view m t = view m a2 := by
  unfold execSmcParkedRepresent at h
  (try dsimp only at h)
  (repeat' split at h) <;> (simp only [Host.Outcome.next.injEq] at h; subst h; first | (simp [*]; done) | with_reducible rfl)

theorem view_execSmcOffer {m : Piece → Bool} (a0 : State) (t : State) (h0 : m .ledger = true) (h1 : m .smc = true) (h : execSmcOffer a0 = .next t) : view m t = view m a0 := by
  unfold execSmcOffer at h
  (try dsimp only at h)
  (repeat' split at h) <;> (simp only [Host.Outcome.next.injEq] at h; subst h; first | (simp [*]; done) | with_reducible rfl)

theorem view_execSmcOfferAnswer {m : Piece → Bool} (a0 : State) (t : State) (h0 : m .ledger = true) (h1 : m .entries = true) (h2 : m .slots = true) (h3 : m .smc = true) (h4 : m .lines = true) (h : execSmcOfferAnswer a0 = .next t) : view m t = view m a0 := by
  unfold execSmcOfferAnswer at h
  (try dsimp only at h)
  (repeat' split at h) <;> (simp only [Host.Outcome.next.injEq] at h; subst h; first | (simp [*]; done) | with_reducible rfl)

theorem view_execSmcMergeDrain {m : Piece → Bool} (a0 : State) (t : State) (h0 : m .ledger = true) (h1 : m .smc = true) (h : execSmcMergeDrain a0 = .next t) : view m t = view m a0 := by
  unfold execSmcMergeDrain at h
  (try dsimp only at h)
  (repeat' split at h) <;> (simp only [Host.Outcome.next.injEq] at h; subst h; first | (simp [*]; done) | with_reducible rfl)

theorem view_execSmcPreload {m : Piece → Bool} (a0 : Nat) (a1 : Word) (a2 : State) (t : State) (h0 : m .free = true) (h1 : m .ledger = true) (h2 : m .entries = true) (h3 : m .slots = true) (h4 : m .smc = true) (h5 : m .lines = true) (h6 : m .hem = true) (h7 : m .events = true) (h : execSmcPreload a0 a1 a2 = .next t) : view m t = view m a2 := by
  unfold execSmcPreload at h
  (try dsimp only at h)
  (repeat' split at h) <;> (simp only [Host.Outcome.next.injEq] at h; subst h; first | (simp [*]; done) | with_reducible rfl)

theorem view_execSmcPreloadLock {m : Piece → Bool} (a0 : Nat) (a1 : Word) (a2 : State) (t : State) (h0 : m .free = true) (h1 : m .ledger = true) (h2 : m .entries = true) (h3 : m .slots = true) (h4 : m .smc = true) (h5 : m .lines = true) (h6 : m .hem = true) (h7 : m .events = true) (h : execSmcPreloadLock a0 a1 a2 = .next t) : view m t = view m a2 := by
  unfold execSmcPreloadLock at h
  (try dsimp only at h)
  (repeat' split at h) <;> (simp only [Host.Outcome.next.injEq] at h; subst h; first | (simp [*]; done) | with_reducible rfl)

theorem view_execSmcUnlock {m : Piece → Bool} (a0 : Nat) (a1 : Word) (a2 : State) (t : State) (h0 : m .free = true) (h1 : m .ledger = true) (h2 : m .entries = true) (h3 : m .slots = true) (h4 : m .smc = true) (h5 : m .lines = true) (h6 : m .hem = true) (h7 : m .events = true) (h : execSmcUnlock a0 a1 a2 = .next t) : view m t = view m a2 := by
  unfold execSmcUnlock at h
  (try dsimp only at h)
  (repeat' split at h) <;> (simp only [Host.Outcome.next.injEq] at h; subst h; first | (simp [*]; done) | with_reducible rfl)

theorem view_execSmcPreloadHeldStart {m : Piece → Bool} (a0 : State) (t : State) (h0 : m .ledger = true) (h1 : m .entries = true) (h2 : m .slots = true) (h3 : m .smc = true) (h4 : m .lines = true) (h5 : m .hem = true) (h6 : m .events = true) (h : execSmcPreloadHeldStart a0 = .next t) : view m t = view m a0 := by
  unfold execSmcPreloadHeldStart at h
  (try dsimp only at h)
  (repeat' split at h) <;> (simp only [Host.Outcome.next.injEq] at h; subst h; first | (simp [*]; done) | with_reducible rfl)

theorem view_execSmcPreloadDone {m : Piece → Bool} (a0 : State) (t : State) (h0 : m .smc = true) (h1 : m .lines = true) (h2 : m .hem = true) (h3 : m .events = true) (h : execSmcPreloadDone a0 = .next t) : view m t = view m a0 := by
  unfold execSmcPreloadDone at h
  (try dsimp only at h)
  (repeat' split at h) <;> (simp only [Host.Outcome.next.injEq] at h; subst h; first | (simp [*]; done) | with_reducible rfl)

theorem view_execUnlockAll {m : Piece → Bool} (a0 : Nat) (a1 : State) (t : State) (h0 : m .smc = true) (h1 : m .lines = true) (h : execUnlockAll a0 a1 = .next t) : view m t = view m a1 := by
  unfold execUnlockAll at h
  (try dsimp only at h)
  (repeat' split at h) <;> (simp only [Host.Outcome.next.injEq] at h; subst h; first | (simp [*]; done) | with_reducible rfl)

theorem view_execCoalesceExpiry {m : Piece → Bool} (a0 : Nat) (a1 : State) (t : State) (h0 : m .cache = true) (h1 : m .stripes = true) (h : execCoalesceExpiry a0 a1 = .next t) : view m t = view m a1 := by
  unfold execCoalesceExpiry at h
  (try dsimp only at h)
  (repeat' split at h) <;> (simp only [Host.Outcome.next.injEq] at h; subst h; first | (simp [*]; done) | with_reducible rfl)

theorem view_execDestagePlan {m : Piece → Bool} (a0 : Nat) (a1 : State) (t : State) (h0 : m .drone = true) (h1 : m .jobs = true) (h2 : m .reeds = true) (h3 : m .ledger = true) (h4 : m .entries = true) (h5 : m .slots = true) (h6 : m .smc = true) (h7 : m .lines = true) (h8 : m .cache = true) (h9 : m .stripes = true) (h10 : m .appendQ = true) (h11 : m .pair = true) (h12 : m .out = true) (h : execDestagePlan a0 a1 = .next t) : view m t = view m a1 := by
  unfold execDestagePlan at h
  (try dsimp only at h)
  (repeat' split at h) <;> (simp only [Host.Outcome.next.injEq] at h; subst h; first | (simp [*]; done) | with_reducible rfl)

theorem view_execJournalAppendDone {m : Piece → Bool} (a0 : State) (t : State) (h0 : m .drone = true) (h1 : m .jobs = true) (h2 : m .ledger = true) (h3 : m .cache = true) (h4 : m .stripes = true) (h5 : m .appendQ = true) (h6 : m .hem = true) (h7 : m .events = true) (h : execJournalAppendDone a0 = .next t) : view m t = view m a0 := by
  unfold execJournalAppendDone at h
  (try dsimp only at h)
  (repeat' split at h) <;> (simp only [Host.Outcome.next.injEq] at h; subst h; first | (simp [*]; done) | with_reducible rfl)

theorem view_execIntentRetire {m : Piece → Bool} (a0 : Nat) (a1 : State) (t : State) (h0 : m .drone = true) (h1 : m .jobs = true) (h2 : m .host = true) (h3 : m .volumes = true) (h4 : m .ledger = true) (h5 : m .entries = true) (h6 : m .slots = true) (h7 : m .smc = true) (h8 : m .lines = true) (h9 : m .cache = true) (h10 : m .stripes = true) (h11 : m .appendQ = true) (h12 : m .drives = true) (h13 : m .hem = true) (h14 : m .pair = true) (h15 : m .events = true) (h16 : m .out = true) (h : execIntentRetire a0 a1 = .next t) : view m t = view m a1 := by
  unfold execIntentRetire at h
  (try dsimp only at h)
  (repeat' split at h) <;> (simp only [Host.Outcome.next.injEq] at h; subst h; first | (simp [*]; done) | with_reducible rfl)

theorem view_execJrnWtForce {m : Piece → Bool} (a0 : Nat) (a1 : Bool) (a2 : State) (t : State) (h0 : m .cache = true) (h : execJrnWtForce a0 a1 a2 = .next t) : view m t = view m a2 := by
  unfold execJrnWtForce at h
  (try dsimp only at h)
  (repeat' split at h) <;> (simp only [Host.Outcome.next.injEq] at h; subst h; first | (simp [*]; done) | with_reducible rfl)

theorem view_execJrnDestageAll {m : Piece → Bool} (a0 : Nat) (a1 : State) (t : State) (h0 : m .cache = true) (h1 : m .stripes = true) (h2 : m .hem = true) (h3 : m .events = true) (h : execJrnDestageAll a0 a1 = .next t) : view m t = view m a1 := by
  unfold execJrnDestageAll at h
  (try dsimp only at h)
  (repeat' split at h) <;> (simp only [Host.Outcome.next.injEq] at h; subst h; first | (simp [*]; done) | with_reducible rfl)

theorem view_execPwrFailAssert {m : Piece → Bool} (a0 : State) (t : State) (h0 : m .cache = true) (h1 : m .vault = true) (h2 : m .hem = true) (h3 : m .events = true) (h4 : m .trials = true) (h5 : m .pins = true) (h : execPwrFailAssert a0 = .next t) : view m t = view m a0 := by
  unfold execPwrFailAssert at h
  (try dsimp only at h)
  (repeat' split at h) <;> (simp only [Host.Outcome.next.injEq] at h; subst h; first | (simp [*]; done) | with_reducible rfl)

theorem view_execDumpStart {m : Piece → Bool} (a0 : State) (t : State) (h0 : m .halted = true) (h1 : m .loader = true) (h2 : m .ldrState = true) (h3 : m .drone = true) (h4 : m .jobs = true) (h5 : m .host = true) (h6 : m .volumes = true) (h7 : m .ledger = true) (h8 : m .entries = true) (h9 : m .slots = true) (h10 : m .smc = true) (h11 : m .lines = true) (h12 : m .cache = true) (h13 : m .stripes = true) (h14 : m .appendQ = true) (h15 : m .vault = true) (h16 : m .drives = true) (h17 : m .clusters = true) (h18 : m .hem = true) (h19 : m .pair = true) (h20 : m .events = true) (h21 : m .mgmt = true) (h22 : m .out = true) (h : execDumpStart a0 = .next t) : view m t = view m a0 := by
  unfold execDumpStart at h
  (try dsimp only at h)
  (repeat' split at h) <;> (simp only [Host.Outcome.next.injEq] at h; subst h; first | (simp [*]; done) | with_reducible rfl)

theorem view_execDumpJournalSafe {m : Piece → Bool} (a0 : State) (t : State) (h0 : m .drone = true) (h1 : m .jobs = true) (h2 : m .cache = true) (h3 : m .vault = true) (h : execDumpJournalSafe a0 = .next t) : view m t = view m a0 := by
  unfold execDumpJournalSafe at h
  (try dsimp only at h)
  (repeat' split at h) <;> (simp only [Host.Outcome.next.injEq] at h; subst h; first | (simp [*]; done) | with_reducible rfl)

theorem view_execDumpFlush {m : Piece → Bool} (a0 : State) (t : State) (h0 : m .drone = true) (h1 : m .jobs = true) (h2 : m .cache = true) (h3 : m .vault = true) (h : execDumpFlush a0 = .next t) : view m t = view m a0 := by
  unfold execDumpFlush at h
  (try dsimp only at h)
  (repeat' split at h) <;> (simp only [Host.Outcome.next.injEq] at h; subst h; first | (simp [*]; done) | with_reducible rfl)

theorem view_execJrnDumpDone {m : Piece → Bool} (a0 : State) (t : State) (h0 : m .halted = true) (h1 : m .drone = true) (h2 : m .jobs = true) (h3 : m .cache = true) (h4 : m .vault = true) (h5 : m .drives = true) (h6 : m .clusters = true) (h7 : m .hem = true) (h8 : m .events = true) (h : execJrnDumpDone a0 = .next t) : view m t = view m a0 := by
  unfold execJrnDumpDone at h
  (try dsimp only at h)
  (repeat' split at h) <;> (simp only [Host.Outcome.next.injEq] at h; subst h; first | (simp [*]; done) | with_reducible rfl)

theorem view_execRestoreBegin {m : Piece → Bool} (a0 : RestoreFind) (a1 : State) (t : State) (h0 : m .image = true) (h1 : m .loader = true) (h2 : m .imgId = true) (h3 : m .drone = true) (h4 : m .jobs = true) (h5 : m .host = true) (h6 : m .volumes = true) (h7 : m .ledger = true) (h8 : m .entries = true) (h9 : m .slots = true) (h10 : m .smc = true) (h11 : m .lines = true) (h12 : m .cache = true) (h13 : m .stripes = true) (h14 : m .appendQ = true) (h15 : m .vault = true) (h16 : m .array = true) (h17 : m .lost = true) (h18 : m .drives = true) (h19 : m .hem = true) (h20 : m .pair = true) (h21 : m .events = true) (h22 : m .mgmt = true) (h23 : m .out = true) (h : execRestoreBegin a0 a1 = .next t) : view m t = view m a1 := by
  have b : ∀ u : State, view m (beginRestore a0 salvageHeld u) = view m u := fun u =>
    view_beginRestore _ _ _ ‹_› ‹_› ‹_› ‹_› ‹_› ‹_› ‹_› ‹_› ‹_› ‹_› ‹_› ‹_› ‹_› ‹_› ‹_› ‹_› ‹_› ‹_› ‹_› fun t => view_salvageHeld _ ‹_› ‹_› ‹_› ‹_› ‹_› ‹_› ‹_› ‹_› ‹_› ‹_› ‹_› ‹_› ‹_› ‹_› ‹_› ‹_› ‹_› ‹_› ‹_› ‹_› ‹_› ‹_› ‹_› ‹_›
  unfold execRestoreBegin at h
  (repeat' split at h) <;> simp only [Host.Outcome.next.injEq] at h <;> subst h <;> simp [*]

theorem view_execRestoreDriveTimeout {m : Piece → Bool} (a0 : Nat) (a1 : State) (t : State) (h0 : m .drone = true) (h1 : m .posted = true) (h2 : m .jobs = true) (h3 : m .host = true) (h4 : m .volumes = true) (h5 : m .reeds = true) (h6 : m .ledger = true) (h7 : m .entries = true) (h8 : m .slots = true) (h9 : m .smc = true) (h10 : m .lines = true) (h11 : m .cache = true) (h12 : m .appendQ = true) (h13 : m .vault = true) (h14 : m .array = true) (h15 : m .drives = true) (h16 : m .hem = true) (h17 : m .pair = true) (h18 : m .events = true) (h19 : m .out = true) (h : execRestoreDriveTimeout a0 a1 = .next t) : view m t = view m a1 := by
  unfold execRestoreDriveTimeout at h
  (try dsimp only at h)
  (repeat' split at h) <;> (simp only [Host.Outcome.next.injEq] at h; subst h; first | (simp [*]; done) | with_reducible rfl)

theorem view_execJrnRestoreDone {m : Piece → Bool} (a0 : List PageFind) (a1 : State) (t : State) (h0 : m .cache = true) (h1 : m .stripes = true) (h2 : m .appendQ = true) (h3 : m .vault = true) (h4 : m .array = true) (h5 : m .lost = true) (h6 : m .hem = true) (h7 : m .pair = true) (h8 : m .events = true) (h9 : m .out = true) (h : execJrnRestoreDone a0 a1 = .next t) : view m t = view m a1 := by
  unfold execJrnRestoreDone at h
  (try dsimp only at h)
  (repeat' split at h) <;> (simp only [Host.Outcome.next.injEq] at h; subst h; first | (simp [*]; done) | with_reducible rfl)

theorem view_execReplay {m : Piece → Bool} (a0 : State) (t : State) (h0 : m .drone = true) (h1 : m .jobs = true) (h2 : m .reeds = true) (h3 : m .ledger = true) (h4 : m .entries = true) (h5 : m .slots = true) (h6 : m .smc = true) (h7 : m .lines = true) (h8 : m .cache = true) (h9 : m .stripes = true) (h10 : m .appendQ = true) (h11 : m .vault = true) (h12 : m .pair = true) (h13 : m .out = true) (h : execReplay a0 = .next t) : view m t = view m a0 := by
  unfold execReplay at h
  (try dsimp only at h)
  (repeat' split at h) <;> (simp only [Host.Outcome.next.injEq] at h; subst h; first | (simp [*]; done) | with_reducible rfl)

theorem view_execEpochRelease {m : Piece → Bool} (a0 : State) (t : State) (h0 : m .drone = true) (h1 : m .jobs = true) (h2 : m .cache = true) (h3 : m .vault = true) (h : execEpochRelease a0 = .next t) : view m t = view m a0 := by
  unfold execEpochRelease at h
  (try dsimp only at h)
  (repeat' split at h) <;> (simp only [Host.Outcome.next.injEq] at h; subst h; first | (simp [*]; done) | with_reducible rfl)

theorem view_execRestoreResume {m : Piece → Bool} (a0 : State) (t : State) (h0 : m .cache = true) (h1 : m .vault = true) (h2 : m .pins = true) (h : execRestoreResume a0 = .next t) : view m t = view m a0 := by
  unfold execRestoreResume at h
  (try dsimp only at h)
  (repeat' split at h) <;> (simp only [Host.Outcome.next.injEq] at h; subst h; first | (simp [*]; done) | with_reducible rfl)

theorem view_execDriveCommandTimeout {m : Piece → Bool} (a0 : Nat) (a1 : State) (t : State) (h0 : m .drone = true) (h1 : m .posted = true) (h2 : m .jobs = true) (h3 : m .array = true) (h : execDriveCommandTimeout a0 a1 = .next t) : view m t = view m a1 := by
  unfold execDriveCommandTimeout at h
  (try dsimp only at h)
  (repeat' split at h) <;> (simp only [Host.Outcome.next.injEq] at h; subst h; first | (simp [*]; done) | with_reducible rfl)

theorem view_execSmartPoll {m : Piece → Bool} (a0 : Nat) (a1 : Nat) (a2 : Nat) (a3 : State) (t : State) (h0 : m .ledger = true) (h1 : m .array = true) (h2 : m .drives = true) (h3 : m .hem = true) (h4 : m .events = true) (h : execSmartPoll a0 a1 a2 a3 = .next t) : view m t = view m a3 := by
  unfold execSmartPoll at h
  (try dsimp only at h)
  (repeat' split at h) <;> (simp only [Host.Outcome.next.injEq] at h; subst h; first | (simp [*]; done) | with_reducible rfl)

theorem view_execFailOrder {m : Piece → Bool} (a0 : Nat) (a1 : Nat) (a2 : State) (t : State) (h0 : m .ledger = true) (h1 : m .slots = true) (h2 : m .array = true) (h : execFailOrder a0 a1 a2 = .next t) : view m t = view m a2 := by
  unfold execFailOrder at h
  (try dsimp only at h)
  (repeat' split at h) <;> (simp only [Host.Outcome.next.injEq] at h; subst h; first | (simp [*]; done) | with_reducible rfl)

theorem view_execForgetReturned {m : Piece → Bool} (a0 : Nat) (a1 : Nat) (a2 : State) (t : State) (h0 : m .drone = true) (h1 : m .host = true) (h2 : m .volumes = true) (h3 : m .ledger = true) (h4 : m .entries = true) (h5 : m .slots = true) (h6 : m .smc = true) (h7 : m .lines = true) (h8 : m .cache = true) (h9 : m .appendQ = true) (h10 : m .array = true) (h11 : m .drives = true) (h12 : m .hem = true) (h13 : m .pair = true) (h14 : m .events = true) (h15 : m .out = true) (h : execForgetReturned a0 a1 a2 = .next t) : view m t = view m a2 := by
  unfold execForgetReturned at h
  (try dsimp only at h)
  (repeat' split at h) <;> (simp only [Host.Outcome.next.injEq] at h; subst h; first | (simp [*]; done) | with_reducible rfl)

theorem view_execRebuildParcelStart {m : Piece → Bool} (a0 : State) (t : State) (h0 : m .drone = true) (h1 : m .jobs = true) (h2 : m .host = true) (h3 : m .volumes = true) (h4 : m .reeds = true) (h5 : m .ledger = true) (h6 : m .entries = true) (h7 : m .slots = true) (h8 : m .smc = true) (h9 : m .lines = true) (h10 : m .cache = true) (h11 : m .appendQ = true) (h12 : m .array = true) (h13 : m .drives = true) (h14 : m .hem = true) (h15 : m .pair = true) (h16 : m .events = true) (h17 : m .out = true) (h : execRebuildParcelStart a0 = .next t) : view m t = view m a0 := by
  unfold execRebuildParcelStart at h
  (try dsimp only at h)
  (repeat' split at h) <;> (simp only [Host.Outcome.next.injEq] at h; subst h; first | (simp [*]; done) | with_reducible rfl)

theorem view_execRebuildStripeDone {m : Piece → Bool} (a0 : Nat) (a1 : Nat) (a2 : State) (t : State) (h0 : m .drone = true) (h1 : m .jobs = true) (h2 : m .reeds = true) (h3 : m .array = true) (h4 : m .lost = true) (h5 : m .hem = true) (h6 : m .pair = true) (h7 : m .events = true) (h8 : m .out = true) (h : execRebuildStripeDone a0 a1 a2 = .next t) : view m t = view m a2 := by
  unfold execRebuildStripeDone at h
  (try dsimp only at h)
  (repeat' split at h) <;> (simp only [Host.Outcome.next.injEq] at h; subst h; first | (simp [*]; done) | with_reducible rfl)

theorem view_execScrubStripeStart {m : Piece → Bool} (a0 : State) (t : State) (h0 : m .drone = true) (h1 : m .jobs = true) (h2 : m .reeds = true) (h3 : m .ledger = true) (h4 : m .entries = true) (h5 : m .slots = true) (h6 : m .smc = true) (h7 : m .lines = true) (h8 : m .array = true) (h9 : m .hem = true) (h10 : m .events = true) (h : execScrubStripeStart a0 = .next t) : view m t = view m a0 := by
  unfold execScrubStripeStart at h
  (try dsimp only at h)
  (repeat' split at h) <;> (simp only [Host.Outcome.next.injEq] at h; subst h; first | (simp [*]; done) | with_reducible rfl)

theorem view_execScrubCheckDone {m : Piece → Bool} (a0 : Nat) (a1 : Nat) (a2 : Nat) (a3 : State) (t : State) (h0 : m .drone = true) (h1 : m .jobs = true) (h2 : m .reeds = true) (h : execScrubCheckDone a0 a1 a2 a3 = .next t) : view m t = view m a3 := by
  unfold execScrubCheckDone at h
  (try dsimp only at h)
  (repeat' split at h) <;> (simp only [Host.Outcome.next.injEq] at h; subst h; first | (simp [*]; done) | with_reducible rfl)

theorem view_execScrubBehind {m : Piece → Bool} (a0 : State) (t : State) (h0 : m .array = true) (h1 : m .hem = true) (h2 : m .events = true) (h : execScrubBehind a0 = .next t) : view m t = view m a0 := by
  unfold execScrubBehind at h
  (try dsimp only at h)
  (repeat' split at h) <;> (simp only [Host.Outcome.next.injEq] at h; subst h; first | (simp [*]; done) | with_reducible rfl)

theorem view_execPlcLostSelWrite {m : Piece → Bool} (a0 : Nat) (a1 : Word) (a2 : State) (t : State) (h0 : m .free = true) (h1 : m .array = true) (h : execPlcLostSelWrite a0 a1 a2 = .next t) : view m t = view m a2 := by
  unfold execPlcLostSelWrite at h
  (try dsimp only at h)
  (repeat' split at h) <;> (simp only [Host.Outcome.next.injEq] at h; subst h; first | (simp [*]; done) | with_reducible rfl)

theorem view_execClusterEnable {m : Piece → Bool} (a0 : Nat) (a1 : Nat) (a2 : Word) (a3 : State) (t : State) (h0 : m .free = true) (h1 : m .drone = true) (h2 : m .jobs = true) (h3 : m .array = true) (h4 : m .drives = true) (h5 : m .clusters = true) (h6 : m .hem = true) (h7 : m .events = true) (h8 : m .trials = true) (h : execClusterEnable a0 a1 a2 a3 = .next t) : view m t = view m a3 := by
  unfold execClusterEnable at h
  (try dsimp only at h)
  (repeat' split at h) <;> (simp only [Host.Outcome.next.injEq] at h; subst h; first | (simp [*]; done) | with_reducible rfl)

theorem view_execClusterDisable {m : Piece → Bool} (a0 : Nat) (a1 : Nat) (a2 : Word) (a3 : State) (t : State) (h0 : m .free = true) (h1 : m .drone = true) (h2 : m .jobs = true) (h3 : m .array = true) (h4 : m .drives = true) (h5 : m .clusters = true) (h6 : m .hem = true) (h7 : m .events = true) (h8 : m .trials = true) (h : execClusterDisable a0 a1 a2 a3 = .next t) : view m t = view m a3 := by
  unfold execClusterDisable at h
  (try dsimp only at h)
  (repeat' split at h) <;> (simp only [Host.Outcome.next.injEq] at h; subst h; first | (simp [*]; done) | with_reducible rfl)

theorem view_execDrvPerstRelease {m : Piece → Bool} (a0 : Nat) (a1 : Nat) (a2 : State) (t : State) (h0 : m .drives = true) (h1 : m .clusters = true) (h : execDrvPerstRelease a0 a1 a2 = .next t) : view m t = view m a2 := by
  unfold execDrvPerstRelease at h
  (try dsimp only at h)
  (repeat' split at h) <;> (simp only [Host.Outcome.next.injEq] at h; subst h; first | (simp [*]; done) | with_reducible rfl)

theorem view_execDriveArrival {m : Piece → Bool} (a0 : Nat) (a1 : Nat) (a2 : Nat) (a3 : Nat) (a4 : Nat) (a5 : State) (t : State) (h0 : m .drone = true) (h1 : m .jobs = true) (h2 : m .array = true) (h3 : m .drives = true) (h4 : m .clusters = true) (h5 : m .hem = true) (h6 : m .pair = true) (h7 : m .events = true) (h8 : m .out = true) (h : execDriveArrival a0 a1 a2 a3 a4 a5 = .next t) : view m t = view m a5 := by
  unfold execDriveArrival at h
  (try dsimp only at h)
  (repeat' split at h) <;> (simp only [Host.Outcome.next.injEq] at h; subst h; first | (simp [*]; done) | with_reducible rfl)

theorem view_execAdminCompletion {m : Piece → Bool} (a0 : Nat) (a1 : AdminAnswer) (a2 : State) (t : State) (h0 : m .drone = true) (h1 : m .host = true) (h2 : m .volumes = true) (h3 : m .ledger = true) (h4 : m .entries = true) (h5 : m .slots = true) (h6 : m .smc = true) (h7 : m .lines = true) (h8 : m .cache = true) (h9 : m .appendQ = true) (h10 : m .array = true) (h11 : m .drives = true) (h12 : m .hem = true) (h13 : m .pair = true) (h14 : m .events = true) (h15 : m .out = true) (h : execAdminCompletion a0 a1 a2 = .next t) : view m t = view m a2 := by
  unfold execAdminCompletion at h
  (try dsimp only at h)
  (repeat' split at h) <;> (simp only [Host.Outcome.next.injEq] at h; subst h; first | (simp [*]; done) | with_reducible rfl)

theorem view_execDriveLinkDown {m : Piece → Bool} (a0 : Nat) (a1 : State) (t : State) (h0 : m .drives = true) (h : execDriveLinkDown a0 a1 = .next t) : view m t = view m a1 := by
  unfold execDriveLinkDown at h
  (try dsimp only at h)
  (repeat' split at h) <;> (simp only [Host.Outcome.next.injEq] at h; subst h; first | (simp [*]; done) | with_reducible rfl)

theorem view_execDriveDepart {m : Piece → Bool} (a0 : Nat) (a1 : State) (t : State) (h0 : m .drone = true) (h1 : m .jobs = true) (h2 : m .array = true) (h3 : m .drives = true) (h4 : m .hem = true) (h5 : m .events = true) (h : execDriveDepart a0 a1 = .next t) : view m t = view m a1 := by
  unfold execDriveDepart at h
  (try dsimp only at h)
  (repeat' split at h) <;> (simp only [Host.Outcome.next.injEq] at h; subst h; first | (simp [*]; done) | with_reducible rfl)

theorem view_execCstsPoll {m : Piece → Bool} (a0 : Nat) (a1 : Bool) (a2 : State) (t : State) (h0 : m .array = true) (h : execCstsPoll a0 a1 a2 = .next t) : view m t = view m a2 := by
  unfold execCstsPoll at h
  (try dsimp only at h)
  (repeat' split at h) <;> (simp only [Host.Outcome.next.injEq] at h; subst h; first | (simp [*]; done) | with_reducible rfl)

theorem view_execDriveDmaRefused {m : Piece → Bool} (a0 : Nat) (a1 : State) (t : State) (h0 : m .drives = true) (h1 : m .hem = true) (h2 : m .events = true) (h : execDriveDmaRefused a0 a1 = .next t) : view m t = view m a1 := by
  unfold execDriveDmaRefused at h
  (try dsimp only at h)
  (repeat' split at h) <;> (simp only [Host.Outcome.next.injEq] at h; subst h; first | (simp [*]; done) | with_reducible rfl)

theorem view_execPosMapAdopt {m : Piece → Bool} (a0 : Nat) (a1 : Nat) (a2 : Word) (a3 : State) (t : State) (h0 : m .free = true) (h1 : m .drone = true) (h2 : m .host = true) (h3 : m .volumes = true) (h4 : m .ledger = true) (h5 : m .entries = true) (h6 : m .slots = true) (h7 : m .smc = true) (h8 : m .lines = true) (h9 : m .cache = true) (h10 : m .appendQ = true) (h11 : m .drives = true) (h12 : m .posMap = true) (h13 : m .hem = true) (h14 : m .pair = true) (h15 : m .events = true) (h16 : m .out = true) (h : execPosMapAdopt a0 a1 a2 a3 = .next t) : view m t = view m a3 := by
  unfold execPosMapAdopt at h
  (try dsimp only at h)
  (repeat' split at h) <;> (simp only [Host.Outcome.next.injEq] at h; subst h; first | (simp [*]; done) | with_reducible rfl)

theorem view_execPosMapValidSet {m : Piece → Bool} (a0 : Nat) (a1 : Nat) (a2 : Word) (a3 : State) (t : State) (h0 : m .free = true) (h1 : m .drone = true) (h2 : m .host = true) (h3 : m .volumes = true) (h4 : m .ledger = true) (h5 : m .entries = true) (h6 : m .slots = true) (h7 : m .smc = true) (h8 : m .lines = true) (h9 : m .cache = true) (h10 : m .appendQ = true) (h11 : m .drives = true) (h12 : m .posMap = true) (h13 : m .hem = true) (h14 : m .pair = true) (h15 : m .events = true) (h16 : m .out = true) (h : execPosMapValidSet a0 a1 a2 a3 = .next t) : view m t = view m a3 := by
  unfold execPosMapValidSet at h
  (try dsimp only at h)
  (repeat' split at h) <;> (simp only [Host.Outcome.next.injEq] at h; subst h; first | (simp [*]; done) | with_reducible rfl)

theorem view_execHemSample {m : Piece → Bool} (a0 : BitVec 16) (a1 : BitVec 16) (a2 : BitVec 16) (a3 : State) (t : State) (h0 : m .hem = true) (h1 : m .events = true) (h : execHemSample a0 a1 a2 a3 = .next t) : view m t = view m a3 := by
  unfold execHemSample at h
  (try dsimp only at h)
  (repeat' split at h) <;> (simp only [Host.Outcome.next.injEq] at h; subst h; first | (simp [*]; done) | with_reducible rfl)

theorem view_execHemSenseFault {m : Piece → Bool} (a0 : State) (t : State) (h0 : m .hem = true) (h1 : m .events = true) (h : execHemSenseFault a0 = .next t) : view m t = view m a0 := by
  unfold execHemSenseFault at h
  (try dsimp only at h)
  (repeat' split at h) <;> (simp only [Host.Outcome.next.injEq] at h; subst h; first | (simp [*]; done) | with_reducible rfl)

theorem view_execSampleGap {m : Piece → Bool} (a0 : State) (t : State) (h0 : m .hem = true) (h : execSampleGap a0 = .next t) : view m t = view m a0 := by
  unfold execSampleGap at h
  (try dsimp only at h)
  (repeat' split at h) <;> (simp only [Host.Outcome.next.injEq] at h; subst h; first | (simp [*]; done) | with_reducible rfl)

theorem view_execHemFull {m : Piece → Bool} (a0 : State) (t : State) (h0 : m .hem = true) (h1 : m .events = true) (h : execHemFull a0 = .next t) : view m t = view m a0 := by
  unfold execHemFull at h
  (try dsimp only at h)
  (repeat' split at h) <;> (simp only [Host.Outcome.next.injEq] at h; subst h; first | (simp [*]; done) | with_reducible rfl)

theorem view_execEmptyAnchor {m : Piece → Bool} (a0 : State) (t : State) (h0 : m .hem = true) (h1 : m .events = true) (h : execEmptyAnchor a0 = .next t) : view m t = view m a0 := by
  unfold execEmptyAnchor at h
  (try dsimp only at h)
  (repeat' split at h) <;> (simp only [Host.Outcome.next.injEq] at h; subst h; first | (simp [*]; done) | with_reducible rfl)

theorem view_execHemRest {m : Piece → Bool} (a0 : State) (t : State) (h0 : m .hem = true) (h1 : m .events = true) (h : execHemRest a0 = .next t) : view m t = view m a0 := by
  unfold execHemRest at h
  (try dsimp only at h)
  (repeat' split at h) <;> (simp only [Host.Outcome.next.injEq] at h; subst h; first | (simp [*]; done) | with_reducible rfl)

theorem view_execReanchor {m : Piece → Bool} (a0 : State) (t : State) (h0 : m .hem = true) (h1 : m .events = true) (h : execReanchor a0 = .next t) : view m t = view m a0 := by
  unfold execReanchor at h
  (try dsimp only at h)
  (repeat' split at h) <;> (simp only [Host.Outcome.next.injEq] at h; subst h; first | (simp [*]; done) | with_reducible rfl)

theorem view_execHemStaleLearn {m : Piece → Bool} (a0 : State) (t : State) (h0 : m .hem = true) (h1 : m .events = true) (h : execHemStaleLearn a0 = .next t) : view m t = view m a0 := by
  unfold execHemStaleLearn at h
  (try dsimp only at h)
  (repeat' split at h) <;> (simp only [Host.Outcome.next.injEq] at h; subst h; first | (simp [*]; done) | with_reducible rfl)

theorem view_execCalReq {m : Piece → Bool} (a0 : Nat) (a1 : State) (t : State) (h0 : m .hem = true) (h1 : m .events = true) (h : execCalReq a0 a1 = .next t) : view m t = view m a1 := by
  unfold execCalReq at h
  (try dsimp only at h)
  (repeat' split at h) <;> (simp only [Host.Outcome.next.injEq] at h; subst h; first | (simp [*]; done) | with_reducible rfl)

theorem view_execCalAbort {m : Piece → Bool} (a0 : Nat) (a1 : State) (t : State) (h0 : m .hem = true) (h1 : m .events = true) (h : execCalAbort a0 a1 = .next t) : view m t = view m a1 := by
  unfold execCalAbort at h
  (try dsimp only at h)
  (repeat' split at h) <;> (simp only [Host.Outcome.next.injEq] at h; subst h; first | (simp [*]; done) | with_reducible rfl)

theorem view_execCalDischargeStart {m : Piece → Bool} (a0 : State) (t : State) (h0 : m .hem = true) (h1 : m .events = true) (h : execCalDischargeStart a0 = .next t) : view m t = view m a0 := by
  unfold execCalDischargeStart at h
  (try dsimp only at h)
  (repeat' split at h) <;> (simp only [Host.Outcome.next.injEq] at h; subst h; first | (simp [*]; done) | with_reducible rfl)

theorem view_execCalDischargeEnd {m : Piece → Bool} (a0 : State) (t : State) (h0 : m .hem = true) (h1 : m .events = true) (h : execCalDischargeEnd a0 = .next t) : view m t = view m a0 := by
  unfold execCalDischargeEnd at h
  (try dsimp only at h)
  (repeat' split at h) <;> (simp only [Host.Outcome.next.injEq] at h; subst h; first | (simp [*]; done) | with_reducible rfl)

theorem view_execShipReq {m : Piece → Bool} (a0 : Nat) (a1 : State) (t : State) (h0 : m .hem = true) (h : execShipReq a0 a1 = .next t) : view m t = view m a1 := by
  unfold execShipReq at h
  (try dsimp only at h)
  (repeat' split at h) <;> (simp only [Host.Outcome.next.injEq] at h; subst h; first | (simp [*]; done) | with_reducible rfl)

theorem view_execShipCancel {m : Piece → Bool} (a0 : Nat) (a1 : State) (t : State) (h0 : m .hem = true) (h : execShipCancel a0 a1 = .next t) : view m t = view m a1 := by
  unfold execShipCancel at h
  (try dsimp only at h)
  (repeat' split at h) <;> (simp only [Host.Outcome.next.injEq] at h; subst h; first | (simp [*]; done) | with_reducible rfl)

theorem view_execHemShip {m : Piece → Bool} (a0 : State) (t : State) (h0 : m .hem = true) (h1 : m .events = true) (h : execHemShip a0 = .next t) : view m t = view m a0 := by
  unfold execHemShip at h
  (try dsimp only at h)
  (repeat' split at h) <;> (simp only [Host.Outcome.next.injEq] at h; subst h; first | (simp [*]; done) | with_reducible rfl)

theorem view_execHemChg {m : Piece → Bool} (a0 : Bool) (a1 : State) (t : State) (h0 : m .hem = true) (h1 : m .events = true) (h : execHemChg a0 a1 = .next t) : view m t = view m a1 := by
  unfold execHemChg at h
  (try dsimp only at h)
  (repeat' split at h) <;> (simp only [Host.Outcome.next.injEq] at h; subst h; first | (simp [*]; done) | with_reducible rfl)

theorem view_execFlitReceive {m : Piece → Bool} (a0 a2 a3 : List Byte) (a1 : State) (t : State) (h0 : m .pair = true) (h1 : m .out = true) (h : execFlitReceive a0 a2 a3 a1 = .next t) : view m t = view m a1 := by
  unfold execFlitReceive at h
  (try dsimp only at h)
  (repeat' split at h) <;> (simp only [Host.Outcome.next.injEq] at h; subst h; first | (simp [*]; done) | with_reducible rfl)

theorem view_execFlitAckReceive {m : Piece → Bool} (a0 : Nat) (a1 : Bool) (a2 : State) (t : State) (h0 : m .pair = true) (h1 : m .out = true) (h : execFlitAckReceive a0 a1 a2 = .next t) : view m t = view m a2 := by
  unfold execFlitAckReceive at h
  (try dsimp only at h)
  (repeat' split at h) <;> (simp only [Host.Outcome.next.injEq] at h; subst h; first | (simp [*]; done) | with_reducible rfl)

theorem view_execRetrainTimeout {m : Piece → Bool} (a0 : State) (t : State) (h0 : m .cache = true) (h1 : m .vault = true) (h2 : m .hem = true) (h3 : m .pair = true) (h4 : m .events = true) (h : execRetrainTimeout a0 = .next t) : view m t = view m a0 := by
  unfold execRetrainTimeout at h
  (try dsimp only at h)
  (repeat' split at h) <;> (simp only [Host.Outcome.next.injEq] at h; subst h; first | (simp [*]; done) | with_reducible rfl)

theorem view_execEpgLinkDown {m : Piece → Bool} (a0 : State) (t : State) (h0 : m .cache = true) (h1 : m .vault = true) (h2 : m .hem = true) (h3 : m .pair = true) (h4 : m .events = true) (h : execEpgLinkDown a0 = .next t) : view m t = view m a0 := by
  unfold execEpgLinkDown at h
  (try dsimp only at h)
  (repeat' split at h) <;> (simp only [Host.Outcome.next.injEq] at h; subst h; first | (simp [*]; done) | with_reducible rfl)

theorem view_execFlitSilenceTimeout {m : Piece → Bool} (a0 : State) (t : State) (h0 : m .cache = true) (h1 : m .vault = true) (h2 : m .hem = true) (h3 : m .pair = true) (h4 : m .events = true) (h : execFlitSilenceTimeout a0 = .next t) : view m t = view m a0 := by
  unfold execFlitSilenceTimeout at h
  (try dsimp only at h)
  (repeat' split at h) <;> (simp only [Host.Outcome.next.injEq] at h; subst h; first | (simp [*]; done) | with_reducible rfl)

theorem view_execEpgLinkUp {m : Piece → Bool} (a0 : State) (t : State) (h0 : m .drone = true) (h1 : m .jobs = true) (h2 : m .host = true) (h3 : m .volumes = true) (h4 : m .ledger = true) (h5 : m .entries = true) (h6 : m .slots = true) (h7 : m .cache = true) (h8 : m .stripes = true) (h9 : m .appendQ = true) (h10 : m .vault = true) (h11 : m .array = true) (h12 : m .lost = true) (h13 : m .hem = true) (h14 : m .pair = true) (h15 : m .events = true) (h16 : m .out = true) (h : execEpgLinkUp a0 = .next t) : view m t = view m a0 := by
  unfold execEpgLinkUp at h
  (try dsimp only at h)
  (repeat' split at h) <;> (simp only [Host.Outcome.next.injEq] at h; subst h; first | (simp [*]; done) | with_reducible rfl)

theorem view_execHello {m : Piece → Bool} (a0 : Word) (a1 : Word) (a2 : UnitState) (a3 : Word) (a4 : List Word) (a5 : Nat) (a6 : State) (t : State) (h0 : m .drone = true) (h1 : m .jobs = true) (h2 : m .host = true) (h3 : m .volumes = true) (h4 : m .ledger = true) (h5 : m .entries = true) (h6 : m .slots = true) (h7 : m .cache = true) (h8 : m .stripes = true) (h9 : m .appendQ = true) (h10 : m .vault = true) (h11 : m .array = true) (h12 : m .lost = true) (h13 : m .hem = true) (h14 : m .pair = true) (h15 : m .events = true) (h : execHello a0 a1 a2 a3 a4 a5 a6 = .next t) : view m t = view m a6 := by
  unfold execHello at h
  (try dsimp only at h)
  (repeat' split at h) <;> (simp only [Host.Outcome.next.injEq] at h; subst h; first | (simp [*]; done) | with_reducible rfl)

theorem view_execInput {m : Piece → Bool} (a0 : Nat) (a1 : Nat) (a2 : InStep) (a3 : State) (t : State) (h0 : m .image = true) (h1 : m .loader = true) (h2 : m .imgId = true) (h3 : m .drone = true) (h4 : m .jobs = true) (h5 : m .host = true) (h6 : m .volumes = true) (h7 : m .ledger = true) (h8 : m .entries = true) (h9 : m .slots = true) (h10 : m .smc = true) (h11 : m .lines = true) (h12 : m .cache = true) (h13 : m .stripes = true) (h14 : m .appendQ = true) (h15 : m .vault = true) (h16 : m .array = true) (h17 : m .lost = true) (h18 : m .drives = true) (h19 : m .hem = true) (h20 : m .pair = true) (h21 : m .events = true) (h22 : m .mgmt = true) (h23 : m .out = true) (h : execInput a0 a1 a2 a3 = .next t) : view m t = view m a3 := by
  unfold execInput at h
  (try dsimp only at h)
  (repeat' split at h) <;> (simp only [Host.Outcome.next.injEq] at h; subst h; first | (simp [*]; done) | with_reducible rfl)

theorem view_execJrec {m : Piece → Bool} (a0 : Nat) (a1 : JRec) (a2 : State) (t : State) (h0 : m .image = true) (h1 : m .loader = true) (h2 : m .imgId = true) (h3 : m .drone = true) (h4 : m .jobs = true) (h5 : m .host = true) (h6 : m .volumes = true) (h7 : m .ledger = true) (h8 : m .entries = true) (h9 : m .slots = true) (h10 : m .smc = true) (h11 : m .lines = true) (h12 : m .cache = true) (h13 : m .stripes = true) (h14 : m .appendQ = true) (h15 : m .vault = true) (h16 : m .array = true) (h17 : m .lost = true) (h18 : m .drives = true) (h19 : m .hem = true) (h20 : m .pair = true) (h21 : m .events = true) (h22 : m .mgmt = true) (h23 : m .out = true) (h : execJrec a0 a1 a2 = .next t) : view m t = view m a2 := by
  unfold execJrec at h
  (try dsimp only at h)
  (repeat' split at h) <;> (simp only [Host.Outcome.next.injEq] at h; subst h; first | (simp [*]; done) | with_reducible rfl)

theorem view_execPage {m : Piece → Bool} (a0 : Nat) (a1 : Nat) (a2 : Nat) (a3 : Nat) (a4 : List Byte) (a5 : List Byte) (a6 : State) (t : State) (h0 : m .image = true) (h1 : m .loader = true) (h2 : m .imgId = true) (h3 : m .drone = true) (h4 : m .jobs = true) (h5 : m .host = true) (h6 : m .volumes = true) (h7 : m .ledger = true) (h8 : m .entries = true) (h9 : m .slots = true) (h10 : m .smc = true) (h11 : m .lines = true) (h12 : m .cache = true) (h13 : m .stripes = true) (h14 : m .appendQ = true) (h15 : m .vault = true) (h16 : m .array = true) (h17 : m .lost = true) (h18 : m .drives = true) (h19 : m .hem = true) (h20 : m .pair = true) (h21 : m .events = true) (h22 : m .mgmt = true) (h23 : m .out = true) (h : execPage a0 a1 a2 a3 a4 a5 a6 = .next t) : view m t = view m a6 := by
  unfold execPage at h
  (try dsimp only at h)
  (repeat' split at h) <;> (simp only [Host.Outcome.next.injEq] at h; subst h; first | (simp [*]; done) | with_reducible rfl)

theorem view_execDinput {m : Piece → Bool} (a0 : Nat) (a1 : Nat) (a2 : Nat) (a3 : List Byte) (a4 : State) (t : State) (h0 : m .image = true) (h1 : m .loader = true) (h2 : m .imgId = true) (h3 : m .drone = true) (h4 : m .jobs = true) (h5 : m .host = true) (h6 : m .volumes = true) (h7 : m .ledger = true) (h8 : m .entries = true) (h9 : m .slots = true) (h10 : m .smc = true) (h11 : m .lines = true) (h12 : m .cache = true) (h13 : m .stripes = true) (h14 : m .appendQ = true) (h15 : m .vault = true) (h16 : m .array = true) (h17 : m .lost = true) (h18 : m .drives = true) (h19 : m .hem = true) (h20 : m .pair = true) (h21 : m .events = true) (h22 : m .mgmt = true) (h23 : m .out = true) (h : execDinput a0 a1 a2 a3 a4 = .next t) : view m t = view m a4 := by
  unfold execDinput at h
  (try dsimp only at h)
  (repeat' split at h) <;> (simp only [Host.Outcome.next.injEq] at h; subst h; first | (simp [*]; done) | with_reducible rfl)

theorem view_execDigest {m : Piece → Bool} (a0 : Nat) (a1 : Nat) (a2 : Nat) (a3 : Nat) (a4 : Word) (a5 : Word) (a6 : List Nat) (a7 : State) (t : State) (h0 : m .image = true) (h1 : m .loader = true) (h2 : m .imgId = true) (h3 : m .drone = true) (h4 : m .jobs = true) (h5 : m .host = true) (h6 : m .volumes = true) (h7 : m .ledger = true) (h8 : m .entries = true) (h9 : m .slots = true) (h10 : m .smc = true) (h11 : m .lines = true) (h12 : m .cache = true) (h13 : m .stripes = true) (h14 : m .appendQ = true) (h15 : m .vault = true) (h16 : m .array = true) (h17 : m .lost = true) (h18 : m .drives = true) (h19 : m .hem = true) (h20 : m .pair = true) (h21 : m .events = true) (h22 : m .mgmt = true) (h23 : m .out = true) (h : execDigest a0 a1 a2 a3 a4 a5 a6 a7 = .next t) : view m t = view m a7 := by
  unfold execDigest at h
  (try dsimp only at h)
  (repeat' split at h) <;> (simp only [Host.Outcome.next.injEq] at h; subst h; first | (simp [*]; done) | with_reducible rfl)

theorem view_execAck {m : Piece → Bool} (a0 : Nat) (a1 : Nat) (a2 : Nat) (a3 : State) (t : State) (h0 : m .hem = true) (h1 : m .pair = true) (h2 : m .events = true) (h : execAck a0 a1 a2 a3 = .next t) : view m t = view m a3 := by
  unfold execAck at h
  (try dsimp only at h)
  (repeat' split at h) <;> (simp only [Host.Outcome.next.injEq] at h; subst h; first | (simp [*]; done) | with_reducible rfl)

theorem view_execBase {m : Piece → Bool} (a0 : Frame) (a1 : State) (t : State) (h0 : m .drone = true) (h1 : m .host = true) (h2 : m .volumes = true) (h3 : m .ledger = true) (h4 : m .entries = true) (h5 : m .slots = true) (h6 : m .smc = true) (h7 : m .lines = true) (h8 : m .cache = true) (h9 : m .stripes = true) (h10 : m .appendQ = true) (h11 : m .drives = true) (h12 : m .hem = true) (h13 : m .pair = true) (h14 : m .events = true) (h15 : m .out = true) (h : execBase a0 a1 = .next t) : view m t = view m a1 := by
  unfold execBase at h
  (try dsimp only at h)
  (repeat' split at h) <;> (simp only [Host.Outcome.next.injEq] at h; subst h; first | (simp [*]; done) | with_reducible rfl)

theorem view_execBaseDone {m : Piece → Bool} (a0 : State) (t : State) (h0 : m .image = true) (h1 : m .loader = true) (h2 : m .imgId = true) (h3 : m .drone = true) (h4 : m .jobs = true) (h5 : m .host = true) (h6 : m .volumes = true) (h7 : m .ledger = true) (h8 : m .entries = true) (h9 : m .slots = true) (h10 : m .smc = true) (h11 : m .lines = true) (h12 : m .cache = true) (h13 : m .stripes = true) (h14 : m .appendQ = true) (h15 : m .vault = true) (h16 : m .array = true) (h17 : m .lost = true) (h18 : m .drives = true) (h19 : m .hem = true) (h20 : m .pair = true) (h21 : m .events = true) (h22 : m .mgmt = true) (h23 : m .out = true) (h : execBaseDone a0 = .next t) : view m t = view m a0 := by
  unfold execBaseDone at h
  (try dsimp only at h)
  (repeat' split at h) <;> (simp only [Host.Outcome.next.injEq] at h; subst h; first | (simp [*]; done) | with_reducible rfl)

theorem view_execMismatch {m : Piece → Bool} (a0 : Nat) (a1 : State) (t : State) (h0 : m .pair = true) (h : execMismatch a0 a1 = .next t) : view m t = view m a1 := by
  unfold execMismatch at h
  (try dsimp only at h)
  (repeat' split at h) <;> (simp only [Host.Outcome.next.injEq] at h; subst h; first | (simp [*]; done) | with_reducible rfl)

theorem view_execDrop {m : Piece → Bool} (a0 : State) (t : State) (h0 : m .drone = true) (h1 : m .jobs = true) (h2 : m .host = true) (h3 : m .volumes = true) (h4 : m .ledger = true) (h5 : m .entries = true) (h6 : m .slots = true) (h7 : m .cache = true) (h8 : m .stripes = true) (h9 : m .appendQ = true) (h10 : m .vault = true) (h11 : m .array = true) (h12 : m .lost = true) (h13 : m .hem = true) (h14 : m .pair = true) (h15 : m .events = true) (h : execDrop a0 = .next t) : view m t = view m a0 := by
  unfold execDrop at h
  (try dsimp only at h)
  (repeat' split at h) <;> (simp only [Host.Outcome.next.injEq] at h; subst h; first | (simp [*]; done) | with_reducible rfl)

theorem view_execHandover {m : Piece → Bool} (a0 : Nat) (a1 : State) (t : State) (h0 : m .pair = true) (h : execHandover a0 a1 = .next t) : view m t = view m a1 := by
  unfold execHandover at h
  (try dsimp only at h)
  (repeat' split at h) <;> (simp only [Host.Outcome.next.injEq] at h; subst h; first | (simp [*]; done) | with_reducible rfl)

theorem view_execLiveImg {m : Piece → Bool} (a0 : Word) (a1 : Nat) (a2 : State) (t : State) (h0 : m .loader = true) (h1 : m .pair = true) (h2 : m .out = true) (h : execLiveImg a0 a1 a2 = .next t) : view m t = view m a2 := by
  unfold execLiveImg at h
  (try dsimp only at h)
  (repeat' split at h) <;> (simp only [Host.Outcome.next.injEq] at h; subst h; first | (simp [*]; done) | with_reducible rfl)

theorem view_execDigestUnconfirmedDrop {m : Piece → Bool} (a0 : State) (t : State) (h0 : m .hem = true) (h1 : m .pair = true) (h2 : m .events = true) (h3 : m .out = true) (h : execDigestUnconfirmedDrop a0 = .next t) : view m t = view m a0 := by
  unfold execDigestUnconfirmedDrop at h
  (try dsimp only at h)
  (repeat' split at h) <;> (simp only [Host.Outcome.next.injEq] at h; subst h; first | (simp [*]; done) | with_reducible rfl)

theorem view_execAckTimeoutDrop {m : Piece → Bool} (a0 : State) (t : State) (h0 : m .hem = true) (h1 : m .pair = true) (h2 : m .events = true) (h3 : m .out = true) (h : execAckTimeoutDrop a0 = .next t) : view m t = view m a0 := by
  unfold execAckTimeoutDrop at h
  (try dsimp only at h)
  (repeat' split at h) <;> (simp only [Host.Outcome.next.injEq] at h; subst h; first | (simp [*]; done) | with_reducible rfl)

theorem view_execRelayPostRound {m : Piece → Bool} (a0 : State) (t : State) (h0 : m .drone = true) (h1 : m .jobs = true) (h2 : m .pair = true) (h : execRelayPostRound a0 = .next t) : view m t = view m a0 := by
  unfold execRelayPostRound at h
  (try dsimp only at h)
  (repeat' split at h) <;> (simp only [Host.Outcome.next.injEq] at h; subst h; first | (simp [*]; done) | with_reducible rfl)

theorem view_execPostRoundDurable {m : Piece → Bool} (a0 : State) (t : State) (h0 : m .hem = true) (h1 : m .pair = true) (h2 : m .events = true) (h : execPostRoundDurable a0 = .next t) : view m t = view m a0 := by
  unfold execPostRoundDurable at h
  (try dsimp only at h)
  (repeat' split at h) <;> (simp only [Host.Outcome.next.injEq] at h; subst h; first | (simp [*]; done) | with_reducible rfl)

theorem view_execPostRead {m : Piece → Bool} (a0 : State) (t : State) (h0 : m .drone = true) (h1 : m .pair = true) (h : execPostRead a0 = .next t) : view m t = view m a0 := by
  unfold execPostRead at h
  (try dsimp only at h)
  (repeat' split at h) <;> (simp only [Host.Outcome.next.injEq] at h; subst h; first | (simp [*]; done) | with_reducible rfl)

theorem view_execPostReadResult {m : Piece → Bool} (a0 : List (List Byte)) (a1 : State) (t : State) (h0 : m .drone = true) (h1 : m .jobs = true) (h2 : m .host = true) (h3 : m .volumes = true) (h4 : m .ledger = true) (h5 : m .entries = true) (h6 : m .slots = true) (h7 : m .cache = true) (h8 : m .stripes = true) (h9 : m .appendQ = true) (h10 : m .vault = true) (h11 : m .array = true) (h12 : m .lost = true) (h13 : m .hem = true) (h14 : m .pair = true) (h15 : m .events = true) (h : execPostReadResult a0 a1 = .next t) : view m t = view m a1 := by
  unfold execPostReadResult at h
  (try dsimp only at h)
  (repeat' split at h) <;> (simp only [Host.Outcome.next.injEq] at h; subst h; first | (simp [*]; done) | with_reducible rfl)

theorem view_execCompletionFenceHold {m : Piece → Bool} (a0 : State) (t : State) (h0 : m .pair = true) (h : execCompletionFenceHold a0 = .next t) : view m t = view m a0 := by
  unfold execCompletionFenceHold at h
  (try dsimp only at h)
  (repeat' split at h) <;> (simp only [Host.Outcome.next.injEq] at h; subst h; first | (simp [*]; done) | with_reducible rfl)

theorem view_execEpgTakeover {m : Piece → Bool} (a0 : State) (t : State) (h0 : m .drone = true) (h1 : m .jobs = true) (h2 : m .hem = true) (h3 : m .pair = true) (h4 : m .events = true) (h : execEpgTakeover a0 = .next t) : view m t = view m a0 := by
  unfold execEpgTakeover at h
  (try dsimp only at h)
  (repeat' split at h) <;> (simp only [Host.Outcome.next.injEq] at h; subst h; first | (simp [*]; done) | with_reducible rfl)

theorem view_execClaimAcquired {m : Piece → Bool} (a0 : State) (t : State) (h0 : m .drone = true) (h1 : m .posted = true) (h2 : m .jobs = true) (h3 : m .host = true) (h4 : m .volumes = true) (h5 : m .reeds = true) (h6 : m .ledger = true) (h7 : m .entries = true) (h8 : m .slots = true) (h9 : m .smc = true) (h10 : m .lines = true) (h11 : m .cache = true) (h12 : m .stripes = true) (h13 : m .appendQ = true) (h14 : m .vault = true) (h15 : m .array = true) (h16 : m .drives = true) (h17 : m .hem = true) (h18 : m .pair = true) (h19 : m .events = true) (h20 : m .out = true) (h : execClaimAcquired a0 = .next t) : view m t = view m a0 := by
  unfold execClaimAcquired at h
  (try dsimp only at h)
  (repeat' split at h) <;> (simp only [Host.Outcome.next.injEq] at h; subst h; first | (simp [*]; done) | with_reducible rfl)

theorem view_execActiveLostUnsynced {m : Piece → Bool} (a0 : State) (t : State) (h0 : m .hem = true) (h1 : m .pair = true) (h2 : m .events = true) (h : execActiveLostUnsynced a0 = .next t) : view m t = view m a0 := by
  unfold execActiveLostUnsynced at h
  (try dsimp only at h)
  (repeat' split at h) <;> (simp only [Host.Outcome.next.injEq] at h; subst h; first | (simp [*]; done) | with_reducible rfl)

theorem view_execPowerupReservation {m : Piece → Bool} (a0 : List (Option Holder)) (a1 : State) (t : State) (h0 : m .drone = true) (h1 : m .jobs = true) (h2 : m .hem = true) (h3 : m .pair = true) (h4 : m .events = true) (h : execPowerupReservation a0 a1 = .next t) : view m t = view m a1 := by
  unfold execPowerupReservation at h
  (try dsimp only at h)
  (repeat' split at h) <;> (simp only [Host.Outcome.next.injEq] at h; subst h; first | (simp [*]; done) | with_reducible rfl)

theorem view_execJoin {m : Piece → Bool} (a0 : Nat) (a1 : State) (t : State) (h0 : m .pair = true) (h : execJoin a0 a1 = .next t) : view m t = view m a1 := by
  unfold execJoin at h
  (try dsimp only at h)
  (repeat' split at h) <;> (simp only [Host.Outcome.next.injEq] at h; subst h; first | (simp [*]; done) | with_reducible rfl)

theorem view_execSalvage {m : Piece → Bool} (a0 : Nat) (a2 : State) (t : State) (hf : m .free = true) (h0 : m .drone = true) (h1 : m .jobs = true) (h2 : m .host = true) (h3 : m .volumes = true) (h4 : m .ledger = true) (h5 : m .entries = true) (h6 : m .slots = true) (h7 : m .cache = true) (h8 : m .stripes = true) (h9 : m .appendQ = true) (h10 : m .vault = true) (h11 : m .array = true) (h12 : m .lost = true) (h13 : m .hem = true) (h14 : m .pair = true) (h15 : m .events = true) (h : execSalvage a0 a2 = .next t) : view m t = view m a2 := by
  unfold execSalvage at h
  (try dsimp only at h)
  (repeat' split at h) <;> (simp only [Host.Outcome.next.injEq] at h; subst h; first | (simp [*]; done) | with_reducible rfl)

theorem view_execSwitchBack {m : Piece → Bool} (a0 : Nat) (a1 : State) (t : State) (h0 : m .pair = true) (h : execSwitchBack a0 a1 = .next t) : view m t = view m a1 := by
  unfold execSwitchBack at h
  (try dsimp only at h)
  (repeat' split at h) <;> (simp only [Host.Outcome.next.injEq] at h; subst h; first | (simp [*]; done) | with_reducible rfl)

theorem view_execForm {m : Piece → Bool} (a0 : Nat) (a1 : State) (t : State) (h0 : m .drone = true) (h1 : m .jobs = true) (h2 : m .host = true) (h3 : m .volumes = true) (h4 : m .ledger = true) (h5 : m .entries = true) (h6 : m .slots = true) (h7 : m .smc = true) (h8 : m .lines = true) (h9 : m .cache = true) (h10 : m .appendQ = true) (h11 : m .drives = true) (h12 : m .hem = true) (h13 : m .pair = true) (h14 : m .events = true) (h15 : m .out = true) (h : execForm a0 a1 = .next t) : view m t = view m a1 := by
  unfold execForm at h
  (try dsimp only at h)
  (repeat' split at h) <;> (simp only [Host.Outcome.next.injEq] at h; subst h; first | (simp [*]; done) | with_reducible rfl)

theorem view_execSwitchBackQuiesce {m : Piece → Bool} (a0 : State) (t : State) (h0 : m .drone = true) (h1 : m .jobs = true) (h2 : m .host = true) (h3 : m .volumes = true) (h4 : m .ledger = true) (h5 : m .entries = true) (h6 : m .slots = true) (h7 : m .smc = true) (h8 : m .lines = true) (h9 : m .cache = true) (h10 : m .appendQ = true) (h11 : m .drives = true) (h12 : m .hem = true) (h13 : m .pair = true) (h14 : m .events = true) (h15 : m .out = true) (h : execSwitchBackQuiesce a0 = .next t) : view m t = view m a0 := by
  unfold execSwitchBackQuiesce at h
  (try dsimp only at h)
  (repeat' split at h) <;> (simp only [Host.Outcome.next.injEq] at h; subst h; first | (simp [*]; done) | with_reducible rfl)

theorem view_execSwitchBackLapse {m : Piece → Bool} (a0 : State) (t : State) (h0 : m .host = true) (h1 : m .pair = true) (h : execSwitchBackLapse a0 = .next t) : view m t = view m a0 := by
  unfold execSwitchBackLapse at h
  (try dsimp only at h)
  (repeat' split at h) <;> (simp only [Host.Outcome.next.injEq] at h; subst h; first | (simp [*]; done) | with_reducible rfl)

theorem view_execEpgVolClearGo {m : Piece → Bool} (a0 : Nat) (a1 : Word) (a2 : State) (t : State) (h0 : m .free = true) (h1 : m .drone = true) (h2 : m .host = true) (h3 : m .volumes = true) (h4 : m .ledger = true) (h5 : m .entries = true) (h6 : m .slots = true) (h7 : m .smc = true) (h8 : m .lines = true) (h9 : m .cache = true) (h10 : m .appendQ = true) (h11 : m .drives = true) (h12 : m .hem = true) (h13 : m .pair = true) (h14 : m .events = true) (h15 : m .out = true) (h : execEpgVolClearGo a0 a1 a2 = .next t) : view m t = view m a2 := by
  unfold execEpgVolClearGo at h
  (try dsimp only at h)
  (repeat' split at h) <;> (simp only [Host.Outcome.next.injEq] at h; subst h; first | (simp [*]; done) | with_reducible rfl)

theorem view_execEpgPolicyWrite {m : Piece → Bool} (a0 : Nat) (a1 : Word) (a2 : State) (t : State) (h0 : m .free = true) (h1 : m .pair = true) (h : execEpgPolicyWrite a0 a1 a2 = .next t) : view m t = view m a2 := by
  unfold execEpgPolicyWrite at h
  (try dsimp only at h)
  (repeat' split at h) <;> (simp only [Host.Outcome.next.injEq] at h; subst h; first | (simp [*]; done) | with_reducible rfl)

theorem view_execSramPatrol {m : Piece → Bool} (a0 : List SramFind) (a1 : State) (t : State) (h0 : m .drone = true) (h1 : m .jobs = true) (h2 : m .slotMap = true) (h3 : m .host = true) (h4 : m .cmds = true) (h5 : m .dma = true) (h6 : m .reeds = true) (h7 : m .ledger = true) (h8 : m .entries = true) (h9 : m .slots = true) (h10 : m .smc = true) (h11 : m .lines = true) (h12 : m .cache = true) (h13 : m .stripes = true) (h14 : m .appendQ = true) (h15 : m .array = true) (h16 : m .lost = true) (h17 : m .hem = true) (h18 : m .pair = true) (h19 : m .health = true) (h20 : m .why = true) (h21 : m .events = true) (h22 : m .flash = true) (h23 : m .pins = true) (h24 : m .out = true) (h : execSramPatrol a0 a1 = .next t) : view m t = view m a1 := by
  unfold execSramPatrol at h
  (try dsimp only at h)
  (repeat' split at h) <;> (simp only [Host.Outcome.next.injEq] at h; subst h; first | (simp [*]; done) | with_reducible rfl)

theorem view_execHbmPatrol {m : Piece → Bool} (a0 : Nat) (a1 : List Nat) (a2 : List EccLoc) (a3 : Bool) (a4 : State) (t : State) (h0 : m .drone = true) (h1 : m .jobs = true) (h2 : m .slotMap = true) (h3 : m .host = true) (h4 : m .cmds = true) (h5 : m .dma = true) (h6 : m .reeds = true) (h7 : m .ledger = true) (h8 : m .entries = true) (h9 : m .slots = true) (h10 : m .smc = true) (h11 : m .lines = true) (h12 : m .cache = true) (h13 : m .stripes = true) (h14 : m .appendQ = true) (h15 : m .array = true) (h16 : m .lost = true) (h17 : m .hem = true) (h18 : m .pair = true) (h19 : m .health = true) (h20 : m .why = true) (h21 : m .events = true) (h22 : m .flash = true) (h23 : m .pins = true) (h24 : m .out = true) (h : execHbmPatrol a0 a1 a2 a3 a4 = .next t) : view m t = view m a4 := by
  unfold execHbmPatrol at h
  (try dsimp only at h)
  (repeat' split at h) <;> (simp only [Host.Outcome.next.injEq] at h; subst h; first | (simp [*]; done) | with_reducible rfl)

theorem view_execEccUncorrectable {m : Piece → Bool} (a0 : Nat) (a1 : EccLoc) (a2 : State) (t : State) (h0 : m .drone = true) (h1 : m .jobs = true) (h2 : m .slotMap = true) (h3 : m .host = true) (h4 : m .cmds = true) (h5 : m .dma = true) (h6 : m .reeds = true) (h7 : m .ledger = true) (h8 : m .entries = true) (h9 : m .slots = true) (h10 : m .smc = true) (h11 : m .lines = true) (h12 : m .cache = true) (h13 : m .stripes = true) (h14 : m .appendQ = true) (h15 : m .array = true) (h16 : m .lost = true) (h17 : m .hem = true) (h18 : m .pair = true) (h19 : m .health = true) (h20 : m .why = true) (h21 : m .events = true) (h22 : m .flash = true) (h23 : m .pins = true) (h24 : m .out = true) (h : execEccUncorrectable a0 a1 a2 = .next t) : view m t = view m a2 := by
  unfold execEccUncorrectable at h
  (try dsimp only at h)
  (repeat' split at h) <;> (simp only [Host.Outcome.next.injEq] at h; subst h; first | (simp [*]; done) | with_reducible rfl)

theorem view_execAgingMeasure {m : Piece → Bool} (a0 : List Nat) (a1 : State) (t : State) (h0 : m .hem = true) (h1 : m .health = true) (h2 : m .why = true) (h3 : m .events = true) (h4 : m .flash = true) (h5 : m .pins = true) (h : execAgingMeasure a0 a1 = .next t) : view m t = view m a1 := by
  unfold execAgingMeasure at h
  (try dsimp only at h)
  (repeat' split at h) <;> (simp only [Host.Outcome.next.injEq] at h; subst h; first | (simp [*]; done) | with_reducible rfl)

theorem view_execPhyMarginMeasure {m : Piece → Bool} (a0 : Nat) (a1 : Nat) (a2 : State) (t : State) (h0 : m .hem = true) (h1 : m .health = true) (h2 : m .why = true) (h3 : m .events = true) (h4 : m .flash = true) (h5 : m .pins = true) (h : execPhyMarginMeasure a0 a1 a2 = .next t) : view m t = view m a2 := by
  unfold execPhyMarginMeasure at h
  (try dsimp only at h)
  (repeat' split at h) <;> (simp only [Host.Outcome.next.injEq] at h; subst h; first | (simp [*]; done) | with_reducible rfl)

theorem view_execTempReading {m : Piece → Bool} (a0 : Int) (a1 : State) (t : State) (h0 : m .boot = true) (h1 : m .loader = true) (h2 : m .ldrState = true) (h3 : m .sampled = true) (h4 : m .slotMap = true) (h5 : m .reeds = true) (h6 : m .hem = true) (h7 : m .health = true) (h8 : m .why = true) (h9 : m .events = true) (h10 : m .mgmt = true) (h11 : m .flash = true) (h12 : m .pins = true) (h : execTempReading a0 a1 = .next t) : view m t = view m a1 := by
  unfold execTempReading at h
  (repeat' split at h) <;> simp only [Host.Outcome.next.injEq] at h <;> subst h
  · rfl
  · exact (view_bootUp _ ‹_› ‹_› ‹_› ‹_› ‹_› ‹_› ‹_› ‹_› ‹_› ‹_› ‹_› ‹_› ‹_›).trans (by simp [h0, h1, h2, h3, h4, h5, h6, h7, h8, h9, h10, h11, h12])
  · rfl
  · simp [h0, h1, h2, h3, h4, h5, h6, h7, h8, h9, h10, h11, h12]

theorem view_execThermalStop {m : Piece → Bool} (a0 : State) (t : State) (h0 : m .cache = true) (h1 : m .vault = true) (h2 : m .hem = true) (h3 : m .health = true) (h4 : m .events = true) (h5 : m .trials = true) (h6 : m .pins = true) (h : execThermalStop a0 = .next t) : view m t = view m a0 := by
  unfold execThermalStop at h
  (try dsimp only at h)
  (repeat' split at h) <;> (simp only [Host.Outcome.next.injEq] at h; subst h; first | (simp [*]; done) | with_reducible rfl)

theorem view_execThermComparator {m : Piece → Bool} (a0 : State) (t : State) (h0 : m .pins = true) (h : execThermComparator a0 = .next t) : view m t = view m a0 := by
  unfold execThermComparator at h
  (try dsimp only at h)
  (repeat' split at h) <;> (simp only [Host.Outcome.next.injEq] at h; subst h; first | (simp [*]; done) | with_reducible rfl)

theorem view_execHltSnapWrite {m : Piece → Bool} (a0 : Nat) (a1 : State) (t : State) (h0 : m .health = true) (h : execHltSnapWrite a0 a1 = .next t) : view m t = view m a1 := by
  unfold execHltSnapWrite at h
  (try dsimp only at h)
  (repeat' split at h) <;> (simp only [Host.Outcome.next.injEq] at h; subst h; first | (simp [*]; done) | with_reducible rfl)

theorem view_execEvtMaskWrite {m : Piece → Bool} (a0 : Nat) (a1 : Nat) (a2 : Word) (a3 : State) (t : State) (h0 : m .events = true) (h : execEvtMaskWrite a0 a1 a2 a3 = .next t) : view m t = view m a3 := by
  unfold execEvtMaskWrite at h
  (try dsimp only at h)
  (repeat' split at h) <;> (simp only [Host.Outcome.next.injEq] at h; subst h; first | (simp [*]; done) | with_reducible rfl)

theorem view_execEvtLogSelWrite {m : Piece → Bool} (a0 : Nat) (a1 : Word) (a2 : State) (t : State) (h0 : m .free = true) (h1 : m .events = true) (h : execEvtLogSelWrite a0 a1 a2 = .next t) : view m t = view m a2 := by
  unfold execEvtLogSelWrite at h
  (try dsimp only at h)
  (repeat' split at h) <;> (simp only [Host.Outcome.next.injEq] at h; subst h; first | (simp [*]; done) | with_reducible rfl)

theorem view_execTrlArmRequest {m : Piece → Bool} (a0 : Nat) (a1 : State) (t : State) (h0 : m .hem = true) (h1 : m .events = true) (h2 : m .trials = true) (h : execTrlArmRequest a0 a1 = .next t) : view m t = view m a1 := by
  unfold execTrlArmRequest at h
  (try dsimp only at h)
  (repeat' split at h) <;> (simp only [Host.Outcome.next.injEq] at h; subst h; first | (simp [*]; done) | with_reducible rfl)

theorem view_execTrlDisarm {m : Piece → Bool} (a0 : Nat) (a1 : State) (t : State) (h0 : m .hem = true) (h1 : m .events = true) (h2 : m .trials = true) (h : execTrlDisarm a0 a1 = .next t) : view m t = view m a1 := by
  unfold execTrlDisarm at h
  (try dsimp only at h)
  (repeat' split at h) <;> (simp only [Host.Outcome.next.injEq] at h; subst h; first | (simp [*]; done) | with_reducible rfl)

theorem view_execTrlCountDone {m : Piece → Bool} (a0 : State) (t : State) (h0 : m .hem = true) (h1 : m .events = true) (h2 : m .trials = true) (h : execTrlCountDone a0 = .next t) : view m t = view m a0 := by
  unfold execTrlCountDone at h
  (try dsimp only at h)
  (repeat' split at h) <;> (simp only [Host.Outcome.next.injEq] at h; subst h; first | (simp [*]; done) | with_reducible rfl)

theorem view_execMgwDataWrite {m : Piece → Bool} (a0 : Nat) (a1 : BitVec 32) (a2 : State) (t : State) (h0 : m .mgmt = true) (h1 : m .fuses = true) (h : execMgwDataWrite a0 a1 a2 = .next t) : view m t = view m a2 := by
  unfold execMgwDataWrite at h
  (try dsimp only at h)
  (repeat' split at h) <;> (simp only [Host.Outcome.next.injEq] at h; subst h; first | (simp [*]; done) | with_reducible rfl)

theorem view_execMgwDataRead {m : Piece → Bool} (a0 : Nat) (a1 : State) (t : State) (h0 : m .free = true) (h1 : m .mgmt = true) (h : execMgwDataRead a0 a1 = .next t) : view m t = view m a1 := by
  unfold execMgwDataRead at h
  (try dsimp only at h)
  (repeat' split at h) <;> (simp only [Host.Outcome.next.injEq] at h; subst h; first | (simp [*]; done) | with_reducible rfl)

theorem view_execMgwClaim {m : Piece → Bool} (a0 : Nat) (a1 : State) (t : State) (h0 : m .mgmt = true) (h : execMgwClaim a0 a1 = .next t) : view m t = view m a1 := by
  unfold execMgwClaim at h
  (try dsimp only at h)
  (repeat' split at h) <;> (simp only [Host.Outcome.next.injEq] at h; subst h; first | (simp [*]; done) | with_reducible rfl)

theorem view_execMgwRelease {m : Piece → Bool} (a0 : Nat) (a1 : State) (t : State) (h0 : m .mgmt = true) (h : execMgwRelease a0 a1 = .next t) : view m t = view m a1 := by
  unfold execMgwRelease at h
  (try dsimp only at h)
  (repeat' split at h) <;> (simp only [Host.Outcome.next.injEq] at h; subst h; first | (simp [*]; done) | with_reducible rfl)

theorem view_execLoad {m : Piece → Bool} (a0 : Nat) (a1 : State) (t : State) (h0 : m .loader = true) (h1 : m .ldrState = true) (h2 : m .hem = true) (h3 : m .events = true) (h4 : m .mgmt = true) (h : execLoad a0 a1 = .next t) : view m t = view m a1 := by
  unfold execLoad at h
  (try dsimp only at h)
  (repeat' split at h) <;> (simp only [Host.Outcome.next.injEq] at h; subst h; first | (simp [*]; done) | with_reducible rfl)

theorem view_execLoadLive {m : Piece → Bool} (a0 : Nat) (a1 : State) (t : State) (h0 : m .loader = true) (h1 : m .hem = true) (h2 : m .events = true) (h3 : m .mgmt = true) (h : execLoadLive a0 a1 = .next t) : view m t = view m a1 := by
  unfold execLoadLive at h
  (try dsimp only at h)
  (repeat' split at h) <;> (simp only [Host.Outcome.next.injEq] at h; subst h; first | (simp [*]; done) | with_reducible rfl)

theorem view_execImgToFlash {m : Piece → Bool} (a0 : Nat) (a1 : State) (t : State) (h0 : m .loader = true) (h1 : m .hem = true) (h2 : m .events = true) (h3 : m .mgmt = true) (h : execImgToFlash a0 a1 = .next t) : view m t = view m a1 := by
  unfold execImgToFlash at h
  (try dsimp only at h)
  (repeat' split at h) <;> (simp only [Host.Outcome.next.injEq] at h; subst h; first | (simp [*]; done) | with_reducible rfl)

theorem view_execFwUpdate {m : Piece → Bool} (a0 : Nat) (a1 : State) (t : State) (h0 : m .loader = true) (h1 : m .hem = true) (h2 : m .events = true) (h3 : m .mgmt = true) (h : execFwUpdate a0 a1 = .next t) : view m t = view m a1 := by
  unfold execFwUpdate at h
  (try dsimp only at h)
  (repeat' split at h) <;> (simp only [Host.Outcome.next.injEq] at h; subst h; first | (simp [*]; done) | with_reducible rfl)

theorem view_execHemSave {m : Piece → Bool} (a0 : Nat) (a1 : State) (t : State) (h0 : m .hem = true) (h1 : m .events = true) (h2 : m .mgmt = true) (h : execHemSave a0 a1 = .next t) : view m t = view m a1 := by
  unfold execHemSave at h
  (try dsimp only at h)
  (repeat' split at h) <;> (simp only [Host.Outcome.next.injEq] at h; subst h; first | (simp [*]; done) | with_reducible rfl)

theorem view_execHemRestore {m : Piece → Bool} (a0 : Nat) (a1 : State) (t : State) (h0 : m .hem = true) (h1 : m .events = true) (h2 : m .mgmt = true) (h : execHemRestore a0 a1 = .next t) : view m t = view m a1 := by
  unfold execHemRestore at h
  (try dsimp only at h)
  (repeat' split at h) <;> (simp only [Host.Outcome.next.injEq] at h; subst h; first | (simp [*]; done) | with_reducible rfl)

theorem view_execKeyOrder {m : Piece → Bool} (a0 : Nat) (a1 : State) (t : State) (h0 : m .hem = true) (h1 : m .events = true) (h2 : m .mgmt = true) (h : execKeyOrder a0 a1 = .next t) : view m t = view m a1 := by
  unfold execKeyOrder at h
  (try dsimp only at h)
  (repeat' split at h) <;> (simp only [Host.Outcome.next.injEq] at h; subst h; first | (simp [*]; done) | with_reducible rfl)

theorem view_execHealthSnap {m : Piece → Bool} (a0 : Nat) (a1 : State) (t : State) (h0 : m .hem = true) (h1 : m .events = true) (h2 : m .mgmt = true) (h : execHealthSnap a0 a1 = .next t) : view m t = view m a1 := by
  unfold execHealthSnap at h
  (try dsimp only at h)
  (repeat' split at h) <;> (simp only [Host.Outcome.next.injEq] at h; subst h; first | (simp [*]; done) | with_reducible rfl)

theorem view_execMgwClaimBroken {m : Piece → Bool} (a0 : Nat) (a1 : State) (t : State) (h0 : m .hem = true) (h1 : m .events = true) (h2 : m .mgmt = true) (h : execMgwClaimBroken a0 a1 = .next t) : view m t = view m a1 := by
  unfold execMgwClaimBroken at h
  (try dsimp only at h)
  (repeat' split at h) <;> (simp only [Host.Outcome.next.injEq] at h; subst h; first | (simp [*]; done) | with_reducible rfl)

theorem view_execFlashWriteDone {m : Piece → Bool} (a0 : Bool) (a1 : State) (t : State) (h0 : m .loader = true) (h1 : m .hem = true) (h2 : m .events = true) (h3 : m .mgmt = true) (h4 : m .flash = true) (h5 : m .copies = true) (h : execFlashWriteDone a0 a1 = .next t) : view m t = view m a1 := by
  unfold execFlashWriteDone at h
  (try dsimp only at h)
  (repeat' split at h) <;> (simp only [Host.Outcome.next.injEq] at h; subst h; first | (simp [*]; done) | with_reducible rfl)

theorem view_execMgwKeyChange {m : Piece → Bool} (a0 : State) (t : State) (h0 : m .hem = true) (h1 : m .events = true) (h2 : m .mgmt = true) (h3 : m .fuses = true) (h : execMgwKeyChange a0 = .next t) : view m t = view m a0 := by
  unfold execMgwKeyChange at h
  (try dsimp only at h)
  (repeat' split at h) <;> (simp only [Host.Outcome.next.injEq] at h; subst h; first | (simp [*]; done) | with_reducible rfl)

theorem view_execMgmtWatchdogReset {m : Piece → Bool} (a0 : State) (t : State) (h0 : m .free = true) (h1 : m .loader = true) (h2 : m .ldrState = true) (h3 : m .imgId = true) (h4 : m .hem = true) (h5 : m .events = true) (h6 : m .mgmt = true) (h7 : m .fuses = true) (h8 : m .flash = true) (h9 : m .copies = true) (h : execMgmtWatchdogReset a0 = .next t) : view m t = view m a0 := by
  unfold execMgmtWatchdogReset at h
  (try dsimp only at h)
  (repeat' split at h) <;> (simp only [Host.Outcome.next.injEq] at h; subst h; first | (simp [*]; done) | with_reducible rfl)

theorem view_execWinWrite {m : Piece → Bool} (a0 : Nat) (a1 : Word) (a2 : List (BitVec 32)) (a3 : State) (t : State) (h0 : m .pair = true) (h1 : m .mgmt = true) (h2 : m .fuses = true) (h3 : m .out = true) (h : execWinWrite a0 a1 a2 a3 = .next t) : view m t = view m a3 := by
  unfold execWinWrite at h
  (try dsimp only at h)
  (repeat' split at h) <;> (simp only [Host.Outcome.next.injEq] at h; subst h; first | (simp [*]; done) | with_reducible rfl)

theorem view_execWinRead {m : Piece → Bool} (a0 : Nat) (a1 : Word) (a2 : Nat) (a3 : State) (t : State) (h0 : m .free = true) (h1 : m .pair = true) (h2 : m .mgmt = true) (h3 : m .out = true) (h : execWinRead a0 a1 a2 a3 = .next t) : view m t = view m a3 := by
  unfold execWinRead at h
  (try dsimp only at h)
  (repeat' split at h) <;> (simp only [Host.Outcome.next.injEq] at h; subst h; first | (simp [*]; done) | with_reducible rfl)

theorem view_execWinCtl {m : Piece → Bool} (a0 : Nat) (a1 : Word) (a2 : State) (t : State) (h0 : m .loader = true) (h1 : m .ldrState = true) (h2 : m .hem = true) (h3 : m .pair = true) (h4 : m .events = true) (h5 : m .mgmt = true) (h6 : m .out = true) (h : execWinCtl a0 a1 a2 = .next t) : view m t = view m a2 := by
  unfold execWinCtl at h
  (try dsimp only at h)
  (repeat' split at h) <;> (simp only [Host.Outcome.next.injEq] at h; subst h; first | (simp [*]; done) | with_reducible rfl)

theorem view_execOrder {m : Piece → Bool} (a0 : Nat) (a1 : Nat) (a2 : Word) (a3 : State) (t : State) (hf : m .free = true) (h0 : m .drone = true) (h1 : m .jobs = true) (h2 : m .host = true) (h3 : m .volumes = true) (h4 : m .ledger = true) (h5 : m .entries = true) (h6 : m .slots = true) (h7 : m .smc = true) (h8 : m .lines = true) (h9 : m .cache = true) (h10 : m .stripes = true) (h11 : m .appendQ = true) (h12 : m .vault = true) (h13 : m .array = true) (h14 : m .lost = true) (h15 : m .drives = true) (h16 : m .hem = true) (h17 : m .pair = true) (h18 : m .events = true) (h19 : m .trials = true) (h20 : m .mgmt = true) (h21 : m .out = true) (h : execOrder a0 a1 a2 a3 = .next t) : view m t = view m a3 := by
  unfold execOrder at h
  (repeat' split at h) <;> simp only [Host.Outcome.next.injEq] at h <;> subst h
  all_goals first
    | rfl
    | (simp [*]; done)
    | (rename_i e
       exact (view_respond _ _ _ _ ‹_› ‹_› ‹_›).trans (view_runOrder _ _ _ ‹_› ‹_› ‹_› ‹_› ‹_› ‹_› ‹_› ‹_› ‹_› ‹_› ‹_› ‹_› ‹_› ‹_› ‹_› ‹_› ‹_› ‹_› ‹_› ‹_› ‹_› ‹_› _ _ e))

theorem view_execAlertReg {m : Piece → Bool} (a0 : Nat) (a1 : Nat) (a2 : Bool) (a3 : State) (t : State) (h0 : m .pair = true) (h1 : m .mgmt = true) (h2 : m .out = true) (h : execAlertReg a0 a1 a2 a3 = .next t) : view m t = view m a3 := by
  unfold execAlertReg at h
  (try dsimp only at h)
  (repeat' split at h) <;> (simp only [Host.Outcome.next.injEq] at h; subst h; first | (simp [*]; done) | with_reducible rfl)

theorem view_execMctpControlMessage {m : Piece → Bool} (a0 : Nat) (a1 : Nat) (a2 : Nat) (a3 : State) (t : State) (h0 : m .pair = true) (h1 : m .mgmt = true) (h2 : m .out = true) (h : execMctpControlMessage a0 a1 a2 a3 = .next t) : view m t = view m a3 := by
  unfold execMctpControlMessage at h
  (try dsimp only at h)
  (repeat' split at h) <;> (simp only [Host.Outcome.next.injEq] at h; subst h; first | (simp [*]; done) | with_reducible rfl)

theorem view_execSmbusAlertResponse {m : Piece → Bool} (a0 : State) (t : State) (h0 : m .pair = true) (h1 : m .mgmt = true) (h2 : m .out = true) (h : execSmbusAlertResponse a0 = .next t) : view m t = view m a0 := by
  unfold execSmbusAlertResponse at h
  (try dsimp only at h)
  (repeat' split at h) <;> (simp only [Host.Outcome.next.injEq] at h; subst h; first | (simp [*]; done) | with_reducible rfl)

theorem view_execPortResetAssert {m : Piece → Bool} (a0 : Nat) (a1 : State) (t : State) (h0 : m .drone = true) (h1 : m .jobs = true) (h2 : m .host = true) (h3 : m .rings = true) (h4 : m .cmds = true) (h5 : m .funcs = true) (h6 : m .dma = true) (h7 : m .hem = true) (h8 : m .events = true) (h9 : m .mgmt = true) (h10 : m .pins = true) (h11 : m .hpPerst = true) (h : execPortResetAssert a0 a1 = .next t) : view m t = view m a1 := by
  unfold execPortResetAssert at h
  (try dsimp only at h)
  (repeat' split at h) <;> (simp only [Host.Outcome.next.injEq] at h; subst h; first | (simp [*]; done) | with_reducible rfl)

theorem view_execPortResetRelease {m : Piece → Bool} (a0 : Nat) (a1 : State) (t : State) (h0 : m .pins = true) (h1 : m .hpPerst = true) (h : execPortResetRelease a0 a1 = .next t) : view m t = view m a1 := by
  unfold execPortResetRelease at h
  (try dsimp only at h)
  (repeat' split at h) <;> (simp only [Host.Outcome.next.injEq] at h; subst h; first | (simp [*]; done) | with_reducible rfl)

theorem view_execEpgPrsntChange {m : Piece → Bool} (a0 : Bool) (a1 : State) (t : State) (h0 : m .cache = true) (h1 : m .vault = true) (h2 : m .hem = true) (h3 : m .pair = true) (h4 : m .events = true) (h : execEpgPrsntChange a0 a1 = .next t) : view m t = view m a1 := by
  unfold execEpgPrsntChange at h
  (try dsimp only at h)
  (repeat' split at h) <;> (simp only [Host.Outcome.next.injEq] at h; subst h; first | (simp [*]; done) | with_reducible rfl)

theorem view_execTestModeAssert {m : Piece → Bool} (a0 : Bool) (a1 : State) (t : State) (h0 : m .boot = true) (h1 : m .halted = true) (h2 : m .clock = true) (h3 : m .free = true) (h4 : m .image = true) (h5 : m .loader = true) (h6 : m .ldrState = true) (h7 : m .imgId = true) (h8 : m .drone = true) (h9 : m .tick = true) (h10 : m .posted = true) (h11 : m .jobs = true) (h12 : m .sampled = true) (h13 : m .slotMap = true) (h14 : m .host = true) (h15 : m .rings = true) (h16 : m .volumes = true) (h17 : m .cmds = true) (h18 : m .funcs = true) (h19 : m .dma = true) (h20 : m .mem = true) (h21 : m .reeds = true) (h22 : m .ledger = true) (h23 : m .entries = true) (h24 : m .slots = true) (h25 : m .smc = true) (h26 : m .lines = true) (h27 : m .cache = true) (h28 : m .stripes = true) (h29 : m .appendQ = true) (h30 : m .vault = true) (h31 : m .array = true) (h32 : m .lost = true) (h33 : m .drives = true) (h34 : m .clusters = true) (h35 : m .posMap = true) (h36 : m .hem = true) (h37 : m .pair = true) (h38 : m .health = true) (h39 : m .why = true) (h40 : m .events = true) (h41 : m .trials = true) (h42 : m .mgmt = true) (h43 : m .fuses = true) (h44 : m .flash = true) (h45 : m .copies = true) (h46 : m .pins = true) (h : execTestModeAssert a0 a1 = .next t) : view m t = view m a1 := by
  unfold execTestModeAssert at h
  dsimp only at h
  split at h <;> simp only [Host.Outcome.next.injEq] at h <;> subst h
  · exact (view_deviceReset _ ‹_› ‹_› ‹_› ‹_› ‹_› ‹_› ‹_› ‹_› ‹_› ‹_› ‹_› ‹_› ‹_› ‹_› ‹_› ‹_› ‹_› ‹_› ‹_› ‹_› ‹_› ‹_› ‹_› ‹_› ‹_› ‹_› ‹_› ‹_› ‹_› ‹_› ‹_› ‹_› ‹_› ‹_› ‹_› ‹_› ‹_› ‹_› ‹_› ‹_› ‹_› ‹_› ‹_› ‹_› ‹_› ‹_› ‹_›).trans (by simp [*])
  · simp [*]

theorem view_execRegisterWrite {m : Piece → Bool} (a0 : Nat) (a1 : Nat) (a2 : Nat) (a3 : Nat) (a4 : Word) (a5 : State) (t : State) (h0 : m .free = true) (h1 : m .loader = true) (h2 : m .ldrState = true) (h3 : m .drone = true) (h4 : m .jobs = true) (h5 : m .host = true) (h6 : m .rings = true) (h7 : m .volumes = true) (h8 : m .cmds = true) (h9 : m .funcs = true) (h10 : m .dma = true) (h11 : m .ledger = true) (h12 : m .entries = true) (h13 : m .slots = true) (h14 : m .smc = true) (h15 : m .lines = true) (h16 : m .cache = true) (h17 : m .stripes = true) (h18 : m .appendQ = true) (h19 : m .vault = true) (h20 : m .array = true) (h21 : m .lost = true) (h22 : m .drives = true) (h23 : m .clusters = true) (h24 : m .posMap = true) (h25 : m .hem = true) (h26 : m .pair = true) (h27 : m .health = true) (h28 : m .events = true) (h29 : m .trials = true) (h30 : m .mgmt = true) (h31 : m .fuses = true) (h32 : m .out = true) (h : execRegisterWrite a0 a1 a2 a3 a4 a5 = .next t) : view m t = view m a5 := by
  unfold execRegisterWrite at h
  (try dsimp only at h)
  (repeat' split at h) <;> (simp only [Host.Outcome.next.injEq] at h; subst h; first | (simp [*]; done) | with_reducible rfl)

theorem view_execDriveCompletionArrival {m : Piece → Bool} (a0 : Nat) (a1 : Nat) (a2 : List Byte) (a3 : State) (t : State) (h0 : m .free = true) (h1 : m .drives = true) (h2 : m .trials = true) (h : execDriveCompletionArrival a0 a1 a2 a3 = .next t) : view m t = view m a3 := by
  unfold execDriveCompletionArrival at h
  (try dsimp only at h)
  (repeat' split at h) <;> (simp only [Host.Outcome.next.injEq] at h; subst h; first | (simp [*]; done) | with_reducible rfl)

theorem view_execDmaReadCompletion {m : Piece → Bool} (a0 : Nat) (a1 : List Byte) (a2 : State) (t : State) (h0 : m .free = true) (h1 : m .drone = true) (h2 : m .dma = true) (h3 : m .hem = true) (h4 : m .pair = true) (h5 : m .events = true) (h6 : m .out = true) (h : execDmaReadCompletion a0 a1 a2 = .next t) : view m t = view m a2 := by
  unfold execDmaReadCompletion at h
  (try dsimp only at h)
  (repeat' split at h) <;> (simp only [Host.Outcome.next.injEq] at h; subst h; first | (simp [*]; done) | with_reducible rfl)

theorem view_execCapToExpiry {m : Piece → Bool} (a0 : Nat) (a1 : State) (t : State) (h0 : m .drives = true) (h1 : m .hem = true) (h2 : m .events = true) (h : execCapToExpiry a0 a1 = .next t) : view m t = view m a1 := by
  unfold execCapToExpiry at h
  (try dsimp only at h)
  (repeat' split at h) <;> (simp only [Host.Outcome.next.injEq] at h; subst h; first | (simp [*]; done) | with_reducible rfl)

theorem view_execMsixUnmask {m : Piece → Bool} (a0 : Nat) (a1 : Option Nat) (a2 : State) (t : State) (h0 : m .host = true) (h1 : m .funcs = true) (h2 : m .pair = true) (h3 : m .out = true) (h : execMsixUnmask a0 a1 a2 = .next t) : view m t = view m a2 := by
  unfold execMsixUnmask at h
  (try dsimp only at h)
  (repeat' split at h) <;> (simp only [Host.Outcome.next.injEq] at h; subst h; first | (simp [*]; done) | with_reducible rfl)

end Sys2Proof.Machine
end

