-- ==== Sys2Proof/WellFormed.lean ====
section
/-! DEFINITION. Well-formed commands: every number an operand names (a function, a ring, a channel, a slot, a position,
a context, a register width) lies in the range the spec gives it. Meanings are total; an ill-formed command names
nothing that exists. -/

namespace Sys2Proof

open Sys2Proof.Machine

/-- The operands of a command lie in their ranges. Function 256 stands for the management firmware (R183). -/
def Instr.WF (i : Instr) : Prop :=
  match i with
  | .deviceReset => True
  | .supplyBrownout => True
  | .porNRelease _ _ => True
  | .imageVerifyDone => True
  | .reloadPrepare => True
  | .reloadApply => True
  | .imageRunning => True
  | .liveVerifyDone => True
  | .livePairTimeout => True
  | .tickEdge => True
  | .caravanSeal _ => True
  | .drnOverrun _ => True
  | .drnLegHung _ => True
  | .drnUrgentSet stream => stream < 5
  | .drnBgHoldWrite f _ => f < 256
  | .jrnCeilStale => True
  | .jrnWtExit => True
  | .ringEnable f ring _ => f < 256 ∧ ring < 65536
  | .ringDisable f ring _ => f < 256 ∧ ring < 65536
  | .doorbell f group => f < 256 ∧ group < 1024
  | .groupScan => True
  | .entryFetchDone ring bytes => ring < 65536 ∧ bytes.length = 64
  | .sqFetchError ring => ring < 65536
  | .stallRelease ring => ring < 65536
  | .cqCiWrite f ring _ => f < 256 ∧ ring < 65536
  | .cseraiMove ring => ring < 65536
  | .commandComplete ring => ring < 65536
  | .cqWriteError ring => ring < 65536
  | .functionLevelReset f => f < 256
  | .msixDisable f => f < 256
  | .read _ _ => True
  | .write _ _ _ => True
  | .writeZeroes _ => True
  | .deallocate _ => True
  | .flush _ => True
  | .verify _ => True
  | .volCreate _ => True
  | .volDelete _ => True
  | .volResize _ => True
  | .volQuery _ => True
  | .hostMemoryError _ => True
  | .dmaStart f ch => f ≤ 256 ∧ ch < 256
  | .dmaPause f ch => f ≤ 256 ∧ ch < 256
  | .dmaUnpause f ch => f ≤ 256 ∧ ch < 256
  | .dmaPaused ch => ch < 256
  | .descriptorFetch ch bytes => ch < 256 ∧ bytes.length = 64
  | .pacingRequest src => src < 12 ∨ src = 16
  | .dmaWriteResponse ch => ch < 256
  | .dmaShCommit f ch _ => f ≤ 256 ∧ ch < 256
  | .dmaBusError ch _ kind _ _ => ch < 256 ∧ kind < 4
  | .faultActResume f ch => f ≤ 256 ∧ ch < 256
  | .faultActSkip f ch => f ≤ 256 ∧ ch < 256
  | .faultActAbort f ch => f ≤ 256 ∧ ch < 256
  | .reedSegmentCompare pair _ _ => pair < 18
  | .voteResult _ => True
  | .reedTestDue pair => pair < 18
  | .reedTestResult pair _ _ _ => pair < 18
  | .plcSlotTagWrite f slot _ => f < 256 ∧ slot < 384
  | .drainSet f slot => f < 256 ∧ slot < 384
  | .drainClear f slot => f < 256 ∧ slot < 384
  | .placementSnapshot => True
  | .relocDone vol _ => vol < 65536
  | .moveStart => True
  | .moveCommit vol _ => vol < 65536
  | .moveAbandon vol _ => vol < 65536
  | .runFree slot _ => slot < 384
  | .release vol _ => vol < 65536
  | .checkpointStart => True
  | .plcCkpt => True
  | .pageMissRead vol _ copy => vol < 65536 ∧ copy < 3
  | .tierHighWatermark => True
  | .plcPgSelWrite f _ => f < 256
  | .smcFill vol _ => vol < 65536
  | .smcParkedRepresent vol _ => vol < 65536
  | .smcOffer => True
  | .smcOfferAnswer => True
  | .smcMergeDrain => True
  | .smcPreload f _ => f < 256
  | .smcPreloadLock f _ => f < 256
  | .smcUnlock f _ => f < 256
  | .smcPreloadHeldStart => True
  | .smcPreloadDone => True
  | .unlockAll f => f < 256
  | .coalesceExpiry _ => True
  | .destagePlan _ => True
  | .journalAppendDone => True
  | .intentRetire _ => True
  | .jrnWtForce f _ => f < 256
  | .jrnDestageAll f => f < 256
  | .pwrFailAssert => True
  | .dumpStart => True
  | .dumpJournalSafe => True
  | .dumpFlush => True
  | .jrnDumpDone => True
  | .restoreBegin _ => True
  | .restoreDriveTimeout slot => slot < 384
  | .jrnRestoreDone _ => True
  | .replay => True
  | .epochRelease => True
  | .restoreResume => True
  | .driveCommandTimeout _ => True
  | .smartPoll slot warning used => slot < 384 ∧ warning < 256 ∧ used < 256
  | .failOrder f slot => f < 256 ∧ slot < 384
  | .forgetReturned f slot => f < 256 ∧ slot < 384
  | .rebuildParcelStart => True
  | .rebuildStripeDone vol _ => vol < 65536
  | .scrubStripeStart => True
  | .scrubCheckDone vol _ stripe => vol < 65536 ∧ stripe < 256
  | .scrubBehind => True
  | .plcLostSelWrite f _ => f < 256
  | .clusterEnable f cluster _ => f < 256 ∧ cluster < 12
  | .clusterDisable f cluster _ => f < 256 ∧ cluster < 12
  | .drvPerstRelease cluster port => cluster < 12 ∧ port < 4
  | .driveArrival cluster port index _ _ => cluster < 12 ∧ port < 4 ∧ index < 256
  | .adminCompletion pos _ => pos < 384
  | .driveLinkDown pos => pos < 384
  | .driveDepart pos => pos < 384
  | .cstsPoll pos _ => pos < 384
  | .driveDmaRefused slot => slot < 384
  | .posMapAdopt f pos _ => f < 256 ∧ pos < 384
  | .posMapValidSet f pos _ => f < 256 ∧ pos < 384
  | .hemSample _ _ _ => True
  | .hemSenseFault => True
  | .sampleGap => True
  | .hemFull => True
  | .emptyAnchor => True
  | .hemRest => True
  | .reanchor => True
  | .hemStaleLearn => True
  | .calReq f => f < 256
  | .calAbort f => f < 256
  | .calDischargeStart => True
  | .calDischargeEnd => True
  | .shipReq f => f < 256
  | .shipCancel f => f < 256
  | .hemShip => True
  | .hemChg _ => True
  | .flitReceive hdr payload crc => hdr.length = 2 ∧ payload.length = 240 ∧ crc.length = 8
  | .flitAckReceive fseq _ => fseq < 1024
  | .retrainTimeout => True
  | .epgLinkDown => True
  | .flitSilenceTimeout => True
  | .epgLinkUp => True
  | .hello _ _ _ _ _ _ => True
  | .input _ _ _ => True
  | .jrec _ _ => True
  | .page _ _ _ _ _ _ => True
  | .dinput _ _ _ _ => True
  | .digest _ _ _ _ _ _ _ => True
  | .ack _ _ _ => True
  | .base _ => True
  | .baseDone => True
  | .mismatch _ => True
  | .drop => True
  | .handover _ => True
  | .liveImg _ _ => True
  | .digestUnconfirmedDrop => True
  | .ackTimeoutDrop => True
  | .relayPostRound => True
  | .postRoundDurable => True
  | .postRead => True
  | .postReadResult _ => True
  | .completionFenceHold => True
  | .epgTakeover => True
  | .claimAcquired => True
  | .activeLostUnsynced => True
  | .powerupReservation _ => True
  | .join f => f < 256
  | .salvage f => f < 256
  | .switchBack f => f < 256
  | .form f => f < 256
  | .switchBackQuiesce => True
  | .switchBackLapse => True
  | .epgVolClearGo f _ => f < 256
  | .epgPolicyWrite f _ => f < 256
  | .sramPatrol _ => True
  | .hbmPatrol pc _ _ _ => pc < 64
  | .eccUncorrectable _ _ => True
  | .agingMeasure margins => margins.length = 64
  | .phyMarginMeasure group _ => group < 15
  | .tempReading _ => True
  | .thermalStop => True
  | .thermComparator => True
  | .hltSnapWrite f => f < 256
  | .evtMaskWrite f w _ => f < 256 ∧ w < 64
  | .evtLogSelWrite f _ => f < 256
  | .trlArmRequest f => f < 256
  | .trlDisarm f => f < 256
  | .trlCountDone => True
  | .mgwDataWrite ctx _ => ctx < 4
  | .mgwDataRead ctx => ctx < 4
  | .mgwClaim ctx => ctx < 4
  | .mgwRelease ctx => ctx < 4
  | .load ctx => ctx < 4
  | .loadLive ctx => ctx < 4
  | .imgToFlash ctx => ctx < 4
  | .fwUpdate ctx => ctx < 4
  | .hemSave ctx => ctx < 4
  | .hemRestore ctx => ctx < 4
  | .keyOrder ctx => ctx < 4
  | .healthSnap ctx => ctx < 4
  | .mgwClaimBroken ctx => ctx < 4
  | .flashWriteDone _ => True
  | .mgwKeyChange => True
  | .mgmtWatchdogReset => True
  | .winWrite ctx _ words => ctx < 4 ∧ 1 ≤ words.length ∧ words.length ≤ 12
  | .winRead ctx _ count => ctx < 4 ∧ 1 ≤ count ∧ count ≤ 12
  | .winCtl ctx _ => ctx < 4
  | .order ctx code _ => ctx < 4 ∧ code < 256
  | .alertReg ctx eid _ => ctx < 4 ∧ eid < 256
  | .mctpControlMessage ctx _ _ => ctx < 4
  | .smbusAlertResponse => True
  | .portResetAssert port => port < 2
  | .portResetRelease port => port < 2
  | .epgPrsntChange _ => True
  | .testModeAssert _ => True
  | .registerWrite f bar _ width _ => f ≤ 256 ∧ (bar = 0 ∨ bar = 2) ∧ 1 ≤ width ∧ width ≤ 64
  | .driveCompletionArrival _ _ _ => True
  | .dmaReadCompletion ch _ => ch < 256
  | .capToExpiry pos => pos < 384
  | .msixUnmask f _ => f < 256

/-- The check of `Instr.WF`, command by command. -/
def Instr.wf (i : Instr) : Bool :=
  match i with
  | .deviceReset => decide (True)
  | .supplyBrownout => decide (True)
  | .porNRelease _ _ => decide (True)
  | .imageVerifyDone => decide (True)
  | .reloadPrepare => decide (True)
  | .reloadApply => decide (True)
  | .imageRunning => decide (True)
  | .liveVerifyDone => decide (True)
  | .livePairTimeout => decide (True)
  | .tickEdge => decide (True)
  | .caravanSeal _ => decide (True)
  | .drnOverrun _ => decide (True)
  | .drnLegHung _ => decide (True)
  | .drnUrgentSet stream => decide (stream < 5)
  | .drnBgHoldWrite f _ => decide (f < 256)
  | .jrnCeilStale => decide (True)
  | .jrnWtExit => decide (True)
  | .ringEnable f ring _ => decide (f < 256 ∧ ring < 65536)
  | .ringDisable f ring _ => decide (f < 256 ∧ ring < 65536)
  | .doorbell f group => decide (f < 256 ∧ group < 1024)
  | .groupScan => decide (True)
  | .entryFetchDone ring bytes => decide (ring < 65536 ∧ bytes.length = 64)
  | .sqFetchError ring => decide (ring < 65536)
  | .stallRelease ring => decide (ring < 65536)
  | .cqCiWrite f ring _ => decide (f < 256 ∧ ring < 65536)
  | .cseraiMove ring => decide (ring < 65536)
  | .commandComplete ring => decide (ring < 65536)
  | .cqWriteError ring => decide (ring < 65536)
  | .functionLevelReset f => decide (f < 256)
  | .msixDisable f => decide (f < 256)
  | .read _ _ => decide (True)
  | .write _ _ _ => decide (True)
  | .writeZeroes _ => decide (True)
  | .deallocate _ => decide (True)
  | .flush _ => decide (True)
  | .verify _ => decide (True)
  | .volCreate _ => decide (True)
  | .volDelete _ => decide (True)
  | .volResize _ => decide (True)
  | .volQuery _ => decide (True)
  | .hostMemoryError _ => decide (True)
  | .dmaStart f ch => decide (f ≤ 256 ∧ ch < 256)
  | .dmaPause f ch => decide (f ≤ 256 ∧ ch < 256)
  | .dmaUnpause f ch => decide (f ≤ 256 ∧ ch < 256)
  | .dmaPaused ch => decide (ch < 256)
  | .descriptorFetch ch bytes => decide (ch < 256 ∧ bytes.length = 64)
  | .pacingRequest src => decide (src < 12 ∨ src = 16)
  | .dmaWriteResponse ch => decide (ch < 256)
  | .dmaShCommit f ch _ => decide (f ≤ 256 ∧ ch < 256)
  | .dmaBusError ch _ kind _ _ => decide (ch < 256 ∧ kind < 4)
  | .faultActResume f ch => decide (f ≤ 256 ∧ ch < 256)
  | .faultActSkip f ch => decide (f ≤ 256 ∧ ch < 256)
  | .faultActAbort f ch => decide (f ≤ 256 ∧ ch < 256)
  | .reedSegmentCompare pair _ _ => decide (pair < 18)
  | .voteResult _ => decide (True)
  | .reedTestDue pair => decide (pair < 18)
  | .reedTestResult pair _ _ _ => decide (pair < 18)
  | .plcSlotTagWrite f slot _ => decide (f < 256 ∧ slot < 384)
  | .drainSet f slot => decide (f < 256 ∧ slot < 384)
  | .drainClear f slot => decide (f < 256 ∧ slot < 384)
  | .placementSnapshot => decide (True)
  | .relocDone vol _ => decide (vol < 65536)
  | .moveStart => decide (True)
  | .moveCommit vol _ => decide (vol < 65536)
  | .moveAbandon vol _ => decide (vol < 65536)
  | .runFree slot _ => decide (slot < 384)
  | .release vol _ => decide (vol < 65536)
  | .checkpointStart => decide (True)
  | .plcCkpt => decide (True)
  | .pageMissRead vol _ copy => decide (vol < 65536 ∧ copy < 3)
  | .tierHighWatermark => decide (True)
  | .plcPgSelWrite f _ => decide (f < 256)
  | .smcFill vol _ => decide (vol < 65536)
  | .smcParkedRepresent vol _ => decide (vol < 65536)
  | .smcOffer => decide (True)
  | .smcOfferAnswer => decide (True)
  | .smcMergeDrain => decide (True)
  | .smcPreload f _ => decide (f < 256)
  | .smcPreloadLock f _ => decide (f < 256)
  | .smcUnlock f _ => decide (f < 256)
  | .smcPreloadHeldStart => decide (True)
  | .smcPreloadDone => decide (True)
  | .unlockAll f => decide (f < 256)
  | .coalesceExpiry _ => decide (True)
  | .destagePlan _ => decide (True)
  | .journalAppendDone => decide (True)
  | .intentRetire _ => decide (True)
  | .jrnWtForce f _ => decide (f < 256)
  | .jrnDestageAll f => decide (f < 256)
  | .pwrFailAssert => decide (True)
  | .dumpStart => decide (True)
  | .dumpJournalSafe => decide (True)
  | .dumpFlush => decide (True)
  | .jrnDumpDone => decide (True)
  | .restoreBegin _ => decide (True)
  | .restoreDriveTimeout slot => decide (slot < 384)
  | .jrnRestoreDone _ => decide (True)
  | .replay => decide (True)
  | .epochRelease => decide (True)
  | .restoreResume => decide (True)
  | .driveCommandTimeout _ => decide (True)
  | .smartPoll slot warning used => decide (slot < 384 ∧ warning < 256 ∧ used < 256)
  | .failOrder f slot => decide (f < 256 ∧ slot < 384)
  | .forgetReturned f slot => decide (f < 256 ∧ slot < 384)
  | .rebuildParcelStart => decide (True)
  | .rebuildStripeDone vol _ => decide (vol < 65536)
  | .scrubStripeStart => decide (True)
  | .scrubCheckDone vol _ stripe => decide (vol < 65536 ∧ stripe < 256)
  | .scrubBehind => decide (True)
  | .plcLostSelWrite f _ => decide (f < 256)
  | .clusterEnable f cluster _ => decide (f < 256 ∧ cluster < 12)
  | .clusterDisable f cluster _ => decide (f < 256 ∧ cluster < 12)
  | .drvPerstRelease cluster port => decide (cluster < 12 ∧ port < 4)
  | .driveArrival cluster port index _ _ => decide (cluster < 12 ∧ port < 4 ∧ index < 256)
  | .adminCompletion pos _ => decide (pos < 384)
  | .driveLinkDown pos => decide (pos < 384)
  | .driveDepart pos => decide (pos < 384)
  | .cstsPoll pos _ => decide (pos < 384)
  | .driveDmaRefused slot => decide (slot < 384)
  | .posMapAdopt f pos _ => decide (f < 256 ∧ pos < 384)
  | .posMapValidSet f pos _ => decide (f < 256 ∧ pos < 384)
  | .hemSample _ _ _ => decide (True)
  | .hemSenseFault => decide (True)
  | .sampleGap => decide (True)
  | .hemFull => decide (True)
  | .emptyAnchor => decide (True)
  | .hemRest => decide (True)
  | .reanchor => decide (True)
  | .hemStaleLearn => decide (True)
  | .calReq f => decide (f < 256)
  | .calAbort f => decide (f < 256)
  | .calDischargeStart => decide (True)
  | .calDischargeEnd => decide (True)
  | .shipReq f => decide (f < 256)
  | .shipCancel f => decide (f < 256)
  | .hemShip => decide (True)
  | .hemChg _ => decide (True)
  | .flitReceive hdr payload crc => decide (hdr.length = 2 ∧ payload.length = 240 ∧ crc.length = 8)
  | .flitAckReceive fseq _ => decide (fseq < 1024)
  | .retrainTimeout => decide (True)
  | .epgLinkDown => decide (True)
  | .flitSilenceTimeout => decide (True)
  | .epgLinkUp => decide (True)
  | .hello _ _ _ _ _ _ => decide (True)
  | .input _ _ _ => decide (True)
  | .jrec _ _ => decide (True)
  | .page _ _ _ _ _ _ => decide (True)
  | .dinput _ _ _ _ => decide (True)
  | .digest _ _ _ _ _ _ _ => decide (True)
  | .ack _ _ _ => decide (True)
  | .base _ => decide (True)
  | .baseDone => decide (True)
  | .mismatch _ => decide (True)
  | .drop => decide (True)
  | .handover _ => decide (True)
  | .liveImg _ _ => decide (True)
  | .digestUnconfirmedDrop => decide (True)
  | .ackTimeoutDrop => decide (True)
  | .relayPostRound => decide (True)
  | .postRoundDurable => decide (True)
  | .postRead => decide (True)
  | .postReadResult _ => decide (True)
  | .completionFenceHold => decide (True)
  | .epgTakeover => decide (True)
  | .claimAcquired => decide (True)
  | .activeLostUnsynced => decide (True)
  | .powerupReservation _ => decide (True)
  | .join f => decide (f < 256)
  | .salvage f => decide (f < 256)
  | .switchBack f => decide (f < 256)
  | .form f => decide (f < 256)
  | .switchBackQuiesce => decide (True)
  | .switchBackLapse => decide (True)
  | .epgVolClearGo f _ => decide (f < 256)
  | .epgPolicyWrite f _ => decide (f < 256)
  | .sramPatrol _ => decide (True)
  | .hbmPatrol pc _ _ _ => decide (pc < 64)
  | .eccUncorrectable _ _ => decide (True)
  | .agingMeasure margins => decide (margins.length = 64)
  | .phyMarginMeasure group _ => decide (group < 15)
  | .tempReading _ => decide (True)
  | .thermalStop => decide (True)
  | .thermComparator => decide (True)
  | .hltSnapWrite f => decide (f < 256)
  | .evtMaskWrite f w _ => decide (f < 256 ∧ w < 64)
  | .evtLogSelWrite f _ => decide (f < 256)
  | .trlArmRequest f => decide (f < 256)
  | .trlDisarm f => decide (f < 256)
  | .trlCountDone => decide (True)
  | .mgwDataWrite ctx _ => decide (ctx < 4)
  | .mgwDataRead ctx => decide (ctx < 4)
  | .mgwClaim ctx => decide (ctx < 4)
  | .mgwRelease ctx => decide (ctx < 4)
  | .load ctx => decide (ctx < 4)
  | .loadLive ctx => decide (ctx < 4)
  | .imgToFlash ctx => decide (ctx < 4)
  | .fwUpdate ctx => decide (ctx < 4)
  | .hemSave ctx => decide (ctx < 4)
  | .hemRestore ctx => decide (ctx < 4)
  | .keyOrder ctx => decide (ctx < 4)
  | .healthSnap ctx => decide (ctx < 4)
  | .mgwClaimBroken ctx => decide (ctx < 4)
  | .flashWriteDone _ => decide (True)
  | .mgwKeyChange => decide (True)
  | .mgmtWatchdogReset => decide (True)
  | .winWrite ctx _ words => decide (ctx < 4 ∧ 1 ≤ words.length ∧ words.length ≤ 12)
  | .winRead ctx _ count => decide (ctx < 4 ∧ 1 ≤ count ∧ count ≤ 12)
  | .winCtl ctx _ => decide (ctx < 4)
  | .order ctx code _ => decide (ctx < 4 ∧ code < 256)
  | .alertReg ctx eid _ => decide (ctx < 4 ∧ eid < 256)
  | .mctpControlMessage ctx _ _ => decide (ctx < 4)
  | .smbusAlertResponse => decide (True)
  | .portResetAssert port => decide (port < 2)
  | .portResetRelease port => decide (port < 2)
  | .epgPrsntChange _ => decide (True)
  | .testModeAssert _ => decide (True)
  | .registerWrite f bar _ width _ => decide (f ≤ 256 ∧ (bar = 0 ∨ bar = 2) ∧ 1 ≤ width ∧ width ≤ 64)
  | .driveCompletionArrival _ _ _ => decide (True)
  | .dmaReadCompletion ch _ => decide (ch < 256)
  | .capToExpiry pos => decide (pos < 384)
  | .msixUnmask f _ => decide (f < 256)

end Sys2Proof
end

