-- ==== Sys2Proof/Laws/PerInstr.lean ====
section
/-! SUPPORT. Statements made per command: the check `Instr.wf` decides the ranges that `Instr.WF` states, command by
command. -/

set_option Elab.async false

namespace Sys2Proof.Laws.Wellformed

open Sys2Proof Sys2Proof.Machine

/-- The check agrees with the ranges it stands for. -/
def Statement (i : Instr) : Prop := i.wf = true ↔ i.WF

/-- The check agrees with the ranges of every command. -/
theorem all (i : Instr) : Statement i := by cases i <;> simp [Statement, Instr.wf, Instr.WF]

theorem deviceReset : Statement .deviceReset := all _

theorem supplyBrownout : Statement .supplyBrownout := all _

theorem porNRelease (straps : BitVec 2) (tj : Int) : Statement (.porNRelease straps tj) := all _

theorem imageVerifyDone : Statement .imageVerifyDone := all _

theorem reloadPrepare : Statement .reloadPrepare := all _

theorem reloadApply : Statement .reloadApply := all _

theorem imageRunning : Statement .imageRunning := all _

theorem liveVerifyDone : Statement .liveVerifyDone := all _

theorem livePairTimeout : Statement .livePairTimeout := all _

theorem tickEdge : Statement .tickEdge := all _

theorem caravanSeal (late : Option Nat) : Statement (.caravanSeal late) := all _

theorem drnOverrun (leg : Nat) : Statement (.drnOverrun leg) := all _

theorem drnLegHung (leg : Nat) : Statement (.drnLegHung leg) := all _

theorem drnUrgentSet (stream : Nat) : Statement (.drnUrgentSet stream) := all _

theorem drnBgHoldWrite (f : Nat) (value : Word) : Statement (.drnBgHoldWrite f value) := all _

theorem jrnCeilStale : Statement .jrnCeilStale := all _

theorem jrnWtExit : Statement .jrnWtExit := all _

theorem ringEnable (f ring : Nat) (value : Word) : Statement (.ringEnable f ring value) := all _

theorem ringDisable (f ring : Nat) (value : Word) : Statement (.ringDisable f ring value) := all _

theorem doorbell (f group : Nat) : Statement (.doorbell f group) := all _

theorem groupScan : Statement .groupScan := all _

theorem entryFetchDone (ring : Nat) (bytes : List Byte) : Statement (.entryFetchDone ring bytes) := all _

theorem sqFetchError (ring : Nat) : Statement (.sqFetchError ring) := all _

theorem stallRelease (ring : Nat) : Statement (.stallRelease ring) := all _

theorem cqCiWrite (f ring : Nat) (value : Word) : Statement (.cqCiWrite f ring value) := all _

theorem cseraiMove (ring : Nat) : Statement (.cseraiMove ring) := all _

theorem commandComplete (ring : Nat) : Statement (.commandComplete ring) := all _

theorem cqWriteError (ring : Nat) : Statement (.cqWriteError ring) := all _

theorem functionLevelReset (f : Nat) : Statement (.functionLevelReset f) := all _

theorem msixDisable (f : Nat) : Statement (.msixDisable f) := all _

theorem read (cmd : Nat) (mem : List HostFrag) : Statement (.read cmd mem) := all _

theorem write (cmd : Nat) (lists data : List HostFrag) : Statement (.write cmd lists data) := all _

theorem writeZeroes (cmd : Nat) : Statement (.writeZeroes cmd) := all _

theorem deallocate (cmd : Nat) : Statement (.deallocate cmd) := all _

theorem flush (cmd : Nat) : Statement (.flush cmd) := all _

theorem verify (cmd : Nat) : Statement (.verify cmd) := all _

theorem volCreate (cmd : Nat) : Statement (.volCreate cmd) := all _

theorem volDelete (cmd : Nat) : Statement (.volDelete cmd) := all _

theorem volResize (cmd : Nat) : Statement (.volResize cmd) := all _

theorem volQuery (cmd : Nat) : Statement (.volQuery cmd) := all _

theorem hostMemoryError (cmd : Nat) : Statement (.hostMemoryError cmd) := all _

theorem dmaStart (f ch : Nat) : Statement (.dmaStart f ch) := all _

theorem dmaPause (f ch : Nat) : Statement (.dmaPause f ch) := all _

theorem dmaUnpause (f ch : Nat) : Statement (.dmaUnpause f ch) := all _

theorem dmaPaused (ch : Nat) : Statement (.dmaPaused ch) := all _

theorem descriptorFetch (ch : Nat) (bytes : List Byte) : Statement (.descriptorFetch ch bytes) := all _

theorem pacingRequest (src : Nat) : Statement (.pacingRequest src) := all _

theorem dmaWriteResponse (ch : Nat) : Statement (.dmaWriteResponse ch) := all _

theorem dmaShCommit (f ch : Nat) (sameCycle : Bool) : Statement (.dmaShCommit f ch sameCycle) := all _

theorem dmaBusError (ch : Nat) (write : Bool) (kind cause beat : Nat) : Statement (.dmaBusError ch write kind cause beat) := all _

theorem faultActResume (f ch : Nat) : Statement (.faultActResume f ch) := all _

theorem faultActSkip (f ch : Nat) : Statement (.faultActSkip f ch) := all _

theorem faultActAbort (f ch : Nat) : Statement (.faultActAbort f ch) := all _

theorem reedSegmentCompare (pair : Nat) (errA errB : List Byte) : Statement (.reedSegmentCompare pair errA errB) := all _

theorem voteResult (leg : Nat) : Statement (.voteResult leg) := all _

theorem reedTestDue (pair : Nat) : Statement (.reedTestDue pair) := all _

theorem reedTestResult (pair : Nat) (okA okB differ : Bool) : Statement (.reedTestResult pair okA okB differ) := all _

theorem plcSlotTagWrite (f slot : Nat) (value : Word) : Statement (.plcSlotTagWrite f slot value) := all _

theorem drainSet (f slot : Nat) : Statement (.drainSet f slot) := all _

theorem drainClear (f slot : Nat) : Statement (.drainClear f slot) := all _

theorem placementSnapshot : Statement .placementSnapshot := all _

theorem relocDone (vol parcel : Nat) : Statement (.relocDone vol parcel) := all _

theorem moveStart : Statement .moveStart := all _

theorem moveCommit (vol parcel : Nat) : Statement (.moveCommit vol parcel) := all _

theorem moveAbandon (vol parcel : Nat) : Statement (.moveAbandon vol parcel) := all _

theorem runFree (slot first : Nat) : Statement (.runFree slot first) := all _

theorem release (vol parcel : Nat) : Statement (.release vol parcel) := all _

theorem checkpointStart : Statement .checkpointStart := all _

theorem plcCkpt : Statement .plcCkpt := all _

theorem pageMissRead (vol page copy : Nat) : Statement (.pageMissRead vol page copy) := all _

theorem tierHighWatermark : Statement .tierHighWatermark := all _

theorem plcPgSelWrite (f : Nat) (value : Word) : Statement (.plcPgSelWrite f value) := all _

theorem smcFill (vol g : Nat) : Statement (.smcFill vol g) := all _

theorem smcParkedRepresent (vol parcel : Nat) : Statement (.smcParkedRepresent vol parcel) := all _

theorem smcOffer : Statement .smcOffer := all _

theorem smcOfferAnswer : Statement .smcOfferAnswer := all _

theorem smcMergeDrain : Statement .smcMergeDrain := all _

theorem smcPreload (f : Nat) (value : Word) : Statement (.smcPreload f value) := all _

theorem smcPreloadLock (f : Nat) (value : Word) : Statement (.smcPreloadLock f value) := all _

theorem smcUnlock (f : Nat) (value : Word) : Statement (.smcUnlock f value) := all _

theorem smcPreloadHeldStart : Statement .smcPreloadHeldStart := all _

theorem smcPreloadDone : Statement .smcPreloadDone := all _

theorem unlockAll (f : Nat) : Statement (.unlockAll f) := all _

theorem coalesceExpiry (stripe : Nat) : Statement (.coalesceExpiry stripe) := all _

theorem destagePlan (stripe : Nat) : Statement (.destagePlan stripe) := all _

theorem journalAppendDone : Statement .journalAppendDone := all _

theorem intentRetire (stripe : Nat) : Statement (.intentRetire stripe) := all _

theorem jrnWtForce (f : Nat) (on : Bool) : Statement (.jrnWtForce f on) := all _

theorem jrnDestageAll (f : Nat) : Statement (.jrnDestageAll f) := all _

theorem pwrFailAssert : Statement .pwrFailAssert := all _

theorem dumpStart : Statement .dumpStart := all _

theorem dumpJournalSafe : Statement .dumpJournalSafe := all _

theorem dumpFlush : Statement .dumpFlush := all _

theorem jrnDumpDone : Statement .jrnDumpDone := all _

theorem restoreBegin (found : RestoreFind) : Statement (.restoreBegin found) := all _

theorem restoreDriveTimeout (slot : Nat) : Statement (.restoreDriveTimeout slot) := all _

theorem jrnRestoreDone (pages : List PageFind) : Statement (.jrnRestoreDone pages) := all _

theorem replay : Statement .replay := all _

theorem epochRelease : Statement .epochRelease := all _

theorem restoreResume : Statement .restoreResume := all _

theorem driveCommandTimeout (cid : Nat) : Statement (.driveCommandTimeout cid) := all _

theorem smartPoll (slot warning used : Nat) : Statement (.smartPoll slot warning used) := all _

theorem failOrder (f slot : Nat) : Statement (.failOrder f slot) := all _

theorem forgetReturned (f slot : Nat) : Statement (.forgetReturned f slot) := all _

theorem rebuildParcelStart : Statement .rebuildParcelStart := all _

theorem rebuildStripeDone (vol parcel : Nat) : Statement (.rebuildStripeDone vol parcel) := all _

theorem scrubStripeStart : Statement .scrubStripeStart := all _

theorem scrubCheckDone (vol parcel stripe : Nat) : Statement (.scrubCheckDone vol parcel stripe) := all _

theorem scrubBehind : Statement .scrubBehind := all _

theorem plcLostSelWrite (f : Nat) (value : Word) : Statement (.plcLostSelWrite f value) := all _

theorem clusterEnable (f cluster : Nat) (value : Word) : Statement (.clusterEnable f cluster value) := all _

theorem clusterDisable (f cluster : Nat) (value : Word) : Statement (.clusterDisable f cluster value) := all _

theorem drvPerstRelease (cluster port : Nat) : Statement (.drvPerstRelease cluster port) := all _

theorem driveArrival (cluster port index width rate : Nat) : Statement (.driveArrival cluster port index width rate) := all _

theorem adminCompletion (pos : Nat) (answer : AdminAnswer) : Statement (.adminCompletion pos answer) := all _

theorem driveLinkDown (pos : Nat) : Statement (.driveLinkDown pos) := all _

theorem driveDepart (pos : Nat) : Statement (.driveDepart pos) := all _

theorem cstsPoll (pos : Nat) (cfs : Bool) : Statement (.cstsPoll pos cfs) := all _

theorem driveDmaRefused (slot : Nat) : Statement (.driveDmaRefused slot) := all _

theorem posMapAdopt (f pos : Nat) (value : Word) : Statement (.posMapAdopt f pos value) := all _

theorem posMapValidSet (f pos : Nat) (value : Word) : Statement (.posMapValidSet f pos value) := all _

theorem hemSample (v i t : BitVec 16) : Statement (.hemSample v i t) := all _

theorem hemSenseFault : Statement .hemSenseFault := all _

theorem sampleGap : Statement .sampleGap := all _

theorem hemFull : Statement .hemFull := all _

theorem emptyAnchor : Statement .emptyAnchor := all _

theorem hemRest : Statement .hemRest := all _

theorem reanchor : Statement .reanchor := all _

theorem hemStaleLearn : Statement .hemStaleLearn := all _

theorem calReq (f : Nat) : Statement (.calReq f) := all _

theorem calAbort (f : Nat) : Statement (.calAbort f) := all _

theorem calDischargeStart : Statement .calDischargeStart := all _

theorem calDischargeEnd : Statement .calDischargeEnd := all _

theorem shipReq (f : Nat) : Statement (.shipReq f) := all _

theorem shipCancel (f : Nat) : Statement (.shipCancel f) := all _

theorem hemShip : Statement .hemShip := all _

theorem hemChg (level : Bool) : Statement (.hemChg level) := all _

theorem flitReceive (hdr payload crc : List Byte) : Statement (.flitReceive hdr payload crc) := all _

theorem flitAckReceive (fseq : Nat) (refuse : Bool) : Statement (.flitAckReceive fseq refuse) := all _

theorem retrainTimeout : Statement .retrainTimeout := all _

theorem epgLinkDown : Statement .epgLinkDown := all _

theorem flitSilenceTimeout : Statement .flitSilenceTimeout := all _

theorem epgLinkUp : Statement .epgLinkUp := all _

theorem hello (pairId dieId : Word) (unit : UnitState) (claim : Word) (digests : List Word) (ledgerSeq : Nat) : Statement (.hello pairId dieId unit claim digests ledgerSeq) := all _

theorem input (stamp iseq : Nat) (what : InStep) : Statement (.input stamp iseq what) := all _

theorem jrec (stamp : Nat) (r : JRec) : Statement (.jrec stamp r) := all _

theorem page : Statement (.page stamp stripe block jseq data pi) := all _

theorem dinput (stamp stripe block : Nat) (data : List Byte) : Statement (.dinput stamp stripe block data) := all _

theorem digest (stamp iseq jseq lseq : Nat) (ledgerCrc parityCrc : Word) (jseqs : List Nat) : Statement (.digest stamp iseq jseq lseq ledgerCrc parityCrc jseqs) := all _

theorem ack (jseq tick iseq : Nat) : Statement (.ack jseq tick iseq) := all _

theorem base (what : Frame) : Statement (.base what) := all _

theorem baseDone : Statement .baseDone := all _

theorem mismatch (tick : Nat) : Statement (.mismatch tick) := all _

theorem drop : Statement .drop := all _

theorem handover (tick : Nat) : Statement (.handover tick) := all _

theorem liveImg (imgId : Word) (target : Nat) : Statement (.liveImg imgId target) := all _

theorem digestUnconfirmedDrop : Statement .digestUnconfirmedDrop := all _

theorem ackTimeoutDrop : Statement .ackTimeoutDrop := all _

theorem relayPostRound : Statement .relayPostRound := all _

theorem postRoundDurable : Statement .postRoundDurable := all _

theorem postRead : Statement .postRead := all _

theorem postReadResult (blocks : List (List Byte)) : Statement (.postReadResult blocks) := all _

theorem completionFenceHold : Statement .completionFenceHold := all _

theorem epgTakeover : Statement .epgTakeover := all _

theorem claimAcquired : Statement .claimAcquired := all _

theorem activeLostUnsynced : Statement .activeLostUnsynced := all _

theorem powerupReservation (reports : List (Option Holder)) : Statement (.powerupReservation reports) := all _

theorem join (f : Nat) : Statement (.join f) := all _

theorem salvage (f : Nat) : Statement (.salvage f) := all _

theorem switchBack (f : Nat) : Statement (.switchBack f) := all _

theorem form (f : Nat) : Statement (.form f) := all _

theorem switchBackQuiesce : Statement .switchBackQuiesce := all _

theorem switchBackLapse : Statement .switchBackLapse := all _

theorem epgVolClearGo (f : Nat) (value : Word) : Statement (.epgVolClearGo f value) := all _

theorem epgPolicyWrite (f : Nat) (value : Word) : Statement (.epgPolicyWrite f value) := all _

theorem sramPatrol (found : List SramFind) : Statement (.sramPatrol found) := all _

theorem hbmPatrol (pc : Nat) (rows : List Nat) (ue : List EccLoc) (done : Bool) : Statement (.hbmPatrol pc rows ue done) := all _

theorem eccUncorrectable (place : Nat) (loc : EccLoc) : Statement (.eccUncorrectable place loc) := all _

theorem agingMeasure (margins : List Nat) : Statement (.agingMeasure margins) := all _

theorem phyMarginMeasure (group pct : Nat) : Statement (.phyMarginMeasure group pct) := all _

theorem tempReading (tj : Int) : Statement (.tempReading tj) := all _

theorem thermalStop : Statement .thermalStop := all _

theorem thermComparator : Statement .thermComparator := all _

theorem hltSnapWrite (f : Nat) : Statement (.hltSnapWrite f) := all _

theorem evtMaskWrite (f w : Nat) (value : Word) : Statement (.evtMaskWrite f w value) := all _

theorem evtLogSelWrite (f : Nat) (value : Word) : Statement (.evtLogSelWrite f value) := all _

theorem trlArmRequest (f : Nat) : Statement (.trlArmRequest f) := all _

theorem trlDisarm (f : Nat) : Statement (.trlDisarm f) := all _

theorem trlCountDone : Statement .trlCountDone := all _

theorem mgwDataWrite (ctx : Nat) (value : BitVec 32) : Statement (.mgwDataWrite ctx value) := all _

theorem mgwDataRead (ctx : Nat) : Statement (.mgwDataRead ctx) := all _

theorem mgwClaim (ctx : Nat) : Statement (.mgwClaim ctx) := all _

theorem mgwRelease (ctx : Nat) : Statement (.mgwRelease ctx) := all _

theorem load (ctx : Nat) : Statement (.load ctx) := all _

theorem loadLive (ctx : Nat) : Statement (.loadLive ctx) := all _

theorem imgToFlash (ctx : Nat) : Statement (.imgToFlash ctx) := all _

theorem fwUpdate (ctx : Nat) : Statement (.fwUpdate ctx) := all _

theorem hemSave (ctx : Nat) : Statement (.hemSave ctx) := all _

theorem hemRestore (ctx : Nat) : Statement (.hemRestore ctx) := all _

theorem keyOrder (ctx : Nat) : Statement (.keyOrder ctx) := all _

theorem healthSnap (ctx : Nat) : Statement (.healthSnap ctx) := all _

theorem mgwClaimBroken (ctx : Nat) : Statement (.mgwClaimBroken ctx) := all _

theorem flashWriteDone (ok : Bool) : Statement (.flashWriteDone ok) := all _

theorem mgwKeyChange : Statement .mgwKeyChange := all _

theorem mgmtWatchdogReset : Statement .mgmtWatchdogReset := all _

theorem winWrite (ctx : Nat) (addr : Word) (words : List (BitVec 32)) : Statement (.winWrite ctx addr words) := all _

theorem winRead (ctx : Nat) (addr : Word) (count : Nat) : Statement (.winRead ctx addr count) := all _

theorem winCtl (ctx : Nat) (value : Word) : Statement (.winCtl ctx value) := all _

theorem order (ctx code : Nat) (arg : Word) : Statement (.order ctx code arg) := all _

theorem alertReg (ctx eid : Nat) (on : Bool) : Statement (.alertReg ctx eid on) := all _

theorem mctpControlMessage (ctx code arg : Nat) : Statement (.mctpControlMessage ctx code arg) := all _

theorem smbusAlertResponse : Statement .smbusAlertResponse := all _

theorem portResetAssert (port : Nat) : Statement (.portResetAssert port) := all _

theorem portResetRelease (port : Nat) : Statement (.portResetRelease port) := all _

theorem epgPrsntChange (high : Bool) : Statement (.epgPrsntChange high) := all _

theorem testModeAssert (high : Bool) : Statement (.testModeAssert high) := all _

theorem registerWrite (f bar offset width : Nat) (value : Word) : Statement (.registerWrite f bar offset width value) := all _

theorem driveCompletionArrival (cid status : Nat) (data : List Byte) : Statement (.driveCompletionArrival cid status data) := all _

theorem dmaReadCompletion (ch : Nat) (data : List Byte) : Statement (.dmaReadCompletion ch data) := all _

theorem capToExpiry (pos : Nat) : Statement (.capToExpiry pos) := all _

theorem msixUnmask (f : Nat) (vector : Option Nat) : Statement (.msixUnmask f vector) := all _


end Sys2Proof.Laws.Wellformed
end

