-- ==== Sys2Proof/Laws/State.lean ====
section
/-! SUPPORT. What each state update leaves alone: one lemma per field and update. -/

set_option Elab.async false

namespace Sys2Proof.Machine

open Sys2Proof

/-! ### An event raised touches the event unit and what the HEM observes alone (R506). -/

@[simp] theorem raise_boot (a0 : Nat) (s : State) : (raise a0 s).boot = s.boot := rfl
@[simp] theorem raise_halted (a0 : Nat) (s : State) : (raise a0 s).halted = s.halted := rfl
@[simp] theorem raise_clock (a0 : Nat) (s : State) : (raise a0 s).clock = s.clock := rfl
@[simp] theorem raise_free (a0 : Nat) (s : State) : (raise a0 s).free = s.free := rfl
@[simp] theorem raise_dieId (a0 : Nat) (s : State) : (raise a0 s).dieId = s.dieId := rfl
@[simp] theorem raise_image (a0 : Nat) (s : State) : (raise a0 s).image = s.image := rfl
@[simp] theorem raise_loader (a0 : Nat) (s : State) : (raise a0 s).loader = s.loader := rfl
@[simp] theorem raise_drone (a0 : Nat) (s : State) : (raise a0 s).drone = s.drone := rfl
@[simp] theorem raise_jobs (a0 : Nat) (s : State) : (raise a0 s).jobs = s.jobs := rfl
@[simp] theorem raise_sampled (a0 : Nat) (s : State) : (raise a0 s).sampled = s.sampled := rfl
@[simp] theorem raise_slotMap (a0 : Nat) (s : State) : (raise a0 s).slotMap = s.slotMap := rfl
@[simp] theorem raise_host (a0 : Nat) (s : State) : (raise a0 s).host = s.host := rfl
@[simp] theorem raise_dma (a0 : Nat) (s : State) : (raise a0 s).dma = s.dma := rfl
@[simp] theorem raise_mem (a0 : Nat) (s : State) : (raise a0 s).mem = s.mem := rfl
@[simp] theorem raise_reeds (a0 : Nat) (s : State) : (raise a0 s).reeds = s.reeds := rfl
@[simp] theorem raise_ledger (a0 : Nat) (s : State) : (raise a0 s).ledger = s.ledger := rfl
@[simp] theorem raise_smc (a0 : Nat) (s : State) : (raise a0 s).smc = s.smc := rfl
@[simp] theorem raise_cache (a0 : Nat) (s : State) : (raise a0 s).cache = s.cache := rfl
@[simp] theorem raise_array (a0 : Nat) (s : State) : (raise a0 s).array = s.array := rfl
@[simp] theorem raise_drives (a0 : Nat) (s : State) : (raise a0 s).drives = s.drives := rfl
@[simp] theorem raise_pair (a0 : Nat) (s : State) : (raise a0 s).pair = s.pair := rfl
@[simp] theorem raise_health (a0 : Nat) (s : State) : (raise a0 s).health = s.health := rfl
@[simp] theorem raise_trials (a0 : Nat) (s : State) : (raise a0 s).trials = s.trials := rfl
@[simp] theorem raise_mgmt (a0 : Nat) (s : State) : (raise a0 s).mgmt = s.mgmt := rfl
@[simp] theorem raise_flash (a0 : Nat) (s : State) : (raise a0 s).flash = s.flash := rfl
@[simp] theorem raise_pins (a0 : Nat) (s : State) : (raise a0 s).pins = s.pins := rfl
@[simp] theorem raise_out (a0 : Nat) (s : State) : (raise a0 s).out = s.out := rfl
@[simp] theorem raise_pending (a0 : Nat) (s : State) : (raise a0 s).pending = s.pending := rfl
/-! ### As `raise`. -/

@[simp] theorem raiseIf_boot (a0 : Bool) (a1 : Nat) (s : State) : (raiseIf a0 a1 s).boot = s.boot := by unfold raiseIf; split <;> rfl
@[simp] theorem raiseIf_halted (a0 : Bool) (a1 : Nat) (s : State) : (raiseIf a0 a1 s).halted = s.halted := by unfold raiseIf; split <;> rfl
@[simp] theorem raiseIf_clock (a0 : Bool) (a1 : Nat) (s : State) : (raiseIf a0 a1 s).clock = s.clock := by unfold raiseIf; split <;> rfl
@[simp] theorem raiseIf_free (a0 : Bool) (a1 : Nat) (s : State) : (raiseIf a0 a1 s).free = s.free := by unfold raiseIf; split <;> rfl
@[simp] theorem raiseIf_dieId (a0 : Bool) (a1 : Nat) (s : State) : (raiseIf a0 a1 s).dieId = s.dieId := by unfold raiseIf; split <;> rfl
@[simp] theorem raiseIf_image (a0 : Bool) (a1 : Nat) (s : State) : (raiseIf a0 a1 s).image = s.image := by unfold raiseIf; split <;> rfl
@[simp] theorem raiseIf_loader (a0 : Bool) (a1 : Nat) (s : State) : (raiseIf a0 a1 s).loader = s.loader := by unfold raiseIf; split <;> rfl
@[simp] theorem raiseIf_drone (a0 : Bool) (a1 : Nat) (s : State) : (raiseIf a0 a1 s).drone = s.drone := by unfold raiseIf; split <;> rfl
@[simp] theorem raiseIf_jobs (a0 : Bool) (a1 : Nat) (s : State) : (raiseIf a0 a1 s).jobs = s.jobs := by unfold raiseIf; split <;> rfl
@[simp] theorem raiseIf_sampled (a0 : Bool) (a1 : Nat) (s : State) : (raiseIf a0 a1 s).sampled = s.sampled := by unfold raiseIf; split <;> rfl
@[simp] theorem raiseIf_slotMap (a0 : Bool) (a1 : Nat) (s : State) : (raiseIf a0 a1 s).slotMap = s.slotMap := by unfold raiseIf; split <;> rfl
@[simp] theorem raiseIf_host (a0 : Bool) (a1 : Nat) (s : State) : (raiseIf a0 a1 s).host = s.host := by unfold raiseIf; split <;> rfl
@[simp] theorem raiseIf_dma (a0 : Bool) (a1 : Nat) (s : State) : (raiseIf a0 a1 s).dma = s.dma := by unfold raiseIf; split <;> rfl
@[simp] theorem raiseIf_mem (a0 : Bool) (a1 : Nat) (s : State) : (raiseIf a0 a1 s).mem = s.mem := by unfold raiseIf; split <;> rfl
@[simp] theorem raiseIf_reeds (a0 : Bool) (a1 : Nat) (s : State) : (raiseIf a0 a1 s).reeds = s.reeds := by unfold raiseIf; split <;> rfl
@[simp] theorem raiseIf_ledger (a0 : Bool) (a1 : Nat) (s : State) : (raiseIf a0 a1 s).ledger = s.ledger := by unfold raiseIf; split <;> rfl
@[simp] theorem raiseIf_smc (a0 : Bool) (a1 : Nat) (s : State) : (raiseIf a0 a1 s).smc = s.smc := by unfold raiseIf; split <;> rfl
@[simp] theorem raiseIf_cache (a0 : Bool) (a1 : Nat) (s : State) : (raiseIf a0 a1 s).cache = s.cache := by unfold raiseIf; split <;> rfl
@[simp] theorem raiseIf_array (a0 : Bool) (a1 : Nat) (s : State) : (raiseIf a0 a1 s).array = s.array := by unfold raiseIf; split <;> rfl
@[simp] theorem raiseIf_drives (a0 : Bool) (a1 : Nat) (s : State) : (raiseIf a0 a1 s).drives = s.drives := by unfold raiseIf; split <;> rfl
@[simp] theorem raiseIf_pair (a0 : Bool) (a1 : Nat) (s : State) : (raiseIf a0 a1 s).pair = s.pair := by unfold raiseIf; split <;> rfl
@[simp] theorem raiseIf_health (a0 : Bool) (a1 : Nat) (s : State) : (raiseIf a0 a1 s).health = s.health := by unfold raiseIf; split <;> rfl
@[simp] theorem raiseIf_trials (a0 : Bool) (a1 : Nat) (s : State) : (raiseIf a0 a1 s).trials = s.trials := by unfold raiseIf; split <;> rfl
@[simp] theorem raiseIf_mgmt (a0 : Bool) (a1 : Nat) (s : State) : (raiseIf a0 a1 s).mgmt = s.mgmt := by unfold raiseIf; split <;> rfl
@[simp] theorem raiseIf_flash (a0 : Bool) (a1 : Nat) (s : State) : (raiseIf a0 a1 s).flash = s.flash := by unfold raiseIf; split <;> rfl
@[simp] theorem raiseIf_pins (a0 : Bool) (a1 : Nat) (s : State) : (raiseIf a0 a1 s).pins = s.pins := by unfold raiseIf; split <;> rfl
@[simp] theorem raiseIf_out (a0 : Bool) (a1 : Nat) (s : State) : (raiseIf a0 a1 s).out = s.out := by unfold raiseIf; split <;> rfl
@[simp] theorem raiseIf_pending (a0 : Bool) (a1 : Nat) (s : State) : (raiseIf a0 a1 s).pending = s.pending := by unfold raiseIf; split <;> rfl
/-! ### An output touches the trace and the link it goes through. -/

@[simp] theorem emit_boot (a0 : Output) (s : State) : (emit a0 s).boot = s.boot := by unfold emit; split <;> rfl
@[simp] theorem emit_halted (a0 : Output) (s : State) : (emit a0 s).halted = s.halted := by unfold emit; split <;> rfl
@[simp] theorem emit_clock (a0 : Output) (s : State) : (emit a0 s).clock = s.clock := by unfold emit; split <;> rfl
@[simp] theorem emit_free (a0 : Output) (s : State) : (emit a0 s).free = s.free := by unfold emit; split <;> rfl
@[simp] theorem emit_dieId (a0 : Output) (s : State) : (emit a0 s).dieId = s.dieId := by unfold emit; split <;> rfl
@[simp] theorem emit_image (a0 : Output) (s : State) : (emit a0 s).image = s.image := by unfold emit; split <;> rfl
@[simp] theorem emit_loader (a0 : Output) (s : State) : (emit a0 s).loader = s.loader := by unfold emit; split <;> rfl
@[simp] theorem emit_drone (a0 : Output) (s : State) : (emit a0 s).drone = s.drone := by unfold emit; split <;> rfl
@[simp] theorem emit_jobs (a0 : Output) (s : State) : (emit a0 s).jobs = s.jobs := by unfold emit; split <;> rfl
@[simp] theorem emit_sampled (a0 : Output) (s : State) : (emit a0 s).sampled = s.sampled := by unfold emit; split <;> rfl
@[simp] theorem emit_slotMap (a0 : Output) (s : State) : (emit a0 s).slotMap = s.slotMap := by unfold emit; split <;> rfl
@[simp] theorem emit_host (a0 : Output) (s : State) : (emit a0 s).host = s.host := by unfold emit; split <;> rfl
@[simp] theorem emit_dma (a0 : Output) (s : State) : (emit a0 s).dma = s.dma := by unfold emit; split <;> rfl
@[simp] theorem emit_mem (a0 : Output) (s : State) : (emit a0 s).mem = s.mem := by unfold emit; split <;> rfl
@[simp] theorem emit_reeds (a0 : Output) (s : State) : (emit a0 s).reeds = s.reeds := by unfold emit; split <;> rfl
@[simp] theorem emit_ledger (a0 : Output) (s : State) : (emit a0 s).ledger = s.ledger := by unfold emit; split <;> rfl
@[simp] theorem emit_smc (a0 : Output) (s : State) : (emit a0 s).smc = s.smc := by unfold emit; split <;> rfl
@[simp] theorem emit_cache (a0 : Output) (s : State) : (emit a0 s).cache = s.cache := by unfold emit; split <;> rfl
@[simp] theorem emit_array (a0 : Output) (s : State) : (emit a0 s).array = s.array := by unfold emit; split <;> rfl
@[simp] theorem emit_drives (a0 : Output) (s : State) : (emit a0 s).drives = s.drives := by unfold emit; split <;> rfl
@[simp] theorem emit_hem (a0 : Output) (s : State) : (emit a0 s).hem = s.hem := by unfold emit; split <;> rfl
@[simp] theorem emit_health (a0 : Output) (s : State) : (emit a0 s).health = s.health := by unfold emit; split <;> rfl
@[simp] theorem emit_events (a0 : Output) (s : State) : (emit a0 s).events = s.events := by unfold emit; split <;> rfl
@[simp] theorem emit_trials (a0 : Output) (s : State) : (emit a0 s).trials = s.trials := by unfold emit; split <;> rfl
@[simp] theorem emit_mgmt (a0 : Output) (s : State) : (emit a0 s).mgmt = s.mgmt := by unfold emit; split <;> rfl
@[simp] theorem emit_flash (a0 : Output) (s : State) : (emit a0 s).flash = s.flash := by unfold emit; split <;> rfl
@[simp] theorem emit_pins (a0 : Output) (s : State) : (emit a0 s).pins = s.pins := by unfold emit; split <;> rfl
@[simp] theorem emit_pending (a0 : Output) (s : State) : (emit a0 s).pending = s.pending := by unfold emit; split <;> rfl
/-! ### A ring pair written. -/

@[simp] theorem setRing_boot (a0 : Nat) (a1 : Ring) (s : State) : (setRing a0 a1 s).boot = s.boot := rfl
@[simp] theorem setRing_halted (a0 : Nat) (a1 : Ring) (s : State) : (setRing a0 a1 s).halted = s.halted := rfl
@[simp] theorem setRing_clock (a0 : Nat) (a1 : Ring) (s : State) : (setRing a0 a1 s).clock = s.clock := rfl
@[simp] theorem setRing_free (a0 : Nat) (a1 : Ring) (s : State) : (setRing a0 a1 s).free = s.free := rfl
@[simp] theorem setRing_dieId (a0 : Nat) (a1 : Ring) (s : State) : (setRing a0 a1 s).dieId = s.dieId := rfl
@[simp] theorem setRing_image (a0 : Nat) (a1 : Ring) (s : State) : (setRing a0 a1 s).image = s.image := rfl
@[simp] theorem setRing_loader (a0 : Nat) (a1 : Ring) (s : State) : (setRing a0 a1 s).loader = s.loader := rfl
@[simp] theorem setRing_drone (a0 : Nat) (a1 : Ring) (s : State) : (setRing a0 a1 s).drone = s.drone := rfl
@[simp] theorem setRing_jobs (a0 : Nat) (a1 : Ring) (s : State) : (setRing a0 a1 s).jobs = s.jobs := rfl
@[simp] theorem setRing_sampled (a0 : Nat) (a1 : Ring) (s : State) : (setRing a0 a1 s).sampled = s.sampled := rfl
@[simp] theorem setRing_slotMap (a0 : Nat) (a1 : Ring) (s : State) : (setRing a0 a1 s).slotMap = s.slotMap := rfl
@[simp] theorem setRing_dma (a0 : Nat) (a1 : Ring) (s : State) : (setRing a0 a1 s).dma = s.dma := rfl
@[simp] theorem setRing_mem (a0 : Nat) (a1 : Ring) (s : State) : (setRing a0 a1 s).mem = s.mem := rfl
@[simp] theorem setRing_reeds (a0 : Nat) (a1 : Ring) (s : State) : (setRing a0 a1 s).reeds = s.reeds := rfl
@[simp] theorem setRing_ledger (a0 : Nat) (a1 : Ring) (s : State) : (setRing a0 a1 s).ledger = s.ledger := rfl
@[simp] theorem setRing_smc (a0 : Nat) (a1 : Ring) (s : State) : (setRing a0 a1 s).smc = s.smc := rfl
@[simp] theorem setRing_cache (a0 : Nat) (a1 : Ring) (s : State) : (setRing a0 a1 s).cache = s.cache := rfl
@[simp] theorem setRing_array (a0 : Nat) (a1 : Ring) (s : State) : (setRing a0 a1 s).array = s.array := rfl
@[simp] theorem setRing_drives (a0 : Nat) (a1 : Ring) (s : State) : (setRing a0 a1 s).drives = s.drives := rfl
@[simp] theorem setRing_hem (a0 : Nat) (a1 : Ring) (s : State) : (setRing a0 a1 s).hem = s.hem := rfl
@[simp] theorem setRing_pair (a0 : Nat) (a1 : Ring) (s : State) : (setRing a0 a1 s).pair = s.pair := rfl
@[simp] theorem setRing_health (a0 : Nat) (a1 : Ring) (s : State) : (setRing a0 a1 s).health = s.health := rfl
@[simp] theorem setRing_events (a0 : Nat) (a1 : Ring) (s : State) : (setRing a0 a1 s).events = s.events := rfl
@[simp] theorem setRing_trials (a0 : Nat) (a1 : Ring) (s : State) : (setRing a0 a1 s).trials = s.trials := rfl
@[simp] theorem setRing_mgmt (a0 : Nat) (a1 : Ring) (s : State) : (setRing a0 a1 s).mgmt = s.mgmt := rfl
@[simp] theorem setRing_flash (a0 : Nat) (a1 : Ring) (s : State) : (setRing a0 a1 s).flash = s.flash := rfl
@[simp] theorem setRing_pins (a0 : Nat) (a1 : Ring) (s : State) : (setRing a0 a1 s).pins = s.pins := rfl
@[simp] theorem setRing_out (a0 : Nat) (a1 : Ring) (s : State) : (setRing a0 a1 s).out = s.out := rfl
@[simp] theorem setRing_pending (a0 : Nat) (a1 : Ring) (s : State) : (setRing a0 a1 s).pending = s.pending := rfl
/-! ### A ring pair changed. -/

@[simp] theorem modRing_boot (a0 : Nat) (a1 : Ring → Ring) (s : State) : (modRing a0 a1 s).boot = s.boot := rfl
@[simp] theorem modRing_halted (a0 : Nat) (a1 : Ring → Ring) (s : State) : (modRing a0 a1 s).halted = s.halted := rfl
@[simp] theorem modRing_clock (a0 : Nat) (a1 : Ring → Ring) (s : State) : (modRing a0 a1 s).clock = s.clock := rfl
@[simp] theorem modRing_free (a0 : Nat) (a1 : Ring → Ring) (s : State) : (modRing a0 a1 s).free = s.free := rfl
@[simp] theorem modRing_dieId (a0 : Nat) (a1 : Ring → Ring) (s : State) : (modRing a0 a1 s).dieId = s.dieId := rfl
@[simp] theorem modRing_image (a0 : Nat) (a1 : Ring → Ring) (s : State) : (modRing a0 a1 s).image = s.image := rfl
@[simp] theorem modRing_loader (a0 : Nat) (a1 : Ring → Ring) (s : State) : (modRing a0 a1 s).loader = s.loader := rfl
@[simp] theorem modRing_drone (a0 : Nat) (a1 : Ring → Ring) (s : State) : (modRing a0 a1 s).drone = s.drone := rfl
@[simp] theorem modRing_jobs (a0 : Nat) (a1 : Ring → Ring) (s : State) : (modRing a0 a1 s).jobs = s.jobs := rfl
@[simp] theorem modRing_sampled (a0 : Nat) (a1 : Ring → Ring) (s : State) : (modRing a0 a1 s).sampled = s.sampled := rfl
@[simp] theorem modRing_slotMap (a0 : Nat) (a1 : Ring → Ring) (s : State) : (modRing a0 a1 s).slotMap = s.slotMap := rfl
@[simp] theorem modRing_dma (a0 : Nat) (a1 : Ring → Ring) (s : State) : (modRing a0 a1 s).dma = s.dma := rfl
@[simp] theorem modRing_mem (a0 : Nat) (a1 : Ring → Ring) (s : State) : (modRing a0 a1 s).mem = s.mem := rfl
@[simp] theorem modRing_reeds (a0 : Nat) (a1 : Ring → Ring) (s : State) : (modRing a0 a1 s).reeds = s.reeds := rfl
@[simp] theorem modRing_ledger (a0 : Nat) (a1 : Ring → Ring) (s : State) : (modRing a0 a1 s).ledger = s.ledger := rfl
@[simp] theorem modRing_smc (a0 : Nat) (a1 : Ring → Ring) (s : State) : (modRing a0 a1 s).smc = s.smc := rfl
@[simp] theorem modRing_cache (a0 : Nat) (a1 : Ring → Ring) (s : State) : (modRing a0 a1 s).cache = s.cache := rfl
@[simp] theorem modRing_array (a0 : Nat) (a1 : Ring → Ring) (s : State) : (modRing a0 a1 s).array = s.array := rfl
@[simp] theorem modRing_drives (a0 : Nat) (a1 : Ring → Ring) (s : State) : (modRing a0 a1 s).drives = s.drives := rfl
@[simp] theorem modRing_hem (a0 : Nat) (a1 : Ring → Ring) (s : State) : (modRing a0 a1 s).hem = s.hem := rfl
@[simp] theorem modRing_pair (a0 : Nat) (a1 : Ring → Ring) (s : State) : (modRing a0 a1 s).pair = s.pair := rfl
@[simp] theorem modRing_health (a0 : Nat) (a1 : Ring → Ring) (s : State) : (modRing a0 a1 s).health = s.health := rfl
@[simp] theorem modRing_events (a0 : Nat) (a1 : Ring → Ring) (s : State) : (modRing a0 a1 s).events = s.events := rfl
@[simp] theorem modRing_trials (a0 : Nat) (a1 : Ring → Ring) (s : State) : (modRing a0 a1 s).trials = s.trials := rfl
@[simp] theorem modRing_mgmt (a0 : Nat) (a1 : Ring → Ring) (s : State) : (modRing a0 a1 s).mgmt = s.mgmt := rfl
@[simp] theorem modRing_flash (a0 : Nat) (a1 : Ring → Ring) (s : State) : (modRing a0 a1 s).flash = s.flash := rfl
@[simp] theorem modRing_pins (a0 : Nat) (a1 : Ring → Ring) (s : State) : (modRing a0 a1 s).pins = s.pins := rfl
@[simp] theorem modRing_out (a0 : Nat) (a1 : Ring → Ring) (s : State) : (modRing a0 a1 s).out = s.out := rfl
@[simp] theorem modRing_pending (a0 : Nat) (a1 : Ring → Ring) (s : State) : (modRing a0 a1 s).pending = s.pending := rfl
/-! ### A DMA channel written. -/

@[simp] theorem setChan_boot (a0 : Nat) (a1 : Chan) (s : State) : (setChan a0 a1 s).boot = s.boot := rfl
@[simp] theorem setChan_halted (a0 : Nat) (a1 : Chan) (s : State) : (setChan a0 a1 s).halted = s.halted := rfl
@[simp] theorem setChan_clock (a0 : Nat) (a1 : Chan) (s : State) : (setChan a0 a1 s).clock = s.clock := rfl
@[simp] theorem setChan_free (a0 : Nat) (a1 : Chan) (s : State) : (setChan a0 a1 s).free = s.free := rfl
@[simp] theorem setChan_dieId (a0 : Nat) (a1 : Chan) (s : State) : (setChan a0 a1 s).dieId = s.dieId := rfl
@[simp] theorem setChan_image (a0 : Nat) (a1 : Chan) (s : State) : (setChan a0 a1 s).image = s.image := rfl
@[simp] theorem setChan_loader (a0 : Nat) (a1 : Chan) (s : State) : (setChan a0 a1 s).loader = s.loader := rfl
@[simp] theorem setChan_drone (a0 : Nat) (a1 : Chan) (s : State) : (setChan a0 a1 s).drone = s.drone := rfl
@[simp] theorem setChan_jobs (a0 : Nat) (a1 : Chan) (s : State) : (setChan a0 a1 s).jobs = s.jobs := rfl
@[simp] theorem setChan_sampled (a0 : Nat) (a1 : Chan) (s : State) : (setChan a0 a1 s).sampled = s.sampled := rfl
@[simp] theorem setChan_slotMap (a0 : Nat) (a1 : Chan) (s : State) : (setChan a0 a1 s).slotMap = s.slotMap := rfl
@[simp] theorem setChan_host (a0 : Nat) (a1 : Chan) (s : State) : (setChan a0 a1 s).host = s.host := rfl
@[simp] theorem setChan_mem (a0 : Nat) (a1 : Chan) (s : State) : (setChan a0 a1 s).mem = s.mem := rfl
@[simp] theorem setChan_reeds (a0 : Nat) (a1 : Chan) (s : State) : (setChan a0 a1 s).reeds = s.reeds := rfl
@[simp] theorem setChan_ledger (a0 : Nat) (a1 : Chan) (s : State) : (setChan a0 a1 s).ledger = s.ledger := rfl
@[simp] theorem setChan_smc (a0 : Nat) (a1 : Chan) (s : State) : (setChan a0 a1 s).smc = s.smc := rfl
@[simp] theorem setChan_cache (a0 : Nat) (a1 : Chan) (s : State) : (setChan a0 a1 s).cache = s.cache := rfl
@[simp] theorem setChan_array (a0 : Nat) (a1 : Chan) (s : State) : (setChan a0 a1 s).array = s.array := rfl
@[simp] theorem setChan_drives (a0 : Nat) (a1 : Chan) (s : State) : (setChan a0 a1 s).drives = s.drives := rfl
@[simp] theorem setChan_hem (a0 : Nat) (a1 : Chan) (s : State) : (setChan a0 a1 s).hem = s.hem := rfl
@[simp] theorem setChan_pair (a0 : Nat) (a1 : Chan) (s : State) : (setChan a0 a1 s).pair = s.pair := rfl
@[simp] theorem setChan_health (a0 : Nat) (a1 : Chan) (s : State) : (setChan a0 a1 s).health = s.health := rfl
@[simp] theorem setChan_events (a0 : Nat) (a1 : Chan) (s : State) : (setChan a0 a1 s).events = s.events := rfl
@[simp] theorem setChan_trials (a0 : Nat) (a1 : Chan) (s : State) : (setChan a0 a1 s).trials = s.trials := rfl
@[simp] theorem setChan_mgmt (a0 : Nat) (a1 : Chan) (s : State) : (setChan a0 a1 s).mgmt = s.mgmt := rfl
@[simp] theorem setChan_flash (a0 : Nat) (a1 : Chan) (s : State) : (setChan a0 a1 s).flash = s.flash := rfl
@[simp] theorem setChan_pins (a0 : Nat) (a1 : Chan) (s : State) : (setChan a0 a1 s).pins = s.pins := rfl
@[simp] theorem setChan_out (a0 : Nat) (a1 : Chan) (s : State) : (setChan a0 a1 s).out = s.out := rfl
@[simp] theorem setChan_pending (a0 : Nat) (a1 : Chan) (s : State) : (setChan a0 a1 s).pending = s.pending := rfl
/-! ### A DMA channel changed. -/

@[simp] theorem modChan_boot (a0 : Nat) (a1 : Chan → Chan) (s : State) : (modChan a0 a1 s).boot = s.boot := rfl
@[simp] theorem modChan_halted (a0 : Nat) (a1 : Chan → Chan) (s : State) : (modChan a0 a1 s).halted = s.halted := rfl
@[simp] theorem modChan_clock (a0 : Nat) (a1 : Chan → Chan) (s : State) : (modChan a0 a1 s).clock = s.clock := rfl
@[simp] theorem modChan_free (a0 : Nat) (a1 : Chan → Chan) (s : State) : (modChan a0 a1 s).free = s.free := rfl
@[simp] theorem modChan_dieId (a0 : Nat) (a1 : Chan → Chan) (s : State) : (modChan a0 a1 s).dieId = s.dieId := rfl
@[simp] theorem modChan_image (a0 : Nat) (a1 : Chan → Chan) (s : State) : (modChan a0 a1 s).image = s.image := rfl
@[simp] theorem modChan_loader (a0 : Nat) (a1 : Chan → Chan) (s : State) : (modChan a0 a1 s).loader = s.loader := rfl
@[simp] theorem modChan_drone (a0 : Nat) (a1 : Chan → Chan) (s : State) : (modChan a0 a1 s).drone = s.drone := rfl
@[simp] theorem modChan_jobs (a0 : Nat) (a1 : Chan → Chan) (s : State) : (modChan a0 a1 s).jobs = s.jobs := rfl
@[simp] theorem modChan_sampled (a0 : Nat) (a1 : Chan → Chan) (s : State) : (modChan a0 a1 s).sampled = s.sampled := rfl
@[simp] theorem modChan_slotMap (a0 : Nat) (a1 : Chan → Chan) (s : State) : (modChan a0 a1 s).slotMap = s.slotMap := rfl
@[simp] theorem modChan_host (a0 : Nat) (a1 : Chan → Chan) (s : State) : (modChan a0 a1 s).host = s.host := rfl
@[simp] theorem modChan_mem (a0 : Nat) (a1 : Chan → Chan) (s : State) : (modChan a0 a1 s).mem = s.mem := rfl
@[simp] theorem modChan_reeds (a0 : Nat) (a1 : Chan → Chan) (s : State) : (modChan a0 a1 s).reeds = s.reeds := rfl
@[simp] theorem modChan_ledger (a0 : Nat) (a1 : Chan → Chan) (s : State) : (modChan a0 a1 s).ledger = s.ledger := rfl
@[simp] theorem modChan_smc (a0 : Nat) (a1 : Chan → Chan) (s : State) : (modChan a0 a1 s).smc = s.smc := rfl
@[simp] theorem modChan_cache (a0 : Nat) (a1 : Chan → Chan) (s : State) : (modChan a0 a1 s).cache = s.cache := rfl
@[simp] theorem modChan_array (a0 : Nat) (a1 : Chan → Chan) (s : State) : (modChan a0 a1 s).array = s.array := rfl
@[simp] theorem modChan_drives (a0 : Nat) (a1 : Chan → Chan) (s : State) : (modChan a0 a1 s).drives = s.drives := rfl
@[simp] theorem modChan_hem (a0 : Nat) (a1 : Chan → Chan) (s : State) : (modChan a0 a1 s).hem = s.hem := rfl
@[simp] theorem modChan_pair (a0 : Nat) (a1 : Chan → Chan) (s : State) : (modChan a0 a1 s).pair = s.pair := rfl
@[simp] theorem modChan_health (a0 : Nat) (a1 : Chan → Chan) (s : State) : (modChan a0 a1 s).health = s.health := rfl
@[simp] theorem modChan_events (a0 : Nat) (a1 : Chan → Chan) (s : State) : (modChan a0 a1 s).events = s.events := rfl
@[simp] theorem modChan_trials (a0 : Nat) (a1 : Chan → Chan) (s : State) : (modChan a0 a1 s).trials = s.trials := rfl
@[simp] theorem modChan_mgmt (a0 : Nat) (a1 : Chan → Chan) (s : State) : (modChan a0 a1 s).mgmt = s.mgmt := rfl
@[simp] theorem modChan_flash (a0 : Nat) (a1 : Chan → Chan) (s : State) : (modChan a0 a1 s).flash = s.flash := rfl
@[simp] theorem modChan_pins (a0 : Nat) (a1 : Chan → Chan) (s : State) : (modChan a0 a1 s).pins = s.pins := rfl
@[simp] theorem modChan_out (a0 : Nat) (a1 : Chan → Chan) (s : State) : (modChan a0 a1 s).out = s.out := rfl
@[simp] theorem modChan_pending (a0 : Nat) (a1 : Chan → Chan) (s : State) : (modChan a0 a1 s).pending = s.pending := rfl
/-! ### The pair sequencer changed. -/

@[simp] theorem modEpg_boot (a0 : Pair → Pair) (s : State) : (modEpg a0 s).boot = s.boot := rfl
@[simp] theorem modEpg_halted (a0 : Pair → Pair) (s : State) : (modEpg a0 s).halted = s.halted := rfl
@[simp] theorem modEpg_clock (a0 : Pair → Pair) (s : State) : (modEpg a0 s).clock = s.clock := rfl
@[simp] theorem modEpg_free (a0 : Pair → Pair) (s : State) : (modEpg a0 s).free = s.free := rfl
@[simp] theorem modEpg_dieId (a0 : Pair → Pair) (s : State) : (modEpg a0 s).dieId = s.dieId := rfl
@[simp] theorem modEpg_image (a0 : Pair → Pair) (s : State) : (modEpg a0 s).image = s.image := rfl
@[simp] theorem modEpg_loader (a0 : Pair → Pair) (s : State) : (modEpg a0 s).loader = s.loader := rfl
@[simp] theorem modEpg_drone (a0 : Pair → Pair) (s : State) : (modEpg a0 s).drone = s.drone := rfl
@[simp] theorem modEpg_jobs (a0 : Pair → Pair) (s : State) : (modEpg a0 s).jobs = s.jobs := rfl
@[simp] theorem modEpg_sampled (a0 : Pair → Pair) (s : State) : (modEpg a0 s).sampled = s.sampled := rfl
@[simp] theorem modEpg_slotMap (a0 : Pair → Pair) (s : State) : (modEpg a0 s).slotMap = s.slotMap := rfl
@[simp] theorem modEpg_host (a0 : Pair → Pair) (s : State) : (modEpg a0 s).host = s.host := rfl
@[simp] theorem modEpg_dma (a0 : Pair → Pair) (s : State) : (modEpg a0 s).dma = s.dma := rfl
@[simp] theorem modEpg_mem (a0 : Pair → Pair) (s : State) : (modEpg a0 s).mem = s.mem := rfl
@[simp] theorem modEpg_reeds (a0 : Pair → Pair) (s : State) : (modEpg a0 s).reeds = s.reeds := rfl
@[simp] theorem modEpg_ledger (a0 : Pair → Pair) (s : State) : (modEpg a0 s).ledger = s.ledger := rfl
@[simp] theorem modEpg_smc (a0 : Pair → Pair) (s : State) : (modEpg a0 s).smc = s.smc := rfl
@[simp] theorem modEpg_cache (a0 : Pair → Pair) (s : State) : (modEpg a0 s).cache = s.cache := rfl
@[simp] theorem modEpg_array (a0 : Pair → Pair) (s : State) : (modEpg a0 s).array = s.array := rfl
@[simp] theorem modEpg_drives (a0 : Pair → Pair) (s : State) : (modEpg a0 s).drives = s.drives := rfl
@[simp] theorem modEpg_hem (a0 : Pair → Pair) (s : State) : (modEpg a0 s).hem = s.hem := rfl
@[simp] theorem modEpg_health (a0 : Pair → Pair) (s : State) : (modEpg a0 s).health = s.health := rfl
@[simp] theorem modEpg_events (a0 : Pair → Pair) (s : State) : (modEpg a0 s).events = s.events := rfl
@[simp] theorem modEpg_trials (a0 : Pair → Pair) (s : State) : (modEpg a0 s).trials = s.trials := rfl
@[simp] theorem modEpg_mgmt (a0 : Pair → Pair) (s : State) : (modEpg a0 s).mgmt = s.mgmt := rfl
@[simp] theorem modEpg_flash (a0 : Pair → Pair) (s : State) : (modEpg a0 s).flash = s.flash := rfl
@[simp] theorem modEpg_pins (a0 : Pair → Pair) (s : State) : (modEpg a0 s).pins = s.pins := rfl
@[simp] theorem modEpg_out (a0 : Pair → Pair) (s : State) : (modEpg a0 s).out = s.out := rfl
@[simp] theorem modEpg_pending (a0 : Pair → Pair) (s : State) : (modEpg a0 s).pending = s.pending := rfl
/-! ### The link changed. -/

@[simp] theorem modLink_boot (a0 : Link → Link) (s : State) : (modLink a0 s).boot = s.boot := rfl
@[simp] theorem modLink_halted (a0 : Link → Link) (s : State) : (modLink a0 s).halted = s.halted := rfl
@[simp] theorem modLink_clock (a0 : Link → Link) (s : State) : (modLink a0 s).clock = s.clock := rfl
@[simp] theorem modLink_free (a0 : Link → Link) (s : State) : (modLink a0 s).free = s.free := rfl
@[simp] theorem modLink_dieId (a0 : Link → Link) (s : State) : (modLink a0 s).dieId = s.dieId := rfl
@[simp] theorem modLink_image (a0 : Link → Link) (s : State) : (modLink a0 s).image = s.image := rfl
@[simp] theorem modLink_loader (a0 : Link → Link) (s : State) : (modLink a0 s).loader = s.loader := rfl
@[simp] theorem modLink_drone (a0 : Link → Link) (s : State) : (modLink a0 s).drone = s.drone := rfl
@[simp] theorem modLink_jobs (a0 : Link → Link) (s : State) : (modLink a0 s).jobs = s.jobs := rfl
@[simp] theorem modLink_sampled (a0 : Link → Link) (s : State) : (modLink a0 s).sampled = s.sampled := rfl
@[simp] theorem modLink_slotMap (a0 : Link → Link) (s : State) : (modLink a0 s).slotMap = s.slotMap := rfl
@[simp] theorem modLink_host (a0 : Link → Link) (s : State) : (modLink a0 s).host = s.host := rfl
@[simp] theorem modLink_dma (a0 : Link → Link) (s : State) : (modLink a0 s).dma = s.dma := rfl
@[simp] theorem modLink_mem (a0 : Link → Link) (s : State) : (modLink a0 s).mem = s.mem := rfl
@[simp] theorem modLink_reeds (a0 : Link → Link) (s : State) : (modLink a0 s).reeds = s.reeds := rfl
@[simp] theorem modLink_ledger (a0 : Link → Link) (s : State) : (modLink a0 s).ledger = s.ledger := rfl
@[simp] theorem modLink_smc (a0 : Link → Link) (s : State) : (modLink a0 s).smc = s.smc := rfl
@[simp] theorem modLink_cache (a0 : Link → Link) (s : State) : (modLink a0 s).cache = s.cache := rfl
@[simp] theorem modLink_array (a0 : Link → Link) (s : State) : (modLink a0 s).array = s.array := rfl
@[simp] theorem modLink_drives (a0 : Link → Link) (s : State) : (modLink a0 s).drives = s.drives := rfl
@[simp] theorem modLink_hem (a0 : Link → Link) (s : State) : (modLink a0 s).hem = s.hem := rfl
@[simp] theorem modLink_health (a0 : Link → Link) (s : State) : (modLink a0 s).health = s.health := rfl
@[simp] theorem modLink_events (a0 : Link → Link) (s : State) : (modLink a0 s).events = s.events := rfl
@[simp] theorem modLink_trials (a0 : Link → Link) (s : State) : (modLink a0 s).trials = s.trials := rfl
@[simp] theorem modLink_mgmt (a0 : Link → Link) (s : State) : (modLink a0 s).mgmt = s.mgmt := rfl
@[simp] theorem modLink_flash (a0 : Link → Link) (s : State) : (modLink a0 s).flash = s.flash := rfl
@[simp] theorem modLink_pins (a0 : Link → Link) (s : State) : (modLink a0 s).pins = s.pins := rfl
@[simp] theorem modLink_out (a0 : Link → Link) (s : State) : (modLink a0 s).out = s.out := rfl
@[simp] theorem modLink_pending (a0 : Link → Link) (s : State) : (modLink a0 s).pending = s.pending := rfl
/-! ### Work queued. -/

@[simp] theorem queueWorks_boot (a0 : Nat) (a1 : WorkClass) (a2 : Bool) (a3 : List Work) (s : State) : (queueWorks a0 a1 a2 a3 s).boot = s.boot := rfl
@[simp] theorem queueWorks_halted (a0 : Nat) (a1 : WorkClass) (a2 : Bool) (a3 : List Work) (s : State) : (queueWorks a0 a1 a2 a3 s).halted = s.halted := rfl
@[simp] theorem queueWorks_clock (a0 : Nat) (a1 : WorkClass) (a2 : Bool) (a3 : List Work) (s : State) : (queueWorks a0 a1 a2 a3 s).clock = s.clock := rfl
@[simp] theorem queueWorks_free (a0 : Nat) (a1 : WorkClass) (a2 : Bool) (a3 : List Work) (s : State) : (queueWorks a0 a1 a2 a3 s).free = s.free := rfl
@[simp] theorem queueWorks_dieId (a0 : Nat) (a1 : WorkClass) (a2 : Bool) (a3 : List Work) (s : State) : (queueWorks a0 a1 a2 a3 s).dieId = s.dieId := rfl
@[simp] theorem queueWorks_image (a0 : Nat) (a1 : WorkClass) (a2 : Bool) (a3 : List Work) (s : State) : (queueWorks a0 a1 a2 a3 s).image = s.image := rfl
@[simp] theorem queueWorks_loader (a0 : Nat) (a1 : WorkClass) (a2 : Bool) (a3 : List Work) (s : State) : (queueWorks a0 a1 a2 a3 s).loader = s.loader := rfl
@[simp] theorem queueWorks_jobs (a0 : Nat) (a1 : WorkClass) (a2 : Bool) (a3 : List Work) (s : State) : (queueWorks a0 a1 a2 a3 s).jobs = s.jobs := rfl
@[simp] theorem queueWorks_sampled (a0 : Nat) (a1 : WorkClass) (a2 : Bool) (a3 : List Work) (s : State) : (queueWorks a0 a1 a2 a3 s).sampled = s.sampled := rfl
@[simp] theorem queueWorks_slotMap (a0 : Nat) (a1 : WorkClass) (a2 : Bool) (a3 : List Work) (s : State) : (queueWorks a0 a1 a2 a3 s).slotMap = s.slotMap := rfl
@[simp] theorem queueWorks_host (a0 : Nat) (a1 : WorkClass) (a2 : Bool) (a3 : List Work) (s : State) : (queueWorks a0 a1 a2 a3 s).host = s.host := rfl
@[simp] theorem queueWorks_dma (a0 : Nat) (a1 : WorkClass) (a2 : Bool) (a3 : List Work) (s : State) : (queueWorks a0 a1 a2 a3 s).dma = s.dma := rfl
@[simp] theorem queueWorks_mem (a0 : Nat) (a1 : WorkClass) (a2 : Bool) (a3 : List Work) (s : State) : (queueWorks a0 a1 a2 a3 s).mem = s.mem := rfl
@[simp] theorem queueWorks_reeds (a0 : Nat) (a1 : WorkClass) (a2 : Bool) (a3 : List Work) (s : State) : (queueWorks a0 a1 a2 a3 s).reeds = s.reeds := rfl
@[simp] theorem queueWorks_ledger (a0 : Nat) (a1 : WorkClass) (a2 : Bool) (a3 : List Work) (s : State) : (queueWorks a0 a1 a2 a3 s).ledger = s.ledger := rfl
@[simp] theorem queueWorks_smc (a0 : Nat) (a1 : WorkClass) (a2 : Bool) (a3 : List Work) (s : State) : (queueWorks a0 a1 a2 a3 s).smc = s.smc := rfl
@[simp] theorem queueWorks_cache (a0 : Nat) (a1 : WorkClass) (a2 : Bool) (a3 : List Work) (s : State) : (queueWorks a0 a1 a2 a3 s).cache = s.cache := rfl
@[simp] theorem queueWorks_array (a0 : Nat) (a1 : WorkClass) (a2 : Bool) (a3 : List Work) (s : State) : (queueWorks a0 a1 a2 a3 s).array = s.array := rfl
@[simp] theorem queueWorks_drives (a0 : Nat) (a1 : WorkClass) (a2 : Bool) (a3 : List Work) (s : State) : (queueWorks a0 a1 a2 a3 s).drives = s.drives := rfl
@[simp] theorem queueWorks_hem (a0 : Nat) (a1 : WorkClass) (a2 : Bool) (a3 : List Work) (s : State) : (queueWorks a0 a1 a2 a3 s).hem = s.hem := rfl
@[simp] theorem queueWorks_pair (a0 : Nat) (a1 : WorkClass) (a2 : Bool) (a3 : List Work) (s : State) : (queueWorks a0 a1 a2 a3 s).pair = s.pair := rfl
@[simp] theorem queueWorks_health (a0 : Nat) (a1 : WorkClass) (a2 : Bool) (a3 : List Work) (s : State) : (queueWorks a0 a1 a2 a3 s).health = s.health := rfl
@[simp] theorem queueWorks_events (a0 : Nat) (a1 : WorkClass) (a2 : Bool) (a3 : List Work) (s : State) : (queueWorks a0 a1 a2 a3 s).events = s.events := rfl
@[simp] theorem queueWorks_trials (a0 : Nat) (a1 : WorkClass) (a2 : Bool) (a3 : List Work) (s : State) : (queueWorks a0 a1 a2 a3 s).trials = s.trials := rfl
@[simp] theorem queueWorks_mgmt (a0 : Nat) (a1 : WorkClass) (a2 : Bool) (a3 : List Work) (s : State) : (queueWorks a0 a1 a2 a3 s).mgmt = s.mgmt := rfl
@[simp] theorem queueWorks_flash (a0 : Nat) (a1 : WorkClass) (a2 : Bool) (a3 : List Work) (s : State) : (queueWorks a0 a1 a2 a3 s).flash = s.flash := rfl
@[simp] theorem queueWorks_pins (a0 : Nat) (a1 : WorkClass) (a2 : Bool) (a3 : List Work) (s : State) : (queueWorks a0 a1 a2 a3 s).pins = s.pins := rfl
@[simp] theorem queueWorks_out (a0 : Nat) (a1 : WorkClass) (a2 : Bool) (a3 : List Work) (s : State) : (queueWorks a0 a1 a2 a3 s).out = s.out := rfl
@[simp] theorem queueWorks_pending (a0 : Nat) (a1 : WorkClass) (a2 : Bool) (a3 : List Work) (s : State) : (queueWorks a0 a1 a2 a3 s).pending = s.pending := rfl
/-! ### A command changed. -/

@[simp] theorem modCmd_boot (a0 : Nat) (a1 : Cmd → Cmd) (s : State) : (modCmd a0 a1 s).boot = s.boot := rfl
@[simp] theorem modCmd_halted (a0 : Nat) (a1 : Cmd → Cmd) (s : State) : (modCmd a0 a1 s).halted = s.halted := rfl
@[simp] theorem modCmd_clock (a0 : Nat) (a1 : Cmd → Cmd) (s : State) : (modCmd a0 a1 s).clock = s.clock := rfl
@[simp] theorem modCmd_free (a0 : Nat) (a1 : Cmd → Cmd) (s : State) : (modCmd a0 a1 s).free = s.free := rfl
@[simp] theorem modCmd_dieId (a0 : Nat) (a1 : Cmd → Cmd) (s : State) : (modCmd a0 a1 s).dieId = s.dieId := rfl
@[simp] theorem modCmd_image (a0 : Nat) (a1 : Cmd → Cmd) (s : State) : (modCmd a0 a1 s).image = s.image := rfl
@[simp] theorem modCmd_loader (a0 : Nat) (a1 : Cmd → Cmd) (s : State) : (modCmd a0 a1 s).loader = s.loader := rfl
@[simp] theorem modCmd_drone (a0 : Nat) (a1 : Cmd → Cmd) (s : State) : (modCmd a0 a1 s).drone = s.drone := rfl
@[simp] theorem modCmd_jobs (a0 : Nat) (a1 : Cmd → Cmd) (s : State) : (modCmd a0 a1 s).jobs = s.jobs := rfl
@[simp] theorem modCmd_sampled (a0 : Nat) (a1 : Cmd → Cmd) (s : State) : (modCmd a0 a1 s).sampled = s.sampled := rfl
@[simp] theorem modCmd_slotMap (a0 : Nat) (a1 : Cmd → Cmd) (s : State) : (modCmd a0 a1 s).slotMap = s.slotMap := rfl
@[simp] theorem modCmd_dma (a0 : Nat) (a1 : Cmd → Cmd) (s : State) : (modCmd a0 a1 s).dma = s.dma := rfl
@[simp] theorem modCmd_mem (a0 : Nat) (a1 : Cmd → Cmd) (s : State) : (modCmd a0 a1 s).mem = s.mem := rfl
@[simp] theorem modCmd_reeds (a0 : Nat) (a1 : Cmd → Cmd) (s : State) : (modCmd a0 a1 s).reeds = s.reeds := rfl
@[simp] theorem modCmd_ledger (a0 : Nat) (a1 : Cmd → Cmd) (s : State) : (modCmd a0 a1 s).ledger = s.ledger := rfl
@[simp] theorem modCmd_smc (a0 : Nat) (a1 : Cmd → Cmd) (s : State) : (modCmd a0 a1 s).smc = s.smc := rfl
@[simp] theorem modCmd_cache (a0 : Nat) (a1 : Cmd → Cmd) (s : State) : (modCmd a0 a1 s).cache = s.cache := rfl
@[simp] theorem modCmd_array (a0 : Nat) (a1 : Cmd → Cmd) (s : State) : (modCmd a0 a1 s).array = s.array := rfl
@[simp] theorem modCmd_drives (a0 : Nat) (a1 : Cmd → Cmd) (s : State) : (modCmd a0 a1 s).drives = s.drives := rfl
@[simp] theorem modCmd_hem (a0 : Nat) (a1 : Cmd → Cmd) (s : State) : (modCmd a0 a1 s).hem = s.hem := rfl
@[simp] theorem modCmd_pair (a0 : Nat) (a1 : Cmd → Cmd) (s : State) : (modCmd a0 a1 s).pair = s.pair := rfl
@[simp] theorem modCmd_health (a0 : Nat) (a1 : Cmd → Cmd) (s : State) : (modCmd a0 a1 s).health = s.health := rfl
@[simp] theorem modCmd_events (a0 : Nat) (a1 : Cmd → Cmd) (s : State) : (modCmd a0 a1 s).events = s.events := rfl
@[simp] theorem modCmd_trials (a0 : Nat) (a1 : Cmd → Cmd) (s : State) : (modCmd a0 a1 s).trials = s.trials := rfl
@[simp] theorem modCmd_mgmt (a0 : Nat) (a1 : Cmd → Cmd) (s : State) : (modCmd a0 a1 s).mgmt = s.mgmt := rfl
@[simp] theorem modCmd_flash (a0 : Nat) (a1 : Cmd → Cmd) (s : State) : (modCmd a0 a1 s).flash = s.flash := rfl
@[simp] theorem modCmd_pins (a0 : Nat) (a1 : Cmd → Cmd) (s : State) : (modCmd a0 a1 s).pins = s.pins := rfl
@[simp] theorem modCmd_out (a0 : Nat) (a1 : Cmd → Cmd) (s : State) : (modCmd a0 a1 s).out = s.out := rfl
@[simp] theorem modCmd_pending (a0 : Nat) (a1 : Cmd → Cmd) (s : State) : (modCmd a0 a1 s).pending = s.pending := rfl
/-! ### A stripe descriptor written. -/

@[simp] theorem setDesc_boot (a0 : Nat) (a1 : StripeDesc) (s : State) : (setDesc a0 a1 s).boot = s.boot := rfl
@[simp] theorem setDesc_halted (a0 : Nat) (a1 : StripeDesc) (s : State) : (setDesc a0 a1 s).halted = s.halted := rfl
@[simp] theorem setDesc_clock (a0 : Nat) (a1 : StripeDesc) (s : State) : (setDesc a0 a1 s).clock = s.clock := rfl
@[simp] theorem setDesc_free (a0 : Nat) (a1 : StripeDesc) (s : State) : (setDesc a0 a1 s).free = s.free := rfl
@[simp] theorem setDesc_dieId (a0 : Nat) (a1 : StripeDesc) (s : State) : (setDesc a0 a1 s).dieId = s.dieId := rfl
@[simp] theorem setDesc_image (a0 : Nat) (a1 : StripeDesc) (s : State) : (setDesc a0 a1 s).image = s.image := rfl
@[simp] theorem setDesc_loader (a0 : Nat) (a1 : StripeDesc) (s : State) : (setDesc a0 a1 s).loader = s.loader := rfl
@[simp] theorem setDesc_drone (a0 : Nat) (a1 : StripeDesc) (s : State) : (setDesc a0 a1 s).drone = s.drone := rfl
@[simp] theorem setDesc_jobs (a0 : Nat) (a1 : StripeDesc) (s : State) : (setDesc a0 a1 s).jobs = s.jobs := rfl
@[simp] theorem setDesc_sampled (a0 : Nat) (a1 : StripeDesc) (s : State) : (setDesc a0 a1 s).sampled = s.sampled := rfl
@[simp] theorem setDesc_slotMap (a0 : Nat) (a1 : StripeDesc) (s : State) : (setDesc a0 a1 s).slotMap = s.slotMap := rfl
@[simp] theorem setDesc_host (a0 : Nat) (a1 : StripeDesc) (s : State) : (setDesc a0 a1 s).host = s.host := rfl
@[simp] theorem setDesc_dma (a0 : Nat) (a1 : StripeDesc) (s : State) : (setDesc a0 a1 s).dma = s.dma := rfl
@[simp] theorem setDesc_mem (a0 : Nat) (a1 : StripeDesc) (s : State) : (setDesc a0 a1 s).mem = s.mem := rfl
@[simp] theorem setDesc_reeds (a0 : Nat) (a1 : StripeDesc) (s : State) : (setDesc a0 a1 s).reeds = s.reeds := rfl
@[simp] theorem setDesc_ledger (a0 : Nat) (a1 : StripeDesc) (s : State) : (setDesc a0 a1 s).ledger = s.ledger := rfl
@[simp] theorem setDesc_smc (a0 : Nat) (a1 : StripeDesc) (s : State) : (setDesc a0 a1 s).smc = s.smc := rfl
@[simp] theorem setDesc_array (a0 : Nat) (a1 : StripeDesc) (s : State) : (setDesc a0 a1 s).array = s.array := rfl
@[simp] theorem setDesc_drives (a0 : Nat) (a1 : StripeDesc) (s : State) : (setDesc a0 a1 s).drives = s.drives := rfl
@[simp] theorem setDesc_hem (a0 : Nat) (a1 : StripeDesc) (s : State) : (setDesc a0 a1 s).hem = s.hem := rfl
@[simp] theorem setDesc_pair (a0 : Nat) (a1 : StripeDesc) (s : State) : (setDesc a0 a1 s).pair = s.pair := rfl
@[simp] theorem setDesc_health (a0 : Nat) (a1 : StripeDesc) (s : State) : (setDesc a0 a1 s).health = s.health := rfl
@[simp] theorem setDesc_events (a0 : Nat) (a1 : StripeDesc) (s : State) : (setDesc a0 a1 s).events = s.events := rfl
@[simp] theorem setDesc_trials (a0 : Nat) (a1 : StripeDesc) (s : State) : (setDesc a0 a1 s).trials = s.trials := rfl
@[simp] theorem setDesc_mgmt (a0 : Nat) (a1 : StripeDesc) (s : State) : (setDesc a0 a1 s).mgmt = s.mgmt := rfl
@[simp] theorem setDesc_flash (a0 : Nat) (a1 : StripeDesc) (s : State) : (setDesc a0 a1 s).flash = s.flash := rfl
@[simp] theorem setDesc_pins (a0 : Nat) (a1 : StripeDesc) (s : State) : (setDesc a0 a1 s).pins = s.pins := rfl
@[simp] theorem setDesc_out (a0 : Nat) (a1 : StripeDesc) (s : State) : (setDesc a0 a1 s).out = s.out := rfl
@[simp] theorem setDesc_pending (a0 : Nat) (a1 : StripeDesc) (s : State) : (setDesc a0 a1 s).pending = s.pending := rfl
/-! ### A slot written. -/

@[simp] theorem setSlot_boot (a0 : Nat) (a1 : SlotRec) (s : State) : (setSlot a0 a1 s).boot = s.boot := rfl
@[simp] theorem setSlot_halted (a0 : Nat) (a1 : SlotRec) (s : State) : (setSlot a0 a1 s).halted = s.halted := rfl
@[simp] theorem setSlot_clock (a0 : Nat) (a1 : SlotRec) (s : State) : (setSlot a0 a1 s).clock = s.clock := rfl
@[simp] theorem setSlot_free (a0 : Nat) (a1 : SlotRec) (s : State) : (setSlot a0 a1 s).free = s.free := rfl
@[simp] theorem setSlot_dieId (a0 : Nat) (a1 : SlotRec) (s : State) : (setSlot a0 a1 s).dieId = s.dieId := rfl
@[simp] theorem setSlot_image (a0 : Nat) (a1 : SlotRec) (s : State) : (setSlot a0 a1 s).image = s.image := rfl
@[simp] theorem setSlot_loader (a0 : Nat) (a1 : SlotRec) (s : State) : (setSlot a0 a1 s).loader = s.loader := rfl
@[simp] theorem setSlot_drone (a0 : Nat) (a1 : SlotRec) (s : State) : (setSlot a0 a1 s).drone = s.drone := rfl
@[simp] theorem setSlot_jobs (a0 : Nat) (a1 : SlotRec) (s : State) : (setSlot a0 a1 s).jobs = s.jobs := rfl
@[simp] theorem setSlot_sampled (a0 : Nat) (a1 : SlotRec) (s : State) : (setSlot a0 a1 s).sampled = s.sampled := rfl
@[simp] theorem setSlot_slotMap (a0 : Nat) (a1 : SlotRec) (s : State) : (setSlot a0 a1 s).slotMap = s.slotMap := rfl
@[simp] theorem setSlot_host (a0 : Nat) (a1 : SlotRec) (s : State) : (setSlot a0 a1 s).host = s.host := rfl
@[simp] theorem setSlot_dma (a0 : Nat) (a1 : SlotRec) (s : State) : (setSlot a0 a1 s).dma = s.dma := rfl
@[simp] theorem setSlot_mem (a0 : Nat) (a1 : SlotRec) (s : State) : (setSlot a0 a1 s).mem = s.mem := rfl
@[simp] theorem setSlot_reeds (a0 : Nat) (a1 : SlotRec) (s : State) : (setSlot a0 a1 s).reeds = s.reeds := rfl
@[simp] theorem setSlot_smc (a0 : Nat) (a1 : SlotRec) (s : State) : (setSlot a0 a1 s).smc = s.smc := rfl
@[simp] theorem setSlot_cache (a0 : Nat) (a1 : SlotRec) (s : State) : (setSlot a0 a1 s).cache = s.cache := rfl
@[simp] theorem setSlot_array (a0 : Nat) (a1 : SlotRec) (s : State) : (setSlot a0 a1 s).array = s.array := rfl
@[simp] theorem setSlot_drives (a0 : Nat) (a1 : SlotRec) (s : State) : (setSlot a0 a1 s).drives = s.drives := rfl
@[simp] theorem setSlot_hem (a0 : Nat) (a1 : SlotRec) (s : State) : (setSlot a0 a1 s).hem = s.hem := rfl
@[simp] theorem setSlot_pair (a0 : Nat) (a1 : SlotRec) (s : State) : (setSlot a0 a1 s).pair = s.pair := rfl
@[simp] theorem setSlot_health (a0 : Nat) (a1 : SlotRec) (s : State) : (setSlot a0 a1 s).health = s.health := rfl
@[simp] theorem setSlot_events (a0 : Nat) (a1 : SlotRec) (s : State) : (setSlot a0 a1 s).events = s.events := rfl
@[simp] theorem setSlot_trials (a0 : Nat) (a1 : SlotRec) (s : State) : (setSlot a0 a1 s).trials = s.trials := rfl
@[simp] theorem setSlot_mgmt (a0 : Nat) (a1 : SlotRec) (s : State) : (setSlot a0 a1 s).mgmt = s.mgmt := rfl
@[simp] theorem setSlot_flash (a0 : Nat) (a1 : SlotRec) (s : State) : (setSlot a0 a1 s).flash = s.flash := rfl
@[simp] theorem setSlot_pins (a0 : Nat) (a1 : SlotRec) (s : State) : (setSlot a0 a1 s).pins = s.pins := rfl
@[simp] theorem setSlot_out (a0 : Nat) (a1 : SlotRec) (s : State) : (setSlot a0 a1 s).out = s.out := rfl
@[simp] theorem setSlot_pending (a0 : Nat) (a1 : SlotRec) (s : State) : (setSlot a0 a1 s).pending = s.pending := rfl
/-! ### The status of a drive slot written. -/

@[simp] theorem setStat_boot (a0 : Nat) (a1 : SlotStat) (s : State) : (setStat a0 a1 s).boot = s.boot := rfl
@[simp] theorem setStat_halted (a0 : Nat) (a1 : SlotStat) (s : State) : (setStat a0 a1 s).halted = s.halted := rfl
@[simp] theorem setStat_clock (a0 : Nat) (a1 : SlotStat) (s : State) : (setStat a0 a1 s).clock = s.clock := rfl
@[simp] theorem setStat_free (a0 : Nat) (a1 : SlotStat) (s : State) : (setStat a0 a1 s).free = s.free := rfl
@[simp] theorem setStat_dieId (a0 : Nat) (a1 : SlotStat) (s : State) : (setStat a0 a1 s).dieId = s.dieId := rfl
@[simp] theorem setStat_image (a0 : Nat) (a1 : SlotStat) (s : State) : (setStat a0 a1 s).image = s.image := rfl
@[simp] theorem setStat_loader (a0 : Nat) (a1 : SlotStat) (s : State) : (setStat a0 a1 s).loader = s.loader := rfl
@[simp] theorem setStat_drone (a0 : Nat) (a1 : SlotStat) (s : State) : (setStat a0 a1 s).drone = s.drone := rfl
@[simp] theorem setStat_jobs (a0 : Nat) (a1 : SlotStat) (s : State) : (setStat a0 a1 s).jobs = s.jobs := rfl
@[simp] theorem setStat_sampled (a0 : Nat) (a1 : SlotStat) (s : State) : (setStat a0 a1 s).sampled = s.sampled := rfl
@[simp] theorem setStat_slotMap (a0 : Nat) (a1 : SlotStat) (s : State) : (setStat a0 a1 s).slotMap = s.slotMap := rfl
@[simp] theorem setStat_host (a0 : Nat) (a1 : SlotStat) (s : State) : (setStat a0 a1 s).host = s.host := rfl
@[simp] theorem setStat_dma (a0 : Nat) (a1 : SlotStat) (s : State) : (setStat a0 a1 s).dma = s.dma := rfl
@[simp] theorem setStat_mem (a0 : Nat) (a1 : SlotStat) (s : State) : (setStat a0 a1 s).mem = s.mem := rfl
@[simp] theorem setStat_reeds (a0 : Nat) (a1 : SlotStat) (s : State) : (setStat a0 a1 s).reeds = s.reeds := rfl
@[simp] theorem setStat_ledger (a0 : Nat) (a1 : SlotStat) (s : State) : (setStat a0 a1 s).ledger = s.ledger := rfl
@[simp] theorem setStat_smc (a0 : Nat) (a1 : SlotStat) (s : State) : (setStat a0 a1 s).smc = s.smc := rfl
@[simp] theorem setStat_cache (a0 : Nat) (a1 : SlotStat) (s : State) : (setStat a0 a1 s).cache = s.cache := rfl
@[simp] theorem setStat_array (a0 : Nat) (a1 : SlotStat) (s : State) : (setStat a0 a1 s).array = s.array := rfl
@[simp] theorem setStat_hem (a0 : Nat) (a1 : SlotStat) (s : State) : (setStat a0 a1 s).hem = s.hem := rfl
@[simp] theorem setStat_pair (a0 : Nat) (a1 : SlotStat) (s : State) : (setStat a0 a1 s).pair = s.pair := rfl
@[simp] theorem setStat_health (a0 : Nat) (a1 : SlotStat) (s : State) : (setStat a0 a1 s).health = s.health := rfl
@[simp] theorem setStat_events (a0 : Nat) (a1 : SlotStat) (s : State) : (setStat a0 a1 s).events = s.events := rfl
@[simp] theorem setStat_trials (a0 : Nat) (a1 : SlotStat) (s : State) : (setStat a0 a1 s).trials = s.trials := rfl
@[simp] theorem setStat_mgmt (a0 : Nat) (a1 : SlotStat) (s : State) : (setStat a0 a1 s).mgmt = s.mgmt := rfl
@[simp] theorem setStat_flash (a0 : Nat) (a1 : SlotStat) (s : State) : (setStat a0 a1 s).flash = s.flash := rfl
@[simp] theorem setStat_pins (a0 : Nat) (a1 : SlotStat) (s : State) : (setStat a0 a1 s).pins = s.pins := rfl
@[simp] theorem setStat_out (a0 : Nat) (a1 : SlotStat) (s : State) : (setStat a0 a1 s).out = s.out := rfl
@[simp] theorem setStat_pending (a0 : Nat) (a1 : SlotStat) (s : State) : (setStat a0 a1 s).pending = s.pending := rfl
/-! ### A reed pair changed. -/

@[simp] theorem modPair_boot (a0 : Nat) (a1 : PairStat → PairStat) (s : State) : (modPair a0 a1 s).boot = s.boot := rfl
@[simp] theorem modPair_halted (a0 : Nat) (a1 : PairStat → PairStat) (s : State) : (modPair a0 a1 s).halted = s.halted := rfl
@[simp] theorem modPair_clock (a0 : Nat) (a1 : PairStat → PairStat) (s : State) : (modPair a0 a1 s).clock = s.clock := rfl
@[simp] theorem modPair_free (a0 : Nat) (a1 : PairStat → PairStat) (s : State) : (modPair a0 a1 s).free = s.free := rfl
@[simp] theorem modPair_dieId (a0 : Nat) (a1 : PairStat → PairStat) (s : State) : (modPair a0 a1 s).dieId = s.dieId := rfl
@[simp] theorem modPair_image (a0 : Nat) (a1 : PairStat → PairStat) (s : State) : (modPair a0 a1 s).image = s.image := rfl
@[simp] theorem modPair_loader (a0 : Nat) (a1 : PairStat → PairStat) (s : State) : (modPair a0 a1 s).loader = s.loader := rfl
@[simp] theorem modPair_drone (a0 : Nat) (a1 : PairStat → PairStat) (s : State) : (modPair a0 a1 s).drone = s.drone := rfl
@[simp] theorem modPair_jobs (a0 : Nat) (a1 : PairStat → PairStat) (s : State) : (modPair a0 a1 s).jobs = s.jobs := rfl
@[simp] theorem modPair_sampled (a0 : Nat) (a1 : PairStat → PairStat) (s : State) : (modPair a0 a1 s).sampled = s.sampled := rfl
@[simp] theorem modPair_slotMap (a0 : Nat) (a1 : PairStat → PairStat) (s : State) : (modPair a0 a1 s).slotMap = s.slotMap := rfl
@[simp] theorem modPair_host (a0 : Nat) (a1 : PairStat → PairStat) (s : State) : (modPair a0 a1 s).host = s.host := rfl
@[simp] theorem modPair_dma (a0 : Nat) (a1 : PairStat → PairStat) (s : State) : (modPair a0 a1 s).dma = s.dma := rfl
@[simp] theorem modPair_mem (a0 : Nat) (a1 : PairStat → PairStat) (s : State) : (modPair a0 a1 s).mem = s.mem := rfl
@[simp] theorem modPair_ledger (a0 : Nat) (a1 : PairStat → PairStat) (s : State) : (modPair a0 a1 s).ledger = s.ledger := rfl
@[simp] theorem modPair_smc (a0 : Nat) (a1 : PairStat → PairStat) (s : State) : (modPair a0 a1 s).smc = s.smc := rfl
@[simp] theorem modPair_cache (a0 : Nat) (a1 : PairStat → PairStat) (s : State) : (modPair a0 a1 s).cache = s.cache := rfl
@[simp] theorem modPair_array (a0 : Nat) (a1 : PairStat → PairStat) (s : State) : (modPair a0 a1 s).array = s.array := rfl
@[simp] theorem modPair_drives (a0 : Nat) (a1 : PairStat → PairStat) (s : State) : (modPair a0 a1 s).drives = s.drives := rfl
@[simp] theorem modPair_hem (a0 : Nat) (a1 : PairStat → PairStat) (s : State) : (modPair a0 a1 s).hem = s.hem := rfl
@[simp] theorem modPair_pair (a0 : Nat) (a1 : PairStat → PairStat) (s : State) : (modPair a0 a1 s).pair = s.pair := rfl
@[simp] theorem modPair_health (a0 : Nat) (a1 : PairStat → PairStat) (s : State) : (modPair a0 a1 s).health = s.health := rfl
@[simp] theorem modPair_events (a0 : Nat) (a1 : PairStat → PairStat) (s : State) : (modPair a0 a1 s).events = s.events := rfl
@[simp] theorem modPair_trials (a0 : Nat) (a1 : PairStat → PairStat) (s : State) : (modPair a0 a1 s).trials = s.trials := rfl
@[simp] theorem modPair_mgmt (a0 : Nat) (a1 : PairStat → PairStat) (s : State) : (modPair a0 a1 s).mgmt = s.mgmt := rfl
@[simp] theorem modPair_flash (a0 : Nat) (a1 : PairStat → PairStat) (s : State) : (modPair a0 a1 s).flash = s.flash := rfl
@[simp] theorem modPair_pins (a0 : Nat) (a1 : PairStat → PairStat) (s : State) : (modPair a0 a1 s).pins = s.pins := rfl
@[simp] theorem modPair_out (a0 : Nat) (a1 : PairStat → PairStat) (s : State) : (modPair a0 a1 s).out = s.out := rfl
@[simp] theorem modPair_pending (a0 : Nat) (a1 : PairStat → PairStat) (s : State) : (modPair a0 a1 s).pending = s.pending := rfl
/-! ### A drive changed. -/

@[simp] theorem modDrive_boot (a0 : Nat) (a1 : Drive → Drive) (s : State) : (modDrive a0 a1 s).boot = s.boot := by unfold modDrive; split <;> rfl
@[simp] theorem modDrive_halted (a0 : Nat) (a1 : Drive → Drive) (s : State) : (modDrive a0 a1 s).halted = s.halted := by unfold modDrive; split <;> rfl
@[simp] theorem modDrive_clock (a0 : Nat) (a1 : Drive → Drive) (s : State) : (modDrive a0 a1 s).clock = s.clock := by unfold modDrive; split <;> rfl
@[simp] theorem modDrive_free (a0 : Nat) (a1 : Drive → Drive) (s : State) : (modDrive a0 a1 s).free = s.free := by unfold modDrive; split <;> rfl
@[simp] theorem modDrive_dieId (a0 : Nat) (a1 : Drive → Drive) (s : State) : (modDrive a0 a1 s).dieId = s.dieId := by unfold modDrive; split <;> rfl
@[simp] theorem modDrive_image (a0 : Nat) (a1 : Drive → Drive) (s : State) : (modDrive a0 a1 s).image = s.image := by unfold modDrive; split <;> rfl
@[simp] theorem modDrive_loader (a0 : Nat) (a1 : Drive → Drive) (s : State) : (modDrive a0 a1 s).loader = s.loader := by unfold modDrive; split <;> rfl
@[simp] theorem modDrive_drone (a0 : Nat) (a1 : Drive → Drive) (s : State) : (modDrive a0 a1 s).drone = s.drone := by unfold modDrive; split <;> rfl
@[simp] theorem modDrive_jobs (a0 : Nat) (a1 : Drive → Drive) (s : State) : (modDrive a0 a1 s).jobs = s.jobs := by unfold modDrive; split <;> rfl
@[simp] theorem modDrive_sampled (a0 : Nat) (a1 : Drive → Drive) (s : State) : (modDrive a0 a1 s).sampled = s.sampled := by unfold modDrive; split <;> rfl
@[simp] theorem modDrive_slotMap (a0 : Nat) (a1 : Drive → Drive) (s : State) : (modDrive a0 a1 s).slotMap = s.slotMap := by unfold modDrive; split <;> rfl
@[simp] theorem modDrive_host (a0 : Nat) (a1 : Drive → Drive) (s : State) : (modDrive a0 a1 s).host = s.host := by unfold modDrive; split <;> rfl
@[simp] theorem modDrive_dma (a0 : Nat) (a1 : Drive → Drive) (s : State) : (modDrive a0 a1 s).dma = s.dma := by unfold modDrive; split <;> rfl
@[simp] theorem modDrive_mem (a0 : Nat) (a1 : Drive → Drive) (s : State) : (modDrive a0 a1 s).mem = s.mem := by unfold modDrive; split <;> rfl
@[simp] theorem modDrive_reeds (a0 : Nat) (a1 : Drive → Drive) (s : State) : (modDrive a0 a1 s).reeds = s.reeds := by unfold modDrive; split <;> rfl
@[simp] theorem modDrive_ledger (a0 : Nat) (a1 : Drive → Drive) (s : State) : (modDrive a0 a1 s).ledger = s.ledger := by unfold modDrive; split <;> rfl
@[simp] theorem modDrive_smc (a0 : Nat) (a1 : Drive → Drive) (s : State) : (modDrive a0 a1 s).smc = s.smc := by unfold modDrive; split <;> rfl
@[simp] theorem modDrive_cache (a0 : Nat) (a1 : Drive → Drive) (s : State) : (modDrive a0 a1 s).cache = s.cache := by unfold modDrive; split <;> rfl
@[simp] theorem modDrive_array (a0 : Nat) (a1 : Drive → Drive) (s : State) : (modDrive a0 a1 s).array = s.array := by unfold modDrive; split <;> rfl
@[simp] theorem modDrive_hem (a0 : Nat) (a1 : Drive → Drive) (s : State) : (modDrive a0 a1 s).hem = s.hem := by unfold modDrive; split <;> rfl
@[simp] theorem modDrive_pair (a0 : Nat) (a1 : Drive → Drive) (s : State) : (modDrive a0 a1 s).pair = s.pair := by unfold modDrive; split <;> rfl
@[simp] theorem modDrive_health (a0 : Nat) (a1 : Drive → Drive) (s : State) : (modDrive a0 a1 s).health = s.health := by unfold modDrive; split <;> rfl
@[simp] theorem modDrive_events (a0 : Nat) (a1 : Drive → Drive) (s : State) : (modDrive a0 a1 s).events = s.events := by unfold modDrive; split <;> rfl
@[simp] theorem modDrive_trials (a0 : Nat) (a1 : Drive → Drive) (s : State) : (modDrive a0 a1 s).trials = s.trials := by unfold modDrive; split <;> rfl
@[simp] theorem modDrive_mgmt (a0 : Nat) (a1 : Drive → Drive) (s : State) : (modDrive a0 a1 s).mgmt = s.mgmt := by unfold modDrive; split <;> rfl
@[simp] theorem modDrive_flash (a0 : Nat) (a1 : Drive → Drive) (s : State) : (modDrive a0 a1 s).flash = s.flash := by unfold modDrive; split <;> rfl
@[simp] theorem modDrive_pins (a0 : Nat) (a1 : Drive → Drive) (s : State) : (modDrive a0 a1 s).pins = s.pins := by unfold modDrive; split <;> rfl
@[simp] theorem modDrive_out (a0 : Nat) (a1 : Drive → Drive) (s : State) : (modDrive a0 a1 s).out = s.out := by unfold modDrive; split <;> rfl
@[simp] theorem modDrive_pending (a0 : Nat) (a1 : Drive → Drive) (s : State) : (modDrive a0 a1 s).pending = s.pending := by unfold modDrive; split <;> rfl
/-! ### A cluster changed. -/

@[simp] theorem modClu_boot (a0 : Nat) (a1 : Cluster → Cluster) (s : State) : (modClu a0 a1 s).boot = s.boot := rfl
@[simp] theorem modClu_halted (a0 : Nat) (a1 : Cluster → Cluster) (s : State) : (modClu a0 a1 s).halted = s.halted := rfl
@[simp] theorem modClu_clock (a0 : Nat) (a1 : Cluster → Cluster) (s : State) : (modClu a0 a1 s).clock = s.clock := rfl
@[simp] theorem modClu_free (a0 : Nat) (a1 : Cluster → Cluster) (s : State) : (modClu a0 a1 s).free = s.free := rfl
@[simp] theorem modClu_dieId (a0 : Nat) (a1 : Cluster → Cluster) (s : State) : (modClu a0 a1 s).dieId = s.dieId := rfl
@[simp] theorem modClu_image (a0 : Nat) (a1 : Cluster → Cluster) (s : State) : (modClu a0 a1 s).image = s.image := rfl
@[simp] theorem modClu_loader (a0 : Nat) (a1 : Cluster → Cluster) (s : State) : (modClu a0 a1 s).loader = s.loader := rfl
@[simp] theorem modClu_drone (a0 : Nat) (a1 : Cluster → Cluster) (s : State) : (modClu a0 a1 s).drone = s.drone := rfl
@[simp] theorem modClu_jobs (a0 : Nat) (a1 : Cluster → Cluster) (s : State) : (modClu a0 a1 s).jobs = s.jobs := rfl
@[simp] theorem modClu_sampled (a0 : Nat) (a1 : Cluster → Cluster) (s : State) : (modClu a0 a1 s).sampled = s.sampled := rfl
@[simp] theorem modClu_slotMap (a0 : Nat) (a1 : Cluster → Cluster) (s : State) : (modClu a0 a1 s).slotMap = s.slotMap := rfl
@[simp] theorem modClu_host (a0 : Nat) (a1 : Cluster → Cluster) (s : State) : (modClu a0 a1 s).host = s.host := rfl
@[simp] theorem modClu_dma (a0 : Nat) (a1 : Cluster → Cluster) (s : State) : (modClu a0 a1 s).dma = s.dma := rfl
@[simp] theorem modClu_mem (a0 : Nat) (a1 : Cluster → Cluster) (s : State) : (modClu a0 a1 s).mem = s.mem := rfl
@[simp] theorem modClu_reeds (a0 : Nat) (a1 : Cluster → Cluster) (s : State) : (modClu a0 a1 s).reeds = s.reeds := rfl
@[simp] theorem modClu_ledger (a0 : Nat) (a1 : Cluster → Cluster) (s : State) : (modClu a0 a1 s).ledger = s.ledger := rfl
@[simp] theorem modClu_smc (a0 : Nat) (a1 : Cluster → Cluster) (s : State) : (modClu a0 a1 s).smc = s.smc := rfl
@[simp] theorem modClu_cache (a0 : Nat) (a1 : Cluster → Cluster) (s : State) : (modClu a0 a1 s).cache = s.cache := rfl
@[simp] theorem modClu_array (a0 : Nat) (a1 : Cluster → Cluster) (s : State) : (modClu a0 a1 s).array = s.array := rfl
@[simp] theorem modClu_hem (a0 : Nat) (a1 : Cluster → Cluster) (s : State) : (modClu a0 a1 s).hem = s.hem := rfl
@[simp] theorem modClu_pair (a0 : Nat) (a1 : Cluster → Cluster) (s : State) : (modClu a0 a1 s).pair = s.pair := rfl
@[simp] theorem modClu_health (a0 : Nat) (a1 : Cluster → Cluster) (s : State) : (modClu a0 a1 s).health = s.health := rfl
@[simp] theorem modClu_events (a0 : Nat) (a1 : Cluster → Cluster) (s : State) : (modClu a0 a1 s).events = s.events := rfl
@[simp] theorem modClu_trials (a0 : Nat) (a1 : Cluster → Cluster) (s : State) : (modClu a0 a1 s).trials = s.trials := rfl
@[simp] theorem modClu_mgmt (a0 : Nat) (a1 : Cluster → Cluster) (s : State) : (modClu a0 a1 s).mgmt = s.mgmt := rfl
@[simp] theorem modClu_flash (a0 : Nat) (a1 : Cluster → Cluster) (s : State) : (modClu a0 a1 s).flash = s.flash := rfl
@[simp] theorem modClu_pins (a0 : Nat) (a1 : Cluster → Cluster) (s : State) : (modClu a0 a1 s).pins = s.pins := rfl
@[simp] theorem modClu_out (a0 : Nat) (a1 : Cluster → Cluster) (s : State) : (modClu a0 a1 s).out = s.out := rfl
@[simp] theorem modClu_pending (a0 : Nat) (a1 : Cluster → Cluster) (s : State) : (modClu a0 a1 s).pending = s.pending := rfl
/-! ### A window context changed. -/

@[simp] theorem modCtx_boot (a0 : Nat) (a1 : Ctx → Ctx) (s : State) : (modCtx a0 a1 s).boot = s.boot := rfl
@[simp] theorem modCtx_halted (a0 : Nat) (a1 : Ctx → Ctx) (s : State) : (modCtx a0 a1 s).halted = s.halted := rfl
@[simp] theorem modCtx_clock (a0 : Nat) (a1 : Ctx → Ctx) (s : State) : (modCtx a0 a1 s).clock = s.clock := rfl
@[simp] theorem modCtx_free (a0 : Nat) (a1 : Ctx → Ctx) (s : State) : (modCtx a0 a1 s).free = s.free := rfl
@[simp] theorem modCtx_dieId (a0 : Nat) (a1 : Ctx → Ctx) (s : State) : (modCtx a0 a1 s).dieId = s.dieId := rfl
@[simp] theorem modCtx_image (a0 : Nat) (a1 : Ctx → Ctx) (s : State) : (modCtx a0 a1 s).image = s.image := rfl
@[simp] theorem modCtx_loader (a0 : Nat) (a1 : Ctx → Ctx) (s : State) : (modCtx a0 a1 s).loader = s.loader := rfl
@[simp] theorem modCtx_drone (a0 : Nat) (a1 : Ctx → Ctx) (s : State) : (modCtx a0 a1 s).drone = s.drone := rfl
@[simp] theorem modCtx_jobs (a0 : Nat) (a1 : Ctx → Ctx) (s : State) : (modCtx a0 a1 s).jobs = s.jobs := rfl
@[simp] theorem modCtx_sampled (a0 : Nat) (a1 : Ctx → Ctx) (s : State) : (modCtx a0 a1 s).sampled = s.sampled := rfl
@[simp] theorem modCtx_slotMap (a0 : Nat) (a1 : Ctx → Ctx) (s : State) : (modCtx a0 a1 s).slotMap = s.slotMap := rfl
@[simp] theorem modCtx_host (a0 : Nat) (a1 : Ctx → Ctx) (s : State) : (modCtx a0 a1 s).host = s.host := rfl
@[simp] theorem modCtx_dma (a0 : Nat) (a1 : Ctx → Ctx) (s : State) : (modCtx a0 a1 s).dma = s.dma := rfl
@[simp] theorem modCtx_mem (a0 : Nat) (a1 : Ctx → Ctx) (s : State) : (modCtx a0 a1 s).mem = s.mem := rfl
@[simp] theorem modCtx_reeds (a0 : Nat) (a1 : Ctx → Ctx) (s : State) : (modCtx a0 a1 s).reeds = s.reeds := rfl
@[simp] theorem modCtx_ledger (a0 : Nat) (a1 : Ctx → Ctx) (s : State) : (modCtx a0 a1 s).ledger = s.ledger := rfl
@[simp] theorem modCtx_smc (a0 : Nat) (a1 : Ctx → Ctx) (s : State) : (modCtx a0 a1 s).smc = s.smc := rfl
@[simp] theorem modCtx_cache (a0 : Nat) (a1 : Ctx → Ctx) (s : State) : (modCtx a0 a1 s).cache = s.cache := rfl
@[simp] theorem modCtx_array (a0 : Nat) (a1 : Ctx → Ctx) (s : State) : (modCtx a0 a1 s).array = s.array := rfl
@[simp] theorem modCtx_drives (a0 : Nat) (a1 : Ctx → Ctx) (s : State) : (modCtx a0 a1 s).drives = s.drives := rfl
@[simp] theorem modCtx_hem (a0 : Nat) (a1 : Ctx → Ctx) (s : State) : (modCtx a0 a1 s).hem = s.hem := rfl
@[simp] theorem modCtx_pair (a0 : Nat) (a1 : Ctx → Ctx) (s : State) : (modCtx a0 a1 s).pair = s.pair := rfl
@[simp] theorem modCtx_health (a0 : Nat) (a1 : Ctx → Ctx) (s : State) : (modCtx a0 a1 s).health = s.health := rfl
@[simp] theorem modCtx_events (a0 : Nat) (a1 : Ctx → Ctx) (s : State) : (modCtx a0 a1 s).events = s.events := rfl
@[simp] theorem modCtx_trials (a0 : Nat) (a1 : Ctx → Ctx) (s : State) : (modCtx a0 a1 s).trials = s.trials := rfl
@[simp] theorem modCtx_flash (a0 : Nat) (a1 : Ctx → Ctx) (s : State) : (modCtx a0 a1 s).flash = s.flash := rfl
@[simp] theorem modCtx_pins (a0 : Nat) (a1 : Ctx → Ctx) (s : State) : (modCtx a0 a1 s).pins = s.pins := rfl
@[simp] theorem modCtx_out (a0 : Nat) (a1 : Ctx → Ctx) (s : State) : (modCtx a0 a1 s).out = s.out := rfl
@[simp] theorem modCtx_pending (a0 : Nat) (a1 : Ctx → Ctx) (s : State) : (modCtx a0 a1 s).pending = s.pending := rfl
/-! ### A plan changed. -/

@[simp] theorem modJob_boot (a0 : Nat) (a1 : Job → Job) (s : State) : (modJob a0 a1 s).boot = s.boot := by unfold modJob; split <;> rfl
@[simp] theorem modJob_halted (a0 : Nat) (a1 : Job → Job) (s : State) : (modJob a0 a1 s).halted = s.halted := by unfold modJob; split <;> rfl
@[simp] theorem modJob_clock (a0 : Nat) (a1 : Job → Job) (s : State) : (modJob a0 a1 s).clock = s.clock := by unfold modJob; split <;> rfl
@[simp] theorem modJob_free (a0 : Nat) (a1 : Job → Job) (s : State) : (modJob a0 a1 s).free = s.free := by unfold modJob; split <;> rfl
@[simp] theorem modJob_dieId (a0 : Nat) (a1 : Job → Job) (s : State) : (modJob a0 a1 s).dieId = s.dieId := by unfold modJob; split <;> rfl
@[simp] theorem modJob_image (a0 : Nat) (a1 : Job → Job) (s : State) : (modJob a0 a1 s).image = s.image := by unfold modJob; split <;> rfl
@[simp] theorem modJob_loader (a0 : Nat) (a1 : Job → Job) (s : State) : (modJob a0 a1 s).loader = s.loader := by unfold modJob; split <;> rfl
@[simp] theorem modJob_drone (a0 : Nat) (a1 : Job → Job) (s : State) : (modJob a0 a1 s).drone = s.drone := by unfold modJob; split <;> rfl
@[simp] theorem modJob_sampled (a0 : Nat) (a1 : Job → Job) (s : State) : (modJob a0 a1 s).sampled = s.sampled := by unfold modJob; split <;> rfl
@[simp] theorem modJob_slotMap (a0 : Nat) (a1 : Job → Job) (s : State) : (modJob a0 a1 s).slotMap = s.slotMap := by unfold modJob; split <;> rfl
@[simp] theorem modJob_host (a0 : Nat) (a1 : Job → Job) (s : State) : (modJob a0 a1 s).host = s.host := by unfold modJob; split <;> rfl
@[simp] theorem modJob_dma (a0 : Nat) (a1 : Job → Job) (s : State) : (modJob a0 a1 s).dma = s.dma := by unfold modJob; split <;> rfl
@[simp] theorem modJob_mem (a0 : Nat) (a1 : Job → Job) (s : State) : (modJob a0 a1 s).mem = s.mem := by unfold modJob; split <;> rfl
@[simp] theorem modJob_reeds (a0 : Nat) (a1 : Job → Job) (s : State) : (modJob a0 a1 s).reeds = s.reeds := by unfold modJob; split <;> rfl
@[simp] theorem modJob_ledger (a0 : Nat) (a1 : Job → Job) (s : State) : (modJob a0 a1 s).ledger = s.ledger := by unfold modJob; split <;> rfl
@[simp] theorem modJob_smc (a0 : Nat) (a1 : Job → Job) (s : State) : (modJob a0 a1 s).smc = s.smc := by unfold modJob; split <;> rfl
@[simp] theorem modJob_cache (a0 : Nat) (a1 : Job → Job) (s : State) : (modJob a0 a1 s).cache = s.cache := by unfold modJob; split <;> rfl
@[simp] theorem modJob_array (a0 : Nat) (a1 : Job → Job) (s : State) : (modJob a0 a1 s).array = s.array := by unfold modJob; split <;> rfl
@[simp] theorem modJob_drives (a0 : Nat) (a1 : Job → Job) (s : State) : (modJob a0 a1 s).drives = s.drives := by unfold modJob; split <;> rfl
@[simp] theorem modJob_hem (a0 : Nat) (a1 : Job → Job) (s : State) : (modJob a0 a1 s).hem = s.hem := by unfold modJob; split <;> rfl
@[simp] theorem modJob_pair (a0 : Nat) (a1 : Job → Job) (s : State) : (modJob a0 a1 s).pair = s.pair := by unfold modJob; split <;> rfl
@[simp] theorem modJob_health (a0 : Nat) (a1 : Job → Job) (s : State) : (modJob a0 a1 s).health = s.health := by unfold modJob; split <;> rfl
@[simp] theorem modJob_events (a0 : Nat) (a1 : Job → Job) (s : State) : (modJob a0 a1 s).events = s.events := by unfold modJob; split <;> rfl
@[simp] theorem modJob_trials (a0 : Nat) (a1 : Job → Job) (s : State) : (modJob a0 a1 s).trials = s.trials := by unfold modJob; split <;> rfl
@[simp] theorem modJob_mgmt (a0 : Nat) (a1 : Job → Job) (s : State) : (modJob a0 a1 s).mgmt = s.mgmt := by unfold modJob; split <;> rfl
@[simp] theorem modJob_flash (a0 : Nat) (a1 : Job → Job) (s : State) : (modJob a0 a1 s).flash = s.flash := by unfold modJob; split <;> rfl
@[simp] theorem modJob_pins (a0 : Nat) (a1 : Job → Job) (s : State) : (modJob a0 a1 s).pins = s.pins := by unfold modJob; split <;> rfl
@[simp] theorem modJob_out (a0 : Nat) (a1 : Job → Job) (s : State) : (modJob a0 a1 s).out = s.out := by unfold modJob; split <;> rfl
@[simp] theorem modJob_pending (a0 : Nat) (a1 : Job → Job) (s : State) : (modJob a0 a1 s).pending = s.pending := by unfold modJob; split <;> rfl
/-! ### The dump phase written. -/

@[simp] theorem setDump_boot (a0 : DumpPhase) (s : State) : (setDump a0 s).boot = s.boot := rfl
@[simp] theorem setDump_halted (a0 : DumpPhase) (s : State) : (setDump a0 s).halted = s.halted := rfl
@[simp] theorem setDump_clock (a0 : DumpPhase) (s : State) : (setDump a0 s).clock = s.clock := rfl
@[simp] theorem setDump_free (a0 : DumpPhase) (s : State) : (setDump a0 s).free = s.free := rfl
@[simp] theorem setDump_dieId (a0 : DumpPhase) (s : State) : (setDump a0 s).dieId = s.dieId := rfl
@[simp] theorem setDump_image (a0 : DumpPhase) (s : State) : (setDump a0 s).image = s.image := rfl
@[simp] theorem setDump_loader (a0 : DumpPhase) (s : State) : (setDump a0 s).loader = s.loader := rfl
@[simp] theorem setDump_drone (a0 : DumpPhase) (s : State) : (setDump a0 s).drone = s.drone := rfl
@[simp] theorem setDump_jobs (a0 : DumpPhase) (s : State) : (setDump a0 s).jobs = s.jobs := rfl
@[simp] theorem setDump_sampled (a0 : DumpPhase) (s : State) : (setDump a0 s).sampled = s.sampled := rfl
@[simp] theorem setDump_slotMap (a0 : DumpPhase) (s : State) : (setDump a0 s).slotMap = s.slotMap := rfl
@[simp] theorem setDump_host (a0 : DumpPhase) (s : State) : (setDump a0 s).host = s.host := rfl
@[simp] theorem setDump_dma (a0 : DumpPhase) (s : State) : (setDump a0 s).dma = s.dma := rfl
@[simp] theorem setDump_mem (a0 : DumpPhase) (s : State) : (setDump a0 s).mem = s.mem := rfl
@[simp] theorem setDump_reeds (a0 : DumpPhase) (s : State) : (setDump a0 s).reeds = s.reeds := rfl
@[simp] theorem setDump_ledger (a0 : DumpPhase) (s : State) : (setDump a0 s).ledger = s.ledger := rfl
@[simp] theorem setDump_smc (a0 : DumpPhase) (s : State) : (setDump a0 s).smc = s.smc := rfl
@[simp] theorem setDump_array (a0 : DumpPhase) (s : State) : (setDump a0 s).array = s.array := rfl
@[simp] theorem setDump_drives (a0 : DumpPhase) (s : State) : (setDump a0 s).drives = s.drives := rfl
@[simp] theorem setDump_hem (a0 : DumpPhase) (s : State) : (setDump a0 s).hem = s.hem := rfl
@[simp] theorem setDump_pair (a0 : DumpPhase) (s : State) : (setDump a0 s).pair = s.pair := rfl
@[simp] theorem setDump_health (a0 : DumpPhase) (s : State) : (setDump a0 s).health = s.health := rfl
@[simp] theorem setDump_events (a0 : DumpPhase) (s : State) : (setDump a0 s).events = s.events := rfl
@[simp] theorem setDump_trials (a0 : DumpPhase) (s : State) : (setDump a0 s).trials = s.trials := rfl
@[simp] theorem setDump_mgmt (a0 : DumpPhase) (s : State) : (setDump a0 s).mgmt = s.mgmt := rfl
@[simp] theorem setDump_flash (a0 : DumpPhase) (s : State) : (setDump a0 s).flash = s.flash := rfl
@[simp] theorem setDump_pins (a0 : DumpPhase) (s : State) : (setDump a0 s).pins = s.pins := rfl
@[simp] theorem setDump_out (a0 : DumpPhase) (s : State) : (setDump a0 s).out = s.out := rfl
@[simp] theorem setDump_pending (a0 : DumpPhase) (s : State) : (setDump a0 s).pending = s.pending := rfl
/-! ### The restore phase written. -/

@[simp] theorem setRestore_boot (a0 : RestorePhase) (s : State) : (setRestore a0 s).boot = s.boot := rfl
@[simp] theorem setRestore_halted (a0 : RestorePhase) (s : State) : (setRestore a0 s).halted = s.halted := rfl
@[simp] theorem setRestore_clock (a0 : RestorePhase) (s : State) : (setRestore a0 s).clock = s.clock := rfl
@[simp] theorem setRestore_free (a0 : RestorePhase) (s : State) : (setRestore a0 s).free = s.free := rfl
@[simp] theorem setRestore_dieId (a0 : RestorePhase) (s : State) : (setRestore a0 s).dieId = s.dieId := rfl
@[simp] theorem setRestore_image (a0 : RestorePhase) (s : State) : (setRestore a0 s).image = s.image := rfl
@[simp] theorem setRestore_loader (a0 : RestorePhase) (s : State) : (setRestore a0 s).loader = s.loader := rfl
@[simp] theorem setRestore_drone (a0 : RestorePhase) (s : State) : (setRestore a0 s).drone = s.drone := rfl
@[simp] theorem setRestore_jobs (a0 : RestorePhase) (s : State) : (setRestore a0 s).jobs = s.jobs := rfl
@[simp] theorem setRestore_sampled (a0 : RestorePhase) (s : State) : (setRestore a0 s).sampled = s.sampled := rfl
@[simp] theorem setRestore_slotMap (a0 : RestorePhase) (s : State) : (setRestore a0 s).slotMap = s.slotMap := rfl
@[simp] theorem setRestore_host (a0 : RestorePhase) (s : State) : (setRestore a0 s).host = s.host := rfl
@[simp] theorem setRestore_dma (a0 : RestorePhase) (s : State) : (setRestore a0 s).dma = s.dma := rfl
@[simp] theorem setRestore_mem (a0 : RestorePhase) (s : State) : (setRestore a0 s).mem = s.mem := rfl
@[simp] theorem setRestore_reeds (a0 : RestorePhase) (s : State) : (setRestore a0 s).reeds = s.reeds := rfl
@[simp] theorem setRestore_ledger (a0 : RestorePhase) (s : State) : (setRestore a0 s).ledger = s.ledger := rfl
@[simp] theorem setRestore_smc (a0 : RestorePhase) (s : State) : (setRestore a0 s).smc = s.smc := rfl
@[simp] theorem setRestore_array (a0 : RestorePhase) (s : State) : (setRestore a0 s).array = s.array := rfl
@[simp] theorem setRestore_drives (a0 : RestorePhase) (s : State) : (setRestore a0 s).drives = s.drives := rfl
@[simp] theorem setRestore_hem (a0 : RestorePhase) (s : State) : (setRestore a0 s).hem = s.hem := rfl
@[simp] theorem setRestore_pair (a0 : RestorePhase) (s : State) : (setRestore a0 s).pair = s.pair := rfl
@[simp] theorem setRestore_health (a0 : RestorePhase) (s : State) : (setRestore a0 s).health = s.health := rfl
@[simp] theorem setRestore_events (a0 : RestorePhase) (s : State) : (setRestore a0 s).events = s.events := rfl
@[simp] theorem setRestore_trials (a0 : RestorePhase) (s : State) : (setRestore a0 s).trials = s.trials := rfl
@[simp] theorem setRestore_mgmt (a0 : RestorePhase) (s : State) : (setRestore a0 s).mgmt = s.mgmt := rfl
@[simp] theorem setRestore_flash (a0 : RestorePhase) (s : State) : (setRestore a0 s).flash = s.flash := rfl
@[simp] theorem setRestore_pins (a0 : RestorePhase) (s : State) : (setRestore a0 s).pins = s.pins := rfl
@[simp] theorem setRestore_out (a0 : RestorePhase) (s : State) : (setRestore a0 s).out = s.out := rfl
@[simp] theorem setRestore_pending (a0 : RestorePhase) (s : State) : (setRestore a0 s).pending = s.pending := rfl
/-! ### A free value drawn advances its counter. -/

@[simp] theorem drawFree_boot (s : State) : (drawFree s).2.boot = s.boot := rfl
@[simp] theorem drawFree_halted (s : State) : (drawFree s).2.halted = s.halted := rfl
@[simp] theorem drawFree_clock (s : State) : (drawFree s).2.clock = s.clock := rfl
@[simp] theorem drawFree_dieId (s : State) : (drawFree s).2.dieId = s.dieId := rfl
@[simp] theorem drawFree_image (s : State) : (drawFree s).2.image = s.image := rfl
@[simp] theorem drawFree_loader (s : State) : (drawFree s).2.loader = s.loader := rfl
@[simp] theorem drawFree_drone (s : State) : (drawFree s).2.drone = s.drone := rfl
@[simp] theorem drawFree_jobs (s : State) : (drawFree s).2.jobs = s.jobs := rfl
@[simp] theorem drawFree_sampled (s : State) : (drawFree s).2.sampled = s.sampled := rfl
@[simp] theorem drawFree_slotMap (s : State) : (drawFree s).2.slotMap = s.slotMap := rfl
@[simp] theorem drawFree_host (s : State) : (drawFree s).2.host = s.host := rfl
@[simp] theorem drawFree_dma (s : State) : (drawFree s).2.dma = s.dma := rfl
@[simp] theorem drawFree_mem (s : State) : (drawFree s).2.mem = s.mem := rfl
@[simp] theorem drawFree_reeds (s : State) : (drawFree s).2.reeds = s.reeds := rfl
@[simp] theorem drawFree_ledger (s : State) : (drawFree s).2.ledger = s.ledger := rfl
@[simp] theorem drawFree_smc (s : State) : (drawFree s).2.smc = s.smc := rfl
@[simp] theorem drawFree_cache (s : State) : (drawFree s).2.cache = s.cache := rfl
@[simp] theorem drawFree_array (s : State) : (drawFree s).2.array = s.array := rfl
@[simp] theorem drawFree_drives (s : State) : (drawFree s).2.drives = s.drives := rfl
@[simp] theorem drawFree_hem (s : State) : (drawFree s).2.hem = s.hem := rfl
@[simp] theorem drawFree_pair (s : State) : (drawFree s).2.pair = s.pair := rfl
@[simp] theorem drawFree_health (s : State) : (drawFree s).2.health = s.health := rfl
@[simp] theorem drawFree_events (s : State) : (drawFree s).2.events = s.events := rfl
@[simp] theorem drawFree_trials (s : State) : (drawFree s).2.trials = s.trials := rfl
@[simp] theorem drawFree_mgmt (s : State) : (drawFree s).2.mgmt = s.mgmt := rfl
@[simp] theorem drawFree_flash (s : State) : (drawFree s).2.flash = s.flash := rfl
@[simp] theorem drawFree_pins (s : State) : (drawFree s).2.pins = s.pins := rfl
@[simp] theorem drawFree_out (s : State) : (drawFree s).2.out = s.out := rfl
@[simp] theorem drawFree_pending (s : State) : (drawFree s).2.pending = s.pending := rfl
/-! ### A function written. -/

@[simp] theorem setFunc_boot (a0 : Nat) (a1 : Func) (s : State) : (setFunc a0 a1 s).boot = s.boot := rfl
@[simp] theorem setFunc_halted (a0 : Nat) (a1 : Func) (s : State) : (setFunc a0 a1 s).halted = s.halted := rfl
@[simp] theorem setFunc_clock (a0 : Nat) (a1 : Func) (s : State) : (setFunc a0 a1 s).clock = s.clock := rfl
@[simp] theorem setFunc_free (a0 : Nat) (a1 : Func) (s : State) : (setFunc a0 a1 s).free = s.free := rfl
@[simp] theorem setFunc_dieId (a0 : Nat) (a1 : Func) (s : State) : (setFunc a0 a1 s).dieId = s.dieId := rfl
@[simp] theorem setFunc_image (a0 : Nat) (a1 : Func) (s : State) : (setFunc a0 a1 s).image = s.image := rfl
@[simp] theorem setFunc_loader (a0 : Nat) (a1 : Func) (s : State) : (setFunc a0 a1 s).loader = s.loader := rfl
@[simp] theorem setFunc_drone (a0 : Nat) (a1 : Func) (s : State) : (setFunc a0 a1 s).drone = s.drone := rfl
@[simp] theorem setFunc_jobs (a0 : Nat) (a1 : Func) (s : State) : (setFunc a0 a1 s).jobs = s.jobs := rfl
@[simp] theorem setFunc_sampled (a0 : Nat) (a1 : Func) (s : State) : (setFunc a0 a1 s).sampled = s.sampled := rfl
@[simp] theorem setFunc_slotMap (a0 : Nat) (a1 : Func) (s : State) : (setFunc a0 a1 s).slotMap = s.slotMap := rfl
@[simp] theorem setFunc_dma (a0 : Nat) (a1 : Func) (s : State) : (setFunc a0 a1 s).dma = s.dma := rfl
@[simp] theorem setFunc_mem (a0 : Nat) (a1 : Func) (s : State) : (setFunc a0 a1 s).mem = s.mem := rfl
@[simp] theorem setFunc_reeds (a0 : Nat) (a1 : Func) (s : State) : (setFunc a0 a1 s).reeds = s.reeds := rfl
@[simp] theorem setFunc_ledger (a0 : Nat) (a1 : Func) (s : State) : (setFunc a0 a1 s).ledger = s.ledger := rfl
@[simp] theorem setFunc_smc (a0 : Nat) (a1 : Func) (s : State) : (setFunc a0 a1 s).smc = s.smc := rfl
@[simp] theorem setFunc_cache (a0 : Nat) (a1 : Func) (s : State) : (setFunc a0 a1 s).cache = s.cache := rfl
@[simp] theorem setFunc_array (a0 : Nat) (a1 : Func) (s : State) : (setFunc a0 a1 s).array = s.array := rfl
@[simp] theorem setFunc_drives (a0 : Nat) (a1 : Func) (s : State) : (setFunc a0 a1 s).drives = s.drives := rfl
@[simp] theorem setFunc_hem (a0 : Nat) (a1 : Func) (s : State) : (setFunc a0 a1 s).hem = s.hem := rfl
@[simp] theorem setFunc_pair (a0 : Nat) (a1 : Func) (s : State) : (setFunc a0 a1 s).pair = s.pair := rfl
@[simp] theorem setFunc_health (a0 : Nat) (a1 : Func) (s : State) : (setFunc a0 a1 s).health = s.health := rfl
@[simp] theorem setFunc_events (a0 : Nat) (a1 : Func) (s : State) : (setFunc a0 a1 s).events = s.events := rfl
@[simp] theorem setFunc_trials (a0 : Nat) (a1 : Func) (s : State) : (setFunc a0 a1 s).trials = s.trials := rfl
@[simp] theorem setFunc_mgmt (a0 : Nat) (a1 : Func) (s : State) : (setFunc a0 a1 s).mgmt = s.mgmt := rfl
@[simp] theorem setFunc_flash (a0 : Nat) (a1 : Func) (s : State) : (setFunc a0 a1 s).flash = s.flash := rfl
@[simp] theorem setFunc_pins (a0 : Nat) (a1 : Func) (s : State) : (setFunc a0 a1 s).pins = s.pins := rfl
@[simp] theorem setFunc_out (a0 : Nat) (a1 : Func) (s : State) : (setFunc a0 a1 s).out = s.out := rfl
@[simp] theorem setFunc_pending (a0 : Nat) (a1 : Func) (s : State) : (setFunc a0 a1 s).pending = s.pending := rfl
/-! ### HLT_DEGRADE changed. -/

@[simp] theorem modDegrade_boot (a0 : Health → Health) (s : State) : (modDegrade a0 s).boot = s.boot := rfl
@[simp] theorem modDegrade_halted (a0 : Health → Health) (s : State) : (modDegrade a0 s).halted = s.halted := rfl
@[simp] theorem modDegrade_clock (a0 : Health → Health) (s : State) : (modDegrade a0 s).clock = s.clock := rfl
@[simp] theorem modDegrade_free (a0 : Health → Health) (s : State) : (modDegrade a0 s).free = s.free := rfl
@[simp] theorem modDegrade_dieId (a0 : Health → Health) (s : State) : (modDegrade a0 s).dieId = s.dieId := rfl
@[simp] theorem modDegrade_image (a0 : Health → Health) (s : State) : (modDegrade a0 s).image = s.image := rfl
@[simp] theorem modDegrade_loader (a0 : Health → Health) (s : State) : (modDegrade a0 s).loader = s.loader := rfl
@[simp] theorem modDegrade_drone (a0 : Health → Health) (s : State) : (modDegrade a0 s).drone = s.drone := rfl
@[simp] theorem modDegrade_jobs (a0 : Health → Health) (s : State) : (modDegrade a0 s).jobs = s.jobs := rfl
@[simp] theorem modDegrade_sampled (a0 : Health → Health) (s : State) : (modDegrade a0 s).sampled = s.sampled := rfl
@[simp] theorem modDegrade_slotMap (a0 : Health → Health) (s : State) : (modDegrade a0 s).slotMap = s.slotMap := rfl
@[simp] theorem modDegrade_host (a0 : Health → Health) (s : State) : (modDegrade a0 s).host = s.host := rfl
@[simp] theorem modDegrade_dma (a0 : Health → Health) (s : State) : (modDegrade a0 s).dma = s.dma := rfl
@[simp] theorem modDegrade_mem (a0 : Health → Health) (s : State) : (modDegrade a0 s).mem = s.mem := rfl
@[simp] theorem modDegrade_reeds (a0 : Health → Health) (s : State) : (modDegrade a0 s).reeds = s.reeds := rfl
@[simp] theorem modDegrade_ledger (a0 : Health → Health) (s : State) : (modDegrade a0 s).ledger = s.ledger := rfl
@[simp] theorem modDegrade_smc (a0 : Health → Health) (s : State) : (modDegrade a0 s).smc = s.smc := rfl
@[simp] theorem modDegrade_cache (a0 : Health → Health) (s : State) : (modDegrade a0 s).cache = s.cache := rfl
@[simp] theorem modDegrade_array (a0 : Health → Health) (s : State) : (modDegrade a0 s).array = s.array := rfl
@[simp] theorem modDegrade_drives (a0 : Health → Health) (s : State) : (modDegrade a0 s).drives = s.drives := rfl
@[simp] theorem modDegrade_hem (a0 : Health → Health) (s : State) : (modDegrade a0 s).hem = s.hem := rfl
@[simp] theorem modDegrade_pair (a0 : Health → Health) (s : State) : (modDegrade a0 s).pair = s.pair := rfl
@[simp] theorem modDegrade_events (a0 : Health → Health) (s : State) : (modDegrade a0 s).events = s.events := rfl
@[simp] theorem modDegrade_trials (a0 : Health → Health) (s : State) : (modDegrade a0 s).trials = s.trials := rfl
@[simp] theorem modDegrade_mgmt (a0 : Health → Health) (s : State) : (modDegrade a0 s).mgmt = s.mgmt := rfl
@[simp] theorem modDegrade_flash (a0 : Health → Health) (s : State) : (modDegrade a0 s).flash = s.flash := rfl
@[simp] theorem modDegrade_pins (a0 : Health → Health) (s : State) : (modDegrade a0 s).pins = s.pins := rfl
@[simp] theorem modDegrade_out (a0 : Health → Health) (s : State) : (modDegrade a0 s).out = s.out := rfl
@[simp] theorem modDegrade_pending (a0 : Health → Health) (s : State) : (modDegrade a0 s).pending = s.pending := rfl
/-! ### DMA_GLOB written. -/

@[simp] theorem setDmaGlob_boot (a0 : Nat) (a1 : DmaGlobal) (s : State) : (setDmaGlob a0 a1 s).boot = s.boot := by unfold setDmaGlob; split <;> rfl
@[simp] theorem setDmaGlob_halted (a0 : Nat) (a1 : DmaGlobal) (s : State) : (setDmaGlob a0 a1 s).halted = s.halted := by unfold setDmaGlob; split <;> rfl
@[simp] theorem setDmaGlob_clock (a0 : Nat) (a1 : DmaGlobal) (s : State) : (setDmaGlob a0 a1 s).clock = s.clock := by unfold setDmaGlob; split <;> rfl
@[simp] theorem setDmaGlob_free (a0 : Nat) (a1 : DmaGlobal) (s : State) : (setDmaGlob a0 a1 s).free = s.free := by unfold setDmaGlob; split <;> rfl
@[simp] theorem setDmaGlob_dieId (a0 : Nat) (a1 : DmaGlobal) (s : State) : (setDmaGlob a0 a1 s).dieId = s.dieId := by unfold setDmaGlob; split <;> rfl
@[simp] theorem setDmaGlob_image (a0 : Nat) (a1 : DmaGlobal) (s : State) : (setDmaGlob a0 a1 s).image = s.image := by unfold setDmaGlob; split <;> rfl
@[simp] theorem setDmaGlob_loader (a0 : Nat) (a1 : DmaGlobal) (s : State) : (setDmaGlob a0 a1 s).loader = s.loader := by unfold setDmaGlob; split <;> rfl
@[simp] theorem setDmaGlob_drone (a0 : Nat) (a1 : DmaGlobal) (s : State) : (setDmaGlob a0 a1 s).drone = s.drone := by unfold setDmaGlob; split <;> rfl
@[simp] theorem setDmaGlob_jobs (a0 : Nat) (a1 : DmaGlobal) (s : State) : (setDmaGlob a0 a1 s).jobs = s.jobs := by unfold setDmaGlob; split <;> rfl
@[simp] theorem setDmaGlob_sampled (a0 : Nat) (a1 : DmaGlobal) (s : State) : (setDmaGlob a0 a1 s).sampled = s.sampled := by unfold setDmaGlob; split <;> rfl
@[simp] theorem setDmaGlob_slotMap (a0 : Nat) (a1 : DmaGlobal) (s : State) : (setDmaGlob a0 a1 s).slotMap = s.slotMap := by unfold setDmaGlob; split <;> rfl
@[simp] theorem setDmaGlob_host (a0 : Nat) (a1 : DmaGlobal) (s : State) : (setDmaGlob a0 a1 s).host = s.host := by unfold setDmaGlob; split <;> rfl
@[simp] theorem setDmaGlob_mem (a0 : Nat) (a1 : DmaGlobal) (s : State) : (setDmaGlob a0 a1 s).mem = s.mem := by unfold setDmaGlob; split <;> rfl
@[simp] theorem setDmaGlob_reeds (a0 : Nat) (a1 : DmaGlobal) (s : State) : (setDmaGlob a0 a1 s).reeds = s.reeds := by unfold setDmaGlob; split <;> rfl
@[simp] theorem setDmaGlob_ledger (a0 : Nat) (a1 : DmaGlobal) (s : State) : (setDmaGlob a0 a1 s).ledger = s.ledger := by unfold setDmaGlob; split <;> rfl
@[simp] theorem setDmaGlob_smc (a0 : Nat) (a1 : DmaGlobal) (s : State) : (setDmaGlob a0 a1 s).smc = s.smc := by unfold setDmaGlob; split <;> rfl
@[simp] theorem setDmaGlob_cache (a0 : Nat) (a1 : DmaGlobal) (s : State) : (setDmaGlob a0 a1 s).cache = s.cache := by unfold setDmaGlob; split <;> rfl
@[simp] theorem setDmaGlob_array (a0 : Nat) (a1 : DmaGlobal) (s : State) : (setDmaGlob a0 a1 s).array = s.array := by unfold setDmaGlob; split <;> rfl
@[simp] theorem setDmaGlob_drives (a0 : Nat) (a1 : DmaGlobal) (s : State) : (setDmaGlob a0 a1 s).drives = s.drives := by unfold setDmaGlob; split <;> rfl
@[simp] theorem setDmaGlob_hem (a0 : Nat) (a1 : DmaGlobal) (s : State) : (setDmaGlob a0 a1 s).hem = s.hem := by unfold setDmaGlob; split <;> rfl
@[simp] theorem setDmaGlob_pair (a0 : Nat) (a1 : DmaGlobal) (s : State) : (setDmaGlob a0 a1 s).pair = s.pair := by unfold setDmaGlob; split <;> rfl
@[simp] theorem setDmaGlob_health (a0 : Nat) (a1 : DmaGlobal) (s : State) : (setDmaGlob a0 a1 s).health = s.health := by unfold setDmaGlob; split <;> rfl
@[simp] theorem setDmaGlob_events (a0 : Nat) (a1 : DmaGlobal) (s : State) : (setDmaGlob a0 a1 s).events = s.events := by unfold setDmaGlob; split <;> rfl
@[simp] theorem setDmaGlob_trials (a0 : Nat) (a1 : DmaGlobal) (s : State) : (setDmaGlob a0 a1 s).trials = s.trials := by unfold setDmaGlob; split <;> rfl
@[simp] theorem setDmaGlob_mgmt (a0 : Nat) (a1 : DmaGlobal) (s : State) : (setDmaGlob a0 a1 s).mgmt = s.mgmt := by unfold setDmaGlob; split <;> rfl
@[simp] theorem setDmaGlob_flash (a0 : Nat) (a1 : DmaGlobal) (s : State) : (setDmaGlob a0 a1 s).flash = s.flash := by unfold setDmaGlob; split <;> rfl
@[simp] theorem setDmaGlob_pins (a0 : Nat) (a1 : DmaGlobal) (s : State) : (setDmaGlob a0 a1 s).pins = s.pins := by unfold setDmaGlob; split <;> rfl
@[simp] theorem setDmaGlob_out (a0 : Nat) (a1 : DmaGlobal) (s : State) : (setDmaGlob a0 a1 s).out = s.out := by unfold setDmaGlob; split <;> rfl
@[simp] theorem setDmaGlob_pending (a0 : Nat) (a1 : DmaGlobal) (s : State) : (setDmaGlob a0 a1 s).pending = s.pending := by unfold setDmaGlob; split <;> rfl
/-! ### A leg that runs changed. -/

@[simp] theorem modLeg_boot (a0 : Nat) (a1 : Leg → Leg) (s : State) : (modLeg a0 a1 s).boot = s.boot := rfl
@[simp] theorem modLeg_halted (a0 : Nat) (a1 : Leg → Leg) (s : State) : (modLeg a0 a1 s).halted = s.halted := rfl
@[simp] theorem modLeg_clock (a0 : Nat) (a1 : Leg → Leg) (s : State) : (modLeg a0 a1 s).clock = s.clock := rfl
@[simp] theorem modLeg_free (a0 : Nat) (a1 : Leg → Leg) (s : State) : (modLeg a0 a1 s).free = s.free := rfl
@[simp] theorem modLeg_dieId (a0 : Nat) (a1 : Leg → Leg) (s : State) : (modLeg a0 a1 s).dieId = s.dieId := rfl
@[simp] theorem modLeg_image (a0 : Nat) (a1 : Leg → Leg) (s : State) : (modLeg a0 a1 s).image = s.image := rfl
@[simp] theorem modLeg_loader (a0 : Nat) (a1 : Leg → Leg) (s : State) : (modLeg a0 a1 s).loader = s.loader := rfl
@[simp] theorem modLeg_jobs (a0 : Nat) (a1 : Leg → Leg) (s : State) : (modLeg a0 a1 s).jobs = s.jobs := rfl
@[simp] theorem modLeg_sampled (a0 : Nat) (a1 : Leg → Leg) (s : State) : (modLeg a0 a1 s).sampled = s.sampled := rfl
@[simp] theorem modLeg_slotMap (a0 : Nat) (a1 : Leg → Leg) (s : State) : (modLeg a0 a1 s).slotMap = s.slotMap := rfl
@[simp] theorem modLeg_host (a0 : Nat) (a1 : Leg → Leg) (s : State) : (modLeg a0 a1 s).host = s.host := rfl
@[simp] theorem modLeg_dma (a0 : Nat) (a1 : Leg → Leg) (s : State) : (modLeg a0 a1 s).dma = s.dma := rfl
@[simp] theorem modLeg_mem (a0 : Nat) (a1 : Leg → Leg) (s : State) : (modLeg a0 a1 s).mem = s.mem := rfl
@[simp] theorem modLeg_reeds (a0 : Nat) (a1 : Leg → Leg) (s : State) : (modLeg a0 a1 s).reeds = s.reeds := rfl
@[simp] theorem modLeg_ledger (a0 : Nat) (a1 : Leg → Leg) (s : State) : (modLeg a0 a1 s).ledger = s.ledger := rfl
@[simp] theorem modLeg_smc (a0 : Nat) (a1 : Leg → Leg) (s : State) : (modLeg a0 a1 s).smc = s.smc := rfl
@[simp] theorem modLeg_cache (a0 : Nat) (a1 : Leg → Leg) (s : State) : (modLeg a0 a1 s).cache = s.cache := rfl
@[simp] theorem modLeg_array (a0 : Nat) (a1 : Leg → Leg) (s : State) : (modLeg a0 a1 s).array = s.array := rfl
@[simp] theorem modLeg_drives (a0 : Nat) (a1 : Leg → Leg) (s : State) : (modLeg a0 a1 s).drives = s.drives := rfl
@[simp] theorem modLeg_hem (a0 : Nat) (a1 : Leg → Leg) (s : State) : (modLeg a0 a1 s).hem = s.hem := rfl
@[simp] theorem modLeg_pair (a0 : Nat) (a1 : Leg → Leg) (s : State) : (modLeg a0 a1 s).pair = s.pair := rfl
@[simp] theorem modLeg_health (a0 : Nat) (a1 : Leg → Leg) (s : State) : (modLeg a0 a1 s).health = s.health := rfl
@[simp] theorem modLeg_events (a0 : Nat) (a1 : Leg → Leg) (s : State) : (modLeg a0 a1 s).events = s.events := rfl
@[simp] theorem modLeg_trials (a0 : Nat) (a1 : Leg → Leg) (s : State) : (modLeg a0 a1 s).trials = s.trials := rfl
@[simp] theorem modLeg_mgmt (a0 : Nat) (a1 : Leg → Leg) (s : State) : (modLeg a0 a1 s).mgmt = s.mgmt := rfl
@[simp] theorem modLeg_flash (a0 : Nat) (a1 : Leg → Leg) (s : State) : (modLeg a0 a1 s).flash = s.flash := rfl
@[simp] theorem modLeg_pins (a0 : Nat) (a1 : Leg → Leg) (s : State) : (modLeg a0 a1 s).pins = s.pins := rfl
@[simp] theorem modLeg_out (a0 : Nat) (a1 : Leg → Leg) (s : State) : (modLeg a0 a1 s).out = s.out := rfl
@[simp] theorem modLeg_pending (a0 : Nat) (a1 : Leg → Leg) (s : State) : (modLeg a0 a1 s).pending = s.pending := rfl
/-! ### An intent changed. -/

@[simp] theorem modIntent_boot (a0 a1 : Nat) (a2 : Intent → Intent) (s : State) : (modIntent a0 a1 a2 s).boot = s.boot := rfl
@[simp] theorem modIntent_halted (a0 a1 : Nat) (a2 : Intent → Intent) (s : State) : (modIntent a0 a1 a2 s).halted = s.halted := rfl
@[simp] theorem modIntent_clock (a0 a1 : Nat) (a2 : Intent → Intent) (s : State) : (modIntent a0 a1 a2 s).clock = s.clock := rfl
@[simp] theorem modIntent_free (a0 a1 : Nat) (a2 : Intent → Intent) (s : State) : (modIntent a0 a1 a2 s).free = s.free := rfl
@[simp] theorem modIntent_dieId (a0 a1 : Nat) (a2 : Intent → Intent) (s : State) : (modIntent a0 a1 a2 s).dieId = s.dieId := rfl
@[simp] theorem modIntent_image (a0 a1 : Nat) (a2 : Intent → Intent) (s : State) : (modIntent a0 a1 a2 s).image = s.image := rfl
@[simp] theorem modIntent_loader (a0 a1 : Nat) (a2 : Intent → Intent) (s : State) : (modIntent a0 a1 a2 s).loader = s.loader := rfl
@[simp] theorem modIntent_drone (a0 a1 : Nat) (a2 : Intent → Intent) (s : State) : (modIntent a0 a1 a2 s).drone = s.drone := rfl
@[simp] theorem modIntent_jobs (a0 a1 : Nat) (a2 : Intent → Intent) (s : State) : (modIntent a0 a1 a2 s).jobs = s.jobs := rfl
@[simp] theorem modIntent_sampled (a0 a1 : Nat) (a2 : Intent → Intent) (s : State) : (modIntent a0 a1 a2 s).sampled = s.sampled := rfl
@[simp] theorem modIntent_slotMap (a0 a1 : Nat) (a2 : Intent → Intent) (s : State) : (modIntent a0 a1 a2 s).slotMap = s.slotMap := rfl
@[simp] theorem modIntent_host (a0 a1 : Nat) (a2 : Intent → Intent) (s : State) : (modIntent a0 a1 a2 s).host = s.host := rfl
@[simp] theorem modIntent_dma (a0 a1 : Nat) (a2 : Intent → Intent) (s : State) : (modIntent a0 a1 a2 s).dma = s.dma := rfl
@[simp] theorem modIntent_mem (a0 a1 : Nat) (a2 : Intent → Intent) (s : State) : (modIntent a0 a1 a2 s).mem = s.mem := rfl
@[simp] theorem modIntent_reeds (a0 a1 : Nat) (a2 : Intent → Intent) (s : State) : (modIntent a0 a1 a2 s).reeds = s.reeds := rfl
@[simp] theorem modIntent_ledger (a0 a1 : Nat) (a2 : Intent → Intent) (s : State) : (modIntent a0 a1 a2 s).ledger = s.ledger := rfl
@[simp] theorem modIntent_smc (a0 a1 : Nat) (a2 : Intent → Intent) (s : State) : (modIntent a0 a1 a2 s).smc = s.smc := rfl
@[simp] theorem modIntent_array (a0 a1 : Nat) (a2 : Intent → Intent) (s : State) : (modIntent a0 a1 a2 s).array = s.array := rfl
@[simp] theorem modIntent_drives (a0 a1 : Nat) (a2 : Intent → Intent) (s : State) : (modIntent a0 a1 a2 s).drives = s.drives := rfl
@[simp] theorem modIntent_hem (a0 a1 : Nat) (a2 : Intent → Intent) (s : State) : (modIntent a0 a1 a2 s).hem = s.hem := rfl
@[simp] theorem modIntent_pair (a0 a1 : Nat) (a2 : Intent → Intent) (s : State) : (modIntent a0 a1 a2 s).pair = s.pair := rfl
@[simp] theorem modIntent_health (a0 a1 : Nat) (a2 : Intent → Intent) (s : State) : (modIntent a0 a1 a2 s).health = s.health := rfl
@[simp] theorem modIntent_events (a0 a1 : Nat) (a2 : Intent → Intent) (s : State) : (modIntent a0 a1 a2 s).events = s.events := rfl
@[simp] theorem modIntent_trials (a0 a1 : Nat) (a2 : Intent → Intent) (s : State) : (modIntent a0 a1 a2 s).trials = s.trials := rfl
@[simp] theorem modIntent_mgmt (a0 a1 : Nat) (a2 : Intent → Intent) (s : State) : (modIntent a0 a1 a2 s).mgmt = s.mgmt := rfl
@[simp] theorem modIntent_flash (a0 a1 : Nat) (a2 : Intent → Intent) (s : State) : (modIntent a0 a1 a2 s).flash = s.flash := rfl
@[simp] theorem modIntent_pins (a0 a1 : Nat) (a2 : Intent → Intent) (s : State) : (modIntent a0 a1 a2 s).pins = s.pins := rfl
@[simp] theorem modIntent_out (a0 a1 : Nat) (a2 : Intent → Intent) (s : State) : (modIntent a0 a1 a2 s).out = s.out := rfl
@[simp] theorem modIntent_pending (a0 a1 : Nat) (a2 : Intent → Intent) (s : State) : (modIntent a0 a1 a2 s).pending = s.pending := rfl
/-! ### A migration changed. -/

@[simp] theorem modMig_boot (a0 : Nat) (a1 : Migration → Migration) (s : State) : (modMig a0 a1 s).boot = s.boot := by unfold modMig; split <;> rfl
@[simp] theorem modMig_halted (a0 : Nat) (a1 : Migration → Migration) (s : State) : (modMig a0 a1 s).halted = s.halted := by unfold modMig; split <;> rfl
@[simp] theorem modMig_clock (a0 : Nat) (a1 : Migration → Migration) (s : State) : (modMig a0 a1 s).clock = s.clock := by unfold modMig; split <;> rfl
@[simp] theorem modMig_free (a0 : Nat) (a1 : Migration → Migration) (s : State) : (modMig a0 a1 s).free = s.free := by unfold modMig; split <;> rfl
@[simp] theorem modMig_dieId (a0 : Nat) (a1 : Migration → Migration) (s : State) : (modMig a0 a1 s).dieId = s.dieId := by unfold modMig; split <;> rfl
@[simp] theorem modMig_image (a0 : Nat) (a1 : Migration → Migration) (s : State) : (modMig a0 a1 s).image = s.image := by unfold modMig; split <;> rfl
@[simp] theorem modMig_loader (a0 : Nat) (a1 : Migration → Migration) (s : State) : (modMig a0 a1 s).loader = s.loader := by unfold modMig; split <;> rfl
@[simp] theorem modMig_drone (a0 : Nat) (a1 : Migration → Migration) (s : State) : (modMig a0 a1 s).drone = s.drone := by unfold modMig; split <;> rfl
@[simp] theorem modMig_jobs (a0 : Nat) (a1 : Migration → Migration) (s : State) : (modMig a0 a1 s).jobs = s.jobs := by unfold modMig; split <;> rfl
@[simp] theorem modMig_sampled (a0 : Nat) (a1 : Migration → Migration) (s : State) : (modMig a0 a1 s).sampled = s.sampled := by unfold modMig; split <;> rfl
@[simp] theorem modMig_slotMap (a0 : Nat) (a1 : Migration → Migration) (s : State) : (modMig a0 a1 s).slotMap = s.slotMap := by unfold modMig; split <;> rfl
@[simp] theorem modMig_host (a0 : Nat) (a1 : Migration → Migration) (s : State) : (modMig a0 a1 s).host = s.host := by unfold modMig; split <;> rfl
@[simp] theorem modMig_dma (a0 : Nat) (a1 : Migration → Migration) (s : State) : (modMig a0 a1 s).dma = s.dma := by unfold modMig; split <;> rfl
@[simp] theorem modMig_mem (a0 : Nat) (a1 : Migration → Migration) (s : State) : (modMig a0 a1 s).mem = s.mem := by unfold modMig; split <;> rfl
@[simp] theorem modMig_reeds (a0 : Nat) (a1 : Migration → Migration) (s : State) : (modMig a0 a1 s).reeds = s.reeds := by unfold modMig; split <;> rfl
@[simp] theorem modMig_smc (a0 : Nat) (a1 : Migration → Migration) (s : State) : (modMig a0 a1 s).smc = s.smc := by unfold modMig; split <;> rfl
@[simp] theorem modMig_cache (a0 : Nat) (a1 : Migration → Migration) (s : State) : (modMig a0 a1 s).cache = s.cache := by unfold modMig; split <;> rfl
@[simp] theorem modMig_array (a0 : Nat) (a1 : Migration → Migration) (s : State) : (modMig a0 a1 s).array = s.array := by unfold modMig; split <;> rfl
@[simp] theorem modMig_drives (a0 : Nat) (a1 : Migration → Migration) (s : State) : (modMig a0 a1 s).drives = s.drives := by unfold modMig; split <;> rfl
@[simp] theorem modMig_hem (a0 : Nat) (a1 : Migration → Migration) (s : State) : (modMig a0 a1 s).hem = s.hem := by unfold modMig; split <;> rfl
@[simp] theorem modMig_pair (a0 : Nat) (a1 : Migration → Migration) (s : State) : (modMig a0 a1 s).pair = s.pair := by unfold modMig; split <;> rfl
@[simp] theorem modMig_health (a0 : Nat) (a1 : Migration → Migration) (s : State) : (modMig a0 a1 s).health = s.health := by unfold modMig; split <;> rfl
@[simp] theorem modMig_events (a0 : Nat) (a1 : Migration → Migration) (s : State) : (modMig a0 a1 s).events = s.events := by unfold modMig; split <;> rfl
@[simp] theorem modMig_trials (a0 : Nat) (a1 : Migration → Migration) (s : State) : (modMig a0 a1 s).trials = s.trials := by unfold modMig; split <;> rfl
@[simp] theorem modMig_mgmt (a0 : Nat) (a1 : Migration → Migration) (s : State) : (modMig a0 a1 s).mgmt = s.mgmt := by unfold modMig; split <;> rfl
@[simp] theorem modMig_flash (a0 : Nat) (a1 : Migration → Migration) (s : State) : (modMig a0 a1 s).flash = s.flash := by unfold modMig; split <;> rfl
@[simp] theorem modMig_pins (a0 : Nat) (a1 : Migration → Migration) (s : State) : (modMig a0 a1 s).pins = s.pins := by unfold modMig; split <;> rfl
@[simp] theorem modMig_out (a0 : Nat) (a1 : Migration → Migration) (s : State) : (modMig a0 a1 s).out = s.out := by unfold modMig; split <;> rfl
@[simp] theorem modMig_pending (a0 : Nat) (a1 : Migration → Migration) (s : State) : (modMig a0 a1 s).pending = s.pending := by unfold modMig; split <;> rfl
/-! ### A placement group entry written. -/

@[simp] theorem setPg_boot (a0 : Nat) (a1 : Pg) (s : State) : (setPg a0 a1 s).boot = s.boot := rfl
@[simp] theorem setPg_halted (a0 : Nat) (a1 : Pg) (s : State) : (setPg a0 a1 s).halted = s.halted := rfl
@[simp] theorem setPg_clock (a0 : Nat) (a1 : Pg) (s : State) : (setPg a0 a1 s).clock = s.clock := rfl
@[simp] theorem setPg_free (a0 : Nat) (a1 : Pg) (s : State) : (setPg a0 a1 s).free = s.free := rfl
@[simp] theorem setPg_dieId (a0 : Nat) (a1 : Pg) (s : State) : (setPg a0 a1 s).dieId = s.dieId := rfl
@[simp] theorem setPg_image (a0 : Nat) (a1 : Pg) (s : State) : (setPg a0 a1 s).image = s.image := rfl
@[simp] theorem setPg_loader (a0 : Nat) (a1 : Pg) (s : State) : (setPg a0 a1 s).loader = s.loader := rfl
@[simp] theorem setPg_drone (a0 : Nat) (a1 : Pg) (s : State) : (setPg a0 a1 s).drone = s.drone := rfl
@[simp] theorem setPg_jobs (a0 : Nat) (a1 : Pg) (s : State) : (setPg a0 a1 s).jobs = s.jobs := rfl
@[simp] theorem setPg_sampled (a0 : Nat) (a1 : Pg) (s : State) : (setPg a0 a1 s).sampled = s.sampled := rfl
@[simp] theorem setPg_slotMap (a0 : Nat) (a1 : Pg) (s : State) : (setPg a0 a1 s).slotMap = s.slotMap := rfl
@[simp] theorem setPg_host (a0 : Nat) (a1 : Pg) (s : State) : (setPg a0 a1 s).host = s.host := rfl
@[simp] theorem setPg_dma (a0 : Nat) (a1 : Pg) (s : State) : (setPg a0 a1 s).dma = s.dma := rfl
@[simp] theorem setPg_mem (a0 : Nat) (a1 : Pg) (s : State) : (setPg a0 a1 s).mem = s.mem := rfl
@[simp] theorem setPg_reeds (a0 : Nat) (a1 : Pg) (s : State) : (setPg a0 a1 s).reeds = s.reeds := rfl
@[simp] theorem setPg_smc (a0 : Nat) (a1 : Pg) (s : State) : (setPg a0 a1 s).smc = s.smc := rfl
@[simp] theorem setPg_cache (a0 : Nat) (a1 : Pg) (s : State) : (setPg a0 a1 s).cache = s.cache := rfl
@[simp] theorem setPg_array (a0 : Nat) (a1 : Pg) (s : State) : (setPg a0 a1 s).array = s.array := rfl
@[simp] theorem setPg_drives (a0 : Nat) (a1 : Pg) (s : State) : (setPg a0 a1 s).drives = s.drives := rfl
@[simp] theorem setPg_hem (a0 : Nat) (a1 : Pg) (s : State) : (setPg a0 a1 s).hem = s.hem := rfl
@[simp] theorem setPg_pair (a0 : Nat) (a1 : Pg) (s : State) : (setPg a0 a1 s).pair = s.pair := rfl
@[simp] theorem setPg_health (a0 : Nat) (a1 : Pg) (s : State) : (setPg a0 a1 s).health = s.health := rfl
@[simp] theorem setPg_events (a0 : Nat) (a1 : Pg) (s : State) : (setPg a0 a1 s).events = s.events := rfl
@[simp] theorem setPg_trials (a0 : Nat) (a1 : Pg) (s : State) : (setPg a0 a1 s).trials = s.trials := rfl
@[simp] theorem setPg_mgmt (a0 : Nat) (a1 : Pg) (s : State) : (setPg a0 a1 s).mgmt = s.mgmt := rfl
@[simp] theorem setPg_flash (a0 : Nat) (a1 : Pg) (s : State) : (setPg a0 a1 s).flash = s.flash := rfl
@[simp] theorem setPg_pins (a0 : Nat) (a1 : Pg) (s : State) : (setPg a0 a1 s).pins = s.pins := rfl
@[simp] theorem setPg_out (a0 : Nat) (a1 : Pg) (s : State) : (setPg a0 a1 s).out = s.out := rfl
@[simp] theorem setPg_pending (a0 : Nat) (a1 : Pg) (s : State) : (setPg a0 a1 s).pending = s.pending := rfl

end Sys2Proof.Machine
end

