-- ==== Sys2Proof/Laws/Table.lean ====
section
/-! SUPPORT. Sparse tables and the DMA scratch memory: what a read gives after a write, and that every write keeps the
canonical form. -/

namespace Sys2Proof.Machine

open Sys2Proof

/-! ### One entry -/

/-- An inserted entry is found. -/
@[simp] theorem tabFind_tabInsert_same {α : Type} (t : Tab α) (k : Nat) (v : α) : tabFind (tabInsert t k v) k = some v := by
  induction t with
  | nil => simp [tabInsert, tabFind]
  | cons p r ih =>
    obtain ⟨i, w⟩ := p
    simp only [tabInsert]
    split
    · simp [tabFind]
    · split
      · simp [tabFind]
      · rename_i h
        simp [tabFind, Ne.symm h, ih]

/-- An insertion leaves the other entries. -/
theorem tabFind_tabInsert_ne {α : Type} (t : Tab α) {k j : Nat} (v : α) (h : j ≠ k) :
    tabFind (tabInsert t k v) j = tabFind t j := by
  induction t with
  | nil => simp [tabInsert, tabFind, Ne.symm h]
  | cons p r ih =>
    obtain ⟨i, w⟩ := p
    simp only [tabInsert]
    split
    · simp [tabFind, Ne.symm h]
    · split
      · rename_i _ e
        subst e
        simp [tabFind, Ne.symm h]
      · simp [tabFind, ih]

/-- An erasure leaves the other entries. -/
theorem tabFind_tabErase_ne {α : Type} (t : Tab α) {k j : Nat} (h : j ≠ k) : tabFind (tabErase t k) j = tabFind t j := by
  induction t with
  | nil => rfl
  | cons p r ih =>
    obtain ⟨i, w⟩ := p
    simp only [tabErase]
    split
    · rename_i e
      subst e
      simp [tabFind, Ne.symm h]
    · simp [tabFind, ih]

/-- The keys of a sorted table rise from its first one. -/
theorem tabSorted_cons {α : Type} {i : Nat} {v : α} {r : Tab α} (h : tabSorted ((i, v) :: r) = true) :
    tabSorted r = true ∧ ∀ p ∈ r, i < p.1 := by
  induction r generalizing i v with
  | nil => simp [tabSorted]
  | cons p r ih =>
    obtain ⟨j, w⟩ := p
    simp only [tabSorted, Bool.and_eq_true, decide_eq_true_eq] at h
    have a := ih h.2
    refine ⟨h.2, fun q hq => ?_⟩
    rcases List.mem_cons.mp hq with e | e
    · subst e
      exact h.1
    · exact Nat.lt_trans h.1 (a.2 q e)

/-- A key below every key of a table stands before it. -/
theorem tabSorted_cons_of {α : Type} {i : Nat} {v : α} {r : Tab α} (h : tabSorted r = true) (a : ∀ p ∈ r, i < p.1) :
    tabSorted ((i, v) :: r) = true := by
  cases r with
  | nil => rfl
  | cons p r =>
    obtain ⟨j, w⟩ := p
    simp only [tabSorted, Bool.and_eq_true, decide_eq_true_eq]
    exact ⟨a (j, w) (by simp), h⟩

/-- A key that no entry of a table has is not found. -/
theorem tabFind_none {α : Type} {t : Tab α} {k : Nat} (h : ∀ p ∈ t, k < p.1) : tabFind t k = none := by
  induction t with
  | nil => rfl
  | cons p r ih =>
    obtain ⟨i, w⟩ := p
    have e : k < i := h (i, w) (by simp)
    simp only [tabFind]
    rw [if_neg (by omega), ih fun q hq => h q (by simp [hq])]

/-- An erased entry is not found in a sorted table. -/
theorem tabFind_tabErase_same {α : Type} {t : Tab α} {k : Nat} (h : tabSorted t = true) : tabFind (tabErase t k) k = none := by
  induction t with
  | nil => rfl
  | cons p r ih =>
    obtain ⟨i, w⟩ := p
    have a := tabSorted_cons h
    simp only [tabErase]
    split
    · rename_i e
      subst e
      exact tabFind_none a.2
    · rename_i e
      simp [tabFind, e, ih a.1]

/-- Every key of a table after an insertion was there or is the new one. -/
theorem mem_tabInsert {α : Type} {t : Tab α} {k : Nat} {v : α} {p : Nat × α} (h : p ∈ tabInsert t k v) :
    p ∈ t ∨ p = (k, v) := by
  induction t with
  | nil => exact .inr (by simpa [tabInsert] using h)
  | cons q r ih =>
    obtain ⟨i, w⟩ := q
    simp only [tabInsert] at h
    split at h
    · rcases List.mem_cons.mp h with e | e
      · exact .inr e
      · exact .inl e
    · split at h
      · rcases List.mem_cons.mp h with e | e
        · exact .inr e
        · exact .inl (by simp [e])
      · rcases List.mem_cons.mp h with e | e
        · exact .inl (by simp [e])
        · rcases ih e with a | a
          · exact .inl (by simp [a])
          · exact .inr a

/-- Every entry of a table after an erasure was there. -/
theorem mem_tabErase {α : Type} {t : Tab α} {k : Nat} {p : Nat × α} (h : p ∈ tabErase t k) : p ∈ t := by
  induction t with
  | nil => exact h
  | cons q r ih =>
    obtain ⟨i, w⟩ := q
    simp only [tabErase] at h
    split at h
    · simp [h]
    · rcases List.mem_cons.mp h with e | e
      · simp [e]
      · simp [ih e]

/-- An insertion keeps a table sorted. -/
theorem tabSorted_tabInsert {α : Type} {t : Tab α} (k : Nat) (v : α) (h : tabSorted t = true) :
    tabSorted (tabInsert t k v) = true := by
  induction t with
  | nil => rfl
  | cons q r ih =>
    obtain ⟨i, w⟩ := q
    have a := tabSorted_cons h
    simp only [tabInsert]
    split
    · rename_i e
      refine tabSorted_cons_of h fun p hp => ?_
      rcases List.mem_cons.mp hp with e' | e'
      · subst e'
        exact e
      · exact Nat.lt_trans e (a.2 p e')
    · split
      · rename_i e
        subst e
        exact tabSorted_cons_of a.1 a.2
      · refine tabSorted_cons_of (ih a.1) fun p hp => ?_
        rcases mem_tabInsert hp with e | e
        · exact a.2 p e
        · subst e
          simp only
          omega

/-- An erasure keeps a table sorted. -/
theorem tabSorted_tabErase {α : Type} {t : Tab α} (k : Nat) (h : tabSorted t = true) : tabSorted (tabErase t k) = true := by
  induction t with
  | nil => rfl
  | cons q r ih =>
    obtain ⟨i, w⟩ := q
    have a := tabSorted_cons h
    simp only [tabErase]
    split
    · exact a.1
    · exact tabSorted_cons_of (ih a.1) fun p hp => a.2 p (mem_tabErase hp)

/-! ### Reads with a default -/

/-- What is written is read, but for the default, which a sorted table does not list. -/
theorem tabGet_tabPut_same {α : Type} [DecidableEq α] (d : α) (t : Tab α) (k : Nat) (v : α)
    (h : v ≠ d ∨ tabSorted t = true) : tabGet d (tabPut d t k v) k = v := by
  unfold tabGet tabPut
  split
  · rename_i e
    rcases h with h | h
    · exact absurd e h
    · rw [tabFind_tabErase_same h, e]
      rfl
  · simp

/-- A write leaves the other keys. -/
theorem tabGet_tabPut_ne {α : Type} [DecidableEq α] (d : α) (t : Tab α) {k j : Nat} (v : α) (h : j ≠ k) :
    tabGet d (tabPut d t k v) j = tabGet d t j := by
  unfold tabGet tabPut
  split
  · rw [tabFind_tabErase_ne t h]
  · rw [tabFind_tabInsert_ne t v h]

/-- A write keeps a table sorted. -/
theorem tabSorted_tabPut {α : Type} [DecidableEq α] (d : α) {t : Tab α} (k : Nat) (v : α) (h : tabSorted t = true) :
    tabSorted (tabPut d t k v) = true := by
  unfold tabPut
  split
  · exact tabSorted_tabErase k h
  · exact tabSorted_tabInsert k v h

/-- A write lists no default. -/
theorem mem_tabPut {α : Type} [DecidableEq α] {d : α} {t : Tab α} {k : Nat} {v : α} {p : Nat × α}
    (h : p ∈ tabPut d t k v) : p ∈ t ∨ p.2 ≠ d := by
  unfold tabPut at h
  split at h
  · exact .inl (mem_tabErase h)
  · rename_i e
    rcases mem_tabInsert h with a | a
    · exact .inl a
    · subst a
      exact .inr e

/-! ### The DMA scratch memory (06) -/

/-- The byte written is read. -/
theorem memRead_memWrite_same (m : Memory) (a : Nat) (b : Byte) (h : Memory.wf m = true) : memRead (memWrite m a b) a = b := by
  simp only [Memory.wf, Bool.and_eq_true] at h
  exact tabGet_tabPut_same _ _ _ _ (.inr h.1)

/-- The other bytes stay. -/
theorem memRead_memWrite_ne (m : Memory) {a c : Nat} (b : Byte) (h : c ≠ a) : memRead (memWrite m a b) c = memRead m c :=
  tabGet_tabPut_ne _ _ _ h

/-- A byte written keeps the canonical form. -/
theorem wf_memWrite {m : Memory} (a : Nat) (b : Byte) (h : Memory.wf m = true) : Memory.wf (memWrite m a b) = true := by
  simp only [Memory.wf, Bool.and_eq_true, List.all_eq_true, decide_eq_true_eq] at h ⊢
  refine ⟨tabSorted_tabPut _ _ _ h.1, fun p hp => ?_⟩
  rcases mem_tabPut hp with e | e
  · exact h.2 p e
  · exact e

/-- Bytes written keep the canonical form. -/
theorem wf_memWriteN {m : Memory} (a : Nat) (bs : List Byte) (h : Memory.wf m = true) :
    Memory.wf (memWriteN m a bs) = true := by
  induction bs generalizing m a with
  | nil => exact h
  | cons b r ih => exact ih (a + 1) (wf_memWrite a b h)

/-- Bytes outside those written stay. -/
theorem memRead_memWriteN_outside (m : Memory) (a : Nat) (bs : List Byte) {c : Nat} (h : c < a ∨ a + bs.length ≤ c) :
    memRead (memWriteN m a bs) c = memRead m c := by
  induction bs generalizing m a with
  | nil => rfl
  | cons b r ih =>
    simp only [List.length_cons] at h
    simp only [memWriteN]
    rw [ih (memWrite m a b) (a + 1) (by omega), memRead_memWrite_ne m b (by omega)]

end Sys2Proof.Machine
end

