-- ==== Sys2Proof/Machine/Package.lean ====
section
/-! DEFINITION. What the board sees (17): supply rails and their order, the milestones of a start, the ball map, the low-speed
signals and the JTAG identity (R546 to R549, R551, R564 to R569, R571). -/

namespace Sys2Proof.Machine

open Sys2Proof

/-! ### Supplies (R546 to R549) -/

/-- The supply rails (R546). -/
inductive Rail where
  | vddIo | vddCore | vddPhy075 | vddSram | vddHbm110 | vddHbm040 | vddPhy120
deriving DecidableEq, Repr

/-- A rail's figures (R546): nominal, ripple and absolute maximum in mV, the tolerance in percent, the maximum current in mA. -/
structure RailSpec where
  nominal : Nat
  percent : Nat
  ripple  : Nat
  current : Nat
  limit   : Nat
deriving DecidableEq, Repr

/-- The table of R546. -/
def Rail.spec : Rail → RailSpec
  | .vddIo => { nominal := 1800, percent := 3, ripple := 30, current := 2200, limit := 2100 }
  | .vddCore => { nominal := 750, percent := 3, ripple := 15, current := 55000, limit := 900 }
  | .vddPhy075 => { nominal := 750, percent := 2, ripple := 8, current := 46000, limit := 900 }
  | .vddSram => { nominal := 800, percent := 3, ripple := 15, current := 18000, limit := 950 }
  | .vddHbm110 => { nominal := 1100, percent := 3, ripple := 20, current := 16000, limit := 1300 }
  | .vddHbm040 => { nominal := 400, percent := 3, ripple := 10, current := 10000, limit := 500 }
  | .vddPhy120 => { nominal := 1200, percent := 2, ripple := 10, current := 14000, limit := 1400 }

/-- The rails in the order in which they rise (R547). -/
def allRails : List Rail := [.vddIo, .vddCore, .vddPhy075, .vddSram, .vddHbm110, .vddHbm040, .vddPhy120]

/-- A level in µV is within a rail's DC tolerance (R546). -/
def Rail.within (r : Rail) (uv : Nat) : Bool :=
  let n := r.spec.nominal * 1000
  decide (100 * n ≤ 100 * uv + r.spec.percent * n) && decide (100 * uv ≤ 100 * n + r.spec.percent * n)

/-- A power-up as the board makes it, in µs: when each rail starts, reaches 95 % of nominal and is within tolerance, since when the
reference clocks are stable, and when POR_N rises. -/
structure PowerUp where
  start  : Rail → Nat
  reach  : Rail → Nat
  within : Rail → Nat
  clocks : Nat
  por    : Nat

/-- The order of R547. DEDUCED (log 83): "last" is to reach 95 % no earlier than any other rail. -/
def PowerUp.ordered (p : PowerUp) : Bool :=
  allRails.all (fun r => decide (p.reach .vddIo ≤ p.reach r)) &&
    decide (p.reach .vddIo ≤ p.start .vddCore) && decide (p.reach .vddIo ≤ p.start .vddPhy075) &&
    decide (p.reach .vddCore ≤ p.reach .vddSram) && decide (p.reach .vddSram ≤ p.reach .vddCore + 10000) &&
    decide (p.reach .vddHbm110 ≤ p.start .vddHbm040) && allRails.all (fun r => decide (p.reach r ≤ p.reach .vddPhy120)) &&
    decide (p.clocks + 1000 ≤ p.por) && allRails.all (fun r => decide (p.within r + 10000 ≤ p.por))

/-- Levels in mV that do no damage in any order while POR_N is low (R549). -/
def harmless (level : Rail → Nat) : Bool :=
  allRails.all fun r => decide (level r ≤ r.spec.limit) && decide (level r ≤ level .vddIo + 300)

/-! ### Milestones of a start (R551) -/

/-- What a start has to reach, behind POR_N rising or behind the host-link instant of a port. -/
inductive Milestone where
  | pllLocked | firmwareChecked | healthApplied | linkLeavesDetect | configReady | imageChecked | applyComplete
deriving DecidableEq, Repr

/-- The bound of a milestone in µs (R551); that of APPLY counts from acceptance. -/
def Milestone.within : Milestone → Nat
  | .pllLocked => 200
  | .firmwareChecked => 250000
  | .healthApplied => 300000
  | .linkLeavesDetect => 20000
  | .configReady => 400000
  | .imageChecked => 500000
  | .applyComplete => 40000

/-- The host-link instant of a port in µs: the later of POR_N rising plus 1 ms and its PERST_N deasserting (R551). -/
def hostLinkInstant (por perst : Nat) : Nat := max (por + 1000) perst

/-- The latest time at which a port is ready for configuration (R551): 400 ms after both instants. -/
def configReadyBy (por perst : Nat) : Nat := max (hostLinkInstant por perst) por + Milestone.configReady.within

/-! ### Balls (R564 to R568) -/

/-- The letters of R565. -/
def ballLetters : List Char := ['A', 'B', 'C', 'D', 'E', 'F', 'G', 'H', 'J', 'K', 'L', 'M', 'N', 'P', 'T', 'U', 'V', 'W', 'Y']

/-- The name of row i, 1 to 80 (R565). -/
def rowName (i : Nat) : List Char :=
  if i ≤ 19 then [nth ' ' ballLetters (i - 1)]
  else [nth ' ' ['A', 'B', 'C', 'D'] ((i - 20) / 19), nth ' ' ballLetters ((i - 20) % 19)]

/-- A ball is placed at a row index and column (R566). -/
def ballSite (i j : Nat) : Bool :=
  1 ≤ i && i ≤ 80 && 1 ≤ j && j ≤ 80 && !(27 ≤ i && i ≤ 54 && 18 ≤ j && j ≤ 63)

/-- The balls of a lane: row index and column of TX P, TX N, RX P and RX N. -/
structure LaneBalls where
  txP : Nat × Nat
  txN : Nat × Nat
  rxP : Nat × Nat
  rxN : Nat × Nat
deriving DecidableEq, Repr

/-- A lane of sixteen whose transmitters and receivers lie in two rows (R567). -/
def rowLane (tx rx n : Nat) : LaneBalls where
  txP := (tx, 16 + 3 * n)
  txN := (tx, 17 + 3 * n)
  rxP := (rx, 16 + 3 * n)
  rxN := (rx, 17 + 3 * n)

/-- Lane n of a host port (R567). -/
def hostLane (port n : Nat) : LaneBalls := if port = 0 then rowLane 2 4 n else rowLane 78 80 n

/-- Lane n of the Epong link (R567). -/
def epongLane (n : Nat) : LaneBalls := rowLane 7 9 n

/-- Lane l of drive cluster c (R567). -/
def driveLane (c l : Nat) : LaneBalls :=
  let q := 8 * c + l
  let b := q % 48 / 24
  let v := q % 48 % 24
  let tx := if q / 48 = 0 then 2 + 5 * b else 79 - 5 * b
  let rx := if q / 48 = 0 then 4 + 5 * b else 77 - 5 * b
  { txP := (5 + 3 * v, tx), txN := (6 + 3 * v, tx), rxP := (5 + 3 * v, rx), rxN := (6 + 3 * v, rx) }

/-- The balls of a lane as a list. -/
def LaneBalls.balls (l : LaneBalls) : List (Nat × Nat) := [l.txP, l.txN, l.rxP, l.rxN]

/-- Every high-speed lane (R567). -/
def allLanes : List LaneBalls :=
  (List.range 16).map (hostLane 0) ++ (List.range 16).map (hostLane 1) ++ (List.range 16).map epongLane ++
    (List.range 12).flatMap fun c => (List.range 8).map (driveLane c)

/-- The types of low-speed signals (R569). -/
inductive PinType where
  | clockIn | clockOut | input | output | inOut | openDrain | strap | analog
deriving DecidableEq, Repr

/-- The state of a low-speed signal while POR_N is low (R569). -/
inductive PinReset where
  | none_ | idle | pullDown | pullUp | low | high | released | highZ | off
deriving DecidableEq, Repr

/-- Low-speed signals of one row of the table: how many, the row index and the first column of their balls, which lie `step`
columns apart (R569). -/
structure PinRow where
  name  : String
  count : Nat
  row   : Nat
  col   : Nat
  step  : Nat
  type  : PinType
  reset : PinReset
deriving DecidableEq, Repr

/-- Clocks and resets (R569). -/
def clockPins : List PinRow := [
  { name := "SYS_REFCLK", count := 2, row := 62, col := 20, step := 1, type := .clockIn, reset := .none_ },
  { name := "HP0_REFCLK", count := 2, row := 62, col := 24, step := 1, type := .clockIn, reset := .none_ },
  { name := "HP1_REFCLK", count := 2, row := 62, col := 28, step := 1, type := .clockIn, reset := .none_ },
  { name := "DRV_REFCLK", count := 2, row := 62, col := 32, step := 1, type := .clockIn, reset := .none_ },
  { name := "EPG_REFCLK", count := 2, row := 62, col := 36, step := 1, type := .clockIn, reset := .none_ },
  { name := "TEST_CLKOUT", count := 2, row := 62, col := 40, step := 1, type := .clockOut, reset := .idle },
  { name := "POR_N", count := 1, row := 62, col := 44, step := 1, type := .input, reset := .pullDown },
  { name := "HP0_PERST_N", count := 1, row := 62, col := 46, step := 1, type := .input, reset := .pullDown },
  { name := "HP1_PERST_N", count := 1, row := 62, col := 48, step := 1, type := .input, reset := .pullDown },
  { name := "PWR_FAIL_N", count := 1, row := 62, col := 50, step := 1, type := .input, reset := .pullUp },
  { name := "EPG_PRSNT_N", count := 1, row := 62, col := 52, step := 1, type := .input, reset := .pullUp }]

/-- Flash, SMBus, JTAG and test signals (R569). -/
def mgmtPins : List PinRow := [
  { name := "SPI_CLK", count := 1, row := 64, col := 20, step := 1, type := .output, reset := .low },
  { name := "SPI_CS_N", count := 1, row := 64, col := 21, step := 1, type := .output, reset := .high },
  { name := "SPI_IO", count := 4, row := 64, col := 22, step := 1, type := .inOut, reset := .pullUp },
  { name := "SMB_SCL, SMB_SDA", count := 2, row := 64, col := 28, step := 1, type := .openDrain, reset := .released },
  { name := "SMB_ADDR", count := 2, row := 64, col := 30, step := 1, type := .strap, reset := .pullDown },
  { name := "MGMT_ALERT_N", count := 1, row := 64, col := 32, step := 1, type := .openDrain, reset := .released },
  { name := "TCK", count := 1, row := 64, col := 36, step := 1, type := .input, reset := .pullDown },
  { name := "TMS, TDI", count := 2, row := 64, col := 37, step := 1, type := .input, reset := .pullUp },
  { name := "TDO", count := 1, row := 64, col := 39, step := 1, type := .output, reset := .highZ },
  { name := "TRST_N", count := 1, row := 64, col := 40, step := 1, type := .input, reset := .pullDown },
  { name := "TEST_MODE, SCAN_EN", count := 2, row := 64, col := 44, step := 1, type := .input, reset := .pullDown }]

/-- Hold-up signals (R569). -/
def holdUpPins : List PinRow := [
  { name := "HU_VSENSE", count := 1, row := 66, col := 20, step := 1, type := .analog, reset := .none_ },
  { name := "HU_AGND", count := 2, row := 66, col := 21, step := 3, type := .analog, reset := .none_ },
  { name := "HU_ISENSE", count := 2, row := 66, col := 22, step := 1, type := .analog, reset := .none_ },
  { name := "HU_TEMP", count := 1, row := 66, col := 25, step := 1, type := .analog, reset := .none_ },
  { name := "HU_VREF", count := 1, row := 66, col := 27, step := 1, type := .analog, reset := .off },
  { name := "HU_CHG_PRESENT", count := 1, row := 66, col := 32, step := 1, type := .input, reset := .pullDown },
  { name := "HU_DISCH", count := 1, row := 66, col := 33, step := 1, type := .output, reset := .low },
  { name := "HU_SHIP", count := 1, row := 66, col := 34, step := 1, type := .output, reset := .low }]

/-- The other low-speed signals (R569). -/
def otherPins : List PinRow := [
  { name := "REPLACE_N", count := 1, row := 68, col := 20, step := 1, type := .openDrain, reset := .released },
  { name := "THERM_TRIP_N", count := 1, row := 68, col := 21, step := 1, type := .openDrain, reset := .released },
  { name := "THERMDA, THERMDC", count := 2, row := 68, col := 23, step := 1, type := .analog, reset := .none_ },
  { name := "GPIO", count := 8, row := 68, col := 28, step := 1, type := .input, reset := .pullDown },
  { name := "MGMT_UART_TX", count := 1, row := 68, col := 38, step := 1, type := .output, reset := .high },
  { name := "MGMT_UART_RX", count := 1, row := 68, col := 39, step := 1, type := .input, reset := .pullUp },
  { name := "ZCAL", count := 4, row := 70, col := 20, step := 2, type := .analog, reset := .none_ },
  { name := "VSENSE_CORE", count := 2, row := 70, col := 30, step := 1, type := .analog, reset := .none_ },
  { name := "VSENSE_SRAM", count := 2, row := 70, col := 34, step := 1, type := .analog, reset := .none_ },
  { name := "DRV_PERST_N", count := 48, row := 60, col := 14, step := 1, type := .output, reset := .low }]

/-- The low-speed signals (R569). -/
def pinRows : List PinRow := clockPins ++ mgmtPins ++ holdUpPins ++ otherPins

/-- The balls of a row of low-speed signals. -/
def PinRow.balls (p : PinRow) : List (Nat × Nat) := (List.range p.count).map fun n => (p.row, p.col + p.step * n)

/-- What a ball carries: a lane, a low-speed signal, ground or a rail. -/
inductive Net where
  | lane | signal | vss | rail (r : Rail)
deriving DecidableEq, Repr

/-- The row index plus the column is even: the first net, else the second (R568). -/
def parity (i j : Nat) (a b : Net) : Net := if (i + j) % 2 = 0 then a else b

/-- The net of a ball that no signal names, by region (R568). -/
def regionNet (i j : Nat) : Net :=
  let mid := 16 ≤ j ∧ j ≤ 63
  if i ≤ 11 ∧ mid then if i = 6 then .rail .vddPhy075 else if i = 11 then .rail .vddPhy120 else .vss
  else if 77 ≤ i ∧ mid then if i = 77 then .rail .vddPhy120 else .vss
  else if 5 ≤ i ∧ i ≤ 76 ∧ (j ≤ 10 ∨ 71 ≤ j) then
    if j = 6 ∨ j = 75 then .rail .vddPhy075 else if j = 10 ∨ j = 71 then .rail .vddPhy120 else .vss
  else if i ≤ 11 ∨ 77 ≤ i then .rail .vddPhy075
  else if i ≤ 26 then parity i j (.rail .vddCore) .vss
  else if i ≤ 54 then parity i j (.rail .vddHbm110) (if j ≤ 13 ∨ 68 ≤ j then .rail .vddHbm040 else .vss)
  else if i ≤ 59 then parity i j (.rail .vddSram) .vss
  else if i ≤ 70 then if i = 61 ∨ i = 69 then .rail .vddIo else .vss
  else parity i j (.rail .vddCore) .vss

/-- The net of a ball (R566 to R569). -/
def ballNet (i j : Nat) : Option Net :=
  if !ballSite i j then none
  else if allLanes.any fun l => l.balls.contains (i, j) then some .lane
  else if pinRows.any fun p => p.balls.contains (i, j) then some .signal
  else some (regionNet i j)

/-! ### JTAG (R571) -/

/-- IDCODE (R571): version, part number, manufacturer identity, 1. -/
def idcode : Nat :=
  (2 * bits glbId 20 4 + bits glbId 16 4) * 2 ^ 28 + bits glbId 0 16 * 2 ^ 12 + 0x4C5 * 2 + 1

end Sys2Proof.Machine
end

