-- ==== Sys2Proof/Tests/Slice0.lean ====
section
/-! SUPPORT. Tests of the model's own work on small states, ill-formed commands refused, and for every obligation a witness
(`test_met_<name>`) that its hypotheses, clause by clause, are met by a concrete state and operands. -/

set_option Elab.async false

namespace Sys2Proof.Tests

open Sys2Proof Sys2Proof.Machine

/-! ### Small states -/

/-- A small accepted image: four ring groups each for the PFs, eight vectors, no pair. -/
def image : Image where
  imgId := 7
  imgLen := 19328
  buildTime := 0
  geom := { tickSel := 1, patience := 4096, reedWindowS := 86400, driveTimeoutMs := 2000, scrubPeriodH := 168, slotWire := [] }
  part := { srWaystation := 88, srPgt := 4, srRing := 4, srSmc := 4, srJhead := 24, srReedbuf := 28, srEvent := 8
            hbCache := 160, hbJournal := 8, hbLedger := 16, hbFirmware := 8 }
  ring := [(0, { firstGroup := 0, groups := 4, cseraiShare := 2, vectors := 8 }),
           (128, { firstGroup := 4, groups := 4, cseraiShare := 2, vectors := 8 })]
  families := []
  plac := { wFill := 400, wWear := 200, wPort := 250, wReed := 150, fdDepth := 3, sparePermille := 50, seed := 0 }
  cach := { dumpRateMbs := 120000, coalesceTicks := 2000, destageStartPct := 50, destageHighPct := 85 }
  evnt := []
  pair := { pairEn := false, policy := 0, postCount := 0, postSlot := [], pairId := 0 }
  hemd := { li := false, cutoffMv := 24000, fullMv := 48000, taperHoldS := 240, capacityJ := 100000, reserveJ := 2400
            taperMa := 100, shuntUohm := 500, calDirtyMaxMib := 4096, ocv := [] }
  tria := { allowEpong := true, allowDrive := true, allowReed := true, clusterMask := 1 }
  keySlot := 1
  digests := []

/-- The unit in service: SOLO, an image in RUNNING, restore ended, both host ports up. -/
def run : State := { State.reset with
  boot := .up
  image := some image
  loader := { Loader.reset with state := .running, rwlOpen := false }
  cache := { Cache.reset with vault := { Vault.reset with restore := .ended } }
  pins := { Pins.reset with porN := true, hpPerst := [true, true] } }

/-- O1. -/
theorem test_met_FrontCommandRuns :
    ({ run with pending := [.thermalStop, .tickEdge] } : State).pending = .thermalStop :: [.tickEdge] ∧ run.pending = [] := by
  decide

/-- O3, O5, O13. -/
theorem test_met_FootprintOfEveryCommand :
    exec .thermComparator run = .next { run with pins := { run.pins with thermTripN := false } } ∧
      Piece.mem ∉ touches .thermComparator := ⟨rfl, by decide⟩

theorem test_met_FusesOnlyAdvance :
    step run = .next run ∧ (run.mgmt.keys[3]?).isSome = true ∧
      step { run with mgmt := { run.mgmt with keys := [{ hash := [], state := .revoked, image := true }] } } =
        .next { run with mgmt := { run.mgmt with keys := [{ hash := [], state := .revoked, image := true }] } } :=
  ⟨rfl, rfl, rfl⟩

theorem test_met_TablesStaySorted :
    Memory.wf (memWriteN run.mem 9 [1, 0, 3]) = true ∧ tabSorted run.host.rings = true ∧ step run = .next run :=
  ⟨by decide, by decide, rfl⟩

/-- A unit whose die is hot enough for a thermal stop. -/
def hot : State := { run with health := { run.health with hotRun := 10, tempHigh := true } }

theorem test_met_PinsTemperatureAndPowerUp :
    (State.reset.boot = .reset ∧ State.reset.pins.testMode = false) ∧
    ({ State.reset with boot := .booting } : State).boot = .booting ∧
    (run.boot = .up ∧ run.health.tempHigh = false ∧ (950 : Int) < 951) ∧ (hot.health.tempHigh = true ∧ (899 : Int) < 900) ∧
    (hot.boot = .up ∧ 10 ≤ hot.health.hotRun ∧ hot.pins.thermTripN = true) ∧
    (run.pins.hpPerst.length = 2 ∧ run.pins.hpPerst.getD 1 false = true ∧ ringOwner run 511 = some 128 ∧ portOf 128 = 1) ∧
    (({ run with pair := { run.pair with link := { run.pair.link with up := true } } } : State).pair.link.up = true ∧
      run.pair.link.lossDecl = false) := by decide

/-- A transfer with no byte written is refused: the image of ImageVerdicts' refusals. -/
def verifying (j : LoadJob) (s : State) : State := { s with loader := { s.loader with state := .verify, job := some j } }

theorem test_met_ImageVerdicts :
    ((verifying { copy := 0, ctx := none, bytes := [], written := some 0 } run).loader.state = .verify ∧
      imageRefusal run.mgmt.keys (some 0) [] = some { reason := 0x14, sec := 0, pos := 0 } ∧ run.image.isSome = true ∧
      run.pair.mirrored = false) ∧ State.reset.image = none := by decide

/-- A unit in APPLY with an image accepted, and one in PREPARE that has nothing left to do. -/
def applying : State := { run with loader := { run.loader with state := .apply, accepted := some image, rwlOpen := true } }
def preparing (p : Bool) : State :=
  { run with loader := { run.loader with state := .prepare, accepted := some image, prepared := p } }
/-- A live request that waits for a partner. -/
def waitingLive : State := { run with
  pair := { run.pair with claim := { run.pair.claim with unit := .active } }
  drone := { run.drone with count := 10000000 }
  loader := { run.loader with
    lstate := .pending, live := some { image := image, ctx := none, verifiedAt := 0, partnerOk := false, target := none } } }

theorem test_met_Replacements :
    (serving (preparing false) = true ∧ (preparing false).loader.prepared = false) ∧
    (serving (preparing true) = true ∧ dumping (preparing true) = false ∧ prepareOver (preparing true) = true) ∧
    (applying.boot = .up ∧ (∀ x ∈ applying.mgmt.ctxs, x.busy = false) ∧ applying.loader.rwlOpen = true ∧
      image.pair.pairEn = false) ∧
    (run.pair.claim.unit = .solo ∧ run.image = some image ∧ liveRefusal image image = none ∧
      liveRefusal image { image with hemd := { image.hemd with li := true } } = some (0x0F, 9)) ∧
    (waitingLive.pair.claim.unit ≠ .solo ∧ waitingLive.loader.live.isSome = true ∧
      0 + msTicks waitingLive 10000 ≤ waitingLive.drone.count) := by decide

theorem test_met_TickEdgeCounts :
    run.boot = .up ∧ serving applying = false ∧
      ({ applying with image := none, loader := { applying.loader with state := .fetch } } : State).loader.state = .fetch ∧
      serving { applying with image := none, loader := { applying.loader with state := .fetch } } = false := by decide

/-- A leg of a kind, with nothing to move, of tick 0. -/
def leg (kind : LegKind) (cls : WorkClass) : Leg where
  id := 3
  job := 1
  order := 1
  tag := 0
  kind := kind
  op := .check
  cls := cls
  zr := false
  slot := some 0
  pair := some 2
  voteFor := none
  avoid := none
  chan := none
  clusters := 0
  bank := 0
  pc := 0
  ins := []
  coeffs := []
  outs := []
  segment := 0
  diff := false
  dst := []
  cost := 1
  hostIn := 0
  hostOut := 0
  hbm := 0
  epong := 0
  ownTick := 0
  done := false
  late := false
  counted := false
  reruns := 0
  attempts := 0

/-- A unit in tick 1 with a leg of tick 0 still running and one waiting for the next edge. -/
def busyUnit : State := { run with drone := { run.drone with
  count := 1, running := [leg .reed .foreground], next := [.leg (leg .dma .foreground)] } }

/-- The same unit behind a late seal that placed nothing, and with the leg in its own tick. -/
def lateSeal : State :=
  { busyUnit with drone := { busyUnit.drone with cut := some { nextId := 9, condemned := [], late := some 0 } } }
def ownTickUnit : State := { busyUnit with drone := { busyUnit.drone with count := 0 } }

theorem test_met_CaravansAndLateLegs :
    (serving busyUnit = true ∧ busyUnit.drone.cut = none) ∧
    (lateSeal.drone.cut.isSome = true ∧ (Seal.mk 9 [] (some 0)).late = some 0) ∧
    (∃ l, findLeg ownTickUnit 3 = some l ∧ l.done = false ∧ l.ownTick = ownTickUnit.drone.count) ∧
    (({ leg .reed .foreground with late := true } : Leg).late = true ∧ (leg .reed .foreground).late = false ∧
      sameResource (leg .reed .foreground) { leg .reed .foreground with late := true } = true) ∧
    (∃ l, findLeg busyUnit 3 = some l ∧ l.done = false ∧ l.counted = false ∧ l.ownTick < busyUnit.drone.count ∧
      l.kind = .reed ∧ within busyUnit (pairStat busyUnit (l.pair.getD 0)).hangAt = false ∧
      l.pair.getD 0 < busyUnit.reeds.stat.length) :=
  ⟨by decide, by decide, ⟨_, rfl, by decide⟩, by decide, _, rfl, by decide⟩

/-- A unit whose scrub has waited its patience, with one scrub leg waiting. -/
def waiting : State := { run with drone := { run.drone with
  queued := [.leg (leg .hbm (.background .scrub))]
  patience := run.drone.patience.set 4 { wait := 4096, urgent := false, remain := 0, order := 0 } } }

theorem test_met_UrgencyHoldsAndCacheMode :
    (serving waiting = true ∧ (patienceOf waiting .scrub).urgent = false ∧ Stream.scrub ∉ waiting.drone.holdUsed ∧
      admittedOf waiting.drone.queued .scrub ≠ 0 ∧ patienceTicks waiting ≤ (patienceOf waiting .scrub).wait ∧
      waiting.drone.patience.length = 5) ∧
    (pfFull run 0 = true ∧ (0x1D : Word) &&& ~~~0x1D = 0 ∧ pfFull run 128 = true ∧ fenceHolder run = true ∧ dirtyLoad run = 0) ∧
    (16 ≤ ({ run with cache := { run.cache with staleEdges := 16 } } : State).cache.staleEdges ∧ run.cache.stale = false) ∧
    ({ run with cache := { run.cache with wt := true, ceilLow := false } } : State).cache.wt = true ∧
    wtWanted { run with cache := { run.cache with wt := true, ceilLow := false, ceiling := 100, stamp := 1 } } = false := by
  decide

/-- The unit with ring pair 5 of function 0 as given. -/
def withRing (q : Ring) (s : State) : State := { s with host := { s.host with rings := [(5, q)] } }
/-- An enabled ring pair of two entries. -/
def openRing : Ring := { Ring.reset with en := true, depthLog := 1, sqBase := 0x1000, cqBase := 0x2000, mirror := 0x3000 }
/-- The image with event source 3 sent to function 128 as MSI-X. -/
def routed : Image := { image with evnt := [(3, { func := 128, vector := 0, toMsix := true, toMgmt := false, coal := 0 })] }
def routedUnit : State := { run with image := some routed }

theorem test_met_RingEnableAndDisable :
    (tabSorted (withRing Ring.reset run).host.rings = true ∧ barOpen run 0 = true ∧ ringOwner run 5 = some 0 ∧
      (getRing (withRing Ring.reset run) 5).en = false) ∧
    ([0, 0x1, 0x101, 0x1001, 0x1101, 0x8030101].all fun v => !reservedSet (ringMask 0) v) = true ∧
    (bit 0x101 0 = true ∧ bits 0x101 8 5 = 1 ∧ bits 0x1001 8 5 = 16 ∧ bits 0x1 8 5 = 0 ∧ bits 0x1101 8 5 = 17 ∧
      bit 0x101 27 = false) ∧
    (getRing (withRing { Ring.reset with busy := true } run) 5).busy = true ∧
    (bit 0x8030101 27 = true ∧ (route routedUnit (bits 0x8030101 16 11)).toMsix = true ∧
      (route routedUnit (bits 0x8030101 16 11)).func = 128 ∧ restoreEnded run = true ∧
      restoreEnded { run with cache := Cache.reset } = false) ∧
    ((getRing (withRing { openRing with owed := 1, fetchRes := [false] } run) 5).en = true ∧ openRing.cqErr = false) := by
  refine ⟨by decide, by decide +kernel, by decide, by decide, by decide, by decide⟩

/-- The unit with the doorbells and the scan given. -/
def rung (gs : List Nat) (again : List Nat) (sc : Option Scan) (s : State) : State :=
  { s with host := { s.host with doorbells := gs, rescan := again, scan := sc } }

theorem test_met_DoorbellsAndScans :
    (barOpen run 0 = true ∧ groupOwner run 0 = some 0 ∧ 0 ∉ run.host.doorbells ∧ run.host.scan = none) ∧
    (0 ∈ (rung [0] [] none run).host.doorbells ∧ 0 ∉ (rung [0] [] none run).host.rescan ∧
      0 ∈ (rung [0] [0] none run).host.rescan ∧
      (rung [] [] (some { group := 0, sampled := true }) run).host.scan.map (·.group) = some 0) ∧
    (tabSorted (rung [0] [] none (withRing { openRing with sqPi := 1 } run)).host.rings = true ∧
      intakeOn (rung [0] [] none (withRing { openRing with sqPi := 1 } run)) (64 * 0) = true ∧
      idxValid openRing.depth 1 openRing.fetched = true) ∧
    intakeOn (rung [] [] (some { group := 0, sampled := true }) (withRing openRing run)) (64 * 0) = true := by decide

theorem test_met_EntryFetches :
    (serving (withRing { openRing with fetchRes := [false], owed := 1 } run) = true ∧
      (getRing (withRing { openRing with fetchRes := [false], owed := 1 } run) 5).fetchRes = false :: []) ∧
    ({ openRing with evtEn := true, fetchRes := [true] }.evtEn = true ∧ openRing.eventAt ≠ some run.drone.count) ∧
    (ringOwner run 5 = some 0 ∧ canFetch (withRing { openRing with stall := true } run) 5 = true ∧
      { openRing with stall := true }.room = true ∧ openRing.fetched = openRing.sampled ∧
      { openRing with stall := true, sampled := 1 }.fetched ≠ { openRing with stall := true, sampled := 1 }.sampled) := by
  decide

/-- A decoded entry: opcode, volume, first block and blocks. -/
def entry (op vol lba n : Nat) : Entry where
  opcode := op
  flags := 0
  cmdId := 9
  volume := vol
  lba := lba
  blocks := n
  sgCount := 0
  dataPtr := 0x9000
  piPtr := 0
  param := []

/-- A command of function 0 on ring 5. -/
def cmd (e : Entry) (p : Phase) : Cmd where
  seq := 1
  ring := 5
  func := 0
  entry := e
  reserved := false
  sq := 0
  phase := p
  discard := false
  parts := 0
  sg := []
  lost := []
  abandoned := []
  hostErr := false
  guardErr := false
  noCapacity := false
  iseq := 0
  jseq := 0
  roots := []
  listed := 0
  lseq := 0
  resolved := []
  clean := false
  fams := []
  oldSize := 0
  record := []
  verdict := none

def withCmd (c : Cmd) (s : State) : State := { s with host := { s.host with cmds := [c], nextSeq := 2 } }
/-- A command that has finished and waits for its completion. -/
def finishedUnit : State :=
  let s := withCmd (cmd (entry 5 0 0 0) (.finished 0 0)) (withRing { openRing with owed := 1 } run)
  { s with host := { s.host with finish := [1] } }
/-- A completion that waits in the caravanserai since an earlier tick. -/
def cseraiUnit : State :=
  let s := withRing { openRing with owed := 1, held := 1, moveAt := some 0
                                    cserai := [{ cmdId := 9, status := 0, viaCserai := true, result := 0 }] } run
  { s with drone := { s.drone with count := 1 } }

theorem test_met_CompletionStage :
    (barOpen run 0 = true ∧ ringOwner run 5 = some 0 ∧ tabSorted run.host.rings = true ∧ reservedSet (ringMask 0x38) 0x1FFFF = false ∧
      (getRing run 5).moveAt = none) ∧
    (tabSorted cseraiUnit.host.rings = true ∧ cseraiUnit.host.finish = [] ∧
      (getRing (withRing { openRing with en := false, owed := 1 } run) 5).en = false) ∧
    (tabSorted finishedUnit.host.rings = true ∧ mayPost finishedUnit 0 = true ∧ finishedUnit.host.finish = [1] ∧
      finishedUnit.host.cmds = [cmd (entry 5 0 0 0) (.finished 0 0)] ∧ (getRing finishedUnit 5).cqErr = false ∧
      (getRing finishedUnit 5).cserai = [] ∧
      idxNext (getRing finishedUnit 5).depth (getRing finishedUnit 5).cqPi ≠ (getRing finishedUnit 5).cqPi) ∧
    (mayPost cseraiUnit 0 = true ∧ (getRing cseraiUnit 5).moveAt = some 0 ∧ 0 < cseraiUnit.drone.count ∧
      (getRing cseraiUnit 5).cqErr = false ∧ (getRing cseraiUnit 5).cserai.length = 1 ∧ (getRing cseraiUnit 5).room = true ∧
      idxNext (getRing cseraiUnit 5).depth (getRing cseraiUnit 5).cqPi ≠ (getRing cseraiUnit 5).cqPi) := by decide

/-- Function 128 with MSI-X enabled, vector 0 masked and a message held for it, and source 3 pending. -/
def heldUnit (f : Nat) : State := { routedUnit with
  host := { run.host with funcs := [(f, { Func.reset with msixEn := true, vecMask := [(0, true)], pba := [(0, true)] })] }
  events := { run.events with pendMsix := [(3, { count := 1, tick := 0 })] } }

theorem test_met_PendingMarksDiscarded :
    tabSorted (heldUnit 128).host.funcs = true ∧ barOpen (heldUnit 128) 128 = true ∧
      (heldUnit 128).events.pendMsix ≠ [] ∧ (route (heldUnit 128) 3).func = 128 := by decide

theorem test_met_FunctionLevelResetClears :
    barOpen run 0 = true ∧ isPf 0 = true ∧ isPf 5 = false ∧ barOpen run 5 = true ∧ ringOwner run 5 = some 0 ∧
      isUtility 224 = true ∧ chanPf 224 = 0 := by decide

theorem test_met_UnmaskSendsHeldMessages :
    (barOpen run 0 = true ∧ 0 < (ringEnt run 0).vectors ∧ tabGet false (getFunc run 0).pba 0 = false) ∧
    (7 < (ringEnt (heldUnit 0) 0).vectors ∧ tabGet false (getFunc (heldUnit 0) 0).pba 0 = true ∧
      (getFunc (heldUnit 0) 0).msixEn = true ∧ (getFunc (heldUnit 0) 0).msixMask = false) := by decide

theorem test_met_MaskLogAndAlerts :
    (tabSorted routedUnit.events.mask = true ∧ pfFull routedUnit 128 = true ∧ (63 : Nat) < 64 ∧
      (route routedUnit 3).toMsix = true ∧ portOf (route routedUnit 3).func = portOf 128) ∧
    (pfFull run 0 = true ∧ run.boot = .up ∧
      ({ run with mgmt := { run.mgmt with alertPin := false } } : State).mgmt.alertPin = false) ∧
    (({ run with events := { run.events with log := [(0, 5, 0)], written := 1 } } : State).events.log[0]?.isSome = true ∧
      bits (0 : Word) 0 32 = nextRecord { run with events := { run.events with log := [(0, 5, 0)], written := 1 } } - 1 + 0) := by
  decide

/-- Volume 1 of 1,024 blocks, one data strip of 4 blocks and one parity strip, of function 0. -/
def volume : Volume where
  size := 1024
  family := 0
  k := 1
  m := 1
  stripLog := 0
  piBytes := 0
  fdLevel := 1
  fdMin := 1
  state := .online
  owner := 0

/-- The family of that volume: mirrored strips. -/
def mirrorFamily : Family where
  id := 0
  kind := 5
  kMax := 1
  mMax := 1
  stripMask := 0x7F
  localGroups := 0
  matrix := [1]
  groupMap := []

/-- A drive slot in the pool. -/
def poolSlot : SlotRec where
  tagValid := true
  encl := 0
  drain := false
  state := .pool
  refused := false
  dataExt := 100
  used := []
  failWhy := 0
  failTick := 0
  served := true

/-- The unit with volume 1, its family, and two slots of the pool. -/
def volUnit : State := { run with
  image := some { image with families := [mirrorFamily] }
  host := { run.host with volumes := [(1, volume)] }
  ledger := { run.ledger with slots := [(3, poolSlot), (40, poolSlot)], pgt := [(0, {
    family := 0, k := 1, m := 1, stripLog := 0, state := .open_, encSpan := 1, cluSpan := 2, gen := 0, fill := 0
    slots := [3, 40], failed := 0 })] } }

/-- Parcel 0 of the volume has a place. -/
def placedEntry : LEntry := { LEntry.blank with placed := true, pg := 0, pslot := 0 }
def placedUnit : State :=
  { volUnit with ledger := { volUnit.ledger with entries := [(parcelKey 1 0, placedEntry)], pages := [(pageOf (parcelKey 1 0), { dirty := false, used := 0, seq := 0, since := 0, part := none })] } }

/-- A command of the volume's block 0, looked up. -/
def volCmd (op : Nat) (p : Phase) : Cmd := { cmd (entry op 1 0 1) p with resolved := [parcelKey 1 0] }

/-- An intent of a stripe in a phase. -/
def intent (p : IPhase) (m : Method) : Intent where
  root := 1
  jseq := 1
  prev := 0
  method := m
  phase := p
  wt := false
  degraded := false
  zgroup := false
  oldGen := 0
  newGen := 0
  stripMask := 0
  tick := 0
  blocks := []
  zeros := []
  survivors := []
  outside := false
  wtOnly := []
  eligible := false
  allMark := false
  lostVer := 0
  iseq := 0
  attempt := 0
  replay := false

def withIntent (i : Intent) (s : State) : State :=
  { s with cache := { s.cache with stripes := [(256 * parcelKey 1 0, { intents := [i] })] } }

/-- Block 0 of the volume is in the lost-block list. -/
def lostUnit : State := { volUnit with array := { run.array with lost := [{
  span := false, cause := 1, volume := 1, volLast := 1, first := 0, count := 1, last := 0, run := 1, stride := 1 }] } }

theorem test_met_ReadAndVerifyStart :
    (serving volUnit = true ∧ findCmd (withCmd (volCmd 1 .decoded) volUnit) 1 = some (volCmd 1 .decoded) ∧
      (volCmd 1 .decoded).phase = .decoded ∧ getVol volUnit 1 = some volume) ∧
    ((∃ c, findCmd (modCmd 1 (fun x => { x with sg := cmdBuffers (entry 1 1 0 1) [] }) (withCmd (volCmd 1 .decoded) volUnit)) 1 = some c ∧
      resizeBars (modCmd 1 (fun x => { x with sg := cmdBuffers (entry 1 1 0 1) [] }) (withCmd (volCmd 1 .decoded) volUnit)) c = false) ∧
      (lookupAll 1 (cmdParcels volume (entry 1 1 0 1))
        (modCmd 1 (fun x => { x with sg := cmdBuffers (entry 1 1 0 1) [] }) (withCmd (volCmd 1 .decoded) volUnit))).1 = true) ∧
    (resizeBars (withCmd (volCmd 7 .decoded) volUnit) (volCmd 7 .decoded) = false ∧
      resizeBars { volUnit with host := { volUnit.host with cmds := [
        { cmd (entry 0x42 1 511 0) .running with seq := 0, parts := 1, oldSize := 0 }, volCmd 7 .decoded] } } (volCmd 7 .decoded) = true) ∧
    (lookupAll 1 (cmdParcels volume (entry 1 1 0 1)) (withCmd (cmd (entry 1 1 0 1) .decoded) volUnit)).1 = false ∧
    (256 * parcelKey 1 0 ∈ cmdStripes volume (entry 1 1 0 1) ∧ 0 ∈ stripeShare volume (entry 1 1 0 1) (256 * parcelKey 1 0) ∧
        knownBlock lostUnit volume (256 * parcelKey 1 0) 0 = some none) ∧
    ((volCmd 7 .decoded).parts = 0 ∧
      (∃ key ∈ cmdStripes volume (entry 7 1 0 1), groupZero (getEntry placedUnit (key / 256)) key = false)) := by
  refine ⟨by decide, ⟨⟨_, rfl, by decide⟩, by decide⟩, by decide, by decide, by decide, by decide⟩

/-- An ACTIVE unit that HALT holds while its partner is not mirrored. -/
def haltedUnit (s : State) : State :=
  { s with
    pair := { s.pair with halt := true, claim := { s.pair.claim with unit := .active } }
    sampled := { s.sampled with claim := { s.pair.claim with unit := .active } } }

theorem test_met_ZeroesDeallocateFlush :
    ((volCmd 3 .decoded).clean = false ∧ (volCmd 4 .decoded).noCapacity = false ∧ inJob volUnit 1 = none ∧
      inJob (lookupAll 1 (cmdParcels volume (entry 3 1 0 1)) (withCmd (volCmd 3 .waiting) volUnit)).2 1 = none) ∧
    (lookupAll 1 (cmdParcels volume (entry 3 1 0 1)) (withCmd (cmd (entry 3 1 0 1) .waiting) volUnit)).1 = false ∧
    (lookupAll 1 (cmdParcels volume (entry 3 1 0 1)) (withCmd (volCmd 3 .waiting) volUnit)).1 = true ∧
    (∃ a b, admission (haltedUnit (withCmd (volCmd 3 .waiting) volUnit)) (volCmd 3 .waiting) volume = .later a b) ∧
    ((volCmd 3 .decoded).listed = 0 ∧ { volCmd 4 .decoded with noCapacity := true }.hostErr = false) ∧
    admission { withCmd (volCmd 3 .waiting) volUnit with cache := { volUnit.cache with wt := true } } (volCmd 3 .waiting) volume =
      .now ∧
    (serving volUnit = true ∧ volUnit.cache.wt = false ∧ (volCmd 5 .decoded).discard = false ∧
      keyVol (256 * parcelKey 1 0 / 256) = 1) := by
  refine ⟨by decide, by decide, by decide, ⟨_, _, rfl⟩, by decide, by decide, by decide⟩

/-- A VOL_CREATE entry of volume 2. -/
def createEntry : Entry := { entry 0x40 2 1023 0 with param := [0, 1, 1, 0, 0, 1, 1, 0] }

theorem test_met_VolumeCommands :
    (serving volUnit = true ∧ (cmd createEntry .decoded).parts = 0 ∧ (cmd createEntry .decoded).verdict = none ∧
      createEntry.lba < 2 ^ 48 ∧ effectHeld (withCmd (cmd createEntry .decoded) volUnit) (cmd createEntry .decoded) = false ∧
      volRefusal volUnit { cmd createEntry .decoded with fams := [mirrorFamily] } = none) ∧
    (∀ op ∈ [0x41, 0x42, 0x43], volRefusal volUnit (cmd (entry op 1 0 0) .decoded) = none) ∧
    (volRefusal volUnit (cmd (entry 0x43 9 0 0) .decoded) = some 0x11 ∧ volRefusal volUnit (cmd (entry 0x40 1 0 0) .decoded) = some 0x10) ∧
    (volume.size = 1024 ∧ earlierVolCmd (withCmd (cmd (entry 0x41 1 0 0) .decoded) volUnit) (cmd (entry 0x41 1 0 0) .decoded) = false ∧
      ledgerDurable volUnit 0 = true ∧ volUnit.pair.mirrored = false ∧ { cmd (entry 0x43 1 0 0) .decoded with parts := 1 }.parts ≠ 0) ∧
    earlierData { volUnit with host := { volUnit.host with cmds := [{ volCmd 2 .running with seq := 0 }] } }
      (cmd (entry 0x41 1 0 0) .decoded) 0 = true := by decide

theorem test_met_WriteStartAndHostErrors :
    ((volCmd 2 .decoded).clean = false ∧ inJob volUnit 1 = none ∧ getVol volUnit 1 = some volume ∧
      (volCmd 2 .decoded).noCapacity = false) ∧
    ({ volCmd 2 .decoded with noCapacity := true }.hostErr = false ∧ (volCmd 2 .decoded).guardErr = false ∧
      (volCmd 2 .decoded).listed = 0) ∧
    (findCmd (withCmd (volCmd 2 .running) volUnit) 1 = some (volCmd 2 .running) ∧
      (volCmd 2 .running).phase.result?.isSome = false ∧ (volCmd 2 .running).entry.opcode ∈ [1, 2, 0x43] ∧
      (volCmd 2 .running).clean = false ∧ (volCmd 2 .running).verdict = none ∧ (volCmd 2 .running).discard = false) := by decide

/-- The unit with channel 224 as given. -/
def withChan (c : Chan) (s : State) : State := { s with dma := { s.dma with chans := [(224, c)] } }

theorem test_met_DmaStartAndCommit :
    (tabSorted (withChan (Chan.reset 0) run).dma.chans = true ∧ chanOpen (withChan (Chan.reset 0) run) 0 224 = true ∧
      (getChan (withChan (Chan.reset 0) run) 224).state = .idle) ∧
    (getChan (withChan { Chan.reset 0 with pause := true } run) 224).pause = true ∧
    spaceOk run 224 0 0x1000 64 = true ∧ (getChan (withChan (Chan.reset 0) run) 224).pause = false ∧
    spaceOk run 224 2 0xFFFFFFFFFFFFFFC0 64 = false ∧
    (getChan (withChan { Chan.reset 0 with state := .run } run) 224).state ≠ .idle := by decide

/-- A descriptor at 0x1000 of two elements of 4 bytes, host to host, ending with HALF's event. -/
def desc : Desc where
  addr := 0x1000
  next := 0x2000
  src := 0x8000
  dst := 0x9000
  l0 := 2
  l1 := 1
  l2 := 1
  esize := 4
  srcSpace := 0
  dstSpace := 0
  crcSpace := 0
  barrier := false
  intHalf := true
  intFull := false
  crcEn := false
  crc64 := false
  crcChain := false
  srcS := [4, 0, 0]
  dstS := [4, 0, 0]
  crcAddr := 0

/-- That descriptor with some of its elements issued and moved. -/
def descRun (rd got wrote moved : Nat) : DescRun where
  seq := 5
  desc := desc
  readN := rd
  gotN := got
  wroteN := wrote
  movedN := moved
  buf := []
  crc := 0
  marks := []
  ends := []
  crcSent := false
  crcDone := false
  half := false
  ended := false

/-- A read of one element, and the write of the last element, outstanding. -/
def dmaRead : DmaRead := { first := 0, count := 2, space := 0, addr := 0x8000, bytes := 8, was := [] }
def dmaWrite (space : Nat) : DmaWrite where
  seq := 5
  store := false
  first := 1
  count := 1
  space := space
  addr := 0x40
  data := [1, 2, 3, 4]
  crc := 0
  stale := false

def pausedChan : Chan := { Chan.reset 0 with pause := true, state := .paused }

theorem test_met_DmaPausing :
    (chanOpen (withChan (Chan.reset 0) run) 0 224 = true ∧ (Chan.reset 0).halting = false ∧ (Chan.reset 0).fresh = false ∧
      (Chan.reset 0).state = .idle ∧ (Chan.reset 0).active = []) ∧
    (let c := { Chan.reset 0 with state := .run, reads := [dmaRead], active := [descRun 2 0 0 0] };
      c.pause = false ∧ c.state = .run ∧ c.reads ≠ [] ∧ (∀ r ∈ c.active, r.movedN < r.desc.count) ∧
        ∀ r ∈ c.active, r.wroteN < r.desc.count) ∧
    (busyUnit.drone.running = [leg .reed .foreground] ∧ (leg .reed .foreground).chan ≠ some 224) ∧
    (let c := { Chan.reset 0 with pause := true, state := .pausing, active := [descRun 1 1 1 1] };
      c.state = .pausing ∧ c.reads = [] ∧ c.writes = [] ∧ c.fetching = none ∧ c.toFetch = none ∧
        c.active.getLast? = some (descRun 1 1 1 1) ∧ (descRun 1 1 1 1).readN < (descRun 1 1 1 1).desc.count) ∧
    (chanOpen (withChan pausedChan run) 0 224 = true ∧ pausedChan.pause = true ∧ pausedChan.state = .paused ∧
      { pausedChan with toFetch := some 0x2000 }.active = [] ∧ pausedChan.fresh = false ∧ pausedChan.halting = false ∧
      spaceOk (withChan pausedChan run) 224 pausedChan.listSpace 0x2000 64 = true) ∧
    ({ pausedChan with active := [descRun 1 1 1 1] }.toFetch = none ∧ pausedChan.mode = false ∧
      (descRun 1 1 1 1).movedN < (descRun 1 1 1 1).desc.count ∧ (descRun 1 1 1 1).readN < (descRun 1 1 1 1).desc.count) ∧
    ({ pausedChan with state := .idle }.state = .idle ∧ tabSorted (withChan pausedChan run).dma.chans = true) := by decide

/-- A descriptor's bytes: one element, then all zero but a reserved bit of NEXT. -/
def goodDesc : List Byte := zeros 24 ++ leBytes 8 0x10010001 ++ zeros 32
def badDesc : List Byte := 1 :: zeros 63

theorem test_met_DmaDescriptorsAndReads :
    (let c := { Chan.reset 0 with state := .run, fetching := some 0x1000 };
      c.fetching = some 0x1000 ∧ c.halting = false ∧ c.fresh = false ∧ c.toFetch = none ∧ c.active = [] ∧ c.reads = [] ∧
        c.writes = [] ∧ c.mode = false ∧ c.state = .run ∧ groupWaits (withChan c run) 224 = false ∧ 16 ≤ slotBudget (withChan c run)) ∧
    descInvalid (takePad 64 badDesc) = true ∧
    (descInvalid (takePad 64 goodDesc) = false ∧ 0 < (parseDesc 0x1000 (takePad 64 goodDesc)).count) ∧
    (dmaRead.space = 0 ∧ desc.dstSpace = 0 ∧ (descRun 1 0 0 0).gotN = (descRun 1 0 0 0).wroteN ∧ (descRun 1 0 0 0).buf = [] ∧
      (descRun 1 0 0 0).ended = false ∧ (descRun 1 0 0 0).movedN < desc.count ∧ (descRun 1 0 0 0).readN < desc.count ∧
      0 < dmaRead.count ∧ (descRun 1 0 0 0).burst = dmaRead.count ∧ dmaRead.bytes = dmaRead.count * desc.esize) ∧
    (isUtility 0 = false ∧ (Chan.reset 0).mode = false ∧ { Chan.reset 0 with mode := true, paceSrc := 3 }.mode = true ∧
      (Chan.reset 0).state = .idle ∧ (Chan.reset 0).active = [] ∧ tabSorted run.dma.chans = true) := by decide

theorem test_met_DmaWriteResponses :
    ((getChan (withChan { Chan.reset 0 with writes := [dmaWrite 0] } run) 224).writes = dmaWrite 0 :: [] ∧
      (dmaWrite 0).space ≠ 2) ∧
    ((getChan (withChan { Chan.reset 0 with writes := [dmaWrite 2] } run) 224).writes = dmaWrite 2 :: [] ∧
      (dmaWrite 2).space = 2) ∧
    ((getChan (withChan { Chan.reset 0 with writes := [dmaWrite 0], active := [descRun 2 2 2 1] } run) 224).active =
        [descRun 2 2 2 1] ∧
      (descRun 2 2 2 1).seq = (dmaWrite 0).seq ∧ (dmaWrite 0).store = false ∧ (dmaWrite 0).stale = false ∧
      (descRun 2 2 2 1).half = false ∧ (descRun 2 2 2 1).ended = false ∧ desc.crcEn = false ∧ 0 < desc.count ∧
      (dmaWrite 0).first + (dmaWrite 0).count = desc.count ∧ (desc.intHalf = true ∨ desc.intFull = true)) := by decide

def haltedChan : Chan := { Chan.reset 0 with state := .halted, fault := true }

theorem test_met_DmaFaults :
    ((Chan.reset 0).halting = false ∧ { Chan.reset 0 with fetching := some 0x1000 }.fetching = some 0x1000 ∧
      (Chan.reset 0).writes = [] ∧ (Chan.reset 0).reads = [] ∧ (Chan.reset 0).active = []) ∧
    (let c := { Chan.reset 0 with state := .run, reads := [dmaRead], active := [descRun 2 0 0 0], faultEn := true };
      c.reads = dmaRead :: [] ∧ c.active = [descRun 2 0 0 0] ∧ c.writes = [] ∧
        (descRun 2 0 0 0).movedN < desc.count ∧ (descRun 2 0 0 0).gotN = (descRun 2 0 0 0).wroteN) ∧
    (let c := { Chan.reset 0 with state := .run, writes := [dmaWrite 0], active := [descRun 2 2 2 1], faultEn := true };
      c.writes = dmaWrite 0 :: [] ∧ (descRun 2 2 2 1).seq = (dmaWrite 0).seq ∧ (descRun 2 2 2 1).ended = false ∧
        c.reads = [] ∧ c.fetching = none ∧ (descRun 2 2 2 1).gotN = (descRun 2 2 2 1).wroteN ∧
        (descRun 2 2 2 1).movedN < desc.count) ∧
    (chanOpen (withChan haltedChan run) 0 224 = true ∧ haltedChan.state = .halted ∧ haltedChan.pause = false ∧
      haltedChan.halting = false ∧ haltedChan.fresh = false ∧ haltedChan.mode = false ∧ haltedChan.endToo = false ∧
      { haltedChan with pause := true }.pause = true ∧ { haltedChan with toFetch := some 0x2000 }.active = [] ∧
      spaceOk (withChan haltedChan run) 224 haltedChan.listSpace desc.next 64 = true) ∧
    ({ haltedChan with active := [descRun 1 1 1 1] }.faultKind ≠ 1 ∧ haltedChan.toFetch = none ∧ haltedChan.fetching = none ∧
      (descRun 1 1 1 1).ended = false ∧ (descRun 1 1 1 1).readN < desc.count ∧ (descRun 1 1 1 1).movedN < desc.count ∧
      desc.next ≠ 0) ∧
    (tabSorted (withChan haltedChan run).dma.chans = true ∧ { haltedChan with faultKind := 1 }.faultKind = 1 ∧
      { haltedChan with shSlot := some 0x3000 }.shSlot.isSome = true) := by decide

/-- A CHECK leg of 65 bytes, of two segments, running on pair 2; and its vote with a voter done on pair 4. -/
def reedLeg : Leg := { leg .reed .foreground with ins := [zeros 65], coeffs := [[1]] }
def reedUnit : State := { run with drone := { run.drone with running := [reedLeg] } }
def vote (n : Nat) : Vote where
  leg := { reedLeg with attempts := n }
  tick := 0
  slot := 0
  pair := 2
  saved := [(2, 0, [0], [1])]
  forced := none
  tried := 0
  asked := []
  voter := none
def voterLeg : Leg := { reedLeg with id := 8, pair := some 4, voteFor := some 3, done := true, outs := [[0]] }
def voteUnit (n : Nat) (voters : List Leg) : State :=
  { run with reeds := { run.reeds with votes := [vote n] }, drone := { run.drone with running := voters } }

theorem test_met_SegmentComparesAndVotes :
    (serving reedUnit = true ∧ pairLeg reedUnit 2 = some reedLeg ∧ reedLeg.segment + 1 < reedLeg.segments ∧
      reedUnit.sampled.trial = none ∧ reedLeg.voteFor = none ∧
      xorErr (reedLeg.segmentOut 0) (takePad 64 []) = xorErr (reedLeg.segmentOut 0) [] ∧
      xorErr (reedLeg.segmentOut 0) (takePad 64 [1]) ≠ xorErr (reedLeg.segmentOut 0) []) ∧
    ((voteUnit 0 [voterLeg]).reeds.votes.find? (fun v => v.leg.id == 3) = some (vote 0) ∧
      (voteUnit 0 [voterLeg]).drone.running.find? (fun l => l.voteFor == some 3) = some voterLeg ∧ voterLeg.done = true ∧
      (vote 0).saved = [((vote 0).pair, 0, [0], [1])] ∧ refSegment voterLeg 0 = [0] ∧ [1] ≠ refSegment voterLeg 0 ∧
      refSegment { voterLeg with outs := [[1]] } 0 ≠ [0] ∧ (vote 0).pair < run.reeds.stat.length) ∧
    ((voteUnit 2 []).drone.running.find? (fun l => l.voteFor == some 3) = none ∧ (vote 2).voter = none ∧
      (vote 2).leg.attempts < 3 ∧ 3 ≤ (vote 3).leg.attempts) := by decide

/-- A pair 17 whose last test is 10 s old; the test leg of pair 2 running. -/
def testUnit : State := { run with drone := { run.drone with
  count := 10000000, running := [{ reedLeg with op := .test }] } }

theorem test_met_KnownVectorTests :
    (serving testUnit = true ∧ testDue testUnit 17 = true) ∧
    (testUnit.drone.running.find? (fun l => l.op == .test && l.pair == some 2) = some { reedLeg with op := .test } ∧
      testUnit.sampled.trial = none ∧ 2 < testUnit.reeds.stat.length ∧
      within testUnit (pairStat testUnit 2).suspectA = false) := by decide

/-- Another unit than the fence holder. -/
def standbyUnit (s : State) : State :=
  { s with sampled := { s.sampled with claim := { s.sampled.claim with unit := .standbySynced } } }
/-- The unit with slot 3 of the volume's group draining. -/
def drainUnit : State := { placedUnit with ledger := { placedUnit.ledger with
  slots := [(3, { poolSlot with drain := true }), (40, poolSlot), (70, poolSlot), (100, poolSlot)]
  pgt := [(0, { (getPg volUnit 0) with state := .draining, fill := 1 })] } }

theorem test_met_SlotTagsAndDrains :
    (pfFull volUnit 0 = true ∧ fenceHolder volUnit = true ∧ fenceHolder (standbyUnit volUnit) = false ∧
      pfFull (standbyUnit volUnit) 0 = true) ∧
    (reservedSet (plcMask 0x1000) 0x101 = false ∧ reservedSet (plcMask 0x1000) 0 = false) ∧
    (slotInPg volUnit 3 = true ∧ (getSlot volUnit 3).tagValid = true ∧ bit 0 0 = false ∧
      bits 0x101 8 8 ≠ (getSlot volUnit 3).encl ∧ slotInPg volUnit 383 = false ∧ bit 1 0 = true) ∧
    ((getSlot volUnit 3).drain = false ∧ movesInto volUnit 3 = [] ∧ (getPg volUnit 0).slots.contains 3 = true ∧
      (getPg volUnit 0).state = .open_ ∧ 0 < (getPg drainUnit 0).fill ∧ (getSlot volUnit 3).used = []) ∧
    ((getSlot drainUnit 3).drain = true ∧ (getSlot drainUnit 3).tagValid = true ∧ (getPg drainUnit 0).state = .draining ∧
      0 < (getPg drainUnit 0).fill ∧ (getPg drainUnit 0).failed = 0 ∧
      ∀ x ∈ (getPg drainUnit 0).slots, x ≠ 3 → (getSlot drainUnit x).drain = false) := by decide

/-- Parcel 0 moving to group 1, every stripe copied; and its target failing. -/
def movingUnit (target : List Nat) : State := { placedUnit with ledger := { placedUnit.ledger with
  migs := [(parcelKey 1 0, { pg := 1, run := 0, reason := 0, next := 256, done := 256 })]
  pgt := volUnit.ledger.pgt ++ [(1, { (getPg volUnit 0) with slots := target })] } }
def releaseUnit : State := { placedUnit with ledger := { placedUnit.ledger with
  entries := [(parcelKey 1 0, { placedEntry with zeroMask := BitVec.allOnes 32 })], compact := [parcelKey 1 0] } }
/-- A run of slot 3 that waits to be free, in a draining slot. -/
def freeWait : FreeWait := { slot := 3, first := 2, len := 4, intents := [], tick := 0 }
def freeUnit : State := { placedUnit with ledger := { placedUnit.ledger with
  slots := [(3, { poolSlot with drain := true, used := [(2, 4)] })], freeWait := [freeWait] } }
def rebuild : Rebuild := { key := parcelKey 1 0, members := [1], short := false, stripe := 256, started := true, losses := [], lostVer := 0, iseq := 0 }
def relocated : LEntry := { placedEntry with
  reloc0 := some { member := 1, valid := false, pending := true, slot := 70, run := 5 } }
def rebuiltUnit : State := { placedUnit with
  array := { placedUnit.array with active := [rebuild] }
  ledger := { placedUnit.ledger with entries := [(parcelKey 1 0, relocated)] } }

theorem test_met_MovesAndReleases :
    (serving drainUnit = true ∧ fenceHolder drainUnit = true ∧ dumping drainUnit = false ∧ restoreEnded drainUnit = true ∧
      movingCount drainUnit < max 1 drainUnit.ledger.maxMoving) ∧
    (tabFind (movingUnit [70, 100]).ledger.migs (parcelKey 1 0) = some { pg := 1, run := 0, reason := 0, next := 256, done := 256 } ∧
      (getEntry (movingUnit [70, 100]) (parcelKey 1 0)).placed = true ∧ (1 : Nat) < 2 ^ 18) ∧
    moveFails (movingUnit [70, 100]) (parcelKey 1 0) = true ∧
    (releaseUnit.ledger.compact.contains (parcelKey 1 0) = true ∧ releasable releaseUnit (parcelKey 1 0) = true ∧
      tabFind releaseUnit.ledger.migs (parcelKey 1 0) = none) ∧
    (freeUnit.ledger.freeWait.find? (fun w => w.slot == 3 && w.first == 2) = some freeWait ∧
      runFreeable freeUnit freeWait = true ∧ (getSlot freeUnit 3).dataExt ≠ 0 ∧ (getSlot freeUnit 3).drain = true ∧
      (getSlot freeUnit 3).used ≠ [] ∧ cutRun (getSlot freeUnit 3).used 2 freeWait.len = []) ∧
    (rebuiltUnit.array.active.find? (fun r => r.key == parcelKey 1 0) = some rebuild ∧ rebuildOver rebuiltUnit rebuild = true ∧
      (getEntry rebuiltUnit (parcelKey 1 0)).placed = true ∧ (getEntry rebuiltUnit (parcelKey 1 0)).reloc0 = relocated.reloc0) := by
  decide

theorem test_met_MovesAndReleases_start :
    (moveQueue drainUnit).head? = some (0, parcelKey 1 0) ∧ (startMove 0 (parcelKey 1 0) drainUnit).1 = true := by decide +kernel

/-- The page of parcel 0 read from its one home copy, as it was written or all zeros. -/
def pageLoc : HomeLoc := { lba := 262912, nlb := 1, slots := [3] }
def readJob (bs : List Byte) : Job where
  purpose := .homeRead (parcelKey 1 0)
  order := 1
  left := 0
  cls := .journal
  zr := false
  red := 0
  reserve := 0
  want := []
  got := [(0, bs ++ zeros 16)]
  pages := []
  failed := []
  lost := []
  outs := []
  stage := 0
def homeUnit (bs : List Byte) : State := { placedUnit with
  jobs := [(7, readJob bs)]
  ledger := { placedUnit.ledger with dir := [(.page (parcelKey 1 0), pageLoc)] } }

theorem test_met_SnapshotsAndCheckpoints :
    (snapshotDue { run with drone := { run.drone with count := 65536 } } = true ∧ (65536 : Nat) < 2 ^ 64) ∧
    (checkpointDue { run with ledger := { run.ledger with logBytes := 268435456 } } = true ∧ checkpointDue run = false) ∧
    ({ run.ledger with ckptRun := some 5, ckptStage := 2 }.ckptRun = some 5 ∧ serving run = true ∧ fenceHolder run = true) ∧
    ((pageJob (homeUnit (zeros 4096)) (parcelKey 1 0)).isSome = true ∧
      homeAt (homeUnit (zeros 4096)) (.page (parcelKey 1 0)) = some pageLoc ∧ (readJob []).left = 0) ∧
    (run.ledger.aboveHigh = false ∧ tierPages run * 90 < 943719 * 100) ∧
    ({ run.ledger with aboveHigh := true }.aboveHigh = true ∧ (∀ p ∈ placedUnit.ledger.pages, p.2.dirty = false ∧ p.2.part = none)) ∧
    (pfSeen run 0 = true ∧ reservedSet (plcMask 0x40) 5 = false) := by decide

/-- A copy that reads as it was written is valid, and one of zeros is not. -/
theorem test_met_SnapshotsAndCheckpoints_copies :
    copyGood (.page (parcelKey 1 0)) pageLoc (readJob (pageBytes placedUnit (parcelKey 1 0) 0)) 0 = true ∧
      copyGood (.page (parcelKey 1 0)) pageLoc (readJob []) 0 = false := by
  refine ⟨?_, by decide⟩
  have v := pageBytes_valid placedUnit (parcelKey 1 0) 0 (by decide) (by decide)
  have l : (pageBytes placedUnit (parcelKey 1 0) 0).length = 4096 := by
    simp only [unitValid, Bool.and_eq_true, beq_iff_eq] at v
    exact v.1.1.1
  generalize pageBytes placedUnit (parcelKey 1 0) 0 = bs at v l
  have r : copyRead (readJob bs) 0 = bs := by
    have := takePad_append bs (zeros 16)
    rw [l] at this
    simp [copyRead, readJob, l, slice, this]
  simp [copyGood, r, l, v, pageLoc]

/-- A copy with a valid CRC has arrived. -/
theorem copy_arrived (bs : List Byte) (g : copyGood (.page (parcelKey 1 0)) pageLoc (readJob bs) 0 = true) :
    copyArrived (parcelKey 1 0) 0 (homeUnit bs) = true := by
  have p : pageJob (homeUnit bs) (parcelKey 1 0) = some (7, readJob bs) := rfl
  have h : homeAt (homeUnit bs) (.page (parcelKey 1 0)) = some pageLoc := rfl
  have l : (0 < pageLoc.slots.length) = True := by simp [pageLoc]
  rw [copyArrived, p, h]
  simp only [Option.any_some, g, l, decide_true, Bool.and_self]
theorem test_met_CommandsTakeEffect_copy :
    copyArrived (parcelKey 1 0) 0 (homeUnit (pageBytes placedUnit (parcelKey 1 0) 0)) = true :=
  copy_arrived _ test_met_SnapshotsAndCheckpoints_copies.1

/-- A tier that has just passed 90 %, filled by extent maps. -/
theorem test_met_SnapshotsAndCheckpoints_tier :
    tierPages run * 90 < tierUsed { run with ledger := { run.ledger with
      slots := [(3, { poolSlot with dataExt := 943719 * 32768 })] } } * 100 := by decide

/-- A fill of the volume's first line toward way 0 for command 1, and the line it leaves. -/
def fill : Fill where
  vol := 1
  g := 0
  way := some 0
  side := false
  port := 0
  stream := false
  waiters := [(.cmd 1, 0)]
  written := []
  dropped := []
def fillUnit : State :=
  { withCmd (cmd (entry 1 1 0 1) .waiting) placedUnit with smc := { placedUnit.smc with ready := true, fills := [fill] } }
def line : SmcLine := { vol := 1, g := 0, subs := some placedEntry :: List.replicate 7 none, age := 0, lock := true }
def parked : Parked := { vol := 1, parcel := 0, port := 0, who := .cmd 1 }
def lineUnit : State := { placedUnit with
  smc := { placedUnit.smc with ready := true, lines := [(16 * smcSet 1 0, line)], parked := [parked] } }
def evict (sent : Bool) : Evict := { line := line, way := 0, sent := sent, accepted := false, reinstated := false }
def evictUnit (here : Bool) : State :=
  let s := if here then placedUnit else volUnit
  { s with smc := { s.smc with evict := [evict true, evict false] } }

theorem test_met_SmcFillsAndBuffers :
    (fillUnit.smc.run = none ∧ fillUnit.smc.queue = [] ∧ fillUnit.smc.fills.find? (fun f => f.vol == 1 && f.g == 0) = some fill ∧
      (Requester.cmd 1, 0) ∈ fill.waiters ∧ (∃ c ∈ fillUnit.host.cmds, c.seq = 1) ∧ fill.side = false ∧
      fill.way = some 0 ∧ tabFind fillUnit.smc.lines 0 = none ∧
      { line with subs := fillSubs fillUnit fill (List.replicate 8 none), lock := false }.empty = false) ∧
    (lineUnit.smc.run = none ∧ lineUnit.smc.ready = true ∧ portHeld lineUnit.smc parked.port = false ∧
      lineUnit.smc.parked.find? (fun x => x.vol == 1 && x.parcel == 0) = some parked ∧
      pageHere lineUnit (parcelKey 1 0) = true ∧ findLine lineUnit.smc 1 0 = some (16 * smcSet 1 0, line) ∧
      line.has 0 = true) ∧
    ((evictUnit true).smc.evict = [evict true] ++ evict false :: [] ∧ (∀ x ∈ [evict true], x.sent = true ∨ x.reinstated = true) ∧
      (evict false).sent = false ∧ (evict false).reinstated = false ∧ (evictUnit true).smc.queue = [] ∧
      (evictUnit true).smc.evict.find? (·.sent) = some (evict true)) ∧
    ((offeredKeys (evict true)).all (pageHere (evictUnit true)) = true ∧
      (offeredKeys (evict true)).all (pageHere (evictUnit false)) = false ∧ (evictUnit false).ledger.aboveHigh = false) ∧
    run.smc.merge = [] ∧ { run.smc with merge := [(parcelKey 1 0, placedEntry, 0)] }.merge = (parcelKey 1 0, placedEntry, 0) :: [] := by
  decide

/-- A preload of PF 128, and the register writes of a preload, a preload with lock and an unlock of one parcel. -/
def preload (n : Nat) : Preload := { pf := 128, op := 0, vol := 1, first := 0, count := n }

theorem test_met_SmcPreloads :
    (pfFull volUnit 0 = true ∧ ([0x101, 0x103, 0x105].all fun v => !reservedSet (smcMask 0x18) v) = true ∧ bit 0x101 0 = true ∧ bits 0x101 1 2 = 0 ∧ bits 0x101 8 24 ≠ 0 ∧ bits 0x103 1 2 = 1 ∧
      bits 0x105 1 2 = 2 ∧ volUnit.smc.run = none ∧ volUnit.smc.heldOp = none) ∧
    (preloadRefused volUnit 0 (smcPf volUnit.smc 0).baseVol = true ∧
      (let s := { volUnit with smc := { volUnit.smc with pf0 := { SmcPf.reset with baseVol := 1 } } };
        preloadRefused s 0 (smcPf s.smc 0).baseVol = false)) ∧
    ({ volUnit.smc with run := some (preload 1) }.run = some (preload 1) ∧ (preload 1).pf ≠ 0) ∧
    ({ volUnit.smc with heldOp := some (preload 1) }.heldOp = some (preload 1) ∧
      preloadRefused volUnit (preload 1).pf (preload 1).vol = true ∧ preloadRefused volUnit 0 1 = false) ∧
    ((preload 0).count = 0 ∧ (16 * smcSet 1 0, line) ∈ lineUnit.smc.lines ∧
      findLine lineUnit.smc line.vol line.g = some (16 * smcSet 1 0, line) ∧ line.lock = true ∧ line.empty = false ∧
      portOf volume.owner = portOf 0 ∧
      ∀ q ∈ lineUnit.smc.lines, q.1 = 16 * smcSet 1 0 ∨ (q.2.vol = line.vol ∧ q.2.g = line.g) → q = (16 * smcSet 1 0, line)) := by
  decide

/-- The stripe of the intents; a write job of its oldest intent, with nothing left; and a journal batch. -/
def stripe0 : Nat := 256 * parcelKey 1 0
def jobOf (p : Purpose) : Job where
  purpose := p
  order := 1
  left := 0
  cls := .foreground
  zr := false
  red := 0
  reserve := 0
  want := []
  got := []
  pages := []
  failed := []
  lost := []
  outs := []
  stage := 0
def withJob (j : Job) (s : State) : State := { s with jobs := [(1, j)] }
/-- An OPEN intent of block 0 that may be destaged. -/
def readyIntent : Intent :=
  { intent .open_ .open_ with blocks := [(0, { data := [], pi := [], accepted := 0 })], eligible := true }
def late (s : State) : State := { s with drone := { s.drone with count := 2000 } }
/-- The page is in the tier, and its parcel has no place. -/
def unplacedUnit : State := { volUnit with ledger := { volUnit.ledger with pages := placedUnit.ledger.pages } }

theorem test_met_DestageLifeAndJournal :
    (serving (late (withIntent readyIntent volUnit)) = true ∧
      (getDesc (late (withIntent readyIntent volUnit)) stripe0).intents.getLast? = some readyIntent ∧
      readyIntent.phase = .open_ ∧ coalesced (late (withIntent readyIntent volUnit)) readyIntent = true) ∧
    (destages (withIntent readyIntent unplacedUnit) = true ∧ plannable (withIntent readyIntent unplacedUnit) stripe0 = some readyIntent ∧
      nextToPlan (withIntent readyIntent unplacedUnit) stripe0 readyIntent = true ∧ stripeVol unplacedUnit stripe0 = some volume ∧
      (smcAsk (stripe0 / 256) 1 .foreground (withIntent readyIntent unplacedUnit)).1 = true ∧
      (getEntry unplacedUnit (stripe0 / 256)).placed = false) ∧
    (plannable (withIntent readyIntent placedUnit) stripe0 = some readyIntent ∧
      nextToPlan (withIntent readyIntent placedUnit) stripe0 readyIntent = true ∧
      (smcAsk (stripe0 / 256) 1 .foreground (withIntent readyIntent placedUnit)).1 = true ∧
      (getEntry placedUnit (stripe0 / 256)).placed = true ∧ readyIntent.replay = false ∧
      erasedOf placedUnit volume (getEntry placedUnit (stripe0 / 256)) = []) ∧
    (dumping placedUnit = false ∧ (getDesc (withIntent (intent .writing .full) placedUnit) stripe0).intents =
        intent .writing .full :: [] ∧
      writeJob (withJob (jobOf (.destageWrite stripe0 1)) placedUnit) stripe0 1 = some (1, jobOf (.destageWrite stripe0 1)) ∧
      { intent .writing .full with zgroup := true }.zgroup = true ∧ (intent .zeroing .full).phase = .zeroing ∧
      listedSafely placedUnit (intent .writing .full) = true ∧
      maskPending placedUnit (stripe0 / 256) = false) ∧
    batchJob (withJob (jobOf .journal) run) = some (1, jobOf .journal) := by
  refine ⟨by decide, by decide, by decide, by decide, by decide⟩

/-- The unit with its vault as given. -/
def withVault (f : Vault → Vault) (s : State) : State := { s with cache := { s.cache with vault := f s.cache.vault } }

theorem test_met_PowerFailureAndDump :
    (run.boot ≠ .reset ∧ run.cache.vault.failNow = false ∧ restoreEnded (withVault (fun v => { v with restore := .pages }) run) = false ∧
      ({ run with trials := { run.trials with arm := some (parseTrial 0x10001) } } : State).trials.arm.isSome = true) ∧
    (dumpDue (withVault (fun v => { v with failNow := true }) run) = true ∧
      restoreEnded (withVault (fun v => { v with failNow := true }) run) = true ∧
      fenceHolder (withVault (fun v => { v with failNow := true }) run) = true ∧
      fenceHolder (standbyUnit (withVault (fun v => { v with failNow := true }) run)) = false) ∧
    (dumpDue (withVault (fun v => { v with failNow := true, restore := .pages }) run) = true ∧
      dumpDue { withVault (fun v => { v with restore := .pages }) run with sampled := { run.sampled with stop := true } } = true) ∧
    (serving run = true ∧ vaultIdle (withJob (jobOf .vault) run) = true ∧
      (withVault (fun v => { v with dump := .safeHeaders }) run).cache.vault.dump = .safeHeaders) := by decide

/-- A drive at a bring-up step, in slot 3. -/
def info : DriveInfo where
  serial := []
  wz := true
  resvOk := true
  vwc := false
  piFmt := 0
  piFirst := false
  mdts := 0
  nsze := 100000
  dsm := true
  queues := 4
  depth := 64
  mqes := 63
  label_ := none
def drive (st : BringUp) (slot : Option Nat) : Drive where
  step := st
  info := info
  slot := slot
  linkUp := true
  downAt := 0
  ccEn := true
  master := true
  lastQ := 0
  resv := 0
def withDrive (d : Drive) (s : State) : State := { s with drives := { s.drives with
  clusters := modAt s.drives.clusters 0 fun c => { c with en := true, perst := [true, true, true, true] }
  drives := [(5, d)] } }
/-- What a restore finds when it finds nothing, and when it finds a root. -/
def root : RootFind := { seq := 1, entries := [], pgt := [], slots := [], stats := [], migs := [], volumes := [], dir := [], dirTop := 0 }
def find (rs : List (List RootFind)) : RestoreFind where
  roots := rs
  log := []
  lost := []
  vaults := []
  claim := 0
def restoring (p : RestorePhase) (s : State) : State :=
  { withVault (fun v => { v with restore := p }) s with clock := 60000000000 }

theorem test_met_RestoreSteps :
    (let s := restoring .waiting (withDrive (drive .ready (some 3)) run);
      serving s = true ∧ s.loader.state = .running ∧ s.cache.vault.restore = .waiting ∧ s.cache.vault.failNow = false ∧
        drivesUp s = true ∧ s.pair.take.isNone = true ∧ decides s = true ∧ newestRoot (find []) = none ∧ newestRoot (find [[root], [root]]) ≠ none) ∧
    (let s := restoring .ledger volUnit;
      serving s = true ∧ s.cache.vault.paused = false ∧ s.cache.vault.restoreAt + 60000000000 ≤ s.clock ∧
        (slotsWaiting s).contains 3 = true ∧ (getSlot s 3).state ≠ .absent ∧ (getSlot s 3).state ≠ .failed) ∧
    (let s := restoring .pages run; serving s = true ∧ s.cache.vault.restore = .pages ∧ s.cache.vault.paused = false) ∧
    (let s := restoring .replay (withIntent (intent .writing .full) placedUnit);
      serving s = true ∧ s.cache.vault.restore = .replay ∧ s.cache.vault.failNow = false ∧
        ∃ p ∈ s.cache.stripes, ∃ i ∈ p.2.intents, i.method ≠ .open_ ∧ i.phase ≠ .retiring) ∧
    (let s := withVault (fun v => { v with failNow := true }) (restoring .pages run);
      s.boot ≠ .reset ∧ s.cache.vault.failNow = true ∧ restoreEnded s = false ∧ s.halted = false ∧ s.health.thermal = false) ∧
    (let s := withVault (fun v => { v with liveEpochs := [(1, 0)] }) run;
      serving s = true ∧ decides s = true ∧ dumping s = false ∧ epochOver s = true) := by decide

/-- A posted drive command of slot 3 whose time is over. -/
def sub : Sub where
  cid := 7
  job := 1
  order := 1
  tag := 0
  slot := 3
  op := .read
  lba := 0
  nlb := 1
  fua := false
  data := []
  charge := 0
  buf := 0
  pi := 0
  urg := false
  cls := .foreground
  zr := false
  queue := 0
  posted := 0
  deadline := 0
def subUnit : State := { volUnit with drone := { volUnit.drone with inflight := [sub] } }
def returned (s : State) : State :=
  { s with drives := { s.drives with slots := [(3, { SlotStat.blank with returned := true })] } }

theorem test_met_FailureCauses :
    (serving subUnit = true ∧ subUnit.drone.inflight.find? (fun d => d.cid == 7) = some sub ∧ sub.deadline ≤ subUnit.drone.count ∧
      fenceHolder subUnit = true ∧ fenceHolder (standbyUnit subUnit) = false ∧ serving (standbyUnit subUnit) = true) ∧
    (slotDrive (withDrive (drive .ready (some 3)) volUnit) 3 = some (5, drive .ready (some 3)) ∧
      (drive .ready (some 3)).step = .ready ∧ (0x104 : Nat) % 256 ≠ 0) ∧
    (pfFull volUnit 0 = true ∧ (383 : Nat) < 384 ∧ (getSlot volUnit 383).state = .absent ∧ (getSlot volUnit 3).state = .pool) ∧
    ((getStat volUnit 3).returned = false ∧ (getStat (returned volUnit) 3).returned = true ∧
      slotDrive (returned volUnit) 3 = none ∧
      slotDrive (returned (withDrive (drive .ready (some 3)) volUnit)) 3 = some (5, drive .ready (some 3)) ∧
      (getStat (returned (withDrive (drive .ready (some 3)) volUnit)) 3).returned = true ∧
      (getSlot volUnit 3).tagValid = true) := by decide

/-- Slot 40 has failed: the parcel's parity strip is to be rebuilt; with both failed it is re-placed. -/
def degraded (failed : BitVec 32) : State := { placedUnit with ledger := { placedUnit.ledger with
  slots := [(3, poolSlot), (40, { poolSlot with state := .failed, failWhy := 1 }), (70, poolSlot)]
  pgt := [(0, { (getPg volUnit 0) with state := .degraded, failed := failed })] } }
/-- A relocated parcel whose two records lie elsewhere: no place for a third. -/
def fullRecords : State :=
  let s := degraded 2
  { s with ledger := { s.ledger with entries := [(parcelKey 1 0, { placedEntry with
      reloc0 := some { member := 5, valid := true, pending := false, slot := 70, run := 9 }
      reloc1 := some { member := 6, valid := true, pending := false, slot := 70, run := 10 } })] } }
def rebuilding : State :=
  let s := withJob (jobOf (.rebuildWrite stripe0)) (degraded 2)
  { s with array := { s.array with active := [{ rebuild with stripe := 0 }] } }
def scrub (ps : List Nat) : Scrub where
  parcels := ps
  stripe := 0
  again := []
  homes := []
  second := false
  total := 1
  checked := 0
  began := 0
  behind := false
  nopace := false
def withScrub (x : Scrub) (s : State) : State := { s with array := { s.array with scrub := some x } }

theorem test_met_RebuildAndScrub :
    (let s := degraded 2;
      serving s = true ∧ fenceHolder s = true ∧ dumping s = false ∧ restoreEnded s = true ∧
        s.array.active.length < s.array.parallel ∧ nextParcel s = some (parcelKey 1 0) ∧ (smcAsk (parcelKey 1 0) 1 (.background .rebuild) s).1 = true ∧
        getVol s (keyVol (parcelKey 1 0)) = some volume ∧
        recordsFit (getEntry s (parcelKey 1 0)) (erasedOf s volume (getEntry s (parcelKey 1 0))) = true) ∧
    (nextParcel fullRecords = some (parcelKey 1 0) ∧
      recordsFit (getEntry fullRecords (parcelKey 1 0)) (erasedOf fullRecords volume (getEntry fullRecords (parcelKey 1 0))) = false) ∧
    (targetsDone rebuilding (parcelKey 1 0) = some 1 ∧
      (rebuilding.array.active.find? fun r => r.key == parcelKey 1 0) = some { rebuild with stripe := 0 }) ∧
    (let s := withScrub (scrub [parcelKey 1 0]) placedUnit;
      serving s = true ∧ scrubBusy s = false ∧ s.array.scrub = some (scrub [parcelKey 1 0]) ∧ (scrub [parcelKey 1 0]).total ≠ 0 ∧
        scrubPace s (scrub [parcelKey 1 0]) = true ∧ scrubSkip s (stripeKey (parcelKey 1 0) 0) = 0 ∧
        (smcAsk (parcelKey 1 0) 3 (.background .scrub) s).1 = true ∧
        scrubPace s (scrub []) = true ∧ (scrub []).again = []) ∧
    (let s := withJob (jobOf (.scrubCheck (stripeKey (parcelKey 1 0) 0))) placedUnit;
      s.jobs.find? (fun p => p.2.left == 0 && p.2.purpose == .scrubCheck (stripeKey (parcelKey 1 0) 0)) =
          some (1, jobOf (.scrubCheck (stripeKey (parcelKey 1 0) 0))) ∧
        getJob s 1 = some (jobOf (.scrubCheck (stripeKey (parcelKey 1 0) 0))) ∧ scrubDoubt (jobOf .journal) = [] ∧
        scrubDoubt { jobOf .journal with lost := [0] } ≠ [] ∧ (stripeVol s (stripeKey (parcelKey 1 0) 0)).isSome = true) ∧
    (let s := { withScrub (scrub []) placedUnit with clock := 604800000000000 };
      (scrub []).behind = false ∧ scrubPeriod s ≤ s.clock - (scrub []).began) ∧
    (let x := { scrub [] with homes := [.page (parcelKey 1 0)] };
      x.homes = .page (parcelKey 1 0) :: [] ∧ homeAt (homeUnit []) (.page (parcelKey 1 0)) = some pageLoc) ∧
    (pfSeen placedUnit 0 = true ∧ reservedSet (plcMask 0x4028) 0 = false ∧ lostUnit.array.lost[bits 0 0 12]?.isSome = true ∧ run.array.lost.length ≤ bits 0 0 12) := by
  decide +kernel

theorem test_met_ClustersAndLinks :
    (pfFull run 0 = true ∧ (11 : Nat) < 12 ∧ run.drives.clusters.length = 12 ∧ bit 3 0 = true ∧ bit 2 0 = false ∧
      reservedSet (drvMask 0) 3 = false ∧ reservedSet (drvMask 0) 2 = false) ∧
    (let s := withDrive (drive .ready (some 3)) volUnit;
      serving s = true ∧ (getClu s 0).en = true ∧ 0 < rootPorts (getClu s 0).bifur ∧ nth false (getClu s 0).perst 0 = true ∧
        getDrive s (32 * 0 + 8 * 0 + 7) = none ∧ getDrive s (32 * 0 + 8 * 0 + 5) = some (drive .ready (some 3)) ∧
        (drive .ready (some 3)).linkUp = true ∧ linkGone s (drive .ready (some 3)) = false) ∧
    (let s := { withDrive { drive .ready (some 3) with linkUp := false } volUnit with clock := 100000001 };
      getDrive s 5 = some { drive .ready (some 3) with linkUp := false } ∧
        100000000 < s.clock - { drive .ready (some 3) with linkUp := false }.downAt) := by decide

theorem test_met_DriveBringUp :
    (∀ st ∈ [BringUp.waitRdy, .hostId, .cqs, .smart, .identCtrl, .sqs, .ready],
      serving (withDrive (drive st (some 3)) volUnit) = true ∧
        getDrive (withDrive (drive st (some 3)) volUnit) 5 = some (drive st (some 3)) ∧
        fenceHolder (withDrive (drive st (some 3)) volUnit) = true) ∧
    (slotDrive (withDrive (drive .ready (some 3)) volUnit) 3).isSome = true ∧
    (subUnit.drone.inflight.find? (fun d => d.cid == 7) = some sub ∧ (∀ a ∈ subUnit.drives.arrived, a.1 ≠ 7) ∧
      subUnit.sampled.trial = none) ∧
    (pfFull volUnit 0 = true ∧ (383 : Nat) < 384 ∧ bits 0x401 10 2 = 1 ∧ bit 0x201 9 = true ∧ bits 0x201 0 9 < 384 ∧
      bits 0x201 0 9 ≠ 5 ∧ ([0x401, 0x201, 0x601].all fun v => !reservedSet (drvMask 0x1000) v) = true ∧ fenceHolder (standbyUnit volUnit) = false ∧ getDrive volUnit 5 = none ∧
      (drive .unassigned none).step = .unassigned ∧ (drive .foreign none).step = .foreign ∧ bit 0x601 9 = true ∧
      bits 0x601 10 2 = 1 ∧ slotDrive (withDrive (drive .unassigned none) volUnit) (bits 0x201 0 9) = none) := by decide +kernel

/-- The HEM of the image, sampled, at 48 V, with the energy bank as manufactured. -/
def hemOn : Hem := { Hem.reset with sampled := true, traw := 29815, vraw := 49152, bank := 116, counted := 2784 }
def hemUnit (h : Hem) : State := { run with hem := h }
def oldRest : RestPoint := { volt := 24, held := 0, soc := 0, count := 0, tick := 0 }
def liImage : Image := { image with hemd := { image.hemd with li := true } }

theorem test_met_HemSamplesAndAnchors :
    (mgmtUp run = true ∧ run.image = some image ∧ image.hemd.li = false ∧ liImage.hemd.li = true) ∧
    ((settleHem (hemUnit hemOn)).hem.sampled = true ∧ (hemUnit hemOn).clock - hemOn.sampleAt ≤ 100000000) ∧
    (senseBad 0 { hemOn with railRun := 10 } = true ∧ hemOn.fault = false ∧ calRunning { hemOn with cal := 3 } = true) ∧
    100000000 < 100000001 - hemOn.sampleAt ∧
    (fullDue image.hemd { hemOn with taperAt := some 0, seq := 240000 } = true ∧ 10 ≤ { hemOn with emptyRun := 10 }.emptyRun ∧
      reanchorDue { hemOn with disagree := true, seq := 60000 } = true ∧ staleDue 2592001000000000 hemOn = true) ∧
    (restDue { hemOn with restSecs := 1800, open_ := some oldRest } = true ∧ hemOn.open_ = none ∧
      { hemOn with cal := 3 }.cal = 3 ∧ { hemOn with ship := 2 }.ship = 2) ∧
    cycleCode image.hemd hemOn oldRest (restPoint 0 image.hemd hemOn) = 0 ∧
    cycleCode image.hemd { hemOn with bad := 3 } oldRest (restPoint 0 image.hemd hemOn) ≠ 0 := by decide +kernel

def calReady : Hem := { hemOn with cal := 1, calFrom := some oldRest, calCapAt := some 0, stamp := 1 }

theorem test_met_CalibrationAndShip :
    (pfSeen (hemUnit hemOn) 0 = true ∧ inShip hemOn = false ∧ hemOn.fault = false ∧ senseBad 0 hemOn = false ∧
      { hemOn with chg := true }.chg = true ∧ calRunning hemOn = false) ∧
    (inShip { hemOn with ship := 1 } = true ∧ { hemOn with fault := true }.fault = true ∧ hemOn.chg = false ∧
      calRunning { hemOn with cal := 1 } = true) ∧
    (hemOn.ship = 0 ∧ { hemOn with ship := 1 }.ship = 1 ∧ { hemOn with ship := 2 }.ship ≠ 1) ∧
    (dischargeReady calReady = true ∧ dischargeReady hemOn = false ∧
      dischargeOver image.hemd { calReady with cal := 2, calFrom := some { oldRest with count := 9000 } } = true) ∧
    ({ hemOn with ship := 1, cleanSeen := true }.cleanSeen = true ∧ { hemOn with ship := 1 }.cleanSeen = false) ∧
    ({ hemOn with ship := 2, shipFell := true }.chg ≠ true ∧ { hemOn with chg := true, ship := 2 }.chg ≠ false) := by
  decide +kernel

/-- The link present, in L0, with two flits kept. -/
def linkL : Link := { Link.reset with prsntN := false, l0 := true, txKeep := [4, 5] }
def linkUnit (l : Link) (s : State) : State := { s with pair := { s.pair with link := l }, clock := 1000000000 }

/-- The CRC bytes of a flit of a header and zeros, off by d. -/
def flitCrc (hdr : Nat) (d : Word) : List Byte := leBytes 8 (crc64 (leBytes 2 hdr ++ zeros 240) + d).toNat
theorem flit_good (hdr : Nat) (d : Word) : flitGood (leBytes 2 hdr) (zeros 240) (flitCrc hdr d) = decide (d = 0) := by
  rw [flitGood, flitCrc]
  generalize crc64 (leBytes 2 hdr ++ zeros 240) = c
  have b := field_append [] [] 8 (c + d).toNat (c + d).isLt
  simp only [List.nil_append, List.append_nil, List.length_nil] at b
  rw [fieldW, b, BitVec.ofNat_toNat, BitVec.setWidth_eq, Bool.eq_iff_iff, beq_iff_eq, decide_eq_true_iff]
  constructor <;> intro h <;> bv_omega

theorem test_met_EpongLink :
    (linkOn (linkUnit linkL run) = true ∧ linkL.l0 = true ∧ { linkL with l0 := false }.l0 = false ∧ linkL.rxSeq = 0) ∧
    (flitGood (leBytes 2 1024) (zeros 240) (flitCrc 1024 0) = true ∧ flitGood (leBytes 2 1026) (zeros 240) (flitCrc 1026 0) = true ∧
      flitGood (leBytes 2 0) (zeros 240) (flitCrc 0 0) = true ∧ flitGood (leBytes 2 0) (zeros 240) (flitCrc 0 1) = false ∧
      flitKind (leBytes 2 1024) = 1 ∧ flitSeq (leBytes 2 1024) = 0 ∧ flitSeq (leBytes 2 1026) = 2 ∧ flitKind (leBytes 2 0) ≠ 1) ∧
    (linkL.txKeep = [4] ++ 5 :: [] ∧ 5 ∉ [4] ∧ 6 ∉ linkL.txKeep ∧ linkL.training = false ∧
      { linkL with replayOf := 5, replayN := 7 }.replayOf = 5 ∧ linkL.replayOf ≠ 5) ∧
    (mgmtUp (linkUnit linkL run) = true ∧ { linkL with training := true }.l0At + 2000000 ≤ (linkUnit linkL run).clock ∧
      linkLive (linkUnit linkL run) = true ∧ linkL.lastFlit + 100000 ≤ (linkUnit linkL run).clock ∧
      linkL.lossDecl = false ∧ { linkL with lossDecl := true }.lossDecl = true) ∧
    (linkL.up = false ∧ linkL.l0At + 1000000000 ≤ (linkUnit linkL run).clock ∧ run.pair.claim.unit ≠ .isolated ∧
      (linkUnit linkL run).clock < { linkL with l0At := 1 }.l0At + 1000000000) := by
  simp only [flit_good]
  decide +kernel

/-- A unit of a pair, the link up, in a role and a join phase. -/
def pairImage : Image := { image with pair := { image.pair with pairEn := true, postCount := 3, postSlot := [1, 40, 80], pairId := 9 } }
def pairUnit (u : UnitState) (phase : Nat) (mirrored : Bool) : State := { volUnit with
  image := some { pairImage with families := [mirrorFamily] }
  dieId := 5
  sampled := { run.sampled with claim := { claim := 0, unit := u, seq := 0 } }
  pair := { run.pair with
    claim := { claim := 0, unit := u, seq := 0 }, phase := phase, mirrored := mirrored
    link := { linkL with up := true } } }
def jrec : IntentRec where
  jseq := 3
  method := .open_
  wt := false
  degraded := false
  zgroup := false
  stripe := stripe0
  oldGen := 0
  newGen := 0
  stripMask := 0
  prev := 0
  tick := 0
def lrec (n : Nat) : LRec := { seq := n, type := .release, volume := 1, key := 0, payload := [] }
def lostEntry : Lost :=
  { span := false, cause := 1, volume := 1, volLast := 1, first := 0, count := 1, last := 0, run := 1, stride := 1 }

theorem test_met_StreamFrames :
    (hears (pairUnit .unsynced 2 false) = true ∧ buffers (pairUnit .unsynced 2 false) = true ∧
      buffers (pairUnit .unsynced 3 false) = true ∧ buffers (pairUnit .standbyJoining 0 false) = false ∧
      applies (pairUnit .standbyJoining 0 false) = false ∧ (pairUnit .standbyJoining 0 false).pair.claim.unit ≠ .active) ∧
    (let s := pairUnit .active 5 true;
      hears s = true ∧ s.pair.claim.unit = .active ∧ { s.pair with switch := 3 }.switch = 3 ∧ s.loader.live = none) ∧
    (let s := withIntent (intent .open_ .open_) (pairUnit .standbySynced 0 false);
      hears s = true ∧ applies s = true ∧ applies (pairUnit .unsynced 4 false) = true ∧ s.loader.live = none ∧
        { s.pair with iseq := 7 }.iseq ≠ 0 ∧ (9 : Nat) ≠ { s.pair with iseq := 7 }.iseq + 1 ∧ s.pair.iseq = 0 ∧
        s.array.lost.length < 4096 ∧ (s.pair.ownRecs.find? fun o => o.seq == (lrec 1).seq) = none ∧ (lrec 1).type ≠ .slot ∧
        (lrec 0).seq ≤ s.ledger.seq ∧ jrec.prev = 0 ∧ parityPending s 1 = false ∧ (getDesc s stripe0).intents ≠ [] ∧
        (0 : Nat) < survivorMark ∧ s.pair.dcheck = [] ∧ s.pair.claim.unit = .standbySynced ∧ s.pair.digest.jseq = 0 ∧
        s.pair.digest.lseq = 0) ∧
    (let p := (pairUnit .standbySynced 0 false).pair;
      { p with iseq := 7 }.iseq ≠ 0 ∧ crc64 p.digest.ledger ≠ crc64 p.digest.ledger + 1 ∧ crc64 [] ≠ crc64 [] + 1 ∧
        { p.digest with lseq := 4 }.lseq ≠ 0) := by decide +kernel

theorem test_met_JoinResyncAndDrops :
    (let s := pairUnit .active 0 false;
      hears s = true ∧ pairEn s = true ∧ (5 : Word) = s.dieId ∧ (6 : Word) ≠ s.dieId ∧ s.pair.claim.unit = .active ∧
        s.pair.phase = 0 ∧ s.pair.switch ≠ 3 ∧ joinCheck 9 [] .standbyJoining s = 0 ∧ joinCheck 8 [] .standbyJoining s ≠ 0) ∧
    (let s := pairUnit .standbyJoining 0 false;
      s.pair.claim.unit = .standbyJoining ∧ s.pair.take = none ∧ s.pair.powerOwn = false ∧ joinCheck 9 [] .standbyJoining s = 0) ∧
    (let s := withIntent (intent .open_ .open_) (pairUnit .unsynced 3 false);
      hears s = true ∧ buffers s = true ∧ (lrec 0).seq ≤ s.ledger.seq ∧ (∃ x ∈ (getDesc s stripe0).intents, x.jseq = 1) ∧
        s.pair.buffer = []) ∧
    (let s := pairUnit .active 4 true;
      hears s = true ∧ s.pair.mirrored = true ∧ s.pair.phase = 4 ∧ s.pair.ackTick < 1 ∧ s.pair.lastStamp ≤ 1 + 256 ∧
        (0 : Nat) ≤ s.drone.count ∧ (pairUnit .active 5 true).pair.phase ≠ 4) ∧
    (hears (pairUnit .standbySynced 0 false) = true ∧ (pairUnit .standbySynced 0 false).pair.claim.unit = .standbySynced) ∧
    (({ image := image, ctx := none, verifiedAt := 0, partnerOk := false, target := none } : LiveReq).image.imgId = 7 ∧
      (300 : Nat) ≠ 0) ∧
    (let s := { pairUnit .active 5 true with clock := 1000000, drone := { run.drone with count := 16385 } };
      serving s = true ∧ s.pair.phase = 5 ∧ s.pair.ackTick + 1 + 16384 ≤ s.drone.count ∧ s.pair.link.up = true ∧
        s.pair.ackAt + 1000000 ≤ s.clock) := by decide +kernel

def round (n : Nat) : Round := { gen := 1, loc := false, issued := 0, done := n, noted := false }

theorem test_met_RelayPosts :
    roundDue (pairUnit .active 5 true) = true ∧
    (let s := pairUnit .active 5 true;
      let t := { s with pair := { s.pair with rounds := [round 1, round 2] } };
      serving t = true ∧ postMajority t = 2 ∧ (t.pair.rounds.find? fun r => !r.noted && decide (postMajority t ≤ r.done)) = some (round 2)) ∧
    (let s := { pairUnit .active 5 true with clock := 40000000 };
      s.pair.durableAt + 40000000 ≤ s.clock ∧ run.clock < run.pair.durableAt + 40000000) ∧
    readDue { pairUnit .standbySynced 0 false with clock := 100000000 } = true ∧
    (let s := pairUnit .standbySynced 0 false;
      serving s = true ∧ pairEn s = true ∧ fenceHolder s = false ∧ s.pair.take = none ∧ s.pair.link.lossDecl = false ∧
        2 < (postSlots s).length ∧ postValue s [] = none) ∧
    (let s := pairUnit .standbySynced 0 false;
      let t := { s with pair := { s.pair with
        link := { s.pair.link with lossDecl := true }, posts := [{ Post.reset with base := some 1 }] } };
      t.pair.link.lossDecl = true ∧ (nth Post.reset t.pair.posts 0).base = some 1 ∧ fenceHolder t = false ∧
        (1 : Nat) < ({ gen := 2, loc := true, claim := 0, tick := 0 } : PostVal).gen) := by decide +kernel

/-- The block that was written last is a post's value. -/
theorem test_met_RelayPosts_value (s : State) (h : s = pairUnit .standbySynced 0 false) :
    postValue s (postBytes s 2 true ++ zeros 4096) = some { gen := 2, loc := true, claim := 0, tick := 0 } := by
  have p := parsePost_postBytes s 2 true (by decide) (by subst h; decide)
  have l : (postBytes s 2 true).length = 4096 := by simp only [postBytes, length_takePad]
  have z : parsePost s (zeros 4096) = none := by subst h; rfl
  have a := slice_append [] (postBytes s 2 true) (zeros 4096)
  have b := slice_append (postBytes s 2 true) (zeros 4096) []
  rw [List.append_nil] at b
  rw [l] at a b
  rw [length_zeros] at b
  simp only [List.nil_append, List.length_nil] at a
  simp only [postValue, a, b, List.filterMap_cons, List.filterMap_nil, p, z]
  subst h
  rfl

/-- The own unit as the holder under a key. -/
def holder (key : Word) : Holder := { key := key, pair := 9, die := 5 }
/-- A takeover in progress with every drive done. -/
def take (w : TakeWhy) : Take := { why := w, left := [], got := [1], failed := [], oldKey := 0, reread := false }

theorem test_met_TakeoverAndClaims :
    (let s := pairUnit .standbySynced 0 false;
      let t := { s with pair := { s.pair with
        link := { s.pair.link with up := false, lossDecl := true }, stallFrom := some 0, readAt := 50000000 } };
      serving t = true ∧ mayTakeOver t = true ∧ mayTakeOver s = false) ∧
    (let s := pairUnit .standbySynced 0 false;
      ∀ w ∈ [TakeWhy.takeover, .switchBack, .form, .salvage],
        ({ s with pair := { s.pair with take := some (take w) } } : State).pair.take = some (take w) ∧ takeBusy s = false ∧
          (take w).failed = []) ∧
    (let s := pairUnit .unsynced 0 false;
      let t := { s with pair := { s.pair with stallFrom := some 0, readAt := 50000000 } };
      serving t = true ∧ neverTakes t = true ∧ t.pair.lostRaised = false ∧ 0 + 50000000 ≤ t.pair.readAt) ∧
    (let s := pairUnit .standbyJoining 0 false;
      serving s = true ∧ s.loader.state = .running ∧ s.pair.claim.unit = .standbyJoining ∧ s.pair.claim.claim = 0 ∧
        s.pair.powerOwn = false ∧ s.pair.noHolder = false ∧ (3 : Nat) = (postSlots s).length ∧
        reportMajority [some (holder 6), some (holder 6), none] = some (some (holder 6)) ∧
        reportMajority [some (holder 6), none, none] = some none ∧
        reportMajority [some (holder 6), some (holder 7), none] = none) := by decide +kernel

theorem test_met_PairOrders :
    (pfFull (pairUnit .active 0 false) 0 = true ∧ neverTakes (pairUnit .active 0 false) = false ∧
      neverTakes (pairUnit .unsynced 0 false) = true ∧ (pairUnit .unsynced 0 false).pair.take = none ∧
      (pairUnit .unsynced 0 false).pair.link.up = true ∧ { run.pair with peerUnit := .active }.peerUnit = .active ∧
      run.pair.peerUnit ≠ .active) ∧
    (run.pair.claim.unit ≠ .active ∧ (pairUnit .active 5 true).pair.switch = 0 ∧
      { (pairUnit .active 5 true).pair with peerUnit := .standbySynced }.mirrored = true ∧
      (pairUnit .active 0 false).pair.mirrored = false) ∧
    (run.pair.claim.unit ≠ .standbyJoining ∧ (pairUnit .standbyJoining 0 false).pair.take = none ∧
      { (pairUnit .standbyJoining 0 false).pair with noHolder := true }.noHolder = true) ∧
    (let s := { volUnit with host := { volUnit.host with volumes := [(1, { volume with state := .readOnly })] } };
      reservedSet (epgMask 0x28) 1 = false ∧ ([0x10001, 0x10002].all fun v => !reservedSet (epgMask 0x48) v) = true ∧
        bit 0x10001 16 = true ∧ getVol s (bits 0x10001 0 16) = some { volume with state := .readOnly } ∧ fenceHolder s = true ∧
        getVol volUnit (bits 0x10002 0 16) = none ∧ bit 0x10002 16 = true ∧ volume.state ≠ .readOnly) ∧
    (let s := withRing { openRing with owed := 1 } (pairUnit .active 5 true);
      let t := { s with pair := { s.pair with switch := 1 }, host := { s.host with stopped := true } };
      serving t = true ∧ t.pair.switch = 1 ∧ t.host.stopped = true ∧ run.host.stopped = false ∧
        (tabFind (movingUnit [70]).ledger.migs (parcelKey 1 0)).isSome = true ∧ (∃ p ∈ t.host.rings, p.2.owed ≠ 0) ∧ t.clock < t.pair.switchAt + 100000000 ∧
        (∀ p ∈ run.host.rings, p.2.owed = 0) ∧ 0 + 100000000 ≤ ({ t with clock := 100000000 } : State).clock) := by decide +kernel

theorem test_met_SwitchBackLapses :
    (let s := pairUnit .active 5 true;
      let t := { s with pair := { s.pair with switch := 3 } };
      serving t = true ∧ t.pair.claim.unit = .active ∧ t.pair.switch = 3 ∧ t.clock < t.pair.switchAt + 1000000000 ∧
        t.pair.switchAt + 1000000000 ≤ ({ t with clock := 1000000000 } : State).clock) := by decide +kernel

theorem test_met_PatrolsAndMeasurements :
    (testsOn run = true ∧ (∀ x ∈ [({ group := 1, rows := [2], ue := [], cols := [] } : SramFind)], x.ue = [])) ∧
    (tabGet [] { run.health with ceRows := [(1, [2])] }.ceRows 1).contains 2 = true ∧
    (tabGet 0 run.health.sramRows 1 < 32 ∧ 32 ≤ tabGet 0 { run.health with sramRows := [(1, 32)] }.sramRows 1 ∧
      run.health.why.getLsbD 0 = false) ∧
    (32 < distinct (List.range 33) ∧ run.health.pcRetire.getLsbD 63 = false ∧
      { run.health with pcRetire := 1 }.pcRetire.getLsbD 0 = true) ∧
    (serving run = true ∧ EccLoc.inHbm .cleanPage = true ∧ EccLoc.inHbm .fatalSram = false) ∧
    (mgmtUp run = true ∧ nth 1000 [250] 0 ≤ 250 ∧ 2 ≤ nth 0 { run.health with agingLow := [2] }.agingLow 0 ∧
      nth 1000 [400] 0 ≤ 400 ∧ 0 ∉ run.health.agingSeen ∧ 400 < nth 1000 [401] 0) ∧
    (14 < run.health.phy.length ∧ run.health.cluCap.getLsbD (13 - 2) = false ∧ pfSeen run 128 = true) := by decide +kernel

/-- The unit with a trial request, and with a trial armed. -/
def trialUnit (req : Nat) (arm : Option Nat) : State := { run with
  trials := { run.trials with req := BitVec.ofNat 48 req, arm := arm.map parseTrial } }

theorem test_met_TrialsArmAndEnd :
    (pfSeen (trialUnit 0x100000001 none) 0 = true ∧
      trialRefuse (trialUnit 0x100000001 none) (parseTrial (trialUnit 0x100000001 none).trials.req.toNat) = 0) ∧
    trialRefuse (trialUnit 0x100000021 none) (parseTrial (trialUnit 0x100000021 none).trials.req.toNat) = 2 ∧
    trialRefuse (trialUnit 0x100000001 (some 0x100000001)) (parseTrial (trialUnit 0x100000001 none).trials.req.toNat) = 7 ∧
    ({ image with tria := { image.tria with allowReed := false } }.tria.allowReed = false ∧
      (parseTrial (trialUnit 0x100000004 none).trials.req.toNat).reed = true) ∧
    ((trialUnit 4 (some 0x100000001)).trials.arm.isSome = true ∧ (trialUnit 0 none).trials.arm = none) ∧
    (mgmtUp run = true ∧ (parseTrial 0x100000001).count ≤ { run.trials with link := 1 }.link + run.trials.reed ∧
      run.trials.link + run.trials.reed < (parseTrial 0x100000001).count) := by decide +kernel

/-- A context of the window as given, in context 0. -/
def withCtx (x : Ctx) (s : State) : State := { s with mgmt := { s.mgmt with ctxs := s.mgmt.ctxs.set 0 x } }
def claimed (t : Nat) : Ctx := { Ctx.reset with target := t, claim := some t }

theorem test_met_WindowAndClaims :
    (ctxOpen run 0 = true ∧ 0 < run.mgmt.ctxs.length ∧ (getCtx run 0).claim ≠ some (getCtx run 0).target) ∧
    ((getCtx (withCtx { claimed 1 with offset := 4194300, runOpen := true, written := 4194300 } run) 0).claim = some 1 ∧
      (4194300 : Nat) < targetSize 1 ∧ targetSize 1 ≤ 4194304) ∧
    ((5 : Nat) > 4 ∧ 0 < targetSize 8 ∧ 0 < targetSize 7) ∧
    (targetSize 1 ≠ 0 ∧ targetHeld (withCtx (claimed 1) run) 1 1 = true ∧ targetHeld (withCtx (claimed 1) run) 0 1 = false) ∧
    (mgmtUp run = true ∧ claimLapsed { withCtx (claimed 1) run with clock := 10000000000 } 0 = true) ∧
    (bits 0x200 0 9 = 0 ∧ bit 0x200 9 = true) := by decide +kernel

/-- A firmware package of 272 bytes, signed for slot 2 by the key 1 with the nonce 1. -/
def keyBytes : List Byte := 0x04 :: (leBytes 48 g384.1).reverse ++ (leBytes 48 g384.2).reverse
def signBlock (sig : Nat) : List Byte :=
  leBytes 16 0x1000000f04e474953 ++ leBytes 16 2 ++ (leBytes 48 (g384.1 % n384)).reverse ++ (leBytes 48 sig).reverse ++
    keyBytes ++ zeros 15
def package : List Byte :=
  leBytes 32 0x1100011000142574659 ++ signBlock 9499205450520546291046585963048787479906653104095300931602937463261126390235788551534376809600291282163800950197019
def keysFor (image : Bool) : List KeySlot :=
  List.replicate 4 { hash := sha384 keyBytes, state := .programmed, image := image }

/-- The checks of R532 accept the package, and R68's the signature in it. -/
theorem test_package_accepted : fwCheck (keysFor false) 0 (some 272) package = 0 := by decide +kernel

/-- The same for an image key: the signature part of `imageRefusal` accepts what is signed. -/
theorem test_signature_accepted : signatureRefusal (keysFor true) 32 package = none := by decide +kernel

/-- An order that programs the first image key in slot 1 of die 5, without a signature. -/
def order : List Byte :=
  ascii "YORD" ++ [1, 1, 1, 0] ++ leBytes 8 5 ++ List.replicate 48 7 ++ zeros 16 ++ zeros 16 ++ [0xFF] ++ zeros 175
def emptyKeys : List KeySlot := List.replicate 4 { hash := [], state := .empty, image := false }
def keyUnit (o : List Byte) (x : Ctx) : State :=
  let s := withCtx x run
  { s with dieId := 5, mgmt := { s.mgmt with keys := emptyKeys, order := o } }

theorem test_met_ManagementCommands :
    (ctxOpen run 0 = true ∧ 0 < run.mgmt.ctxs.length ∧ (getCtx (withCtx { Ctx.reset with busy := true } run) 0).busy = true ∧
      (getCtx run 0).busy = false ∧ { run.mgmt with recovery := true }.recovery = true ∧ run.mgmt.recovery = false ∧
      (getCtx run 0).claim ≠ cmdTargetOf 7) ∧
    (cmdRefused (withCtx (claimed 1) run) 0 1 = 0 ∧ cmdRefused (withCtx (claimed 1) run) 0 2 = 0 ∧
      cmdRefused (withCtx (claimed 1) run) 0 3 = 0 ∧ liveBusy run = false ∧ loaderFree run = true ∧ run.loader.state = .running ∧
      liveBusy waitingLive = true ∧ run.mgmt.flashQ = [] ∧
      imageRefusal run.mgmt.keys (some 0) [] = some { reason := 0x14, sec := 0, pos := 0 }) ∧
    (cmdRefused (withCtx (claimed 2) run) 0 4 = 0 ∧ fwCheck run.mgmt.keys 0 (some 0) [] = 5) ∧
    (cmdRefused (withCtx (claimed 4) run) 0 5 = 0 ∧ cmdRefused (withCtx (claimed 4) run) 0 6 = 0 ∧ run.image = some image ∧
      recordCheck image.hemd hemOn (hemRecord 0 image.hemd hemOn) = 1 ∧ recordCheck image.hemd hemOn [] ≠ 1) ∧
    (cmdRefused (keyUnit order (claimed 3)) 0 7 = 0 ∧ orderWhy (keyUnit order (claimed 3)) order = 0 ∧
      orderWhy (keyUnit order (claimed 3)) [] ≠ 0) := by decide +kernel

/-- A flash write waiting, and an order being fused. -/
def flashJob : FlashJob := { ctx := 0, cmd := 4, copy := 0, bytes := package }
def fusing (a : Nat) : Fusing := { ctx := 0, action := a, slot := 1, image := true, hash := [], svn := 3 }

theorem test_met_ManagementCommands_ends :
    (mgmtUp run = true ∧ ({ run.mgmt with flashQ := [flashJob] } : Mgmt).flashQ = [flashJob] ∧
      flashJob.ctx < run.mgmt.ctxs.length ∧ flashJob.cmd = 4) ∧
    (({ run.mgmt with fusing := some (fusing 1) } : Mgmt).fusing = some (fusing 1) ∧ (fusing 2).ctx < run.mgmt.ctxs.length ∧
      emptyKeys[(fusing 1).slot]? = some { hash := [], state := .empty, image := false } ∧
      (({ hash := [], state := .programmed, image := false } :: emptyKeys)[0]?).map (·.state) = some .programmed ∧
      (fusing 2).action = 2 ∧ (fusing 3).action = 3) ∧
    (run.mgmt.ctxs.length = 4 ∧ run.mgmt.fusing = none ∧
      (getCtx (withCtx { Ctx.reset with busy := true } run) 0).busy = true) := by decide +kernel

theorem test_met_MctpMessages :
    (ctxOpen run 3 = true ∧ 3 < run.mgmt.ctxs.length ∧ serving run = true ∧
      ([5, 6, 7, 8].all fun n => orderOpen n run) = true ∧ orderOpen 1 applying = false ∧ ctxOpen applying 3 = true ∧
      trialRefuse run (parseTrial (bits 0x100000001 0 48)) = 0 ∧ (trialUnit 0 (some 0x100000001)).trials.arm.isSome = true ∧
      bits 4 0 4 = 4 ∧ run.hem.ship = 0) ∧
    (registered run 9 true = false ∧ run.mgmt.alerts.length < 4 ∧
      (let a : Alert := { eid := 9, smbus := true, owed := false, urgent := false, sentAt := none };
        registered { run with mgmt := { run.mgmt with alerts := [a, a, a, a] } } 9 true = true ∧
        registered { run with mgmt := { run.mgmt with alerts := [a, a, a, a] } } 8 true = false ∧ 4 ≤ [a, a, a, a].length)) ∧
    run.mgmt.eids.length = 2 := by decide +kernel

theorem test_met_RegisterWrites :
    ((1 : Nat) ≠ 0 ∧ dataAt run 0 0x900000 = false ∧ maskAt run 0 0x900000 = none) ∧
    (maskAt run 0 0x1B00028 = some (regMask [] [] [(0, 64)] []) ∧ bellAt run 0 0x1B00028 = none ∧
      dataAt run 0 0x1600020 = false ∧ bellAt run 0 0x1600020 = none ∧
      (maskAt run 0 0x1600020).any (fun m => 0x8 &&& ~~~ m.all != 0 && m.rw ||| m.w1c == 0) = true) ∧
    (pfFull run 0 = true ∧ bits 5 32 32 = 0 ∧ bits 0x100000000 32 32 ≠ 0) ∧
    (reservedSet (plcMask 0x40) (2 ^ 63) = true ∧ reservedSet (epgMask 0x28) 2 = true ∧ reservedSet (smcMask 0x18) (2 ^ 63) = true) ∧
    (barOpen run 0 = true ∧ (0 : Nat) ≠ firmware ∧ bellAt run 0 0x800018 = some 3) ∧
    (pfOpen run 0 = true ∧ ctxOpen run (portOf 0) = true) ∧
    (7 < (ringEnt run 0).vectors ∧ bits 5 0 32 ≠ 0) := by decide +kernel

theorem test_met_CommandsTakeEffect :
    (serving volUnit = true ∧ ∀ op ∈ [3, 4, 5, 0x40, 0x41, 0x42],
      findCmd (withCmd (volCmd op .decoded) volUnit) 1 = some (volCmd op .decoded)) ∧
    (chanOpen (withChan (Chan.reset 0) run) 0 224 = true ∧ (Chan.reset 0).state = .idle ∧ haltedChan.state = .halted ∧
      barSeen run 0 = true) ∧
    (snapshotDue { run with drone := { run.drone with count := 65536 } } = true ∧
      checkpointDue { run with ledger := { run.ledger with logBytes := 268435456 } } = true ∧ fenceHolder run = true) ∧
    (pfSeen run 0 = true ∧ reservedSet (plcMask 0x40) 5 = false ∧ reservedSet (plcMask 0x4028) 5 = false ∧
      reservedSet (evtMask 0x408) 5 = false) ∧
    (pfFull run 0 = true ∧ ([0x101, 0x103, 0x105].all fun v => !reservedSet (smcMask 0x18) v && bit v 0) = true ∧
      ([0x401, 0x201].all fun v => !reservedSet (drvMask 0x1000) v) = true) ∧
    (destages (withIntent readyIntent placedUnit) = true ∧ plannable (withIntent readyIntent placedUnit) stripe0 = some readyIntent ∧
      nextToPlan (withIntent readyIntent placedUnit) stripe0 readyIntent = true) ∧
    (nextParcel (degraded 2) = some (parcelKey 1 0) ∧ (degraded 2).array.active.length < (degraded 2).array.parallel ∧
      dumping (degraded 2) = false ∧ restoreEnded (degraded 2) = true ∧ scrubBusy (degraded 2) = false) ∧
    scrubLate { withScrub (scrub []) placedUnit with clock := 604800000000000 } (scrub []) = true ∧
    (mgmtUp run = true ∧ linkLive (linkUnit linkL run) = true ∧ { linkL with training := true }.l0At + 2000000 ≤ (linkUnit linkL run).clock ∧
      linkL.lastFlit + 100000 ≤ (linkUnit linkL run).clock) ∧
    ((pairUnit .active 5 true).pair.claim.unit = .active ∧ (pairUnit .active 5 true).pair.mirrored = true ∧
      (pairUnit .active 5 true).pair.phase = 5 ∧ roundDue (pairUnit .active 5 true) = true ∧
      readDue { pairUnit .standbySynced 0 false with clock := 100000000 } = true ∧ testsOn run = true) := by decide +kernel

/-! ### An image that the structural checks accept -/

/-- HEAD to CACH, and the header of EVNT. -/
def imageFront : List Byte :=
  (leBytes 33 0x010000000000004b70001100014e52554e00000000000000010000004044414548) ++
  zeros 31 ++
  (leBytes 168 0xffffffff00000fffffffffff00000fffffffffff00000fffffffffff00000fffffffffff00000fffffffffff00000fffffffffff00000fffffffffff00000fffffffffff00000fffffffffff00000fffffffffff00000fffffffffff00000fffffffffff00000fffffffffff00000fffffffffff00000fffffffffff00000fff0000000000000150000007d00001518000001000000000010000000000000001000000b04d4f4547) ++
  zeros 8 ++
  (leBytes 39 0x080010000800a00000000800180010000400040010005800000000000000010000003054524150) ++
  zeros 9 ++
  (leBytes 24 0x0800100000100000000000000000000100000810474e4952) ++
  zeros 1016 ++
  (leBytes 8 0x0800100000100200) ++
  zeros 1016 ++
  (leBytes 49 0x01000000000020011d0000007f010105000000000000000000000000000000000100000000000000010000004045444f43) ++
  zeros 15 ++
  (leBytes 27 0x320003009600fa00c8019000000000000000010000002043414c50) ++
  zeros 5 ++
  (leBytes 24 0x553207d00001d4c000000000000000010000002048434143) ++
  zeros 8 ++
  (leBytes 9 0x0100004010544e5645) ++
  zeros 7
/-- EVNT: every source announced to management only. -/
def imageEvents : List Byte := (List.replicate 4096 (leBytes 4 0x100000)).flatten
/-- PAIR, HEMD and TRIA. -/
def imageBack : List Byte :=
  (leBytes 34 0xffffffffffffffffffffffffffff0000000000000000000000010000003052494150) ++
  zeros 14 ++
  (leBytes 42 0x1000000001f400000064000000f000000960003cbb805dc00000000000000000000100000070444d4548) ++
  zeros 70 ++
  (leBytes 9 0x010000002041495254) ++
  zeros 23
/-- SIGN: slot 1, signed by the key 1 with the nonce 1. -/
def imageSign : List Byte :=
  leBytes 16 0x1000000f04e474953 ++ leBytes 16 1 ++ (leBytes 48 (g384.1 % n384)).reverse ++
    (leBytes 48 6268793057738644794126337789508056186193268859507961236198543011948381916168720502764733023808885937965971591205558).reverse ++
    keyBytes ++ zeros 15
/-- An image of 19,312 bytes. -/
def imageBytes : List Byte := imageFront ++ (imageEvents ++ (imageBack ++ imageSign))

theorem firstBad_all {f : Nat → Nat} {l : List Check} (h : (l.all fun c => !c.bad) = true) : firstBad none f l = none := by
  induction l with
  | nil => rfl
  | cons c r ih =>
    simp only [List.all_cons, Bool.and_eq_true, Bool.not_eq_true'] at h
    simp [firstBad, h.1, ih h.2]
/-- Every check passes. -/
def good (l : List Check) : Bool := l.all fun c => !c.bad
theorem good_append (a b : List Check) : good (a ++ b) = (good a && good b) := by simp [good]
theorem len_code : field imageBytes (2352 + 4) 4 = 64 := by decide +kernel
theorem len_image : field imageBytes 0x18 4 = 19312 := by decide +kernel
theorem drop_events : (imageBytes.drop (sectionBase 64 7)).drop 16 = imageEvents ++ (imageBack ++ imageSign) := by
  rw [List.drop_drop]
  exact List.drop_left' (by decide +kernel)
theorem drop_back : imageBytes.drop 18880 = imageBack ++ imageSign := by
  have h : imageBytes = (imageFront ++ imageEvents) ++ (imageBack ++ imageSign) := by simp [imageBytes]
  rw [h]
  have l1 : imageFront.length = 2496 := by decide +kernel
  have l2 : imageEvents.length = 16384 := by
    have h : ∀ n, ((List.replicate n (leBytes 4 0x100000)).flatten).length = 4 * n := by
      intro n
      induction n with
      | zero => rfl
      | succ n ih => rw [List.replicate_succ, List.flatten_cons, List.length_append, ih]; simp [leBytes]; omega
    rw [imageEvents, h]
  exact List.drop_left' (by simp [l1, l2])
theorem good_events (base : Nat) (ring rest : List Byte) (n e : Nat) :
    good (evntChk base ring n e ((List.replicate n (leBytes 4 0x100000)).flatten ++ rest)) = true := by
  induction n generalizing e with
  | zero => rfl
  | succ n ih =>
    have h := ih (e + 1)
    simp only [good, evntChk, List.replicate_succ, List.flatten_cons, List.append_assoc, List.all_cons] at *
    have f0 : field (leBytes 4 0x100000 ++ ((List.replicate n (leBytes 4 0x100000)).flatten ++ rest)) 0 4 = 0x100000 := by
      simp [field, slice, leBytes, leNat, takePad]
    have d : (leBytes 4 0x100000 ++ ((List.replicate n (leBytes 4 0x100000)).flatten ++ rest)).drop 4 =
        (List.replicate n (leBytes 4 0x100000)).flatten ++ rest := by simp [leBytes]
    rw [f0, d, h]
    simp [chk]
theorem good_plac : good (headerChk 5 (sectionBase 64 5) 19312 (imageBytes.drop (sectionBase 64 5)) ++ placChk (sectionBase 64 5) (imageBytes.drop (sectionBase 64 5))) = true := by decide +kernel
theorem good_cach : good (headerChk 6 (sectionBase 64 6) 19312 (imageBytes.drop (sectionBase 64 6)) ++ cachChk (sectionBase 64 6) (imageBytes.drop (sectionBase 64 6)) ++
   headerChk 7 (sectionBase 64 7) 19312 (imageBytes.drop (sectionBase 64 7))) = true := by decide +kernel
/-- The checks of PAIR and what follows. -/
def backChecks : List Check :=
    let at_ := fun i => (imageBack ++ imageSign).drop (sectionBase 64 i - 18880)
    let base := sectionBase 64
    headerChk 8 (base 8) 19312 (at_ 8) ++ pairChk (base 8) (at_ 8) ++
    headerChk 9 (base 9) 19312 (at_ 9) ++ hemdChk (base 9) (at_ 9) ++
    headerChk 10 (base 10) 19312 (at_ 10) ++ triaChk (base 10) (at_ 10) ++
    headerChk 11 (base 11) 19312 (at_ 11) ++ signChk (base 11) (at_ 11)
theorem good_back : good backChecks = true := by decide +kernel
theorem at_back (i : Nat) (h : 18880 ≤ sectionBase 64 i) :
    imageBytes.drop (sectionBase 64 i) = (imageBack ++ imageSign).drop (sectionBase 64 i - 18880) := by
  rw [← drop_back, List.drop_drop, Nat.add_sub_cancel' h]
/-- Every structural check of R70 accepts the image. Its signature is one of those that `test_signature_accepted` shows the check
to accept; the digest of all its bytes is too long to evaluate here, and was evaluated outside: `imageRefusal` answers none. -/
theorem test_image_structure_accepted : structureRefusal none imageBytes = none := by
  have g0 : good (checksBefore imageBytes) = true := by decide +kernel
  have g1 : good (codeChk imageBytes) = true := by decide +kernel
  have g2 : famRun none (fun w => if w < 2352 + 8 then sectionOf 4194304 w else sectionOf 64 w) (2352 + 64)
      (field imageBytes (2352 + 0x10) 1) (2352 + 32) [] (imageBytes.drop (2352 + 32)) = none := by decide +kernel
  have g3 : good (checksAfter 64 imageBytes) = true := by
    have h3 := good_plac
    have h4 := good_cach
    have h5 := good_back
    simp only [good_append, Bool.and_eq_true, backChecks] at h3 h4 h5
    simp only [checksAfter, len_image, good_append, Bool.and_eq_true, drop_events,
      at_back 8 (by decide +kernel), at_back 9 (by decide +kernel), at_back 10 (by decide +kernel), at_back 11 (by decide +kernel)]
    simp only [h3, h4, h5, and_self, and_true, true_and]
    exact good_events _ _ _ _ _
  unfold structureRefusal
  simp only [len_code, firstBad_all g0, firstBad_all g1, g2, firstBad_all g3]

/-! ### Well-formedness -/

/-- Commands with one operand outside its range. -/
def illFormed0 : List Instr :=
  [.drnUrgentSet 5, .drnBgHoldWrite 256 0, .ringEnable 256 65535 0, .ringEnable 255 65536 0,
   .ringDisable 256 65535 0, .ringDisable 255 65536 0, .doorbell 256 1023, .doorbell 255 1024,
   .entryFetchDone 65536 (List.replicate 64 0), .entryFetchDone 65535 (List.replicate 65 0), .sqFetchError 65536,
   .stallRelease 65536, .cqCiWrite 256 65535 0, .cqCiWrite 255 65536 0, .cseraiMove 65536, .commandComplete 65536,
   .cqWriteError 65536, .functionLevelReset 256, .msixDisable 256, .dmaStart 257 255, .dmaStart 255 256,
   .dmaPause 257 255, .dmaPause 255 256, .dmaUnpause 257 255, .dmaUnpause 255 256]

/-- Commands with one operand outside its range. -/
def illFormed1 : List Instr :=
  [.dmaPaused 256, .descriptorFetch 256 (List.replicate 64 0), .descriptorFetch 255 (List.replicate 65 0),
   .pacingRequest 12, .dmaWriteResponse 256, .dmaShCommit 257 255 false, .dmaShCommit 255 256 false,
   .dmaBusError 256 false 3 0 0, .dmaBusError 255 false 4 0 0, .faultActResume 257 255, .faultActResume 255 256,
   .faultActSkip 257 255, .faultActSkip 255 256, .faultActAbort 257 255, .faultActAbort 255 256,
   .reedSegmentCompare 18 [] [], .reedTestDue 18, .reedTestResult 18 false false false, .plcSlotTagWrite 256 383 0,
   .plcSlotTagWrite 255 384 0, .drainSet 256 383, .drainSet 255 384, .drainClear 256 383, .drainClear 255 384,
   .relocDone 65536 0]

/-- Commands with one operand outside its range. -/
def illFormed2 : List Instr :=
  [.moveCommit 65536 0, .moveAbandon 65536 0, .runFree 384 0, .release 65536 0, .pageMissRead 65536 0 2, .pageMissRead 65535 0 3,
   .plcPgSelWrite 256 0, .smcFill 65536 0, .smcParkedRepresent 65536 0, .smcPreload 256 0, .smcPreloadLock 256 0,
   .smcUnlock 256 0, .unlockAll 256, .jrnWtForce 256 false, .jrnDestageAll 256, .restoreDriveTimeout 384,
   .smartPoll 384 255 255, .smartPoll 383 256 255, .smartPoll 383 255 256, .failOrder 256 383, .failOrder 255 384,
   .forgetReturned 256 383, .forgetReturned 255 384, .rebuildStripeDone 65536 0, .scrubCheckDone 65536 0 255,
   .scrubCheckDone 65535 0 256]

/-- Commands with one operand outside its range. -/
def illFormed3 : List Instr :=
  [.plcLostSelWrite 256 0, .clusterEnable 256 11 0, .clusterEnable 255 12 0, .clusterDisable 256 11 0,
   .clusterDisable 255 12 0, .drvPerstRelease 12 3, .drvPerstRelease 11 4, .driveArrival 12 3 255 0 0,
   .driveArrival 11 4 255 0 0, .driveArrival 11 3 256 0 0, .adminCompletion 384 .ok, .driveLinkDown 384,
   .driveDepart 384, .cstsPoll 384 false, .driveDmaRefused 384, .posMapAdopt 256 383 0, .posMapAdopt 255 384 0,
   .posMapValidSet 256 383 0, .posMapValidSet 255 384 0, .calReq 256, .calAbort 256, .shipReq 256, .shipCancel 256,
   .flitReceive (zeros 3) (zeros 240) (zeros 8), .flitReceive (zeros 2) (zeros 241) (zeros 8),
   .flitReceive (zeros 2) (zeros 240) (zeros 9)]

/-- Commands with one operand outside its range. -/
def illFormed4 : List Instr :=
  [.flitAckReceive 1024 false, .join 256, .salvage 256, .switchBack 256, .form 256, .epgVolClearGo 256 0,
   .epgPolicyWrite 256 0, .hbmPatrol 64 [] [] false, .agingMeasure (List.replicate 65 0), .phyMarginMeasure 15 0,
   .hltSnapWrite 256, .evtMaskWrite 256 63 0, .evtMaskWrite 255 64 0, .evtLogSelWrite 256 0, .trlArmRequest 256,
   .trlDisarm 256, .mgwDataWrite 4 0, .mgwDataRead 4, .mgwClaim 4, .mgwRelease 4, .load 4, .loadLive 4,
   .imgToFlash 4, .fwUpdate 4, .hemSave 4]

/-- Commands with one operand outside its range. -/
def illFormed5 : List Instr :=
  [.hemRestore 4, .keyOrder 4, .healthSnap 4, .mgwClaimBroken 4, .winWrite 4 0 (List.replicate 12 0),
   .winWrite 3 0 [], .winWrite 3 0 (List.replicate 13 0), .winRead 4 0 12, .winRead 3 0 0, .winRead 3 0 13,
   .winCtl 4 0, .order 4 255 0, .order 3 256 0, .alertReg 4 255 false, .alertReg 3 256 false,
   .mctpControlMessage 4 0 0, .portResetAssert 2, .portResetRelease 2, .registerWrite 257 2 0 64 0,
   .registerWrite 255 1 0 64 0, .registerWrite 255 2 0 0 0, .registerWrite 255 2 0 65 0, .dmaReadCompletion 256 [],
   .capToExpiry 384, .msixUnmask 256 none]

theorem test_illFormed0_refused : illFormed0.all (fun i => !i.wf) = true := by decide +kernel
theorem test_illFormed1_refused : illFormed1.all (fun i => !i.wf) = true := by decide +kernel
theorem test_illFormed2_refused : illFormed2.all (fun i => !i.wf) = true := by decide +kernel
theorem test_illFormed3_refused : illFormed3.all (fun i => !i.wf) = true := by decide +kernel
theorem test_illFormed4_refused : illFormed4.all (fun i => !i.wf) = true := by decide +kernel
theorem test_illFormed5_refused : illFormed5.all (fun i => !i.wf) = true := by decide +kernel

/-- The same commands with every operand at its last value. -/
def atLimit0 : List Instr :=
  [.drnUrgentSet 4, .drnBgHoldWrite 255 0, .ringEnable 255 65535 0, .ringDisable 255 65535 0, .doorbell 255 1023,
   .entryFetchDone 65535 (List.replicate 64 0), .sqFetchError 65535, .stallRelease 65535, .cqCiWrite 255 65535 0,
   .cseraiMove 65535, .commandComplete 65535, .cqWriteError 65535, .functionLevelReset 255, .msixDisable 255,
   .dmaStart 256 255, .dmaPause 256 255, .dmaUnpause 256 255, .dmaPaused 255,
   .descriptorFetch 255 (List.replicate 64 0), .pacingRequest 16, .dmaWriteResponse 255,
   .dmaShCommit 256 255 false, .dmaBusError 255 false 3 0 0, .faultActResume 256 255, .faultActSkip 256 255]

/-- The same commands with every operand at its last value. -/
def atLimit1 : List Instr :=
  [.faultActAbort 256 255, .reedSegmentCompare 17 [] [], .reedTestDue 17, .reedTestResult 17 false false false,
   .plcSlotTagWrite 255 383 0, .drainSet 255 383, .drainClear 255 383, .relocDone 65535 0, .moveCommit 65535 0,
   .moveAbandon 65535 0, .runFree 383 0, .release 65535 0, .pageMissRead 65535 0 2, .plcPgSelWrite 255 0,
   .smcFill 65535 0, .smcParkedRepresent 65535 0, .smcPreload 255 0, .smcPreloadLock 255 0, .smcUnlock 255 0,
   .unlockAll 255, .jrnWtForce 255 false, .jrnDestageAll 255, .restoreDriveTimeout 383, .smartPoll 383 255 255,
   .failOrder 255 383]

/-- The same commands with every operand at its last value. -/
def atLimit2 : List Instr :=
  [.forgetReturned 255 383, .rebuildStripeDone 65535 0, .scrubCheckDone 65535 0 255, .plcLostSelWrite 255 0,
   .clusterEnable 255 11 0, .clusterDisable 255 11 0, .drvPerstRelease 11 3, .driveArrival 11 3 255 0 0,
   .adminCompletion 383 .ok, .driveLinkDown 383, .driveDepart 383, .cstsPoll 383 false, .driveDmaRefused 383,
   .posMapAdopt 255 383 0, .posMapValidSet 255 383 0, .calReq 255, .calAbort 255, .shipReq 255, .shipCancel 255,
   .flitReceive (zeros 2) (zeros 240) (zeros 8), .flitAckReceive 1023 false, .join 255, .salvage 255, .switchBack 255, .form 255]

/-- The same commands with every operand at its last value. -/
def atLimit3 : List Instr :=
  [.epgVolClearGo 255 0, .epgPolicyWrite 255 0, .hbmPatrol 63 [] [] false, .agingMeasure (List.replicate 64 0),
   .phyMarginMeasure 14 0, .hltSnapWrite 255, .evtMaskWrite 255 63 0, .evtLogSelWrite 255 0, .trlArmRequest 255,
   .trlDisarm 255, .mgwDataWrite 3 0, .mgwDataRead 3, .mgwClaim 3, .mgwRelease 3, .load 3, .loadLive 3,
   .imgToFlash 3, .fwUpdate 3, .hemSave 3, .hemRestore 3, .keyOrder 3, .healthSnap 3, .mgwClaimBroken 3,
   .winWrite 3 0 (List.replicate 12 0), .winRead 3 0 12]

/-- The same commands with every operand at its last value. -/
def atLimit4 : List Instr :=
  [.winCtl 3 0, .order 3 255 0, .alertReg 3 255 false, .mctpControlMessage 3 0 0, .portResetAssert 1,
   .portResetRelease 1, .registerWrite 256 2 0 64 0, .dmaReadCompletion 255 [], .capToExpiry 383,
   .msixUnmask 255 none]

theorem test_atLimit0_accepted : atLimit0.all Instr.wf = true := by decide +kernel
theorem test_atLimit1_accepted : atLimit1.all Instr.wf = true := by decide +kernel
theorem test_atLimit2_accepted : atLimit2.all Instr.wf = true := by decide +kernel
theorem test_atLimit3_accepted : atLimit3.all Instr.wf = true := by decide +kernel
theorem test_atLimit4_accepted : atLimit4.all Instr.wf = true := by decide +kernel

/-! ### Commands -/

/-- The state a command leads to. -/
def after (c : Instr) (s : State) : State :=
  match exec c s with
  | .next t => t
  | .fault _ => s
  | .refused _ => s

/-- The table of commands gives no row any bits. -/
theorem test_no_word_decodes : decodeTableWord 16 0x1234 = none ∧ run.withFetchWord 16 0x1234 = run := ⟨rfl, rfl⟩

/-- The example of R198: CRC32C and CRC64 of "123456789", without the final inversion; split with a chain it is the same. -/
theorem test_crc_examples :
    crcRun false (BitVec.allOnes 64) (ascii "123456789") = 0x1CF96D7C ∧
      crcRun true (BitVec.allOnes 64) (ascii "123456789") = 0x5174EB79F5866777 ∧
      crcRun true (crcRun true (BitVec.allOnes 64) (ascii "1234")) (ascii "56789") = 0x5174EB79F5866777 := by decide +kernel

/-- R217: multiplication modulo x⁸ + x⁴ + x³ + x² + 1, worked by hand. -/
theorem test_gf_mul : gfMul 0x80 2 = 0x1D ∧ gfMul 0x53 1 = 0x53 ∧ gfMul 3 3 = 5 ∧ gfMul (gfInv 0x8E) 0x8E = 1 := by
  decide +kernel

/-- R114: the last position wraps, with the wrap bit turned. -/
theorem test_index_wraps : idxNext 2 0 = 1 ∧ idxNext 2 1 = 0x10000 ∧ idxNext 2 0x10001 = 0 := by decide

/-- R124: a doorbell queues its group; R125: a second one while it waits marks it once more. -/
theorem test_doorbell :
    (after (.doorbell 0 3) run).host.doorbells = [3] ∧
      (after (.doorbell 0 3) (after (.doorbell 0 3) run)).host.rescan = [3] ∧ (after (.doorbell 128 3) run).host.doorbells = [] := by
  decide +kernel

/-- R120: EN = 1 with DEPTH_LOG 17 is refused with ERR; with 1 it enables. -/
theorem test_ring_enable :
    (getRing (after (.ringEnable 0 5 0x1101) run) 5).err = true ∧ (getRing (after (.ringEnable 0 5 0x1101) run) 5).en = false ∧
      (getRing (after (.ringEnable 0 5 0x101) run) 5).en = true := by decide +kernel

/-- R127: a fetched entry takes sequence number 1 and RNG_SQ_CI passes it. -/
theorem test_entry_fetch :
    let t := after (.entryFetchDone 5 (zeros 64)) (withRing { openRing with fetchRes := [false], owed := 1 } run)
    (getRing t 5).sqCi = 1 ∧ t.host.nextSeq = 2 := by decide +kernel

/-- R131, R136: the completion goes to the place at RNG_CQ_PI, then the mirror word. -/
theorem test_completion :
    (after (.commandComplete 5) finishedUnit).out.length = 2 ∧
      (getRing (after (.commandComplete 5) finishedUnit) 5).cqPi = 1 := by decide +kernel

/-- R199, R185: a start fetches the first descriptor; an address outside its space halts with cause 5. -/
theorem test_dma_start :
    (getChan (after (.dmaStart 0 224) (withChan { Chan.reset 0 with listHead := 0x1000 } run)) 224).fetching = some 0x1000 ∧
      (getChan (after (.dmaStart 0 224) (withChan { Chan.reset 0 with listSpace := 2, listHead := 0xFFFFFFFFFFFFFFC0 } run))
        224).faultCause = 5 := by decide +kernel

/-- R188: a descriptor with a reserved bit of NEXT set halts the channel with cause 6. -/
theorem test_dma_bad_descriptor :
    (getChan (after (.descriptorFetch 224 badDesc) (withChan { Chan.reset 0 with state := .run, fetching := some 0x1000 } run))
      224).faultCause = 6 := by decide +kernel

/-- R193: the bytes of a write into the HBM scratch space land at their addresses. -/
theorem test_dma_write_lands :
    (let t := after (.dmaWriteResponse 224) (withChan { Chan.reset 0 with writes := [dmaWrite 2] } run);
      memRead t.mem (scratchBase 224 + 0x40) = 1 ∧ memRead t.mem (scratchBase 224 + 0x43) = 4 ∧
        memRead t.mem (scratchBase 224 + 0x44) = 0 ∧ Memory.wf t.mem = true) := by decide +kernel

/-- R201: pacing counts to 64 and no further. -/
theorem test_pacing :
    (getChan (after (.pacingRequest 3) { run with dma := { run.dma with
      chans := [(0, { Chan.reset 0 with mode := true, paceSrc := 3, paceCnt := 64 })] } }) 0).paceCnt = 64 := by decide +kernel

/-- R164: a DEALLOCATE of an unplaced volume block on a cached lookup, in write-through, runs. -/
theorem test_deallocate :
    ((after (.deallocate 1) (let s := withCmd (volCmd 4 .decoded) volUnit;
      { s with cache := { s.cache with wt := true } })).host.cmds.map (·.phase)) = [.running] := by decide +kernel

/-- R168, R169: VOL_CREATE makes its volume; the number of an existing one is refused with reason 0x10. -/
theorem test_vol_create :
    (getVol (after (.volCreate 1) (withCmd { cmd createEntry .decoded with fams := [mirrorFamily] } volUnit)) 2).map (·.size) = some 1024 ∧
      ((after (.volCreate 1) (withCmd (cmd { createEntry with volume := 1 } .decoded) volUnit)).host.cmds.map (·.phase)) =
        [.finished 1 0x10] := by decide +kernel

/-- R176: a host memory error ends a READ with status 6. -/
theorem test_host_error :
    ((after (.hostMemoryError 1) (withCmd (volCmd 1 .running) volUnit)).host.cmds.map (·.phase)) = [.finished 6 0] := by
  decide +kernel

/-- R229: different copies of a segment stop the leg and open a vote. -/
theorem test_segment_mismatch :
    (after (.reedSegmentCompare 2 [1] []) reedUnit).reeds.votes.length = 1 ∧
      (after (.reedSegmentCompare 2 [] []) reedUnit).reeds.votes = [] := by decide +kernel

/-- R106, R108: a leg that is marked in its own tick is counted at the edge, and one marked in the next is hung there. -/
theorem test_overrun :
    (after .tickEdge (after (.drnOverrun 3) ownTickUnit)).drone.overrunCnt = 1 ∧
      (after .tickEdge (after (.drnLegHung 3) busyUnit)).drone.hungCnt = 1 := by
  decide +kernel

/-- R258: the tag of a slot in a placement group is not taken away. -/
theorem test_slot_tag :
    (getSlot (after (.plcSlotTagWrite 0 3 0) volUnit) 3).refused = true ∧
      (getSlot (after (.plcSlotTagWrite 0 200 1) volUnit) 200).tagValid = true := by decide +kernel

/-- R275, R276: a move's commit names the new group and raises GEN. -/
theorem test_move_commit :
    (getEntry (after (.moveCommit 1 0) (movingUnit [70, 100])) (parcelKey 1 0)).pg = 1 ∧
      (getEntry (after (.moveCommit 1 0) (movingUnit [70, 100])) (parcelKey 1 0)).gen = 1 := by decide +kernel

/-- R304: the oldest unsent eviction is offered. -/
theorem test_smc_offer : ((after .smcOffer (evictUnit true)).smc.evict.map (·.sent)) = [true, true] := by decide +kernel

/-- R348, R349: PWR_FAIL_N falling counts at once; the dump begins on the fence holder and takes the next epoch. -/
theorem test_power_fail :
    (after .dumpStart (after .pwrFailAssert volUnit)).cache.vault.epoch = 1 ∧
      (after .dumpStart (after .pwrFailAssert volUnit)).cache.vault.dump = .headers := by decide +kernel

/-- R362, R390: a fail order on a slot in service is to be declared with WHY 7. -/
theorem test_fail_order : (after (.failOrder 0 3) volUnit).array.declare = [(3, 7)] := by decide +kernel

/-- R393: EN = 0 of an enabled cluster takes PERST down and its drives away. -/
theorem test_cluster_disable :
    let t := after (.clusterDisable 0 0 0) (withDrive (drive .ready (some 3)) volUnit)
    t.drives.drives = [] ∧ (getClu t 0).perst = [false, false, false, false] := by decide +kernel

/-- R403: CSTS.RDY leads to Identify Controller; a failure stops the bring-up with REFUSE 1. -/
theorem test_bring_up :
    ((getDrive (after (.adminCompletion 5 .rdy) (withDrive (drive .waitRdy none) volUnit)) 5).map (·.step)) = some .identCtrl ∧
      (getStat (after (.adminCompletion 5 .failed) (withDrive (drive .waitRdy none) volUnit)) 5).refuse = 1 := by decide +kernel

/-- R444, R447: a calibration request without HEM_CHG is refused; a ship request is taken. -/
theorem test_cal_and_ship :
    calShown (after (.calReq 0) (hemUnit hemOn)).hem = 6 ∧ (after (.shipReq 0) (hemUnit hemOn)).hem.ship = 1 := by decide +kernel

/-- R453: a flit in order advances the receiver; one ahead is refused. -/
theorem test_flits (p c d : List Byte) (gc : flitGood (leBytes 2 1024) p c = true) (gd : flitGood (leBytes 2 1026) p d = true) :
    (after (.flitReceive (leBytes 2 1024) p c) (linkUnit linkL run)).pair.link.rxSeq = 1 ∧
      (after (.flitReceive (leBytes 2 1026) p d) (linkUnit linkL run)).out = [.flitAck 0 true] := by
  simp only [after, exec, execFlitReceive, gc, gd]
  decide +kernel

/-- R487: a switch-back ordered on a SOLO unit is refused with RESULT 2. -/
theorem test_switch_back : (after (.switchBack 0) run).pair.result = 2 ∧ (after (.form 0) run).pair.result = 2 := by decide +kernel

/-- R500: above 95 °C the temperature event is raised, and below 90 °C it ends. -/
theorem test_temperature :
    (after (.tempReading 951) run).health.tempHigh = true ∧ (after (.tempReading 900) hot).health.tempHigh = true ∧
      (after (.tempReading 899) hot).health.tempHigh = false := by decide +kernel

/-- R511: a request with nothing chosen is refused with reason 3; one for the Epong link is armed. -/
theorem test_trials :
    (after (.trlArmRequest 0) (trialUnit 0x100000000 none)).trials.refuse = 3 ∧
      (after (.trlArmRequest 0) (trialUnit 0x100000001 none)).trials.arm.isSome = true := by decide +kernel

/-- R523, R526: a write without the claim overruns; with it the word lands in the staging area. -/
theorem test_window :
    (getCtx (after (.mgwDataWrite 0 7) (withCtx { Ctx.reset with target := 1 } run)) 0).overrun = true ∧
      (after (.mgwDataWrite 0 0x04030201) (withCtx (claimed 1) run)).mgmt.image = [1, 2, 3, 4] := by decide +kernel

/-- R539: the first image key is fused without a signature, when its change has ended. -/
theorem test_key_order :
    let t := after .mgwKeyChange (after (.keyOrder 0) (keyUnit order (claimed 3)))
    (t.mgmt.keys[1]?).map (·.state) = some .programmed ∧ (t.mgmt.keys[1]?).map (·.hash) = some (List.replicate 48 7) := by
  decide +kernel

/-- R550: a device reset empties DRN_COUNT and keeps flash and fuses. -/
theorem test_device_reset :
    (after .deviceReset testUnit).drone.count = 0 ∧ (after .deviceReset testUnit).boot = .reset := by decide +kernel

/-- R34: an edge counts one tick. -/
theorem test_tick : (after .tickEdge run).drone.count = 1 := by decide +kernel

end Sys2Proof.Tests
end

/-! O3: the frame of the whole machine. A command's footprint is the mask that hides what `touches` lists for it; each
command keeps the view through its own footprint (Laws/Commands), so every part that it does not list is the same. -/

namespace Sys2Proof.Machine

open Sys2Proof

/-- The mask that hides what a command may change. -/
def footprint (c : Instr) (p : Piece) : Bool := (touches c).contains p

/-- What a footprint shows is what `touches` does not list. -/
theorem footprint_eq_false {c : Instr} {p : Piece} : footprint c p = false ↔ p ∉ touches c := by
  simp [footprint]

/-- Each command keeps the view through its own footprint. -/
theorem view_exec (c : Instr) (s t : State) (h : exec c s = .next t) : view (footprint c) t = view (footprint c) s := by
  cases c with
  | deviceReset => apply view_execDeviceReset (h := h) <;> rfl
  | supplyBrownout => apply view_execSupplyBrownout (h := h) <;> rfl
  | porNRelease straps tj => apply view_execPorNRelease (h := h) <;> rfl
  | imageVerifyDone => apply view_execImageVerifyDone (h := h) <;> rfl
  | reloadPrepare => apply view_execReloadPrepare (h := h) <;> rfl
  | reloadApply => apply view_execReloadApply (h := h) <;> rfl
  | imageRunning => apply view_execImageRunning (h := h) <;> rfl
  | liveVerifyDone => apply view_execLiveVerifyDone (h := h) <;> rfl
  | livePairTimeout => apply view_execLivePairTimeout (h := h) <;> rfl
  | tickEdge => apply view_execTickEdge (h := h) <;> rfl
  | caravanSeal late => apply view_execCaravanSeal (h := h) <;> rfl
  | drnOverrun leg => exact view_execDrnOverrun (h0 := rfl) (h := h)
  | drnLegHung leg => exact view_execDrnLegHung (h0 := rfl) (h := h)
  | drnUrgentSet stream => apply view_execDrnUrgentSet (h := h) <;> rfl
  | drnBgHoldWrite f value => apply view_execDrnBgHoldWrite (h := h) <;> rfl
  | jrnCeilStale => apply view_execJrnCeilStale (h := h) <;> rfl
  | jrnWtExit => apply view_execJrnWtExit (h := h) <;> rfl
  | ringEnable f ring value => apply view_execRingEnable (h := h) <;> rfl
  | ringDisable f ring value => apply view_execRingDisable (h := h) <;> rfl
  | doorbell f group => exact view_execDoorbell (h0 := rfl) (h := h)
  | groupScan => apply view_execGroupScan (h := h) <;> rfl
  | entryFetchDone ring bytes => apply view_execEntryFetchDone (h := h) <;> rfl
  | sqFetchError ring => apply view_execSqFetchError (h := h) <;> rfl
  | stallRelease ring => apply view_execStallRelease (h := h) <;> rfl
  | cqCiWrite f ring value => apply view_execCqCiWrite (h := h) <;> rfl
  | cseraiMove ring => apply view_execCseraiMove (h := h) <;> rfl
  | commandComplete ring => apply view_execCommandComplete (h := h) <;> rfl
  | cqWriteError ring => apply view_execCqWriteError (h := h) <;> rfl
  | functionLevelReset f => apply view_execFunctionLevelReset (h := h) <;> rfl
  | msixDisable f => apply view_execMsixDisable (h := h) <;> rfl
  | read cmd mem => apply view_execRead (h := h) <;> rfl
  | write cmd lists data => apply view_execWrite (h := h) <;> rfl
  | writeZeroes cmd => apply view_execWriteZeroes (h := h) <;> rfl
  | deallocate cmd => apply view_execDeallocate (h := h) <;> rfl
  | flush cmd => apply view_execFlush (h := h) <;> rfl
  | verify cmd => apply view_execVerify (h := h) <;> rfl
  | volCreate cmd => apply view_execVolCreate (h := h) <;> rfl
  | volDelete cmd => apply view_execVolDelete (h := h) <;> rfl
  | volResize cmd => apply view_execVolResize (h := h) <;> rfl
  | volQuery cmd => apply view_execVolQuery (h := h) <;> rfl
  | hostMemoryError cmd => apply view_execHostMemoryError (h := h) <;> rfl
  | dmaStart f ch => apply view_execDmaStart (h := h) <;> rfl
  | dmaPause f ch => apply view_execDmaPause (h := h) <;> rfl
  | dmaUnpause f ch => apply view_execDmaUnpause (h := h) <;> rfl
  | dmaPaused ch => exact view_execDmaPaused (h0 := rfl) (h := h)
  | descriptorFetch ch bytes => apply view_execDescriptorFetch (h := h) <;> rfl
  | pacingRequest src => apply view_execPacingRequest (h := h) <;> rfl
  | dmaWriteResponse ch => apply view_execDmaWriteResponse (h := h) <;> rfl
  | dmaShCommit f ch sameCycle => apply view_execDmaShCommit (h := h) <;> rfl
  | dmaBusError ch write kind cause beat => apply view_execDmaBusError (h := h) <;> rfl
  | faultActResume f ch => apply view_execFaultActResume (h := h) <;> rfl
  | faultActSkip f ch => apply view_execFaultActSkip (h := h) <;> rfl
  | faultActAbort f ch => apply view_execFaultActAbort (h := h) <;> rfl
  | reedSegmentCompare pair errA errB => apply view_execReedSegmentCompare (h := h) <;> rfl
  | voteResult leg => apply view_execVoteResult (h := h) <;> rfl
  | reedTestDue pair => exact view_execReedTestDue (h0 := rfl) (h := h)
  | reedTestResult pair okA okB differ => apply view_execReedTestResult (h := h) <;> rfl
  | plcSlotTagWrite f slot value => apply view_execPlcSlotTagWrite (h := h) <;> rfl
  | drainSet f slot => apply view_execDrainSet (h := h) <;> rfl
  | drainClear f slot => apply view_execDrainClear (h := h) <;> rfl
  | placementSnapshot => apply view_execPlacementSnapshot (h := h) <;> rfl
  | relocDone vol parcel => apply view_execRelocDone (h := h) <;> rfl
  | moveStart => apply view_execMoveStart (h := h) <;> rfl
  | moveCommit vol parcel => apply view_execMoveCommit (h := h) <;> rfl
  | moveAbandon vol parcel => apply view_execMoveAbandon (h := h) <;> rfl
  | runFree slot first => apply view_execRunFree (h := h) <;> rfl
  | release vol parcel => apply view_execRelease (h := h) <;> rfl
  | checkpointStart => apply view_execCheckpointStart (h := h) <;> rfl
  | plcCkpt => apply view_execPlcCkpt (h := h) <;> rfl
  | pageMissRead vol page copy => apply view_execPageMissRead (h := h) <;> rfl
  | tierHighWatermark => apply view_execTierHighWatermark (h := h) <;> rfl
  | plcPgSelWrite f value => apply view_execPlcPgSelWrite (h := h) <;> rfl
  | smcFill vol g => apply view_execSmcFill (h := h) <;> rfl
  | smcParkedRepresent vol parcel => apply view_execSmcParkedRepresent (h := h) <;> rfl
  | smcOffer => apply view_execSmcOffer (h := h) <;> rfl
  | smcOfferAnswer => apply view_execSmcOfferAnswer (h := h) <;> rfl
  | smcMergeDrain => apply view_execSmcMergeDrain (h := h) <;> rfl
  | smcPreload f value => apply view_execSmcPreload (h := h) <;> rfl
  | smcPreloadLock f value => apply view_execSmcPreloadLock (h := h) <;> rfl
  | smcUnlock f value => apply view_execSmcUnlock (h := h) <;> rfl
  | smcPreloadHeldStart => apply view_execSmcPreloadHeldStart (h := h) <;> rfl
  | smcPreloadDone => apply view_execSmcPreloadDone (h := h) <;> rfl
  | unlockAll f => apply view_execUnlockAll (h := h) <;> rfl
  | coalesceExpiry stripe => apply view_execCoalesceExpiry (h := h) <;> rfl
  | destagePlan stripe => apply view_execDestagePlan (h := h) <;> rfl
  | journalAppendDone => apply view_execJournalAppendDone (h := h) <;> rfl
  | intentRetire stripe => apply view_execIntentRetire (h := h) <;> rfl
  | jrnWtForce f on => exact view_execJrnWtForce (h0 := rfl) (h := h)
  | jrnDestageAll f => apply view_execJrnDestageAll (h := h) <;> rfl
  | pwrFailAssert => apply view_execPwrFailAssert (h := h) <;> rfl
  | dumpStart => apply view_execDumpStart (h := h) <;> rfl
  | dumpJournalSafe => apply view_execDumpJournalSafe (h := h) <;> rfl
  | dumpFlush => apply view_execDumpFlush (h := h) <;> rfl
  | jrnDumpDone => apply view_execJrnDumpDone (h := h) <;> rfl
  | restoreBegin found => apply view_execRestoreBegin (h := h) <;> rfl
  | restoreDriveTimeout slot => apply view_execRestoreDriveTimeout (h := h) <;> rfl
  | jrnRestoreDone pages => apply view_execJrnRestoreDone (h := h) <;> rfl
  | replay => apply view_execReplay (h := h) <;> rfl
  | epochRelease => apply view_execEpochRelease (h := h) <;> rfl
  | restoreResume => apply view_execRestoreResume (h := h) <;> rfl
  | driveCommandTimeout cid => apply view_execDriveCommandTimeout (h := h) <;> rfl
  | smartPoll slot warning used => apply view_execSmartPoll (h := h) <;> rfl
  | failOrder f slot => apply view_execFailOrder (h := h) <;> rfl
  | forgetReturned f slot => apply view_execForgetReturned (h := h) <;> rfl
  | rebuildParcelStart => apply view_execRebuildParcelStart (h := h) <;> rfl
  | rebuildStripeDone vol parcel => apply view_execRebuildStripeDone (h := h) <;> rfl
  | scrubStripeStart => apply view_execScrubStripeStart (h := h) <;> rfl
  | scrubCheckDone vol parcel stripe => apply view_execScrubCheckDone (h := h) <;> rfl
  | scrubBehind => apply view_execScrubBehind (h := h) <;> rfl
  | plcLostSelWrite f value => apply view_execPlcLostSelWrite (h := h) <;> rfl
  | clusterEnable f cluster value => apply view_execClusterEnable (h := h) <;> rfl
  | clusterDisable f cluster value => apply view_execClusterDisable (h := h) <;> rfl
  | drvPerstRelease cluster port => apply view_execDrvPerstRelease (h := h) <;> rfl
  | driveArrival cluster port index width rate => apply view_execDriveArrival (h := h) <;> rfl
  | adminCompletion pos answer => apply view_execAdminCompletion (h := h) <;> rfl
  | driveLinkDown pos => exact view_execDriveLinkDown (h0 := rfl) (h := h)
  | driveDepart pos => apply view_execDriveDepart (h := h) <;> rfl
  | cstsPoll pos cfs => exact view_execCstsPoll (h0 := rfl) (h := h)
  | driveDmaRefused slot => apply view_execDriveDmaRefused (h := h) <;> rfl
  | posMapAdopt f pos value => apply view_execPosMapAdopt (h := h) <;> rfl
  | posMapValidSet f pos value => apply view_execPosMapValidSet (h := h) <;> rfl
  | hemSample v i1 t => apply view_execHemSample (h := h) <;> rfl
  | hemSenseFault => apply view_execHemSenseFault (h := h) <;> rfl
  | sampleGap => exact view_execSampleGap (h0 := rfl) (h := h)
  | hemFull => apply view_execHemFull (h := h) <;> rfl
  | emptyAnchor => apply view_execEmptyAnchor (h := h) <;> rfl
  | hemRest => apply view_execHemRest (h := h) <;> rfl
  | reanchor => apply view_execReanchor (h := h) <;> rfl
  | hemStaleLearn => apply view_execHemStaleLearn (h := h) <;> rfl
  | calReq f => apply view_execCalReq (h := h) <;> rfl
  | calAbort f => apply view_execCalAbort (h := h) <;> rfl
  | calDischargeStart => apply view_execCalDischargeStart (h := h) <;> rfl
  | calDischargeEnd => apply view_execCalDischargeEnd (h := h) <;> rfl
  | shipReq f => exact view_execShipReq (h0 := rfl) (h := h)
  | shipCancel f => exact view_execShipCancel (h0 := rfl) (h := h)
  | hemShip => apply view_execHemShip (h := h) <;> rfl
  | hemChg level => apply view_execHemChg (h := h) <;> rfl
  | flitReceive hdr payload crc => apply view_execFlitReceive (h := h) <;> rfl
  | flitAckReceive fseq refuse => apply view_execFlitAckReceive (h := h) <;> rfl
  | retrainTimeout => apply view_execRetrainTimeout (h := h) <;> rfl
  | epgLinkDown => apply view_execEpgLinkDown (h := h) <;> rfl
  | flitSilenceTimeout => apply view_execFlitSilenceTimeout (h := h) <;> rfl
  | epgLinkUp => apply view_execEpgLinkUp (h := h) <;> rfl
  | hello pairId dieId unit claim digests ledgerSeq => apply view_execHello (h := h) <;> rfl
  | input stamp iseq what => apply view_execInput (h := h) <;> rfl
  | jrec stamp r => apply view_execJrec (h := h) <;> rfl
  | page stamp stripe block jseq data pi => apply view_execPage (h := h) <;> rfl
  | dinput stamp stripe block data => apply view_execDinput (h := h) <;> rfl
  | digest stamp iseq jseq lseq ledgerCrc parityCrc jseqs => apply view_execDigest (h := h) <;> rfl
  | ack jseq tick iseq => apply view_execAck (h := h) <;> rfl
  | base what => apply view_execBase (h := h) <;> rfl
  | baseDone => apply view_execBaseDone (h := h) <;> rfl
  | mismatch tick => exact view_execMismatch (h0 := rfl) (h := h)
  | drop => apply view_execDrop (h := h) <;> rfl
  | handover tick => exact view_execHandover (h0 := rfl) (h := h)
  | liveImg imgId target => apply view_execLiveImg (h := h) <;> rfl
  | digestUnconfirmedDrop => apply view_execDigestUnconfirmedDrop (h := h) <;> rfl
  | ackTimeoutDrop => apply view_execAckTimeoutDrop (h := h) <;> rfl
  | relayPostRound => apply view_execRelayPostRound (h := h) <;> rfl
  | postRoundDurable => apply view_execPostRoundDurable (h := h) <;> rfl
  | postRead => apply view_execPostRead (h := h) <;> rfl
  | postReadResult blocks => apply view_execPostReadResult (h := h) <;> rfl
  | completionFenceHold => exact view_execCompletionFenceHold (h0 := rfl) (h := h)
  | epgTakeover => apply view_execEpgTakeover (h := h) <;> rfl
  | claimAcquired => apply view_execClaimAcquired (h := h) <;> rfl
  | activeLostUnsynced => apply view_execActiveLostUnsynced (h := h) <;> rfl
  | powerupReservation reports => apply view_execPowerupReservation (h := h) <;> rfl
  | join f => exact view_execJoin (h0 := rfl) (h := h)
  | salvage f => apply view_execSalvage (h := h) <;> rfl
  | switchBack f => exact view_execSwitchBack (h0 := rfl) (h := h)
  | form f => apply view_execForm (h := h) <;> rfl
  | switchBackQuiesce => apply view_execSwitchBackQuiesce (h := h) <;> rfl
  | switchBackLapse => apply view_execSwitchBackLapse (h := h) <;> rfl
  | epgVolClearGo f value => apply view_execEpgVolClearGo (h := h) <;> rfl
  | epgPolicyWrite f value => apply view_execEpgPolicyWrite (h := h) <;> rfl
  | sramPatrol found => apply view_execSramPatrol (h := h) <;> rfl
  | hbmPatrol pc rows ue done => apply view_execHbmPatrol (h := h) <;> rfl
  | eccUncorrectable place loc => apply view_execEccUncorrectable (h := h) <;> rfl
  | agingMeasure margins => apply view_execAgingMeasure (h := h) <;> rfl
  | phyMarginMeasure group pct => apply view_execPhyMarginMeasure (h := h) <;> rfl
  | tempReading tj => apply view_execTempReading (h := h) <;> rfl
  | thermalStop => apply view_execThermalStop (h := h) <;> rfl
  | thermComparator => exact view_execThermComparator (h0 := rfl) (h := h)
  | hltSnapWrite f => exact view_execHltSnapWrite (h0 := rfl) (h := h)
  | evtMaskWrite f w value => exact view_execEvtMaskWrite (h0 := rfl) (h := h)
  | evtLogSelWrite f value => apply view_execEvtLogSelWrite (h := h) <;> rfl
  | trlArmRequest f => apply view_execTrlArmRequest (h := h) <;> rfl
  | trlDisarm f => apply view_execTrlDisarm (h := h) <;> rfl
  | trlCountDone => apply view_execTrlCountDone (h := h) <;> rfl
  | mgwDataWrite ctx value => apply view_execMgwDataWrite (h := h) <;> rfl
  | mgwDataRead ctx => apply view_execMgwDataRead (h := h) <;> rfl
  | mgwClaim ctx => exact view_execMgwClaim (h0 := rfl) (h := h)
  | mgwRelease ctx => exact view_execMgwRelease (h0 := rfl) (h := h)
  | load ctx => apply view_execLoad (h := h) <;> rfl
  | loadLive ctx => apply view_execLoadLive (h := h) <;> rfl
  | imgToFlash ctx => apply view_execImgToFlash (h := h) <;> rfl
  | fwUpdate ctx => apply view_execFwUpdate (h := h) <;> rfl
  | hemSave ctx => apply view_execHemSave (h := h) <;> rfl
  | hemRestore ctx => apply view_execHemRestore (h := h) <;> rfl
  | keyOrder ctx => apply view_execKeyOrder (h := h) <;> rfl
  | healthSnap ctx => apply view_execHealthSnap (h := h) <;> rfl
  | mgwClaimBroken ctx => apply view_execMgwClaimBroken (h := h) <;> rfl
  | flashWriteDone ok => apply view_execFlashWriteDone (h := h) <;> rfl
  | mgwKeyChange => apply view_execMgwKeyChange (h := h) <;> rfl
  | mgmtWatchdogReset => apply view_execMgmtWatchdogReset (h := h) <;> rfl
  | winWrite ctx addr words => apply view_execWinWrite (h := h) <;> rfl
  | winRead ctx addr count => apply view_execWinRead (h := h) <;> rfl
  | winCtl ctx value => apply view_execWinCtl (h := h) <;> rfl
  | order ctx code arg => apply view_execOrder (h := h) <;> rfl
  | alertReg ctx eid on => apply view_execAlertReg (h := h) <;> rfl
  | mctpControlMessage ctx code arg => apply view_execMctpControlMessage (h := h) <;> rfl
  | smbusAlertResponse => apply view_execSmbusAlertResponse (h := h) <;> rfl
  | portResetAssert port => apply view_execPortResetAssert (h := h) <;> rfl
  | portResetRelease port => apply view_execPortResetRelease (h := h) <;> rfl
  | epgPrsntChange high => apply view_execEpgPrsntChange (h := h) <;> rfl
  | testModeAssert high => apply view_execTestModeAssert (h := h) <;> rfl
  | registerWrite f bar offset width value => apply view_execRegisterWrite (h := h) <;> rfl
  | driveCompletionArrival cid status data => apply view_execDriveCompletionArrival (h := h) <;> rfl
  | dmaReadCompletion ch data => apply view_execDmaReadCompletion (h := h) <;> rfl
  | capToExpiry pos => apply view_execCapToExpiry (h := h) <;> rfl
  | msixUnmask f vector => apply view_execMsixUnmask (h := h) <;> rfl

/-- The queue and the die identity show through the footprint of every command. -/
theorem footprint_pending_dieId (c : Instr) : footprint c .pending = false ∧ footprint c .dieId = false := by
  cases c <;> exact ⟨rfl, rfl⟩

/-- Settles O3: each command keeps the view through its own footprint, which shows every part it does not list. -/
theorem footprintOfEveryCommand : Obligations.FootprintOfEveryCommand := by
  refine ⟨fun c s t h p hp => same_of_view (view_exec c s t h) (footprint_eq_false.2 hp), fun c => ?_⟩
  obtain ⟨hq, hd⟩ := footprint_pending_dieId c
  exact ⟨footprint_eq_false.1 hq, footprint_eq_false.1 hd⟩

end Sys2Proof.Machine

/-! O59: register writes. Fields of a masked word; an aligned write of 8 bytes as the write of its register, by the outcome of
its checks; for a register of a PF's blocks, as the write of its block; then each clause of the statement. -/

namespace Sys2Proof.Machine

open Sys2Proof

/-! ### Fields of a masked word -/

/-- A field of a register value as the bits taken out of it. -/
theorem bits_eq_extract (w : Word) (lo n : Nat) : bits w lo n = (w.extractLsb' lo n).toNat := by
  simp [bits, Nat.shiftRight_eq_div_pow]

/-- A mask that holds all of a field keeps it. -/
theorem bits_and_of_held {m : Word} {lo n : Nat} (w : Word) (h : m.extractLsb' lo n = BitVec.allOnes n) :
    bits (w &&& m) lo n = bits w lo n := by
  rw [bits_eq_extract, bits_eq_extract, BitVec.extractLsb'_and, h, BitVec.and_allOnes]

/-- A mask that holds none of a field clears it. -/
theorem bits_and_of_cleared {m : Word} {lo n : Nat} (w : Word) (h : m.extractLsb' lo n = 0) : bits (w &&& m) lo n = 0 := by
  rw [bits_eq_extract, BitVec.extractLsb'_and, h]
  simp

/-- A word is zero when both its halves are. -/
theorem eq_zero_iff_halves (w : Word) : w = 0 ↔ bits w 0 32 = 0 ∧ bits w 32 32 = 0 := by
  have hw := w.isLt
  simp only [bits, Nat.pow_zero, Nat.div_one, ← BitVec.toNat_inj, BitVec.ofNat_eq_ofNat, BitVec.toNat_ofNat]
  omega

/-- Beyond a field of 32 bits, the reserved bits of a value are its high half. -/
theorem reserved_high_eq_zero_iff (v : Word) : v &&& ~~~ (0xFFFFFFFF : Word) = 0 ↔ bits v 32 32 = 0 := by
  rw [eq_zero_iff_halves, bits_and_of_cleared v (by decide), bits_and_of_held v (by decide)]
  simp

/-! ### A write of 8 bytes (R9, R12, R13, R179) -/

/-- An aligned write of 8 bytes outside MGW_DATA is a write of its register. -/
theorem registerWrite_eq_regWrite {f off : Nat} {v : Word} {s : State} (ha : off % 8 = 0) (hd : dataAt s f off = false) :
    exec (.registerWrite f 0 off 8 v) s = .next (regWrite f off v s) := by
  simp [exec, execRegisterWrite, bar0Write, ha, hd]

/-- A write of no register is discarded. -/
theorem regWrite_of_none {f off : Nat} (v : Word) {s : State} (hm : maskAt s f off = none) : regWrite f off v s = s := by
  simp [regWrite, hm]

/-- A legitimate value is written. -/
theorem regWrite_of_legitimate {f off : Nat} {v : Word} {m : RegMask} {s : State} (hm : maskAt s f off = some m)
    (hv : v &&& ~~~ m.all = 0) : regWrite f off v s = barWrite f off v s := by
  simp [regWrite, hm, hv]

/-- A reserved bit leaves the writable fields a free value, but for a doorbell. -/
theorem regWrite_of_reserved {f off : Nat} {v : Word} {m : RegMask} {s : State} (hm : maskAt s f off = some m)
    (hv : v &&& ~~~ m.all ≠ 0) (hb : bellAt s f off = none) : regWrite f off v s = freeWrite m (barWrite f off) s := by
  simp only [regWrite, regError, hm, hb, if_pos hv, Option.isSome_none, Bool.false_eq_true, if_false]

/-- A host error on a register without writable fields changes nothing. -/
theorem freeWrite_of_no_fields {m : RegMask} (act : Word → State → State) (s : State) (h : m.rw ||| m.w1c = 0) :
    freeWrite m act s = s := by
  simp [freeWrite, h]

/-- A host error on a register with writable fields writes them with a free value. -/
theorem freeWrite_of_fields {m : RegMask} (act : Word → State → State) (s : State) (h : m.rw ||| m.w1c ≠ 0) :
    freeWrite m act s = act (Config.freeWord s.free &&& (m.rw ||| m.w1c)) { s with free := s.free + 1 } := by
  simp only [freeWrite, drawFree, if_neg h]

/-- A row's write with a reserved bit writes its register's fields with a free value. -/
theorem rowWrite_of_reserved {o : Option RegMask} {m : RegMask} {w : Word} (act : Word → State → State) (s : State)
    (ho : o = some m) (hr : reservedSet o w = true) (hw : m.rw ||| m.w1c ≠ 0) :
    rowWrite o w act s = act (Config.freeWord s.free &&& (m.rw ||| m.w1c)) { s with free := s.free + 1 } := by
  subst ho
  rw [rowWrite, if_pos hr, ← freeWrite_of_fields act s hw]
  rfl

/-- A register without reserved bits takes every value. -/
theorem no_reserved_of_full {m : RegMask} (v : Word) (h : m.all = BitVec.allOnes 64) : v &&& ~~~ m.all = 0 := by
  simp [h]

/-! ### Registers of a PF's blocks -/

/-- An aligned offset beyond the rings and doorbells, outside the MGW block, and not HEM_SENSE_CFG, whose access rules are
its own (R75). -/
def plainOffset (off : Nat) : Bool :=
  off % 8 == 0 && decide (0x802000 ≤ off) && off / 0x100000 != 0x19 && off != 0x1700020

/-- A function whose registers answer reads them too. -/
theorem barSeen_of_barOpen {s : State} {f : Nat} (h : barOpen s f = true) : barSeen s f = true := by
  simp only [barOpen, serving, Bool.and_eq_true] at h
  simp [barSeen, h]

/-- A PF whose BAR0 answers in every block reads its registers too. -/
theorem pfSeen_of_pfFull {s : State} {f : Nat} (h : pfFull s f = true) : pfSeen s f = true := by
  simp only [pfFull, Bool.and_eq_true] at h
  obtain ⟨hpf, hopen⟩ := h
  simp [pfSeen, hpf, barSeen_of_barOpen hopen]

theorem ne_firmware_of_isPf {f : Nat} (h : isPf f = true) : f ≠ firmware := by
  rintro rfl
  simp [isPf, firmware] at h

theorem aligned_of_plain {off : Nat} (h : plainOffset off = true) : off % 8 = 0 := by
  simp only [plainOffset, Bool.and_eq_true, beq_iff_eq] at h
  obtain ⟨⟨⟨haligned, -⟩, -⟩, -⟩ := h
  exact haligned

/-- No doorbell is plain. -/
theorem bellAt_of_plain {off : Nat} (s : State) (f : Nat) (h : plainOffset off = true) : bellAt s f off = none := by
  simp only [plainOffset, Bool.and_eq_true, decide_eq_true_eq] at h
  simp [bellAt, h]

/-- No ring register is plain. -/
theorem ringAt_of_plain {off : Nat} (s : State) (f : Nat) (h : plainOffset off = true) : ringAt s f off = none := by
  simp only [plainOffset, Bool.and_eq_true, decide_eq_true_eq] at h
  have : 0x800000 ≤ off := by omega
  simp [ringAt, this]

/-- MGW_DATA is not plain. -/
theorem dataAt_of_plain {off : Nat} (s : State) (f : Nat) (h : plainOffset off = true) : dataAt s f off = false := by
  simp only [plainOffset, Bool.and_eq_true, decide_eq_true_eq, bne_iff_ne, beq_iff_eq] at h
  have : off / 8 * 8 ≠ 0x1900008 := by omega
  simp [dataAt, this]

/-- A PF reaches a plain register through its block. -/
theorem maskAt_of_plain {s : State} {f off : Nat} (hp : pfFull s f = true) (ho : plainOffset off = true) :
    maskAt s f off = blockMask s f off := by
  have hbell := bellAt_of_plain s f ho
  have hring := ringAt_of_plain s f ho
  simp only [pfFull, Bool.and_eq_true] at hp
  obtain ⟨hpf, hopen⟩ := hp
  simp only [plainOffset, Bool.and_eq_true, bne_iff_ne] at ho
  simp [maskAt, senseOpen, ne_firmware_of_isPf hpf, hpf, hopen, barSeen_of_barOpen hopen, hbell, hring, ho]

/-- A plain register written is its block written. -/
theorem barWrite_of_plain {off : Nat} (f : Nat) (w : Word) (s : State) (ho : plainOffset off = true) :
    barWrite f off w s = blockWrite f off w s := by
  simp [barWrite, bellAt_of_plain s f ho, ringAt_of_plain s f ho]

/-- A legitimate write of a plain register by a PF is its block's write. -/
theorem registerWrite_plain {s : State} {f off : Nat} {v : Word} {m : RegMask} (hp : pfFull s f = true)
    (ho : plainOffset off = true) (hm : blockMask s f off = some m) (hv : v &&& ~~~ m.all = 0) :
    exec (.registerWrite f 0 off 8 v) s = .next (blockWrite f off v s) := by
  rw [registerWrite_eq_regWrite (aligned_of_plain ho) (dataAt_of_plain s f ho),
    regWrite_of_legitimate ((maskAt_of_plain hp ho).trans hm) hv, barWrite_of_plain f v s ho]

/-- A plain register written by a PF with a reserved bit takes a free value in its writable fields. -/
theorem registerWrite_plain_reserved {s : State} {f off : Nat} {v : Word} {m : RegMask} (hp : pfFull s f = true)
    (ho : plainOffset off = true) (hm : blockMask s f off = some m) (hv : v &&& ~~~ m.all ≠ 0) (hw : m.rw ||| m.w1c ≠ 0) :
    exec (.registerWrite f 0 off 8 v) s = .next
      (blockWrite f off (Config.freeWord s.free &&& (m.rw ||| m.w1c)) { s with free := s.free + 1 }) := by
  rw [registerWrite_eq_regWrite (aligned_of_plain ho) (dataAt_of_plain s f ho),
    regWrite_of_reserved ((maskAt_of_plain hp ho).trans hm) hv (bellAt_of_plain s f ho), freeWrite_of_fields _ _ hw,
    barWrite_of_plain f _ _ ho]

/-- A plain register's legitimate write is the command of its own row, when that answers the block's write. -/
theorem registerWrite_eq_row {s : State} {f off : Nat} {v : Word} {m : RegMask} {i : Instr} (hp : pfFull s f = true)
    (ho : plainOffset off = true) (hm : blockMask s f off = some m) (hv : v &&& ~~~ m.all = 0)
    (hi : exec i s = .next (blockWrite f off v s)) : exec (.registerWrite f 0 off 8 v) s = exec i s :=
  (registerWrite_plain hp ho hm hv).trans hi.symm

/-! ### CAL_DIRTY_MAX, and the registers whose bits have rows of their own -/

/-- CAL_DIRTY_MAX is written with its 32 bits. -/
theorem registerWrite_calDirtyMax {s : State} {f : Nat} {v : Word} (hp : pfFull s f = true) (hv : bits v 32 32 = 0) :
    exec (.registerWrite f 0 0x1700018 8 v) s = .next { s with hem := { s.hem with calDirtyMax := bits v 0 32 } } :=
  registerWrite_plain hp (by decide) rfl ((reserved_high_eq_zero_iff v).2 hv)

/-- CAL_DIRTY_MAX written with a reserved bit takes a free value. -/
theorem registerWrite_calDirtyMax_reserved {s : State} {f : Nat} {v : Word} (hp : pfFull s f = true) (hv : bits v 32 32 ≠ 0) :
    exec (.registerWrite f 0 0x1700018 8 v) s = .next { s with
      free := s.free + 1, hem := { s.hem with calDirtyMax := bits (Config.freeWord s.free) 0 32 } } := by
  rw [registerWrite_plain_reserved hp (by decide) rfl (mt (reserved_high_eq_zero_iff v).1 hv) (by decide),
    ← bits_and_of_held (m := 0xFFFFFFFF) (Config.freeWord s.free) (by decide)]
  rfl

/-- The orders of EPG_CMD, the bits of HEM_CTL and TRL_CTL and HLT_SNAP are the commands of their rows. -/
theorem registerWrite_rows {s : State} {f : Nat} (v : Word) (hp : pfFull s f = true) :
    exec (.registerWrite f 0 0x1600020 8 1) s = exec (.join f) s ∧
    exec (.registerWrite f 0 0x1600020 8 2) s = exec (.salvage f) s ∧
    exec (.registerWrite f 0 0x1600020 8 3) s = exec (.switchBack f) s ∧
    exec (.registerWrite f 0 0x1600020 8 4) s = exec (.form f) s ∧
    exec (.registerWrite f 0 0x1700000 8 1) s = exec (.calReq f) s ∧
    exec (.registerWrite f 0 0x1700000 8 2) s = exec (.calAbort f) s ∧
    exec (.registerWrite f 0 0x1700000 8 4) s = exec (.shipReq f) s ∧
    exec (.registerWrite f 0 0x1700000 8 8) s = exec (.shipCancel f) s ∧
    exec (.registerWrite f 0 0x1A00010 8 1) s = exec (.trlArmRequest f) s ∧
    exec (.registerWrite f 0 0x1A00010 8 2) s = exec (.trlDisarm f) s ∧
    exec (.registerWrite f 0 0x1B00028 8 v) s = exec (.hltSnapWrite f) s := by
  have hs := pfSeen_of_pfFull hp
  exact ⟨registerWrite_eq_row hp (by decide) rfl (by decide) (if_pos hp),
    registerWrite_eq_row hp (by decide) rfl (by decide) (if_pos hp),
    registerWrite_eq_row hp (by decide) rfl (by decide) (if_pos hp),
    registerWrite_eq_row hp (by decide) rfl (by decide) (if_pos hp),
    registerWrite_eq_row hp (by decide) rfl (by decide) (if_pos hs),
    registerWrite_eq_row hp (by decide) rfl (by decide) (if_pos hs),
    registerWrite_eq_row hp (by decide) rfl (by decide) (if_pos hs),
    registerWrite_eq_row hp (by decide) rfl (by decide) (if_pos hs),
    registerWrite_eq_row hp (by decide) rfl (by decide) (if_pos hs),
    registerWrite_eq_row hp (by decide) rfl (by decide) (if_pos hs),
    registerWrite_eq_row hp (by decide) rfl (no_reserved_of_full v (by decide)) (if_pos hs)⟩

/-! ### Reserved bits in a row's own write (R13, R179) -/

/-- PLC_PG_SEL written by its row with a reserved bit selects a free entry. -/
theorem plcPgSelWrite_of_reserved {s : State} {f : Nat} {v : Word} (hp : pfFull s f = true)
    (hr : reservedSet (plcMask 0x40) v = true) :
    ∃ t, exec (.plcPgSelWrite f v) s = .next t ∧ t.free = s.free + 1 ∧ t.ledger.pgSel = bits (Config.freeWord s.free) 0 18 := by
  have hrow := rowWrite_of_reserved writePgSel s rfl hr (by decide)
  exact ⟨_, (if_pos (pfSeen_of_pfFull hp)).trans (congrArg _ hrow), rfl, bits_and_of_held _ (by decide)⟩

/-- EPG_POLICY written by its row with a reserved bit leaves a free HALT, and nothing else of the pair. -/
theorem epgPolicyWrite_of_reserved {s : State} {f : Nat} {v : Word} (hp : pfFull s f = true)
    (hr : reservedSet (epgMask 0x28) v = true) :
    exec (.epgPolicyWrite f v) s = .next { s with
      free := s.free + 1, pair := { s.pair with halt := bit (Config.freeWord s.free) 0 } } := by
  have hrow := rowWrite_of_reserved writePolicy s rfl hr (by decide)
  have hbit : bit (Config.freeWord s.free &&& 1) 0 = bit (Config.freeWord s.free) 0 := by simp [bit]
  rw [← hbit]
  exact (if_pos hp).trans (congrArg _ hrow)

/-- A preload register written with GO clear sets OP and COUNT alone, and starts nothing. -/
theorem writePreload_of_no_go {f : Nat} {w : Word} (s : State) (h : bit w 0 = false) :
    writePreload f w s = { s with smc := modSmcPf f (fun x =>
      { x with op := if bits w 1 2 = 3 then x.op else bits w 1 2, count := bits w 8 24 }) s.smc } := by
  simp [writePreload, h]

theorem smcPf_modSmcPf (f : Nat) (g : SmcPf → SmcPf) (c : Smc) : smcPf (modSmcPf f g c) f = g (smcPf c f) := by
  unfold smcPf modSmcPf
  split <;> rfl

/-- A PF's own registers changed leave the runs and the lines. -/
theorem modSmcPf_frame (f : Nat) (g : SmcPf → SmcPf) (c : Smc) :
    (modSmcPf f g c).run = c.run ∧ (modSmcPf f g c).heldOp = c.heldOp ∧ (modSmcPf f g c).lines = c.lines := by
  unfold modSmcPf
  split <;> exact ⟨rfl, rfl, rfl⟩

/-- SMC_PRELOAD written by its row with a reserved bit: the free value's GO is clear, so nothing starts. -/
theorem smcPreload_of_reserved {s : State} {f : Nat} {v : Word} (hp : pfFull s f = true)
    (hr : reservedSet (smcMask 0x18) v = true) :
    ∃ t, exec (.smcPreload f v) s = .next t ∧ t.free = s.free + 1 ∧ t.smc.run = s.smc.run ∧ t.smc.heldOp = s.smc.heldOp ∧
      t.smc.lines = s.smc.lines ∧ (smcPf t.smc f).count = bits (Config.freeWord s.free) 8 24 := by
  have hgo : bit (Config.freeWord s.free &&& 0xFFFFFF06) 0 = false := by simp [bit]
  have hrow := (rowWrite_of_reserved (writePreload f) s rfl hr (by decide)).trans (writePreload_of_no_go _ hgo)
  obtain ⟨hrun, hheld, hlines⟩ := modSmcPf_frame f _ s.smc
  refine ⟨_, (if_pos (by simp [hp, hr])).trans (congrArg _ hrow), rfl, hrun, hheld, hlines, ?_⟩
  rw [smcPf_modSmcPf]
  exact bits_and_of_held _ (by decide)

/-! ### Doorbells (R124), MGW_DATA (R523) and the MSI-X table (R143) -/

/-- A doorbell's offset lies in DBL_GRP, and names a group of its function. -/
theorem bellAt_eq_some {s : State} {f off g : Nat} (h : bellAt s f off = some g) :
    0x800000 ≤ off ∧ off < 0x802000 ∧ groupOwner s g = some f := by
  simp only [bellAt, Option.ite_none_left_eq_some, Option.ite_none_right_eq_some] at h
  obtain ⟨hrange, ⟨howner, -⟩, hg⟩ := h
  rw [Option.some.inj hg] at howner
  exact ⟨by omega, by omega, howner⟩

/-- A doorbell has no reserved bits. -/
theorem maskAt_of_bell {s : State} {f off g : Nat} (hf : f ≠ firmware) (ho : barOpen s f = true)
    (hb : bellAt s f off = some g) : maskAt s f off = some (regMask [] [] [(0, 64)] []) := by
  obtain ⟨hlo, hhi, -⟩ := bellAt_eq_some hb
  have hblock : off / 0x100000 = 8 := by omega
  have hsense : off ≠ 0x1700020 := by omega
  simp [maskAt, hf, hblock, senseOpen, hsense, seenBlock, ho, hb]

/-- A write of a doorbell register rings it, whatever its value. -/
theorem registerWrite_doorbell {s : State} {f off g : Nat} (v : Word) (ho : barOpen s f = true) (hf : f ≠ firmware)
    (ha : off % 8 = 0) (hb : bellAt s f off = some g) : exec (.registerWrite f 0 off 8 v) s = exec (.doorbell f g) s := by
  obtain ⟨-, hhi, howner⟩ := bellAt_eq_some hb
  have hd : dataAt s f off = false := by
    have : off / 8 * 8 ≠ 0x1900008 := by omega
    simp [dataAt, this]
  rw [registerWrite_eq_regWrite ha hd,
    regWrite_of_legitimate (maskAt_of_bell hf ho hb) (no_reserved_of_full v (by decide))]
  simp [exec, execDoorbell, ho, howner, barWrite, hb]

/-- A 4-byte write of MGW_DATA is the command of its own row. -/
theorem registerWrite_mgwData {s : State} {f : Nat} (v : Word) (hp : pfOpen s f = true) (hc : ctxOpen s (portOf f) = true) :
    exec (.registerWrite f 0 0x1900008 4 v) s = exec (.mgwDataWrite (portOf f) (v.setWidth 32)) s := by
  simp [exec, execRegisterWrite, execMgwDataWrite, bar0Write, dataAt, dataWrite, hp, hc]

/-- A 4-byte write of BAR2 at word 2 of a vector's table entry writes the entry's message data. -/
theorem registerWrite_msixData {s : State} {f n : Nat} (v : Word) (ho : barOpen s f = true)
    (hn : n < (ringEnt s f).vectors) (hlt : n < 2048) :
    exec (.registerWrite f 2 (16 * n + 8) 4 v) s = .next (msixPoke f n 2 (bits v 0 32) s) := by
  have hoff : 16 * n + 8 < 0x8000 := by omega
  have hvec : (16 * n + 8) / 16 = n := by omega
  have halign : (16 * n + 8) % 4 = 0 := by omega
  simp [exec, execRegisterWrite, barSeen_of_barOpen ho, bar2Write, bar2Word, halign, hoff, hvec, hn]

/-- A function whose table lists a vector is not as at reset. -/
theorem ne_reset_of_entry {q : Func} {n : Nat} (h : tabGet (0, 0) q.table n ≠ (0, 0)) : q ≠ Func.reset := by
  rintro rfl
  exact h rfl

/-- Message data other than 0 is read back; the address, the mask bits and the other functions stay. -/
theorem msixPoke_data {s : State} {f n x : Nat} (hx : x ≠ 0) :
    tabGet (0, 0) (getFunc (msixPoke f n 2 x s) f).table n = ((tabGet (0, 0) (getFunc s f).table n).1, x) ∧
      (getFunc (msixPoke f n 2 x s) f).vecMask = (getFunc s f).vecMask ∧
      ∀ k, k ≠ f → getFunc (msixPoke f n 2 x s) k = getFunc s k := by
  have hput := tabGet_tabPut_same ((0 : Word), 0) (getFunc s f).table n
    ((tabGet (0, 0) (getFunc s f).table n).1, x) (.inl (by simp [hx]))
  have hown : getFunc (msixPoke f n 2 x s) f = { getFunc s f with
      table := tabPut (0, 0) (getFunc s f).table n ((tabGet (0, 0) (getFunc s f).table n).1, x) } :=
    tabGet_tabPut_same _ _ _ _ (.inl (ne_reset_of_entry (n := n) fun h0 => hx (congrArg Prod.snd (hput.symm.trans h0))))
  refine ⟨?_, ?_, fun k hk => tabGet_tabPut_ne _ _ _ hk⟩
  · rw [hown, hput]
  · rw [hown]

/-- Settles O59, clause by clause. -/
theorem registerWrites : Obligations.RegisterWrites := by
  refine ⟨fun f bar off width v s h0 h2 => ?_, fun f off v s ha hd hm => ?_, fun f off v m s ha hd hm hv hb hw => ?_,
    fun f v s hp => ⟨registerWrite_calDirtyMax hp, registerWrite_calDirtyMax_reserved hp, registerWrite_rows v hp⟩,
    fun f v s hp => ⟨plcPgSelWrite_of_reserved hp, epgPolicyWrite_of_reserved hp, smcPreload_of_reserved hp⟩,
    fun f off g v s ho hf ha hb => registerWrite_doorbell v ho hf ha hb,
    fun f v s hp hc => registerWrite_mgwData v hp hc,
    fun f n v s ho hn hlt hx => ⟨_, registerWrite_msixData v ho hn hlt, msixPoke_data hx⟩⟩
  · simp [exec, execRegisterWrite, h0, h2]
  · rw [registerWrite_eq_regWrite ha hd, regWrite_of_none v hm]
  · rw [registerWrite_eq_regWrite ha hd, regWrite_of_reserved hm hv hb, freeWrite_of_no_fields _ _ hw]

end Sys2Proof.Machine

/-! What the proofs of O9, O10, O52 and O55 share: views that show one part of the state alone, folds, and events that stay
shown. -/

namespace Sys2Proof.Machine

open Sys2Proof

/-! ### One part of the state at a time -/

/-- The mask that shows one part alone. -/
def alone (p q : Piece) : Bool := q != p

@[simp] theorem alone_eq_true_iff (p q : Piece) : alone p q = true ↔ q ≠ p := by simp [alone]

/-- A part shown alone that looks alike is the same. -/
theorem same_of_alone (p : Piece) {s t : State} (h : view (alone p) t = view (alone p) s) : p.same s t :=
  same_of_view h (by simp [alone])

/-- A fold whose steps keep a part of the state keeps it. -/
theorem foldl_keeps {α β : Type} {part : State → β} {g : State → α → State} (l : List α) (s : State)
    (h : ∀ t x, part (g t x) = part t) : part (l.foldl g s) = part s :=
  List.foldlRecOn l g (motive := fun t => part t = part s) rfl fun t ht x _ => (h t x).trans ht

/-! ### Events shown (R506) -/

/-- A raise shows its source and leaves the others. -/
theorem shown_raise (n : Nat) (s : State) (x : Nat) : shown (raise n s) x = (x == n || shown s x) := by
  have hstat : shown (raise n s) x = tabGet false (tabPut false s.events.stat n true) x := rfl
  rw [hstat]
  by_cases hx : x = n
  · subst hx
    rw [tabGet_tabPut_same _ _ _ _ (.inl (by decide)), beq_self_eq_true, Bool.true_or]
  · rw [tabGet_tabPut_ne _ _ _ hx, beq_eq_false_iff_ne.mpr hx, Bool.false_or, shown]

@[simp] theorem shown_raise_same (n : Nat) (s : State) : shown (raise n s) n = true := by simp [shown_raise]

/-- Every source that the first state shows is shown by the second. -/
def KeepsShown (s t : State) : Prop := ∀ n, shown s n = true → shown t n = true

theorem KeepsShown.trans {s t u : State} (h : KeepsShown s t) (g : KeepsShown t u) : KeepsShown s u := fun n hn => g n (h n hn)

theorem KeepsShown.of_events {s t : State} (h : t.events = s.events) : KeepsShown s t := fun n hn => by
  rwa [shown, h]

theorem keepsShown_raise (n : Nat) (s : State) : KeepsShown s (raise n s) := fun x hx => by simp [shown_raise, hx]

/-- A fold whose steps keep what is shown keeps it. -/
theorem keepsShown_foldl {α : Type} {g : State → α → State} (l : List α) (s : State)
    (h : ∀ t x, KeepsShown t (g t x)) : KeepsShown s (l.foldl g s) :=
  List.foldlRecOn l g (motive := KeepsShown s) (fun _ hn => hn) fun _ ht x _ => ht.trans (h _ x)

/-- The end of a waiting command may raise MGW_CMD_DONE and clears nothing. -/
theorem keepsShown_endCmdOf (c : Option Nat) (res : Nat) (s : State) : KeepsShown s (endCmdOf c res s) := by
  cases c with
  | none => exact fun _ hn => hn
  | some c => exact fun n hn => keepsShown_raise _ _ n hn

end Sys2Proof.Machine

/-! O55: trial modes. What answers a request and what an end leaves. -/

namespace Sys2Proof.Machine

open Sys2Proof

theorem answerTrial_of_armed {k : Trial} {s : State} (h : trialRefuse s k = 0) :
    answerTrial k s = { s with trials := { s.trials with
      arm := some k, seq := s.trials.seq + 1, announced := false, armBit := false, link := 0, reed := 0 } } := by
  simp [answerTrial, h]

theorem answerTrial_of_refused {k : Trial} {s : State} (h : trialRefuse s k ≠ 0) :
    answerTrial k s = raise 0xF02 { s with trials := { s.trials with refuse := trialRefuse s k, armBit := false } } := by
  simp [answerTrial, h]

/-- A reed trial that TRIA does not allow is refused for that before anything else (R511). -/
theorem trialRefuse_of_reed_barred {k : Trial} {s : State} {im : Image} (him : s.image = some im)
    (ha : im.tria.allowReed = false) (hk : k.reed = true) : trialRefuse s k = 1 := by
  simp [trialRefuse, triaOf, him, ha, hk]

theorem endTrial_of_none {s : State} (why : Nat) (h : s.trials.arm = none) : endTrial why s = s := by
  simp [endTrial, h]

theorem endTrial_of_some {s : State} {k : Trial} (why : Nat) (h : s.trials.arm = some k) :
    endTrial why s = raise 0xF01 { s with trials := { s.trials with
      arm := none, seq := s.trials.seq + 1, announced := false, why := why } } := by
  simp [endTrial, h]

/-- The armed trial's count is reached when its faults injected are as many. -/
theorem countReached_of_some {s : State} {k : Trial} (h : s.trials.arm = some k) :
    countReached s = decide (k.count ≤ s.trials.link + s.trials.reed) := by
  simp [countReached, h]

theorem exec_trlArmRequest {f : Nat} {s : State} (hf : pfSeen s f = true) :
    exec (.trlArmRequest f) s = .next (answerTrial (parseTrial s.trials.req.toNat) s) := by
  simp [exec, execTrlArmRequest, hf]

theorem exec_trlDisarm {f : Nat} {s : State} (hf : pfSeen s f = true) : exec (.trlDisarm f) s = .next (endTrial 1 s) := by
  simp [exec, execTrlDisarm, hf]

/-- Settles O55: each request by its verdict, each end by its cause. -/
theorem trialsArmAndEnd : Obligations.TrialsArmAndEnd := by
  refine ⟨fun f s hf => ⟨fun h0 => ?armed, fun k hk _ hr => ?refused, fun im him ha hk => ?barred, fun harm => ?disarmed,
    fun harm => ?idle⟩, fun k s hm harm => ⟨fun hc => ?counted, fun hc => ?uncounted⟩⟩
  case armed =>
    exact ⟨_, exec_trlArmRequest hf, by simp [answerTrial_of_armed h0]⟩
  case refused =>
    have hne : trialRefuse s (parseTrial s.trials.req.toNat) ≠ 0 := by omega
    exact ⟨_, exec_trlArmRequest hf, by simp [answerTrial_of_refused hne, hr]⟩
  case barred =>
    have h1 := trialRefuse_of_reed_barred him ha hk
    exact ⟨_, exec_trlArmRequest hf, by simp [answerTrial_of_refused, h1]⟩
  case disarmed =>
    obtain ⟨k, hk⟩ := Option.isSome_iff_exists.mp harm
    exact ⟨_, exec_trlDisarm hf, by simp [endTrial_of_some 1 hk]⟩
  case idle => rw [exec_trlDisarm hf, endTrial_of_none 1 harm]
  case counted =>
    refine ⟨finishCount s, ?_, ?_⟩
    · have hreached : countReached s = true := by
        rw [countReached_of_some harm]
        exact decide_eq_true hc
      simp only [exec, execTrlCountDone, hm, hreached, Bool.and_self, if_true]
    · have hend := endTrial_of_some (s := raise 0xF03 s) 2 harm
      rw [finishCount, hend]
      exact ⟨rfl, rfl, shown_raise_same _ _, keepsShown_raise _ _ _ (shown_raise_same 0xF03 s)⟩
  case uncounted =>
    have hleft : countReached s = false := by
      rw [countReached_of_some harm]
      exact decide_eq_false (Nat.not_le_of_lt hc)
    simp only [exec, execTrlCountDone, hleft, Bool.and_false, Bool.false_eq_true, if_false]

end Sys2Proof.Machine

/-! O10: what a tick edge counts. The ending tick and the planes' edge leave tick, clock and image; the management plane's edge
leaves what the planes hold. -/

namespace Sys2Proof.Machine

open Sys2Proof

theorem tickNs_of_image {s t : State} (h : t.image = s.image) : tickNs t = tickNs s := by simp [tickNs, h]

/-- What a tick ends with is still of that tick and under its image (R91). -/
theorem endTick_keeps (s : State) :
    (endTick s).drone.count = s.drone.count ∧ (endTick s).clock = s.clock ∧ (endTick s).image = s.image :=
  ⟨same_of_alone .tick (by apply view_endTick <;> rfl), same_of_alone .clock (by apply view_endTick <;> rfl),
    same_of_alone .image (by apply view_endTick <;> rfl)⟩

/-- Steps 2 to 6 of R34 are of the tick that step 1 counted. -/
theorem planeEdge_keeps (s : State) : (planeEdge s).drone.count = s.drone.count ∧ (planeEdge s).clock = s.clock :=
  ⟨same_of_alone .tick (by apply view_planeEdge <;> rfl), same_of_alone .clock (by apply view_planeEdge <;> rfl)⟩

/-- The management plane's edge leaves the control plane, the rings, the ledger and the sampled set. -/
theorem mgmtEdge_keeps (s : State) :
    (mgmtEdge s).drone = s.drone ∧ (mgmtEdge s).clock = s.clock ∧ (mgmtEdge s).host.rings = s.host.rings ∧
      (mgmtEdge s).ledger = s.ledger ∧ (mgmtEdge s).sampled = s.sampled :=
  ⟨same_of_alone .drone (by apply view_mgmtEdge <;> rfl), same_of_alone .clock (by apply view_mgmtEdge <;> rfl),
    same_of_alone .rings (by apply view_mgmtEdge <;> rfl), same_of_alone .ledger (by apply view_mgmtEdge <;> rfl),
    same_of_alone .sampled (by apply view_mgmtEdge <;> rfl)⟩

/-- An image in FETCH goes to VERIFY, and nothing of the edge behind it changes the loader's state (R68, R74). -/
theorem mgmtEdge_fetched {s : State} (h : s.loader.state = .fetch) : (mgmtEdge s).loader.state = .verify := by
  have hrest : (mgmtEdge s).loader.state = (fetchDone (ceilingStep s)).loader.state :=
    same_of_alone .ldrState (by simp [mgmtEdge])
  have hceil : (ceilingStep s).loader = s.loader := same_of_alone .loader (by apply view_ceilingStep <;> rfl)
  rw [hrest, fetchDone, hceil, h]
  rfl

/-- Settles O10: the ending tick, the count, the planes' edge where they serve, and the management plane's edge. -/
theorem tickEdgeCounts : Obligations.TickEdgeCounts := by
  intro s hup
  obtain ⟨c, hc⟩ : ∃ c, c = countTick (if serving s then endTick s else s) := ⟨_, rfl⟩
  obtain ⟨e, he⟩ : ∃ e, e = if serving c then planeEdge c else c := ⟨_, rfl⟩
  have hcount : c.drone.count = s.drone.count + 1 ∧ c.clock = s.clock + tickNs s := by
    obtain ⟨htick, hclock, himage⟩ := endTick_keeps s
    subst hc
    split
    · simp [countTick, htick, hclock, tickNs_of_image himage]
    · simp [countTick]
  have hedge : e.drone.count = c.drone.count ∧ e.clock = c.clock := by
    subst he
    split
    · exact planeEdge_keeps c
    · simp
  obtain ⟨hdrone, hclock, hrings, hledger, hsampled⟩ := mgmtEdge_keeps e
  refine ⟨mgmtEdge e, by simp [exec, execTickEdge, mgmtUp, hup, he, hc], ?_, ?_, fun hoff => ?_⟩
  · rw [hdrone, hedge.1, hcount.1]
  · rw [hclock, hedge.2, hcount.2]
  · have hidle : e = countTick s := by
      have hoffc : serving (countTick s) = false := hoff
      simp [he, hc, hoff, hoffc]
    rw [hdrone, hrings, hledger, hsampled]
    subst hidle
    exact ⟨rfl, rfl, rfl, rfl, fun hf => mgmtEdge_fetched hf⟩

end Sys2Proof.Machine

/-! O9: full reloads and live requests. -/

namespace Sys2Proof.Machine

open Sys2Proof

/-! ### Commands of the window that wait for the loader -/

@[simp] theorem endCmdOf_loader (c : Option Nat) (res : Nat) (s : State) : (endCmdOf c res s).loader = s.loader := by
  cases c <;> rfl

@[simp] theorem endCmdOf_image (c : Option Nat) (res : Nat) (s : State) : (endCmdOf c res s).image = s.image := by
  cases c <;> rfl

@[simp] theorem endCmdOf_pair (c : Option Nat) (res : Nat) (s : State) : (endCmdOf c res s).pair = s.pair := by
  cases c <;> rfl

/-- No context of the window has a command. -/
def ctxsIdle (s : State) : Prop := ∀ x ∈ s.mgmt.ctxs, x.busy = false

theorem getCtx_idle {s : State} (h : ctxsIdle s) (c : Nat) : (getCtx s c).busy = false := by
  rw [getCtx, nth, List.getD_eq_getElem?_getD]
  cases hx : s.mgmt.ctxs[c]? with
  | none => rfl
  | some x => exact h x (List.mem_of_getElem? hx)

/-- A command that ends makes no context busy. -/
theorem ctxsIdle_endCmdOf {s : State} (c : Option Nat) (res : Nat) (h : ctxsIdle s) : ctxsIdle (endCmdOf c res s) := by
  cases c with
  | none => exact h
  | some c =>
    intro x hx
    obtain ⟨n, hn⟩ := List.mem_iff_getElem?.mp hx
    simp only [endCmdOf, endCmd, raise_mgmt, modCtx, modAt, List.getElem?_modify, Option.map_eq_map,
      Option.map_eq_some_iff] at hn
    obtain ⟨y, hy, rfl⟩ := hn
    split
    · rfl
    · exact h y (List.mem_of_getElem? hy)

/-- With idle contexts no LOAD waits. -/
theorem startWaiting_of_idle {s : State} (h : ctxsIdle s) : startWaiting s = s := by
  have hnone : loadWaiting s = none := by simp [loadWaiting, getCtx_idle h]
  rw [startWaiting, hnone]

/-! ### PREPARE -/

/-- Both words of EPG_CLAIM written; H and the last order's answer stay. -/
theorem setClaim_writes (c : Word) (u : UnitState) (s : State) :
    (setClaim c u s).pair.claim.claim = c ∧ (setClaim c u s).pair.claim.unit = u ∧
      (setClaim c u s).pair.result = s.pair.result ∧ (setClaim c u s).pair.last = s.pair.last ∧
      (setClaim c u s).pair.high = s.pair.high := by
  simp only [setClaim]
  split
  · next h => exact ⟨h.1, h.2, rfl, rfl, rfl⟩
  · exact ⟨rfl, rfl, rfl, rfl, rfl⟩

@[simp] theorem setUnit_unit (u : UnitState) (s : State) : (setUnit u s).pair.claim.unit = u :=
  (setClaim_writes s.pair.claim.claim u s).2.1

/-- Plans cancelled leave the host side alone. -/
theorem cancelJobs_host (ids : List Nat) (s : State) : (ids.foldl (fun u i => cancelJob i u) s).host = s.host :=
  same_of_alone .host (by simp)

theorem dropCopy_stopped (s : State) : (dropCopy s).host.stopped = s.host.stopped := by
  simp only [dropCopy, cancelJobs_host]

/-- A standby that leaves its pair keeps the loader and does not open its intake. -/
theorem leavePair_keeps (s : State) : (leavePair s).loader = s.loader ∧ (leavePair s).host.stopped = s.host.stopped := by
  refine ⟨same_of_alone .loader (by apply view_leavePair <;> rfl), ?_⟩
  have hsent : ∀ t : State, (sendHello t).host = t.host := fun t => same_of_alone .host (by apply view_sendHello <;> rfl)
  have hunit : ∀ t : State, (setUnit .standbyJoining t).host = t.host := fun t =>
    same_of_alone .host (view_setUnit _ _ rfl)
  simp only [leavePair]
  split
  · rw [hsent, hunit, dropCopy_stopped]
  · rfl

/-- PREPARE stops the intake; sealing the ledger, leaving the pair and destaging do not open it again (R76). -/
theorem prepare_stops (s : State) : (prepare s).loader.prepared = true ∧ (prepare s).host.stopped = true := by
  have hdestage : ∀ t : State, (reloadDestage t).loader = t.loader ∧ (reloadDestage t).host = t.host := fun t =>
    ⟨same_of_alone .loader (by apply view_reloadDestage <;> rfl), same_of_alone .host (by apply view_reloadDestage <;> rfl)⟩
  have hseal : ∀ t : State, (sealLedger t).loader = t.loader ∧ (sealLedger t).host = t.host := fun t =>
    ⟨same_of_alone .loader (by apply view_sealLedger <;> rfl), same_of_alone .host (by apply view_sealLedger <;> rfl)⟩
  simp only [prepare]
  rw [(hdestage _).1, (hdestage _).2, (leavePair_keeps _).1, (leavePair_keeps _).2, (hseal _).1, (hseal _).2]
  exact ⟨rfl, rfl⟩

/-! ### APPLY -/

/-- The planes reset under the new image, where DRN_COUNT and the volumes stay (R28, R76, R175, R212, R318, R576). -/
theorem applyImage_resets (im : Image) (s : State) :
    let t := applyImage im s
    t.image = some im ∧ t.loader.state = .apply ∧ t.host.rings = [] ∧ t.host.cmds = [] ∧
      t.host.volumes = s.host.volumes ∧ t.host.stopped = false ∧ t.dma = Dma.reset ∧ t.drone.running = [] ∧
      t.drone.queued = [] ∧ t.drone.inflight = [] ∧ t.drone.count = s.drone.count ∧ t.smc.lines = [] := by
  have hhost : ∀ u : State, (endTrial 4 u).host = u.host := fun u => same_of_alone .host (by apply view_endTrial <;> rfl)
  have hcount : ∀ u : State, (endTrial 4 u).drone = u.drone := fun u => same_of_alone .drone (by apply view_endTrial <;> rfl)
  simp [applyImage, hhost, hcount, HostSide.applied, HostSide.reset, Drone.applied, Drone.reset, Smc.applied, smcClear,
    swapRouting]

/-! ### RUNNING -/

/-- RUNNING: the registers of R75 close under the new image's identifier; behind that, with no command waiting, only 0xE02 and
the end of the LOAD follow. -/
theorem runImage_eq {im : Image} {s : State} (h : ctxsIdle s) :
    ∃ u : State, runImage im s =
        endCmdOf s.loader.acceptedCtx 0 (raise 0xE02 { u with loader := { u.loader with acceptedCtx := none } }) ∧
      u.loader = { s.loader with state := .running, imgId := im.imgId, rwlOpen := false, accepted := none } ∧
      u.image = s.image ∧ (s.loader.rwlOpen = true → im.pair.pairEn = false → u.pair.claim.unit = .solo) := by
  obtain ⟨s1, hs1⟩ : ∃ s1 : State, s1 = { s with
      loader := { s.loader with state := .running, imgId := im.imgId, rwlOpen := false, accepted := none }
      cache := { s.cache with sizeMib := cacheMib im s.sampled.pcRetire }
      hem := { s.hem with calDirtyMax := im.hemd.calDirtyMaxMib }
      pair := { s.pair with halt := im.pair.policy == 1 } } := ⟨_, rfl⟩
  obtain ⟨s2, hs2⟩ : ∃ s2, s2 = checkWtPerm (setUnit (unitOf s.loader.rwlOpen im s.pair.claim.unit) s1) := ⟨_, rfl⟩
  obtain ⟨u, hu⟩ : ∃ u, u = if s.loader.rwlOpen then s2 else afterReload (releaseHeld s2) := ⟨_, rfl⟩
  have hloader : u.loader = s1.loader := same_of_alone .loader (by simp [hu, hs2])
  have himage : u.image = s1.image := same_of_alone .image (by simp [hu, hs2])
  have hmgmt : u.mgmt = s1.mgmt := same_of_alone .mgmt (by simp [hu, hs2])
  have hidle : ctxsIdle (endCmdOf s.loader.acceptedCtx 0
      (raise 0xE02 { u with loader := { u.loader with acceptedCtx := none } })) :=
    ctxsIdle_endCmdOf _ _ (by
      intro x hx
      exact h x (by simpa [hmgmt, hs1] using hx))
  refine ⟨u, ?_, by rw [hloader, hs1], by rw [himage, hs1], fun hopen hen => ?_⟩
  · rw [← startWaiting_of_idle hidle, hu, hs2, hs1]
    rfl
  · have hpair : s2.pair = (setUnit .solo s1).pair := by
      rw [hs2, unitOf, hen]
      exact same_of_alone .pair (by apply view_checkWtPerm <;> rfl)
    rw [hu, if_pos hopen, hpair, setUnit_unit]

/-! ### Live requests -/

/-- A live request refused leaves its reason and section, and the running image (R69, R71). -/
theorem refuseLive_refuses (reason sec : Nat) (s : State) :
    (refuseLive reason sec s).loader =
        { s.loader with lstate := .refused, lreason := reason, lsection := sec, liveJob := none, live := none } ∧
      (refuseLive reason sec s).image = s.image ∧ shown (refuseLive reason sec s) 0xE04 = true :=
  ⟨by simp [refuseLive], by simp [refuseLive], keepsShown_endCmdOf _ _ _ _ (shown_raise_same _ _)⟩

/-- One that the partner did not match is forgotten with the partner's report (R83). -/
theorem unmatchedLive_refuses (s : State) :
    (unmatchedLive s).loader = { s.loader with
        lstate := .refused, lreason := 0x12, lsection := 0xF, liveJob := none, live := none, partnerImg := none } ∧
      (unmatchedLive s).image = s.image ∧ shown (unmatchedLive s) 0xE04 = true := by
  obtain ⟨hloader, himage, hshown⟩ := refuseLive_refuses 0x12 0xF s
  exact ⟨by simp [unmatchedLive, hloader], himage, hshown⟩

theorem exec_liveVerifyDone {j : LoadJob} {s : State} (hup : s.boot = .up) (hj : s.loader.liveJob = some j)
    (hv : s.loader.lstate = .verifying) : exec .liveVerifyDone s = .next (liveVerdict j s) := by
  simp [exec, execLiveVerifyDone, hj, mgmtUp, hup, hv]

theorem exec_livePairTimeout {s : State} (hup : s.boot = .up) (hlate : liveLate s = true) :
    exec .livePairTimeout s = .next (unmatchedLive s) := by
  simp [exec, execLivePairTimeout, mgmtUp, hup, hlate]

/-- The active waits 10 s from its own verification for a target (R83). -/
theorem liveLate_of_active {r : LiveReq} {s : State} (ha : s.pair.claim.unit = .active) (hr : s.loader.live = some r)
    (ht : r.target = none) (hlate : r.verifiedAt + msTicks s 10000 ≤ s.drone.count) : liveLate s = true := by
  simp [liveLate, ha, hr, ht, hlate]

/-- The standby waits 10 s from the active's report for its own verification of the same image (R83). -/
theorem liveLate_of_standby {id : Word} {s : State} (ha : s.pair.claim.unit ≠ .active) (hsolo : s.pair.claim.unit ≠ .solo)
    (hbusy : s.loader.lstate = .verifying ∨ s.loader.lstate = .pending) (hid : s.loader.partnerImg = some id)
    (hlate : s.loader.partnerAt + msTicks s 10000 ≤ s.drone.count)
    (hmine : ∀ r, s.loader.live = some r → r.target = none ∧ r.image.imgId ≠ id) : liveLate s = true := by
  have hother : s.loader.live.any (fun r => r.target.isSome || r.image.imgId == id) = false := by
    cases hl : s.loader.live with
    | none => rfl
    | some r =>
      obtain ⟨htarget, hne⟩ := hmine r hl
      simp [htarget, hne]
  simp [liveLate, ha, livePair, hsolo, liveBusy, hbusy, hlate, hid, hother]

/-- Settles O9: the three steps of a full reload, the verdicts on a live request and its two timeouts. -/
theorem replacements : Obligations.Replacements := by
  refine ⟨⟨fun s hs hp hn => ?prepare, fun im s hs hd ha hp hn ho => ?apply, fun im s hup ha hp hc => ?running⟩,
    fun j old s hup hj hv hold hok => ⟨fun hl hsolo => ?pending, fun e hl => ?refused⟩,
    fun r s hup ha hr ht hlate => ?active, fun id s hup ha hsolo hbusy hid hlate hmine => ?standby⟩
  case prepare =>
    exact ⟨prepare s, by simp [exec, execReloadPrepare, hs, hp, hn], prepare_stops s⟩
  case apply =>
    have hhost : (flushJournal s).host = s.host := same_of_alone .host (by apply view_flushJournal <;> rfl)
    have hcount : (flushJournal s).drone.count = s.drone.count := same_of_alone .tick (by apply view_flushJournal <;> rfl)
    refine ⟨applyImage im (flushJournal s), by simp [exec, execReloadApply, ha, hs, hd, hp, hn, ho], ?_⟩
    rw [← hhost, ← hcount]
    exact applyImage_resets im _
  case running =>
    obtain ⟨u, hrun, hloader, himage, hsolo⟩ := runImage_eq (im := im) hc
    refine ⟨runImage im s, by simp [exec, execImageRunning, ha, mgmtUp, hup, hp], ?_⟩
    rw [hrun]
    exact ⟨by simp [hloader], by simp [hloader], by simp [hloader], by simp [hloader], by simp [himage],
      keepsShown_endCmdOf _ _ _ _ (shown_raise_same _ _), by simpa using hsolo⟩
  case pending =>
    refine ⟨acceptLive j (parseImage j.bytes) s, by simp [exec_liveVerifyDone hup hj hv, liveVerdict, hok, hold, hl], ?_⟩
    simp [acceptLive, livePair, hsolo]
  case refused =>
    obtain ⟨hloader, himage, hshown⟩ := refuseLive_refuses e.1 e.2 s
    exact ⟨refuseLive e.1 e.2 s, by simp [exec_liveVerifyDone hup hj hv, liveVerdict, hok, hold, hl], by simp [hloader],
      by simp [hloader], by simp [hloader], by simp [hloader], himage, hshown⟩
  case active =>
    obtain ⟨hloader, himage, hshown⟩ := unmatchedLive_refuses s
    exact ⟨_, exec_livePairTimeout hup (liveLate_of_active ha hr ht hlate), by simp [hloader], by simp [hloader],
      by simp [hloader], himage, hshown⟩
  case standby =>
    obtain ⟨hloader, himage, hshown⟩ := unmatchedLive_refuses s
    exact ⟨_, exec_livePairTimeout hup (liveLate_of_standby ha hsolo hbusy hid hlate hmine), by simp [hloader],
      by simp [hloader], by simp [hloader], by simp [hloader], himage, hshown⟩

end Sys2Proof.Machine

/-! O52: pair orders and switch-back. -/

namespace Sys2Proof.Machine

open Sys2Proof

/-! ### What is sent leaves of the pair sequencer's state -/

/-- The pair sequencer's state without its link and its stream's digest, which frames and journal records go through. -/
def Pair.core (p : Pair) : Pair :=
  { p with link := Link.reset, digest := { ledger := [], parity := [], lseq := 0, jseq := 0 } }

theorem core_emit (o : Output) (s : State) : (emit o s).pair.core = s.pair.core := by
  unfold emit
  split <;> rfl

theorem core_logRec (r : LRec) (s : State) : (logRec r s).pair.core = s.pair.core := by
  simp only [logRec]
  split
  · rw [core_emit]
    rfl
  · rfl

theorem core_ledgerChange (t : LType) (vol key : Nat) (payload : List Byte) (s : State) :
    (ledgerChange t vol key payload s).pair.core = s.pair.core := by
  have hpair : ∀ r, (applyRec r s).pair = s.pair := fun r => same_of_alone .pair (by apply view_applyRec <;> rfl)
  rw [ledgerChange, core_logRec, hpair]

/-! ### Ledger changes -/

theorem logRec_seq (r : LRec) (s : State) : (logRec r s).ledger.seq = r.seq := by
  simp only [logRec]
  split <;> simp [putRec]

theorem logRec_appendQ (r : LRec) (s : State) : (logRec r s).cache.appendQ = s.cache.appendQ ++ [.ledger r] := by
  simp only [logRec]
  split <;> simp [putRec]

/-- A ledger change takes the next SEQ. -/
theorem ledgerChange_seq (t : LType) (vol key : Nat) (payload : List Byte) (s : State) :
    (ledgerChange t vol key payload s).ledger.seq = s.ledger.seq + 1 := logRec_seq _ _

/-- A ledger change is entered in the append queue. -/
theorem ledgerChange_appendQ (t : LType) (vol key : Nat) (payload : List Byte) (s : State) :
    (ledgerChange t vol key payload s).cache.appendQ = s.cache.appendQ ++
      [.ledger { seq := s.ledger.seq + 1, type := t, volume := vol, key := key, payload := payload }] := by
  have hcache : ∀ r, (applyRec r s).cache = s.cache := fun r => same_of_alone .cache (by apply view_applyRec <;> rfl)
  rw [ledgerChange, logRec_appendQ, hcache]

/-! ### The claim written (R25, R466, R467) -/

theorem seeClaim_keeps (c : Word) (s : State) :
    (seeClaim c s).pair.claim = s.pair.claim ∧ (seeClaim c s).pair.result = s.pair.result ∧
      (seeClaim c s).pair.last = s.pair.last := by
  unfold seeClaim
  split <;> exact ⟨rfl, rfl, rfl⟩

/-- Word 0 of EPG_CLAIM is the claim taken; the unit state and the order's answer stay. -/
theorem takeClaim_writes (c : Word) (s : State) :
    (takeClaim c s).pair.claim.claim = c ∧ (takeClaim c s).pair.claim.unit = s.pair.claim.unit ∧
      (takeClaim c s).pair.result = s.pair.result ∧ (takeClaim c s).pair.last = s.pair.last := by
  have hasked : ∀ t, (askReports t).pair = t.pair := fun t => same_of_alone .pair (by apply view_askReports <;> rfl)
  obtain ⟨hclaim, hresult, hlast⟩ := seeClaim_keeps c s
  unfold takeClaim
  split
  · next h => exact ⟨by rw [hclaim, h], by rw [hclaim], hresult, hlast⟩
  · obtain ⟨h1, h2, h3, h4, -⟩ := setClaim_writes c s.pair.claim.unit (seeClaim c s)
    rw [hasked, adoptClaim]
    exact ⟨h1, h2, h3.trans hresult, h4.trans hlast⟩

/-- The claim procedure begins with EPG_CLAIM = H + 1 (R466, R467). -/
theorem startTake_begins (why : TakeWhy) (s : State) :
    ∃ k, (startTake why s).pair.take = some k ∧ k.why = why ∧ (startTake why s).pair.claim.claim = s.pair.high + 1 ∧
      (startTake why s).pair.claim.unit = s.pair.claim.unit ∧ (startTake why s).pair.result = s.pair.result ∧
      (startTake why s).pair.last = s.pair.last :=
  ⟨_, rfl, rfl, takeClaim_writes (s.pair.high + 1) s⟩

/-! ### SALVAGE (R27, R486) -/

/-- Work that leaves the queue may end a stream's urgency, which raises an event and clears none. -/
theorem keepsShown_dropWork (bad : Work → Bool) (s : State) : KeepsShown s (dropWork bad s) := by
  have hurgency : ∀ (t : State) (st : Stream), KeepsShown t (endUrgency t st) := fun t st => by
    unfold endUrgency
    split
    · refine KeepsShown.trans ?_ (keepsShown_raise 0xD04 _)
      exact .of_events rfl
    · exact fun _ hn => hn
  refine KeepsShown.trans ?_ (keepsShown_foldl allStreams _ hurgency)
  exact .of_events rfl

theorem keepsShown_cancelJob (id : Nat) (s : State) : KeepsShown s (cancelJob id s) := by
  have hrefunds : ∀ l : List Work, KeepsShown s (l.foldl refund s) := fun l => .of_events (same_of_alone .events (by simp))
  have hend : ∀ t : State, KeepsShown t (endJob id t) := fun t => .of_events (same_of_alone .events (by simp))
  simp only [cancelJob]
  exact (hrefunds _).trans ((keepsShown_dropWork _ _).trans (hend _))

/-- A unit that drops its copy of the stream keeps H and its order's answer. -/
theorem dropCopy_keeps (s : State) :
    (dropCopy s).pair.high = s.pair.high ∧ (dropCopy s).pair.result = s.pair.result ∧ KeepsShown s (dropCopy s) := by
  have hpair : ∀ l : List Nat, (l.foldl (fun u i => cancelJob i u) s).pair = s.pair := fun l => same_of_alone .pair (by simp)
  refine ⟨by simp only [dropCopy, hpair], by simp only [dropCopy, hpair], ?_⟩
  exact (keepsShown_foldl _ s fun t i => keepsShown_cancelJob i t).trans (.of_events rfl)

/-- A salvage begins: SALVAGE under claim H + 1, and restore waits for the ledger home (R486). -/
theorem startSalvage_begins (s : State) :
    ∃ k, (startSalvage s).pair.take = some k ∧ k.why = .salvage ∧ (startSalvage s).pair.claim.claim = s.pair.high + 1 ∧
      (startSalvage s).pair.claim.unit = .salvage ∧ (startSalvage s).pair.result = s.pair.result ∧
      (startSalvage s).cache.vault.restore = .waiting ∧ KeepsShown s (startSalvage s) := by
  obtain ⟨keep, hkeep⟩ : ∃ keep, keep = (s.pair.bufferOk && s.pair.claim.unit == .unsynced) := ⟨_, rfl⟩
  obtain ⟨s1, hs1⟩ : ∃ s1, s1 = if keep then s else dropCopy s := ⟨_, rfl⟩
  obtain ⟨s2, hs2⟩ : ∃ s2, s2 = setUnit .salvage (modEpg (fun p => { p with
    salvBuf := keep, salvAll := false, powerOwn := false }) s1) := ⟨_, rfl⟩
  have hstart : startSalvage s = startTake .salvage (setRestore .waiting s2) := by rw [hs2, hs1, hkeep]; rfl
  have hcopy : s1.pair.high = s.pair.high ∧ s1.pair.result = s.pair.result ∧ KeepsShown s s1 := by
    rw [hs1]
    split
    · exact ⟨rfl, rfl, fun _ hn => hn⟩
    · exact dropCopy_keeps s
  obtain ⟨-, hunit, hresult, -, hhigh⟩ := setClaim_writes s1.pair.claim.claim .salvage
    (modEpg (fun p => { p with salvBuf := keep, salvAll := false, powerOwn := false }) s1)
  obtain ⟨k, htake, hwhy, hclaim, hunit', hresult', -⟩ := startTake_begins .salvage (setRestore .waiting s2)
  have hevents : (startTake .salvage (setRestore .waiting s2)).events = s1.events := same_of_alone .events (by simp [hs2])
  have hvault : (startTake .salvage (setRestore .waiting s2)).cache.vault = (setRestore .waiting s2).cache.vault :=
    same_of_alone .vault (by apply view_startTake <;> rfl)
  rw [hstart]
  refine ⟨k, htake, hwhy, ?_, ?_, ?_, by rw [hvault]; rfl, hcopy.2.2.trans (.of_events hevents)⟩
  · rw [hclaim, ← hcopy.1]
    exact congrArg (· + 1) (by rw [hs2]; exact hhigh)
  · rw [hunit', hs2]
    exact hunit
  · rw [hresult', ← hcopy.2.1, hs2]
    exact hresult

/-- An order of a salvage accepted (R27, R486): EPG_CLAIM_RACE is shown when the free value says so. -/
theorem orderSalvage_accepted {s : State} (hn : neverTakes s = true) (ht : s.pair.take = none)
    (hp : activePartner s = false) :
    ∃ k, (orderSalvage s).pair.claim.unit = .salvage ∧ (orderSalvage s).pair.claim.claim = s.pair.high + 1 ∧
      (orderSalvage s).pair.take = some k ∧ k.why = .salvage ∧ (orderSalvage s).pair.result = 1 ∧
      (orderSalvage s).cache.vault.restore = .waiting ∧
      (bit (drawFree s).1 0 = true → shown (orderSalvage s) 0xACF = true) := by
  have horder : orderSalvage s = startSalvage (claimRace (orderDone 2 1 s)) := by simp [orderSalvage, hn, ht, hp]
  have hpair : (claimRace (orderDone 2 1 s)).pair = (orderDone 2 1 s).pair := raiseIf_pair _ _ _
  obtain ⟨k, htake, hwhy, hclaim, hunit, hresult, hrestore, hshown⟩ := startSalvage_begins (claimRace (orderDone 2 1 s))
  rw [horder]
  refine ⟨k, hunit, by rw [hclaim, hpair]; rfl, htake, hwhy, by rw [hresult, hpair]; rfl, hrestore, fun hbit => ?_⟩
  have hdraw : (drawFree (orderDone 2 1 s)).1 = (drawFree s).1 := rfl
  exact hshown _ (by rw [claimRace, hdraw, hbit]; exact shown_raise_same _ _)

/-! ### FORM (R477) -/

theorem core_adminStep (pos : Nat) (st : BringUp) (s : State) : (adminStep pos st s).pair.core = s.pair.core := by
  have hpair : ∀ f, (modDrive pos f s).pair = s.pair := fun f => same_of_alone .pair (view_modDrive _ _ _ rfl)
  rw [adminStep, core_emit, hpair]

/-- A drive that takes its slot sends admin commands and, on a fence holder, a SLOT record. -/
theorem core_takeSlot (pos slot : Nat) (s : State) : (takeSlot pos slot s).pair.core = s.pair.core := by
  unfold takeSlot
  split
  · rfl
  · split
    · exact congrArg Pair.core (same_of_alone .pair (by simp))
    · next d _ _ =>
      have hpair : (slotCause slot 0 (modDrive pos (fun x => { x with slot := some slot }) s)).pair = s.pair :=
        same_of_alone .pair (by simp)
      simp only [afterSlot, core_adminStep]
      split
      · rw [changeSlot, core_ledgerChange, hpair]
      · rw [hpair]

/-- Drives that take slots leave the pair sequencer's registers alone. -/
theorem core_formSlots (s : State) : (formSlots s).pair.core = s.pair.core := by
  refine foldl_keeps (part := fun t => t.pair.core) _ _ fun t p => ?_
  have hon : (modDrive p.1 (fun d => { d with ccEn := true }) t).pair = t.pair := same_of_alone .pair (by simp)
  dsimp only
  split
  · split
    · rw [core_takeSlot, hon]
    · exact congrArg Pair.core (same_of_alone .pair (by simp))
  · split
    · rw [core_takeSlot, hon]
    · rfl

/-- FORM accepted: the claim procedure begins (R477). -/
theorem orderForm_accepted {s : State} (hu : s.pair.claim.unit = .standbyJoining) (hn : s.pair.noHolder = true)
    (ht : s.pair.take = none) :
    ∃ k, (orderForm s).pair.claim.claim = s.pair.high + 1 ∧ (orderForm s).pair.take = some k ∧ k.why = .form ∧
      (orderForm s).pair.result = 1 ∧ (orderForm s).pair.last = 4 := by
  have horder : orderForm s = startTake .form (formSlots (orderDone 4 1 s)) := by simp [orderForm, hu, hn, ht]
  have hcore := core_formSlots (orderDone 4 1 s)
  obtain ⟨k, htake, hwhy, hclaim, -, hresult, hlast⟩ := startTake_begins .form (formSlots (orderDone 4 1 s))
  rw [horder]
  refine ⟨k, ?_, htake, hwhy, ?_, ?_⟩
  · rw [hclaim]
    exact congrArg (· + 1) (congrArg Pair.high hcore :)
  · exact hresult.trans (congrArg Pair.result hcore :)
  · exact hlast.trans (congrArg Pair.last hcore :)

/-! ### EPG_VOL_CLEAR (R487) -/

/-- An in-step input takes the next ISEQ and leaves ledger and cache alone (R457). -/
theorem inStep_keeps (w : InStep) (s : State) :
    (inStep w s).pair.core = { s.pair with iseq := s.pair.iseq + 1 }.core ∧ (inStep w s).ledger = s.ledger ∧
      (inStep w s).cache = s.cache := by
  simp only [inStep]
  split
  · exact ⟨core_emit _ _, emit_ledger _ _, emit_cache _ _⟩
  · exact ⟨rfl, rfl, rfl⟩

/-- The fence holder clears a volume of READ_ONLY: a VOLUME record, and an in-step input. -/
theorem writeVolClear_clears {w : Word} {v : Volume} {s : State} (hgo : bit w 16 = true) (hv : getVol s (bits w 0 16) = some v)
    (hro : v.state = .readOnly) (hf : fenceHolder s = true) :
    (writeVolClear w s).pair.volClear = bits w 0 16 ∧ (writeVolClear w s).ledger.seq = s.ledger.seq + 1 ∧
      (writeVolClear w s).pair.iseq = s.pair.iseq + 1 ∧
      (writeVolClear w s).cache.appendQ = s.cache.appendQ ++ [.ledger {
        seq := s.ledger.seq + 1, type := .volume, volume := bits w 0 16, key := 0,
        payload := volBytes (some { v with state := .online }) }] := by
  obtain ⟨s1, hs1⟩ : ∃ s1, s1 = modEpg (fun p => { p with
    volClear := bits w 0 16, volRefused := p.volRefused && !bit w 17 }) s := ⟨_, rfl⟩
  have hv1 : getVol s1 (bits w 0 16) = some v := by rw [hs1]; exact hv
  have hf1 : fenceHolder s1 = true := by rw [hs1]; exact hf
  have hfilter : (getVol s1 (bits w 0 16)).filter (fun v => v.state == .readOnly && fenceHolder s1) = some v := by
    rw [hv1]
    simp [Option.filter, hro, hf1]
  obtain ⟨s2, hs2⟩ : ∃ s2, s2 = changeVol (bits w 0 16) (some { v with state := .online }) s1 := ⟨_, rfl⟩
  have hwrite : writeVolClear w s = inStep (.clear (bits w 0 16)) s2 := by
    simp only [writeVolClear, ← hs1, hgo, hfilter, Bool.not_true, Bool.false_eq_true, if_false, hs2]
  have hcore : s2.pair.core = s1.pair.core := by rw [hs2, changeVol, core_ledgerChange]
  obtain ⟨hpair, hledger, hcache⟩ := inStep_keeps (.clear (bits w 0 16)) s2
  rw [hwrite, hledger, hcache]
  refine ⟨?_, ?_, ?_, ?_⟩
  · exact (congrArg Pair.volClear hpair).trans ((congrArg Pair.volClear hcore).trans (by rw [hs1]; rfl))
  · rw [hs2, changeVol, ledgerChange_seq, hs1]
    rfl
  · exact (congrArg Pair.iseq hpair).trans (congrArg (· + 1) ((congrArg Pair.iseq hcore).trans (by rw [hs1]; rfl)))
  · rw [hs2, changeVol, ledgerChange_appendQ, hs1]
    rfl

/-- What is not READ_ONLY, or not this unit's to clear, is refused. -/
theorem writeVolClear_refuses {w : Word} {s : State} (hgo : bit w 16 = true)
    (h : getVol s (bits w 0 16) = none ∨ (∃ v, getVol s (bits w 0 16) = some v ∧ v.state ≠ .readOnly) ∨
      fenceHolder s = false) :
    (writeVolClear w s).pair.volRefused = true ∧ (writeVolClear w s).ledger = s.ledger ∧
      (writeVolClear w s).cache = s.cache := by
  obtain ⟨s1, hs1⟩ : ∃ s1, s1 = modEpg (fun p => { p with
    volClear := bits w 0 16, volRefused := p.volRefused && !bit w 17 }) s := ⟨_, rfl⟩
  have hvol : getVol s1 (bits w 0 16) = getVol s (bits w 0 16) := by rw [hs1]; rfl
  have hholder : fenceHolder s1 = fenceHolder s := by rw [hs1]; rfl
  have hfilter : (getVol s1 (bits w 0 16)).filter (fun v => v.state == .readOnly && fenceHolder s1) = none := by
    rw [hvol, hholder]
    rcases h with hno | ⟨v, hv, hne⟩ | hf
    · simp [hno]
    · simp [hv, hne]
    · cases hv : getVol s (bits w 0 16) <;> simp [hf]
  have hwrite : writeVolClear w s = modEpg (fun p => { p with volRefused := true }) s1 := by
    simp only [writeVolClear, ← hs1, hgo, hfilter, Bool.not_true, Bool.false_eq_true, if_false]
  rw [hwrite, hs1]
  exact ⟨rfl, rfl, rfl⟩

/-! ### Migrations given up (R278) -/

/-- The key of a parcel is its volume and index. -/
theorem parcelKey_parts (k : Nat) : parcelKey (keyVol k) (keyParcel k) = k := Nat.div_add_mod' k (2 ^ 40)

theorem mem_keys_of_tabFind {α : Type} {t : Tab α} {k : Nat} (h : (tabFind t k).isSome = true) : k ∈ t.map (·.1) := by
  induction t with
  | nil => simp [tabFind] at h
  | cons p r ih =>
    obtain ⟨i, w⟩ := p
    simp only [tabFind] at h
    split at h
    · next e => simp [e]
    · exact List.mem_cons_of_mem _ (ih h)

/-- An entry's flags are read back from its bytes (R252). -/
theorem parseLEntry_flags (e : LEntry) (rest : List Byte) :
    (parseLEntry (entryBytes e ++ rest)).placed = e.placed ∧ (parseLEntry (entryBytes e ++ rest)).moving = e.moving := by
  obtain ⟨flags, hflags⟩ : ∃ n, n =
      (if e.placed then 1 else 0) + (if e.moving then 2 else 0) + (if e.fdShort then 4 else 0) := ⟨_, rfl⟩
  have hlt : flags < 256 ^ 1 := by
    rw [hflags]
    cases e.placed <;> cases e.moving <;> cases e.fdShort <;> decide
  have hfield : field (entryBytes e ++ rest) 4 1 = flags := by
    have h := field_append (leBytes 4 e.pg) (zeros 3 ++ (leBytes 4 e.pslot ++ (leBytes 4 e.gen.toNat ++
      (leBytes 4 e.zeroMask.toNat ++ (relocBytes e.reloc0 ++ (relocBytes e.reloc1 ++ rest)))))) 1 flags hlt
    simpa only [entryBytes, ← hflags, List.append_assoc, length_leBytes] using h
  simp only [parseLEntry, hfield, hflags]
  cases e.placed <;> cases e.moving <;> cases e.fdShort <;> decide

theorem takeRun_migs (s : State) (r : Nat × Nat × Nat) : (takeRun s r).ledger.migs = s.ledger.migs := by
  have hkeep : (keepRun r s).ledger = s.ledger := same_of_alone .ledger (by apply view_keepRun <;> rfl)
  simp only [takeRun, raiseIf_ledger, setSlot, hkeep]

theorem mergeWrite_migs (k : Nat) (e : LEntry) (s : State) : (mergeWrite k e s).ledger.migs = s.ledger.migs := by
  have hdrain : (drainMerge s).ledger.migs = s.ledger.migs := by
    unfold drainMerge
    split <;> rfl
  unfold mergeWrite
  dsimp only
  split
  · rfl
  · dsimp only
    split
    · exact hdrain
    · rfl

theorem smcWrite_migs (k : Nat) (e : LEntry) (s : State) : (smcWrite k e s).ledger.migs = s.ledger.migs :=
  mergeWrite_migs k e _

/-- An entry replaced is the only one that changes. -/
theorem applyEntry_entries (k : Nat) (e : LEntry) (s : State) :
    (applyEntry k e s).ledger.entries = tabPut LEntry.blank s.ledger.entries k e := by
  have hsmc : ∀ t : State, (smcWrite k e t).ledger.entries = t.ledger.entries := fun t =>
    same_of_alone .entries (by apply view_smcWrite <;> rfl)
  simp only [applyEntry, hsmc]
  congr 1
  exact same_of_alone .entries (by simp)

/-- An entry replaced leaves the migrations alone. -/
theorem applyEntry_migs (k : Nat) (e : LEntry) (s : State) : (applyEntry k e s).ledger.migs = s.ledger.migs := by
  have hrelease : ∀ t r, (releaseRun k t r).ledger.migs = t.ledger.migs := fun t r => rfl
  have hfill : ∀ n f t, (bumpFill n f t).ledger.migs = t.ledger.migs := fun n f t => rfl
  have hfold := fun l t => foldl_keeps (part := fun u => u.ledger.migs) (g := releaseRun k) l t hrelease
  have htake := fun l t => foldl_keeps (part := fun u => u.ledger.migs) (g := takeRun) l t takeRun_migs
  simp only [applyEntry, smcWrite_migs]
  split <;> split <;> simp only [hfill, hfold, htake]

/-- The entry that a migration's abandonment leaves: MOVING cleared, GEN incremented (R278). -/
def abandonedEntry (s : State) (k : Nat) : LEntry :=
  parseLEntry (entryBytes { getEntry s k with moving := false, gen := (getEntry s k).gen + 1 } ++ [])

/-- An abandoned migration leaves the table, and its parcel's entry is replaced. -/
theorem abandonMove_ledger {s : State} {k : Nat} (h : (tabFind s.ledger.migs k).isSome = true) :
    (abandonMove k s).ledger.entries = tabPut LEntry.blank s.ledger.entries k (abandonedEntry s k) ∧
      (abandonMove k s).ledger.migs = tabErase s.ledger.migs k := by
  have hlog : ∀ r t, (logRec r t).ledger.entries = t.ledger.entries ∧
      (logRec r t).ledger.migs = t.ledger.migs := fun r t => by
    simp only [logRec]
    split <;> simp [putRec]
  have hrelease : ∀ (l : List (Nat × Nat × Nat)) t, (l.foldl (releaseRun k) t).ledger.entries = t.ledger.entries ∧
      (l.foldl (releaseRun k) t).ledger.migs = t.ledger.migs := fun l t =>
    ⟨foldl_keeps (part := fun u => u.ledger.entries) l t fun _ _ => rfl,
      foldl_keeps (part := fun u => u.ledger.migs) l t fun _ _ => rfl⟩
  have hsome : (tabFind s.ledger.migs k).isNone = false := by simpa [Option.isSome_iff_ne_none] using h
  simp only [abandonMove, hsome, Bool.false_eq_true, if_false, raise_ledger, changeEntry, ledgerChange, hlog, applyRec,
    parcelKey_parts, hrelease, applyEntry_entries, applyEntry_migs, and_true]
  rfl

/-- A migration given up is abandoned behind its plans, which leave the ledger and the pair sequencer alone. -/
theorem giveUpMove_eq (k : Nat) (s : State) :
    ∃ t, giveUpMove k s = abandonMove k t ∧ t.ledger = s.ledger ∧ t.pair = s.pair :=
  ⟨(moveJobs s k).foldl (fun t i => cancelJob i t) s, rfl, same_of_alone .ledger (by simp), same_of_alone .pair (by simp)⟩

theorem abandonMove_of_none {s : State} {k : Nat} (h : (tabFind s.ledger.migs k).isSome = false) : abandonMove k s = s := by
  have hnone : (tabFind s.ledger.migs k).isNone = true := by simpa using h
  simp [abandonMove, hnone]

/-- A migration given up leaves the entries and migrations of the other parcels. -/
theorem giveUpMove_others {j k : Nat} (s : State) (h : k ≠ j) :
    getEntry (giveUpMove j s) k = getEntry s k ∧
      tabFind (giveUpMove j s).ledger.migs k = tabFind s.ledger.migs k := by
  obtain ⟨t, ht, hledger, -⟩ := giveUpMove_eq j s
  simp only [ht, getEntry, ← hledger]
  cases hm : (tabFind t.ledger.migs j).isSome with
  | false => rw [abandonMove_of_none hm]; exact ⟨rfl, rfl⟩
  | true =>
    obtain ⟨hentries, hmigs⟩ := abandonMove_ledger hm
    rw [hentries, hmigs]
    exact ⟨tabGet_tabPut_ne _ _ _ h, tabFind_tabErase_ne _ h⟩

/-- A placed parcel that does not move. -/
def settled (s : State) (k : Nat) : Prop := (getEntry s k).placed = true ∧ (getEntry s k).moving = false

/-- A placed parcel whose migration is given up does not move any more. -/
theorem settled_giveUpMove_self {s : State} {k : Nat} (hm : (tabFind s.ledger.migs k).isSome = true)
    (hp : (getEntry s k).placed = true) : settled (giveUpMove k s) k := by
  obtain ⟨t, ht, hledger, -⟩ := giveUpMove_eq k s
  obtain ⟨hentries, -⟩ := abandonMove_ledger (by rwa [hledger] : (tabFind t.ledger.migs k).isSome = true)
  obtain ⟨hplaced, hmoving⟩ := parseLEntry_flags { getEntry t k with moving := false, gen := (getEntry t k).gen + 1 } []
  have hsame : getEntry t k = getEntry s k := by rw [getEntry, hledger, getEntry]
  have hkept : (abandonedEntry t k).placed = true := hplaced.trans (by rw [hsame]; exact hp)
  have hentry : getEntry (abandonMove k t) k = abandonedEntry t k := by
    rw [getEntry, hentries]
    refine tabGet_tabPut_same _ _ _ _ (.inl fun hblank => ?_)
    rw [hblank] at hkept
    exact absurd hkept (by decide)
  rw [ht, settled, hentry]
  exact ⟨hkept, hmoving⟩

/-- No migration given up makes a settled parcel move. -/
theorem settled_giveUpMove {s : State} (j : Nat) {k : Nat} (h : settled s k) : settled (giveUpMove j s) k := by
  by_cases hk : k = j
  · subst hk
    cases hm : (tabFind s.ledger.migs k).isSome with
    | true => exact settled_giveUpMove_self hm h.1
    | false =>
      obtain ⟨t, ht, hledger, -⟩ := giveUpMove_eq k s
      rw [ht, abandonMove_of_none (by rw [hledger]; exact hm), settled, getEntry, hledger]
      exact h
  · rw [settled, (giveUpMove_others s hk).1]
    exact h

/-- Once every migration is given up, no placed parcel of theirs moves (R278). -/
theorem settled_giveUpMoves {s : State} {k : Nat} (hm : (tabFind s.ledger.migs k).isSome = true)
    (hp : (getEntry s k).placed = true) : settled (giveUpMoves s) k := by
  have hfold : ∀ (l : List Nat) (t : State), k ∈ l → (tabFind t.ledger.migs k).isSome = true →
      (getEntry t k).placed = true → settled (l.foldl (fun u j => giveUpMove j u) t) k := fun l => by
    induction l with
    | nil => exact fun _ hk => absurd hk List.not_mem_nil
    | cons j r ih =>
      intro t hk hm hp
      rw [List.foldl_cons]
      by_cases hj : k = j
      · subst hj
        exact List.foldlRecOn r _ (motive := fun u => settled u k) (settled_giveUpMove_self hm hp) fun u hu i _ =>
          settled_giveUpMove i hu
      · obtain ⟨hentry, hmig⟩ := giveUpMove_others t hj
        exact ih _ ((List.mem_cons.mp hk).resolve_left hj) (by rwa [hmig]) (by rwa [hentry])
  exact hfold _ s (mem_keys_of_tabFind hm) hm hp

/-- Migrations given up leave the pair sequencer's registers alone. -/
theorem core_giveUpMoves (s : State) : (giveUpMoves s).pair.core = s.pair.core := by
  refine foldl_keeps (part := fun t => t.pair.core) _ _ fun t k => ?_
  obtain ⟨u, hu, -, hpair⟩ := giveUpMove_eq k t
  rw [hu, ← hpair, abandonMove]
  split
  · rfl
  · exact core_ledgerChange _ _ _ _ _

/-! ### SWITCH_BACK_QUIESCE (R488) -/

/-- Behind edge h0, once OWED is zero on every ring or 100 ms have passed, the unit is to quiesce. -/
theorem switchQuiet_of_due {s : State} (hsw : s.pair.switch = 1) (hst : s.host.stopped = true)
    (hdue : (∀ p ∈ s.host.rings, p.2.owed = 0) ∨ s.pair.switchAt + 100000000 ≤ s.clock) : switchQuiet s = true := by
  simpa [switchQuiet, hsw, hst] using hdue

/-- While its intake is open, or a ring owes entries before 100 ms have passed, it is not. -/
theorem switchQuiet_of_waiting {s : State} (hwait : s.host.stopped = false ∨
    ((∃ p ∈ s.host.rings, p.2.owed ≠ 0) ∧ s.clock < s.pair.switchAt + 100000000)) : switchQuiet s = false := by
  rcases hwait with hopen | ⟨⟨p, hp, howed⟩, hclock⟩
  · simp [switchQuiet, hopen]
  · have hall : s.host.rings.all (fun p => p.2.owed == 0) = false :=
      List.all_eq_false.mpr ⟨p, hp, by simpa using howed⟩
    have hlate : ¬ s.pair.switchAt + 100000000 ≤ s.clock := by omega
    simp only [switchQuiet, hall, hlate, decide_false, Bool.or_self, Bool.and_false]

/-- Edge h (R488): HANDOVER is stamped, the claim stays, and the migrations are given up. -/
theorem quiesceStep_quiesces {s : State} (hs : serving s = true) (hq : switchQuiet s = true) :
    (quiesceStep s).pair.switch = 2 ∧ (quiesceStep s).pair.handover = some s.drone.count ∧
      (quiesceStep s).pair.claim = s.pair.claim ∧
      ∀ k, (tabFind s.ledger.migs k).isSome = true → (getEntry s k).placed = true →
        (getEntry (quiesceStep s) k).moving = false := by
  obtain ⟨s1, hs1⟩ : ∃ s1, s1 = modEpg (fun p => { p with switch := 2, handover := some s.drone.count }) s := ⟨_, rfl⟩
  have hstep : quiesceStep s = giveUpMoves s1 := by simp [quiesceStep, hs, hq, hs1]
  have hcore := core_giveUpMoves s1
  rw [hstep]
  refine ⟨(congrArg Pair.switch hcore :).trans (by rw [hs1]; rfl), (congrArg Pair.handover hcore :).trans (by rw [hs1]; rfl),
    (congrArg Pair.claim hcore :).trans (by rw [hs1]; rfl), fun k hm hp => ?_⟩
  exact (settled_giveUpMoves (s := s1) (by rw [hs1]; exact hm) (by rw [hs1]; exact hp)).2

/-! ### The orders -/

theorem activePartner_eq_false {s : State} (h : s.pair.link.up = false ∨ s.pair.peerUnit ≠ .active) :
    activePartner s = false := by
  rcases h with h | h <;> simp [activePartner, h]

/-- A value without reserved bits is written by its row's register (R12). -/
theorem rowWrite_of_legitimate {o : Option RegMask} {w : Word} (act : Word → State → State) (s : State)
    (h : reservedSet o w = false) : rowWrite o w act s = act w s := by
  simp [rowWrite, h]

/-- JOIN answers by the unit's state (R465, R479). -/
theorem exec_join {f : Nat} {s : State} (hf : pfFull s f = true) :
    exec (.join f) s = .next (if s.pair.claim.unit = .solo then { s with pair := { s.pair with last := 1, result := 2 } }
      else { s with pair := { s.pair with last := 1, result := 0, joinOrder := true } }) := by
  simp only [exec, execJoin, hf, if_true, orderJoin]
  split <;> rfl

theorem exec_salvage {f : Nat} {s : State} (hf : pfFull s f = true) : exec (.salvage f) s = .next (orderSalvage s) := by
  simp [exec, execSalvage, hf]

theorem exec_switchBack {f : Nat} {s : State} (hf : pfFull s f = true) : exec (.switchBack f) s = .next (orderSwitch s) := by
  simp [exec, execSwitchBack, hf]

theorem exec_form {f : Nat} {s : State} (hf : pfFull s f = true) : exec (.form f) s = .next (orderForm s) := by
  simp [exec, execForm, hf]

theorem exec_epgVolClearGo {f : Nat} {w : Word} {s : State} (hf : pfFull s f = true) (hw : reservedSet (epgMask 0x48) w = false)
    (hgo : bit w 16 = true) : exec (.epgVolClearGo f w) s = .next (writeVolClear w s) := by
  simp [exec, execEpgVolClearGo, hf, hgo, rowWrite_of_legitimate writeVolClear s hw]

/-- Settles O52: each order by its answer, EPG_POLICY and EPG_VOL_CLEAR by their registers, a switch-back's quiescing. -/
theorem pairOrders : Obligations.PairOrders := by
  refine ⟨fun f s hf => ⟨exec_join hf, fun h => ?salvageBarred, fun hn ht hl hp => ?salvageActive, fun hn ht h => ?salvage,
    fun h => ?switchBarred, fun hu hw => ⟨fun hl hm hp => ?switch, fun h => ?switchUnsynced⟩, fun h => ?formBarred,
    fun hu hn ht => ?form, fun w hw => ?policy, fun w hw hgo => ⟨fun v hv hro hfence => ?clear, fun h => ?clearRefused⟩⟩,
    fun s hs => ⟨fun hsw hst hdue => ?quiesce, fun hsw hwait => ?wait⟩⟩
  case salvageBarred =>
    have hno : (!neverTakes s || s.pair.take.isSome) = true := by
      rcases h with h | h
      · simp [h]
      · simp [Option.isSome_iff_ne_none.mpr h]
    rw [exec_salvage hf, orderSalvage, if_pos hno]
    rfl
  case salvageActive =>
    rw [exec_salvage hf]
    simp [orderSalvage, hn, ht, activePartner, hl, hp, orderDone, modEpg]
  case salvage =>
    obtain ⟨k, hk⟩ := orderSalvage_accepted hn ht (activePartner_eq_false h)
    exact ⟨_, k, exec_salvage hf, hk⟩
  case switchBarred =>
    rw [exec_switchBack hf, orderSwitch, if_pos h]
    rfl
  case switch =>
    rw [exec_switchBack hf]
    simp [orderSwitch, hu, hw, hl, hm, hp, orderDone, modEpg]
  case switchUnsynced =>
    have hout : (!(s.pair.link.up && s.pair.mirrored && s.pair.peerUnit == .standbySynced)) = true := by
      rcases h with h | h | h <;> simp [h]
    rw [exec_switchBack hf, orderSwitch, if_neg (by simp [hu, hw]), if_pos hout]
    rfl
  case formBarred =>
    have hno : s.pair.claim.unit ≠ .standbyJoining ∨ !s.pair.noHolder ∨ s.pair.take.isSome := by
      simpa [Option.isSome_iff_ne_none] using h
    rw [exec_form hf, orderForm, if_pos hno]
    rfl
  case form =>
    obtain ⟨k, hk⟩ := orderForm_accepted hu hn ht
    exact ⟨_, k, exec_form hf, hk⟩
  case policy =>
    simp only [exec, execEpgPolicyWrite, hf, if_true, rowWrite_of_legitimate writePolicy s hw]
    rfl
  case clear =>
    exact ⟨_, exec_epgVolClearGo hf hw hgo, writeVolClear_clears hgo hv hro hfence⟩
  case clearRefused =>
    exact ⟨_, exec_epgVolClearGo hf hw hgo, writeVolClear_refuses hgo h⟩
  case quiesce =>
    exact ⟨_, rfl, quiesceStep_quiesces hs (switchQuiet_of_due hsw hst hdue)⟩
  case wait =>
    simp [exec, execSwitchBackQuiesce, quiesceStep, switchQuiet_of_waiting hwait]

end Sys2Proof.Machine

/-! O8: the verdict on the image in VERIFY. -/

namespace Sys2Proof.Machine

open Sys2Proof

theorem exec_imageVerifyDone {j : LoadJob} {s t : State} (hup : s.boot = .up) (hj : s.loader.job = some j)
    (hv : s.loader.state = .verify) (ht : verdict j s = t) : exec .imageVerifyDone s = .next t := by
  simp [exec, execImageVerifyDone, hj, mgmtUp, hup, hv, ht]

/-! ### Images refused (R70, R72, R74) -/

/-- A waiting LOAD that starts leaves the verdict shown in GLB_LDR_STAT, the image and the events (R69). -/
theorem startWaiting_keeps (s : State) :
    (startWaiting s).loader.reason = s.loader.reason ∧ (startWaiting s).loader.section_ = s.loader.section_ ∧
      (startWaiting s).loader.offset = s.loader.offset ∧ (startWaiting s).image = s.image ∧
      (startWaiting s).events = s.events := by
  unfold startWaiting
  split
  · exact ⟨rfl, rfl, rfl, rfl, rfl⟩
  · split <;> exact ⟨rfl, rfl, rfl, rfl, rfl⟩

/-- A refused image is shown with its reason, section and offset, and the running image stays; behind the primary flash copy the
secondary is tried. -/
theorem refuseImage_refuses (j : LoadJob) (e : ImgRefusal) (s : State) :
    let t := refuseImage j e s
    t.image = s.image ∧ t.loader.reason = e.reason ∧ t.loader.section_ = e.sec ∧
      t.loader.offset = BitVec.ofNat 32 e.pos ∧ shown t 0xE01 = true ∧
      (j.copy = 0 → t.loader.state = .fetch ∧ t.loader.copy = 1) := by
  obtain ⟨s1, hs1⟩ : ∃ s1, s1 = showRefusal j.copy e { s with loader := { s.loader with
    job := none, state := idleState s } } := ⟨_, rfl⟩
  have hshown : shown s1 0xE01 = true := by rw [hs1]; exact shown_raise_same _ _
  by_cases hcopy : j.copy = 0
  · have hnext : refuseImage j e s = startLoad (flashJob s1 1) s1 := by rw [refuseImage, ← hs1, if_pos hcopy]
    simp only [hnext]
    exact ⟨by rw [hs1]; rfl, by rw [hs1]; rfl, by rw [hs1]; rfl, by rw [hs1]; rfl, hshown, fun _ => ⟨rfl, rfl⟩⟩
  · have hidle : refuseImage j e s = startWaiting (endCmdOf j.ctx 4 s1) := by rw [refuseImage, ← hs1, if_neg hcopy]
    obtain ⟨hreason, hsection, hoffset, himage, hevents⟩ := startWaiting_keeps (endCmdOf j.ctx 4 s1)
    simp only [hidle, hreason, hsection, hoffset, himage, endCmdOf_loader, endCmdOf_image]
    exact ⟨by rw [hs1]; rfl, by rw [hs1]; rfl, by rw [hs1]; rfl, by rw [hs1]; rfl,
      (keepsShown_endCmdOf j.ctx 4 s1).trans (.of_events hevents) _ hshown, fun h => absurd h hcopy⟩

/-! ### Images accepted (R76, R575) -/

/-- APPLY leaves of the loader's registers all but its state. -/
theorem applyImage_loader (im : Image) (s : State) :
    (applyImage im s).loader = { s.loader with state := .apply, job := none, prepared := false } := by
  have hended : ∀ u : State, (endTrial 4 u).loader = u.loader := fun u =>
    same_of_alone .loader (by apply view_endTrial <;> rfl)
  simp [applyImage, hended, swapRouting]

/-- The structural and signature checks decide first (R70). -/
theorem verdict_of_refused {j : LoadJob} {s : State} {e : ImgRefusal}
    (h : imageRefusal s.mgmt.keys j.written j.bytes = some e) : verdict j s = refuseImage j e s := by
  simp [verdict, h]

/-- A mirroring active unit refuses a full load (R84). -/
theorem verdict_of_mirroring {j : LoadJob} {s : State} (h : imageRefusal s.mgmt.keys j.written j.bytes = none)
    (him : s.image.isSome = true) (hu : s.pair.claim.unit = .active) (hm : s.pair.mirrored = true) :
    verdict j s = refuseImage j { reason := 0x15, sec := 0xF, pos := 0xFFFFFFFF } s := by
  simp [verdict, h, him, hu, hm]

/-- Without a running image the accepted one is applied at once (R575). -/
theorem verdict_of_first {j : LoadJob} {s : State} (h : imageRefusal s.mgmt.keys j.written j.bytes = none)
    (him : s.image = none) : verdict j s = applyImage (parseImage j.bytes) (showAccepted j (parseImage j.bytes) s) := by
  simp [verdict, h, him]

/-- Behind a running image the accepted one goes to PREPARE (R76). -/
theorem verdict_of_reload {j : LoadJob} {s : State} (h : imageRefusal s.mgmt.keys j.written j.bytes = none)
    (him : s.image.isSome = true) (hfree : s.pair.claim.unit ≠ .active ∨ s.pair.mirrored = false) :
    verdict j s = { showAccepted j (parseImage j.bytes) s with loader := {
      (showAccepted j (parseImage j.bytes) s).loader with state := .prepare } } := by
  have hopen : (s.image.isSome && s.pair.claim.unit == .active && s.pair.mirrored) = false := by
    rcases hfree with hu | hm
    · simp [hu]
    · simp [hm]
  have hsome : s.image.isNone = false := by simpa [Option.isSome_iff_ne_none] using him
  simp only [verdict, h, hopen, hsome, Bool.false_eq_true, if_false]

/-- Settles O8: the verdict's four branches. -/
theorem imageVerdicts : Obligations.ImageVerdicts := by
  intro j s hup hj hv
  refine ⟨fun e he => ?refused, fun hok him => ?first, fun hok him hu hm => ?mirroring, fun hok him hfree => ?reload⟩
  case refused => exact ⟨_, exec_imageVerifyDone hup hj hv (verdict_of_refused he), refuseImage_refuses j e s⟩
  case first =>
    obtain ⟨himage, hstate, -⟩ := applyImage_resets (parseImage j.bytes) (showAccepted j (parseImage j.bytes) s)
    refine ⟨_, exec_imageVerifyDone hup hj hv (verdict_of_first hok him), himage, hstate, ?_⟩
    rw [applyImage_loader]
    exact ⟨rfl, rfl⟩
  case mirroring =>
    obtain ⟨himage, hreason, hsection, hoffset, hshown, -⟩ :=
      refuseImage_refuses j { reason := 0x15, sec := 0xF, pos := 0xFFFFFFFF } s
    exact ⟨_, exec_imageVerifyDone hup hj hv (verdict_of_mirroring hok him hu hm), himage, hreason, hsection,
      hoffset, hshown⟩
  case reload =>
    exact ⟨_, exec_imageVerifyDone hup hj hv (verdict_of_reload hok him hfree), rfl, rfl, rfl, rfl⟩

end Sys2Proof.Machine

/-! O57: management commands. A context of the window changed; what becomes of a command written to MGW_CTL.CMD; each
command's start; the ends of flash writes and key orders; the watchdog's reset. -/

namespace Sys2Proof.Machine

open Sys2Proof

/-! ### Contexts of the window (R521) -/

/-- A context changed is the function's value of it. -/
theorem getCtx_modCtx_same {c : Nat} {s : State} (f : Ctx → Ctx) (h : c < s.mgmt.ctxs.length) :
    getCtx (modCtx c f s) c = f (getCtx s c) := by
  simp [getCtx, nth, modCtx, modAt, List.getD_eq_getElem?_getD, h]

/-- A context changed leaves the others. -/
theorem getCtx_modCtx_ne {c d : Nat} (f : Ctx → Ctx) (s : State) (h : d ≠ c) :
    getCtx (modCtx c f s) d = getCtx s d := by
  simp [getCtx, nth, modCtx, modAt, List.getD_eq_getElem?_getD, Ne.symm h]

@[simp] theorem modCtx_mgmt_length (c : Nat) (f : Ctx → Ctx) (s : State) :
    (modCtx c f s).mgmt.ctxs.length = s.mgmt.ctxs.length := by
  simp [modCtx, modAt]

@[simp] theorem getCtx_raise (n : Nat) (s : State) (c : Nat) : getCtx (raise n s) c = getCtx s c := rfl

/-- The context after a command's end (R528): not BUSY, with RESULT, its claim on the command's target released. -/
theorem getCtx_endCmd_same {c : Nat} {s : State} (res : Nat) (h : c < s.mgmt.ctxs.length) :
    (getCtx (endCmd c res s) c).busy = false ∧ (getCtx (endCmd c res s) c).result = res ∧
      (getCtx (endCmd c res s) c).lastCmd = (getCtx s c).lastCmd ∧ (getCtx (endCmd c res s) c).health = (getCtx s c).health ∧
      ((getCtx s c).claim = cmdTargetOf (getCtx s c).lastCmd → (getCtx (endCmd c res s) c).claim = none) := by
  simp only [endCmd, getCtx_raise, getCtx_modCtx_same _ h]
  refine ⟨trivial, trivial, trivial, trivial, fun hclaim => ?_⟩
  cases hx : (getCtx s c).claim <;> simp [← hclaim, hx]

/-- A command's end shows MGW_CMD_DONE (R528). -/
theorem shown_endCmd (c res : Nat) (s : State) : shown (endCmd c res s) 0xE00 = true := shown_raise_same _ _

theorem keepsShown_endCmd (c res : Nat) (s : State) : KeepsShown s (endCmd c res s) := keepsShown_endCmdOf (some c) res s

@[simp] theorem endCmd_loader (c res : Nat) (s : State) : (endCmd c res s).loader = s.loader := rfl
@[simp] theorem endCmd_flash (c res : Nat) (s : State) : (endCmd c res s).flash = s.flash := rfl

/-! ### MGW_CTL.CMD written (R528, R534) -/

/-- The state in which a command starts: BUSY, RESULT 1, its target in use. -/
def begun (c cmd : Nat) (s : State) : State :=
  beginCmd c cmd (modCtx c (fun x => { x with lastCmd := cmd }) (touchCtx c s))

theorem cmdRefused_noted {c : Nat} {s : State} (cmd : Nat) (h : c < s.mgmt.ctxs.length) :
    cmdRefused (modCtx c (fun x => { x with lastCmd := cmd }) (touchCtx c s)) c cmd = cmdRefused s c cmd := by
  simp only [cmdRefused, touchCtx, getCtx_modCtx_same, modCtx_mgmt_length, h]
  rfl

/-- While BUSY is 1 a command is discarded; the window access is noted. -/
theorem runCmd_of_busy {c : Nat} {s : State} (cmd : Nat) (act : State → State) (h : c < s.mgmt.ctxs.length)
    (hb : (getCtx s c).busy = true) : runCmd c cmd act s = touchCtx c s := by
  simp [runCmd, touchCtx, getCtx_modCtx_same, h, hb]

/-- A command turned away ends at once with its result. -/
theorem runCmd_of_refused {c cmd r : Nat} {s : State} (act : State → State) (h : c < s.mgmt.ctxs.length)
    (hb : (getCtx s c).busy = false) (hr : cmdRefused s c cmd = r) (h0 : r ≠ 0) :
    runCmd c cmd act s = endCmd c r (modCtx c (fun x => { x with lastCmd := cmd }) (touchCtx c s)) := by
  have hb' : (getCtx (touchCtx c s) c).busy = false := by rw [touchCtx, getCtx_modCtx_same _ h]; exact hb
  simp only [runCmd, hb', cmdRefused_noted cmd h, hr, Bool.false_eq_true, if_false]

/-- A command that is not turned away starts. -/
theorem runCmd_of_accepted {c cmd : Nat} {s : State} (act : State → State) (h : c < s.mgmt.ctxs.length)
    (hb : (getCtx s c).busy = false) (hr : cmdRefused s c cmd = 0) : runCmd c cmd act s = act (begun c cmd s) := by
  have hb' : (getCtx (touchCtx c s) c).busy = false := by rw [touchCtx, getCtx_modCtx_same _ h]; exact hb
  simp only [runCmd, hb', cmdRefused_noted cmd h, hr, Bool.false_eq_true, if_false, begun]

/-! A command that starts changes its context alone. -/

@[simp] theorem begun_clock (c cmd : Nat) (s : State) : (begun c cmd s).clock = s.clock := rfl
@[simp] theorem begun_image (c cmd : Nat) (s : State) : (begun c cmd s).image = s.image := rfl
@[simp] theorem begun_hem (c cmd : Nat) (s : State) : (begun c cmd s).hem = s.hem := rfl
@[simp] theorem begun_flash (c cmd : Nat) (s : State) : (begun c cmd s).flash = s.flash := rfl
@[simp] theorem begun_mgmt_image (c cmd : Nat) (s : State) : (begun c cmd s).mgmt.image = s.mgmt.image := rfl
@[simp] theorem begun_mgmt_firmware (c cmd : Nat) (s : State) : (begun c cmd s).mgmt.firmware = s.mgmt.firmware := rfl
@[simp] theorem begun_mgmt_keys (c cmd : Nat) (s : State) : (begun c cmd s).mgmt.keys = s.mgmt.keys := rfl
@[simp] theorem begun_mgmt_svnMin (c cmd : Nat) (s : State) : (begun c cmd s).mgmt.svnMin = s.mgmt.svnMin := rfl
@[simp] theorem begun_mgmt_flashQ (c cmd : Nat) (s : State) : (begun c cmd s).mgmt.flashQ = s.mgmt.flashQ := rfl

/-- The context of a command that starts. -/
theorem getCtx_begun {c : Nat} {s : State} (cmd : Nat) (h : c < s.mgmt.ctxs.length) :
    getCtx (begun c cmd s) c = { getCtx s c with
      lastUse := s.clock, lastCmd := cmd, busy := true, result := 1, cmdTarget := cmdTargetOf cmd } := by
  simp [begun, beginCmd, touchCtx, getCtx_modCtx_same, h]

@[simp] theorem begun_mgmt_length (c cmd : Nat) (s : State) : (begun c cmd s).mgmt.ctxs.length = s.mgmt.ctxs.length := by
  simp [begun, beginCmd, touchCtx]

theorem lt_begun {c : Nat} {s : State} (cmd : Nat) (h : c < s.mgmt.ctxs.length) : c < (begun c cmd s).mgmt.ctxs.length := by
  rwa [begun_mgmt_length]

/-- A command that is not turned away for its claim holds the claim on its target. -/
theorem claim_of_accepted {c cmd : Nat} {s : State} (hr : cmdRefused s c cmd = 0) (h8 : cmd ≠ 8) :
    (getCtx s c).claim = cmdTargetOf cmd := by
  refine Decidable.byContradiction fun hne => ?_
  unfold cmdRefused at hr
  split at hr
  · exact absurd hr (by decide)
  · rw [if_pos (by simp [h8, hne])] at hr
    exact absurd hr (by decide)

/-- A command that ends where it started, behind changes that leave its context: its claim is released. -/
theorem getCtx_endCmd_of_begun {c cmd : Nat} {s t : State} (res : Nat) (hc : c < s.mgmt.ctxs.length)
    (hr : cmdRefused s c cmd = 0) (h8 : cmd ≠ 8) (ht : t.mgmt.ctxs = (begun c cmd s).mgmt.ctxs) :
    (getCtx (endCmd c res t) c).result = res ∧ (getCtx (endCmd c res t) c).claim = none := by
  have hctx : getCtx t c = getCtx (begun c cmd s) c := by rw [getCtx, getCtx, ht]
  have hlen : c < t.mgmt.ctxs.length := by rwa [ht, begun_mgmt_length]
  obtain ⟨-, hresult, -, -, hclaim⟩ := getCtx_endCmd_same res hlen
  refine ⟨hresult, hclaim ?_⟩
  rw [hctx, getCtx_begun cmd hc]
  exact claim_of_accepted hr h8

/-! ### The commands as they are written -/

theorem exec_load {c : Nat} {s : State} (h : ctxOpen s c = true) : exec (.load c) s = .next (loadCmd c s) := by
  simp [exec, execLoad, h]

theorem exec_loadLive {c : Nat} {s : State} (h : ctxOpen s c = true) : exec (.loadLive c) s = .next (loadLiveCmd c s) := by
  simp [exec, execLoadLive, h]

theorem exec_imgToFlash {c : Nat} {s : State} (h : ctxOpen s c = true) :
    exec (.imgToFlash c) s = .next (imgToFlashCmd c s) := by
  simp [exec, execImgToFlash, h]

theorem exec_fwUpdate {c : Nat} {s : State} (h : ctxOpen s c = true) : exec (.fwUpdate c) s = .next (fwUpdateCmd c s) := by
  simp [exec, execFwUpdate, h]

theorem exec_hemSave {c : Nat} {s : State} (h : ctxOpen s c = true) : exec (.hemSave c) s = .next (hemSaveCmd c s) := by
  simp [exec, execHemSave, h]

theorem exec_hemRestore {c : Nat} {s : State} (h : ctxOpen s c = true) :
    exec (.hemRestore c) s = .next (hemRestoreCmd c s) := by
  simp [exec, execHemRestore, h]

theorem exec_keyOrder {c : Nat} {s : State} (h : ctxOpen s c = true) : exec (.keyOrder c) s = .next (keyOrderCmd c s) := by
  simp [exec, execKeyOrder, h]

theorem exec_healthSnap {c : Nat} {s : State} (h : ctxOpen s c = true) :
    exec (.healthSnap c) s = .next (healthSnapCmd c s) := by
  simp [exec, execHealthSnap, h]

/-- Each of the eight commands is a command run with its number (R528). -/
theorem exec_command {i : Instr} {c cmd : Nat} {s : State} (h : ctxOpen s c = true)
    (hi : (i = .load c ∧ cmd = 1) ∨ (i = .loadLive c ∧ cmd = 2) ∨ (i = .imgToFlash c ∧ cmd = 3) ∨
      (i = .fwUpdate c ∧ cmd = 4) ∨ (i = .hemSave c ∧ cmd = 5) ∨ (i = .hemRestore c ∧ cmd = 6) ∨
      (i = .keyOrder c ∧ cmd = 7) ∨ (i = .healthSnap c ∧ cmd = 8)) :
    ∃ act, exec i s = .next (runCmd c cmd act s) := by
  rcases hi with ⟨rfl, rfl⟩ | ⟨rfl, rfl⟩ | ⟨rfl, rfl⟩ | ⟨rfl, rfl⟩ | ⟨rfl, rfl⟩ | ⟨rfl, rfl⟩ | ⟨rfl, rfl⟩ | ⟨rfl, rfl⟩
  · exact ⟨_, exec_load h⟩
  · exact ⟨_, exec_loadLive h⟩
  · exact ⟨_, exec_imgToFlash h⟩
  · exact ⟨_, exec_fwUpdate h⟩
  · exact ⟨_, exec_hemSave h⟩
  · exact ⟨_, exec_hemRestore h⟩
  · exact ⟨_, exec_keyOrder h⟩
  · exact ⟨_, exec_healthSnap h⟩

/-- Recovery turns away every command but FW_UPDATE and HEALTH_SNAP (R534). -/
theorem cmdRefused_of_recovery {c cmd : Nat} {s : State} (h : s.mgmt.recovery = true) (h4 : cmd ≠ 4) (h8 : cmd ≠ 8) :
    cmdRefused s c cmd = 8 := by
  simp [cmdRefused, h, h4, h8]

/-- A command without the claim on its target is turned away (R528). -/
theorem cmdRefused_of_unclaimed {c cmd : Nat} {s : State} (hr : s.mgmt.recovery = false) (h8 : cmd ≠ 8)
    (hc : (getCtx s c).claim ≠ cmdTargetOf cmd) : cmdRefused s c cmd = 2 := by
  simp [cmdRefused, hr, h8, hc]

/-- What a command turned away leaves: its result, MGW_CMD_DONE, and nothing loaded or written to flash. -/
theorem refusedCmd_ends {c : Nat} {s : State} (cmd r : Nat) (h : c < s.mgmt.ctxs.length) :
    let t := endCmd c r (modCtx c (fun x => { x with lastCmd := cmd }) (touchCtx c s))
    (getCtx t c).result = r ∧ (getCtx t c).busy = false ∧ (getCtx t c).lastCmd = cmd ∧ shown t 0xE00 = true ∧
      t.flash = s.flash ∧ t.loader = s.loader := by
  obtain ⟨u, hu⟩ : ∃ u, u = modCtx c (fun x => { x with lastCmd := cmd }) (touchCtx c s) := ⟨_, rfl⟩
  have hlen : c < u.mgmt.ctxs.length := by simpa [hu, touchCtx] using h
  have hnoted : (getCtx u c).lastCmd = cmd := by rw [hu, getCtx_modCtx_same _ (by simpa [touchCtx] using h)]
  obtain ⟨hbusy, hresult, hlast, -, -⟩ := getCtx_endCmd_same r hlen
  rw [← hu]
  exact ⟨hresult, hbusy, hlast.trans hnoted, shown_endCmd _ _ _, by simp [hu, touchCtx], by simp [hu, touchCtx]⟩

/-! ### LOAD and LOAD_LIVE (R74, R78, R81) -/

/-- With no live request and the loader free, LOAD starts on the window's image. -/
theorem beginLoad_of_free {c : Nat} {s : State} (hl : liveBusy s = false) (hf : loaderFree s = true) :
    beginLoad c s = startLoad (windowJob s c) s := by
  simp [beginLoad, cancelLive, hl, hf]

/-- LOAD_LIVE in RUNNING with no other request verifies the window's image. -/
theorem beginLive_of_free {c : Nat} {s : State} (hl : liveBusy s = false) (hr : s.loader.state = .running) :
    beginLive c s = { s with loader := { s.loader with lstate := .verifying, liveJob := some (windowJob s c) } } := by
  simp [beginLive, hl, hr]

/-- LOAD_LIVE while another request or a full load is in progress is refused with 0x11. -/
theorem beginLive_of_busy {c : Nat} {s : State} (h : liveBusy s = true ∨ s.loader.state ≠ .running) :
    ∃ l : Loader, beginLive c s = endCmd c 4 (raise 0xE04 { s with loader := l }) ∧ l.lreason = 0x11 := by
  have hbusy : (liveBusy s || s.loader.state != .running) = true := by simpa using h
  rw [beginLive, if_pos hbusy]
  exact ⟨_, rfl, rfl⟩

/-! ### Flash writes (R528, R529, R533) -/

/-- An image that the loader's checks accept is written up to IMG_LEN. -/
theorem startFlash_of_image {j : FlashJob} {rest : List FlashJob} {s : State} (hj : j.cmd = 3)
    (h : imageRefusal s.mgmt.keys (some (getCtx s j.ctx).written) s.mgmt.image = none) :
    startFlash (j :: rest) s = { s with
      mgmt := { s.mgmt with flashQ := { j with bytes := takePad (field s.mgmt.image 0x18 4) s.mgmt.image } :: rest }
      loader := { s.loader with copy := 2, reason := 0, section_ := 0xF, offset := 0xFFFFFFFF } } := by
  simp [startFlash, hj, h]

/-- An image refused ends its command with RESULT 4, and the next flash write is tried. -/
theorem startFlash_of_refused_image {j : FlashJob} {rest : List FlashJob} {s : State} {e : ImgRefusal} (hj : j.cmd = 3)
    (h : imageRefusal s.mgmt.keys (some (getCtx s j.ctx).written) s.mgmt.image = some e) :
    startFlash (j :: rest) s = startFlash rest (endCmd j.ctx 4 (showRefusal 2 e s)) := by
  simp [startFlash, hj, h]

/-- A firmware package that R532 accepts is written. -/
theorem startFlash_of_package {j : FlashJob} {rest : List FlashJob} {s : State} (hj : j.cmd ≠ 3)
    (h : fwCheck s.mgmt.keys s.mgmt.svnMin (some (getCtx s j.ctx).written) s.mgmt.firmware = 0) :
    startFlash (j :: rest) s = { s with mgmt := { s.mgmt with
      flashQ := { j with bytes := takePad (field s.mgmt.firmware 8 4) s.mgmt.firmware } :: rest } } := by
  simp [startFlash, hj, h]

/-- A package refused ends its command with what R532 finds, and the next flash write is tried. -/
theorem startFlash_of_refused_package {j : FlashJob} {rest : List FlashJob} {s : State} {r : Nat} (hj : j.cmd ≠ 3)
    (h : fwCheck s.mgmt.keys s.mgmt.svnMin (some (getCtx s j.ctx).written) s.mgmt.firmware = r) (h0 : r ≠ 0) :
    startFlash (j :: rest) s = startFlash rest (raise 0xE06 (endCmd j.ctx r s)) := by
  simp [startFlash, hj, h]

/-- A flash command that finds none running is begun (R529). -/
theorem queueFlash_of_idle {j : FlashJob} {s : State} (h : s.mgmt.flashQ = []) : queueFlash j s = startFlash [j] s := by
  simp [queueFlash, h]

/-! With none left to try only the queue changes: it is empty. -/

@[simp] theorem startFlash_nil_loader (s : State) : (startFlash [] s).loader = s.loader := rfl
@[simp] theorem startFlash_nil_flash (s : State) : (startFlash [] s).flash = s.flash := rfl
@[simp] theorem getCtx_startFlash_nil (s : State) (c : Nat) : getCtx (startFlash [] s) c = getCtx s c := rfl

theorem shown_startFlash_nil {s : State} {n : Nat} (h : shown s n = true) : shown (startFlash [] s) n = true := h

/-- The flash write that runs ends: its copy holds what was written, or nothing where it failed (R529, R530). -/
theorem flashWriteDone_ends {j : FlashJob} {s : State} (ok : Bool) (hup : mgmtUp s = true) (hq : s.mgmt.flashQ = [j])
    (hj : j.ctx < s.mgmt.ctxs.length) :
    ∃ t, exec (.flashWriteDone ok) s = .next t ∧ t.flash = setFlash j (if ok then j.bytes else []) s.flash ∧
      t.mgmt.flashQ = [] ∧ (getCtx t j.ctx).result = (if ok then 0 else 7) ∧
      (ok = true → j.cmd = 4 → shown t 0xE05 = true) := by
  obtain ⟨u, hu⟩ : ∃ u, u = raiseIf (ok && j.cmd == 4) 0xE05
    { s with flash := setFlash j (if ok then j.bytes else []) s.flash } := ⟨_, rfl⟩
  have hlen : j.ctx < u.mgmt.ctxs.length := by simpa [hu] using hj
  obtain ⟨-, hresult, -⟩ := getCtx_endCmd_same (if ok then 0 else 7) hlen
  have hexec : exec (.flashWriteDone ok) s = .next (startFlash [] (endCmd j.ctx (if ok then 0 else 7) u)) := by
    simp [exec, execFlashWriteDone, hq, hup, finishFlash, hu]
  refine ⟨_, hexec, by simp [hu], rfl, hresult, fun hok hcmd => ?_⟩
  have hshown : shown u 0xE05 = true := by
    rw [hu, hok, hcmd]
    exact shown_raise_same _ _
  exact shown_startFlash_nil (keepsShown_endCmd _ _ _ _ hshown)

/-! ### HEM records (R441, R442) -/

/-- A record accepted: restored, with HEM_RESTORED. -/
theorem hemApply_of_accepted {d : Hemd} {r : List Byte} {s : State} (clock : Nat) (h : recordCheck d s.hem r = 1) :
    let u := hemApply (offerRecord clock d r) s
    u.hem.restored = true ∧ u.hem.restoreRes = 1 ∧ shown u 0xAE7 = true ∧ u.mgmt = s.mgmt := by
  simp only [hemApply, offerRecord, h, ne_eq, not_true_eq_false, if_false, List.foldl_cons, List.foldl_nil]
  exact ⟨rfl, rfl, shown_raise_same _ _, rfl⟩

/-- A record refused: its reason, with HEM_RESTORE_REJECTED, and the bank as it was. -/
theorem hemApply_of_refused {d : Hemd} {r : List Byte} {s : State} (clock : Nat) (h : recordCheck d s.hem r ≠ 1) :
    let u := hemApply (offerRecord clock d r) s
    u.hem.restoreRes = recordCheck d s.hem r ∧ u.hem.bank = s.hem.bank ∧ shown u 0xAE8 = true ∧ u.mgmt = s.mgmt := by
  simp only [hemApply, offerRecord, ne_eq, h, not_false_eq_true, if_true, List.foldl_cons, List.foldl_nil]
  exact ⟨rfl, rfl, shown_raise_same _ _, rfl⟩

/-- A command's end leaves what the HEM has restored: MGW_CMD_DONE is no event that it observes (R445, R447). -/
@[simp] theorem endCmd_hem (c res : Nat) (s : State) : (endCmd c res s).hem = s.hem := rfl

/-! ### Key orders (R535 to R539) -/

theorem orderWhy_begun (c cmd : Nat) (s : State) (o : List Byte) : orderWhy (begun c cmd s) o = orderWhy s o := rfl

/-- An order whose conditions hold is fused. -/
theorem beginOrder_of_accepted {c : Nat} {s : State} (h : orderWhy s s.mgmt.order = 0) :
    beginOrder c s = { s with mgmt := { s.mgmt with fusing := some (fusingOf c s.mgmt.order) } } := by
  simp [beginOrder, h]

/-- An order refused ends with the first condition that fails. -/
theorem beginOrder_of_refused {c w : Nat} {s : State} (h : orderWhy s s.mgmt.order = w) (h0 : w ≠ 0) :
    beginOrder c s = endCmd c 0xA (raise 0xE09 { s with mgmt := { s.mgmt with orderWhy := w } }) := by
  simp [beginOrder, h]

/-- PROGRAM fuses an EMPTY slot's key (R539). -/
theorem applyOrder_program {f : Fusing} {m : Mgmt} {k : KeySlot} (ha : f.action = 1) (hk : m.keys[f.slot]? = some k)
    (he : k.state = .empty) :
    (applyOrder f m).keys[f.slot]? = some { hash := f.hash, state := .programmed, image := f.image } := by
  simp [applyOrder, ha, modAt, hk, burnKey, he]

/-- REVOKE marks a PROGRAMMED slot's key (R539). -/
theorem applyOrder_revoke {f : Fusing} {m : Mgmt} {k : KeySlot} (ha : f.action = 2) (hk : m.keys[f.slot]? = some k)
    (hp : k.state = .programmed) : (applyOrder f m).keys[f.slot]? = some { k with state := .revoked } := by
  simp [applyOrder, ha, modAt, hk, hp]

/-- ADVANCE_SVN raises the minimum security version and leaves the keys (R539). -/
theorem applyOrder_advance {f : Fusing} {m : Mgmt} (ha : f.action = 3) :
    (applyOrder f m).keys = m.keys ∧ (applyOrder f m).svnMin = max m.svnMin f.svn := by
  simp [applyOrder, ha]

theorem applyOrder_ctxs (f : Fusing) (m : Mgmt) : (applyOrder f m).ctxs = m.ctxs := by
  unfold applyOrder
  split <;> rfl

/-- Fusing completes (R539): the order is applied, MGW_KEY_CHANGE shown and the command ended. -/
theorem mgwKeyChange_ends {f : Fusing} {s : State} (hup : mgmtUp s = true) (hf : s.mgmt.fusing = some f)
    (hj : f.ctx < s.mgmt.ctxs.length) :
    ∃ t, exec .mgwKeyChange s = .next t ∧ t.mgmt.fusing = none ∧ (getCtx t f.ctx).result = 0 ∧ shown t 0xE08 = true ∧
      t.mgmt.keys = (applyOrder f s.mgmt).keys ∧ t.mgmt.svnMin = (applyOrder f s.mgmt).svnMin := by
  obtain ⟨u, hu⟩ : ∃ u, u = raise 0xE08 { s with mgmt := { applyOrder f s.mgmt with fusing := none } } := ⟨_, rfl⟩
  have hlen : f.ctx < u.mgmt.ctxs.length := by simpa [hu, applyOrder_ctxs] using hj
  obtain ⟨-, hresult, -⟩ := getCtx_endCmd_same 0 hlen
  refine ⟨endCmd f.ctx 0 u, by simp [exec, execMgwKeyChange, hf, hup, hu], by rw [hu]; rfl, hresult,
    keepsShown_endCmd _ _ _ _ (by rw [hu]; exact shown_raise_same _ _), by rw [hu]; rfl, by rw [hu]; rfl⟩

/-! ### What a command that starts leaves

The context is one of the four, and not BUSY. -/

section Starts

variable {c : Nat} {s : State} (hc : c < s.mgmt.ctxs.length) (hb : (getCtx s c).busy = false)
include hc hb

/-- LOAD starts on the window's image where the loader is free. -/
theorem loadCmd_starts (hr : cmdRefused s c 1 = 0) (hl : liveBusy s = false) (hf : loaderFree s = true) :
    (loadCmd c s).loader.state = .fetch ∧ (loadCmd c s).loader.copy = 2 ∧ (getCtx (loadCmd c s) c).busy = true ∧
      (getCtx (loadCmd c s) c).result = 1 ∧
      (loadCmd c s).loader.job = some {
        copy := 2, ctx := some c, bytes := s.mgmt.image, written := some (getCtx s c).written } := by
  have hcmd : loadCmd c s = startLoad (windowJob (begun c 1 s) c) (begun c 1 s) := by
    rw [loadCmd, runCmd_of_accepted _ hc hb hr, beginLoad_of_free (s := begun c 1 s) hl hf]
  have hctx : getCtx (loadCmd c s) c = getCtx (begun c 1 s) c := by rw [hcmd]; rfl
  rw [hctx, getCtx_begun 1 hc, hcmd]
  exact ⟨rfl, rfl, rfl, rfl, by simp [startLoad, windowJob, getCtx_begun, hc]⟩

/-- LOAD_LIVE verifies the window's image in RUNNING, with no other request. -/
theorem loadLiveCmd_starts (hr : cmdRefused s c 2 = 0) (hl : liveBusy s = false) (hs : s.loader.state = .running) :
    (loadLiveCmd c s).loader.lstate = .verifying ∧ (getCtx (loadLiveCmd c s) c).busy = true ∧
      (loadLiveCmd c s).loader.liveJob.isSome = true := by
  have hcmd : loadLiveCmd c s = beginLive c (begun c 2 s) := runCmd_of_accepted _ hc hb hr
  rw [beginLive_of_free (s := begun c 2 s) hl hs] at hcmd
  have hctx : getCtx (loadLiveCmd c s) c = getCtx (begun c 2 s) c := by rw [hcmd]; rfl
  rw [hctx, getCtx_begun 2 hc, hcmd]
  exact ⟨rfl, rfl, rfl⟩

/-- LOAD_LIVE is refused with 0x11 while another request or a full load is in progress. -/
theorem loadLiveCmd_refuses (hr : cmdRefused s c 2 = 0) (hbusy : liveBusy s = true ∨ s.loader.state ≠ .running) :
    (getCtx (loadLiveCmd c s) c).result = 4 ∧ (loadLiveCmd c s).loader.lreason = 0x11 ∧
      shown (loadLiveCmd c s) 0xE04 = true := by
  have hcmd : loadLiveCmd c s = beginLive c (begun c 2 s) := runCmd_of_accepted _ hc hb hr
  obtain ⟨l, hl, hreason⟩ := beginLive_of_busy (c := c) (s := begun c 2 s) hbusy
  rw [hl] at hcmd
  obtain ⟨-, hresult, -⟩ := getCtx_endCmd_same (s := raise 0xE04 { begun c 2 s with loader := l }) 4
    (lt_begun 2 hc)
  rw [hcmd]
  exact ⟨hresult, hreason, keepsShown_endCmd _ _ _ _ (shown_raise_same _ _)⟩

/-- IMG_TO_FLASH accepted queues the write of the image copy that COPY names. -/
theorem imgToFlashCmd_of_accepted (hr : cmdRefused s c 3 = 0) (hq : s.mgmt.flashQ = []) :
    imgToFlashCmd c s = startFlash [{
      ctx := c, cmd := 3, copy := if (getCtx s c).copy then 1 else 0, bytes := [] }] (begun c 3 s) := by
  rw [imgToFlashCmd, runCmd_of_accepted _ hc hb hr, queueFlash_of_idle (by simpa using hq), getCtx_begun 3 hc]

/-- FW_UPDATE accepted queues the write of a firmware copy. -/
theorem fwUpdateCmd_of_accepted (hr : cmdRefused s c 4 = 0) (hq : s.mgmt.flashQ = []) :
    fwUpdateCmd c s = startFlash [{ ctx := c, cmd := 4, copy := fwTarget (begun c 4 s), bytes := [] }] (begun c 4 s) := by
  rw [fwUpdateCmd, runCmd_of_accepted _ hc hb hr, queueFlash_of_idle (by simpa using hq)]

/-- IMG_TO_FLASH with an image that the checks accept: BUSY, and the image's bytes go to the copy that COPY names. -/
theorem imgToFlashCmd_starts (hr : cmdRefused s c 3 = 0) (hq : s.mgmt.flashQ = [])
    (hok : imageRefusal s.mgmt.keys (some (getCtx s c).written) s.mgmt.image = none) :
    (getCtx (imgToFlashCmd c s) c).busy = true ∧ (imgToFlashCmd c s).mgmt.flashQ = [{
      ctx := c, cmd := 3, copy := if (getCtx s c).copy then 1 else 0
      bytes := takePad (field s.mgmt.image 0x18 4) s.mgmt.image }] := by
  have hcmd := imgToFlashCmd_of_accepted hc hb hr hq
  rw [startFlash_of_image rfl (by simpa [getCtx_begun 3 hc] using hok)] at hcmd
  have hctx : getCtx (imgToFlashCmd c s) c = getCtx (begun c 3 s) c := by rw [hcmd]; rfl
  rw [hctx, getCtx_begun 3 hc, hcmd]
  exact ⟨rfl, rfl⟩

/-- IMG_TO_FLASH with an image that the checks refuse: RESULT 4, and the verdict in GLB_LDR_STAT. -/
theorem imgToFlashCmd_refuses {e : ImgRefusal} (hr : cmdRefused s c 3 = 0) (hq : s.mgmt.flashQ = [])
    (he : imageRefusal s.mgmt.keys (some (getCtx s c).written) s.mgmt.image = some e) :
    (getCtx (imgToFlashCmd c s) c).result = 4 ∧ (imgToFlashCmd c s).loader.reason = e.reason ∧
      shown (imgToFlashCmd c s) 0xE01 = true ∧ (imgToFlashCmd c s).flash = s.flash := by
  have hcmd := imgToFlashCmd_of_accepted hc hb hr hq
  rw [startFlash_of_refused_image rfl (by simpa [getCtx_begun 3 hc] using he)] at hcmd
  obtain ⟨-, hresult, -⟩ := getCtx_endCmd_same (s := showRefusal 2 e (begun c 3 s)) 4 (lt_begun 3 hc)
  rw [hcmd, getCtx_startFlash_nil, startFlash_nil_loader, startFlash_nil_flash]
  exact ⟨hresult, rfl, shown_startFlash_nil (keepsShown_endCmd _ _ _ _ (shown_raise_same _ _)), by simp [showRefusal]⟩

/-- FW_UPDATE with a package that R532 accepts: BUSY, with its write queued. -/
theorem fwUpdateCmd_starts (hr : cmdRefused s c 4 = 0) (hq : s.mgmt.flashQ = [])
    (hok : fwCheck s.mgmt.keys s.mgmt.svnMin (some (getCtx s c).written) s.mgmt.firmware = 0) :
    (getCtx (fwUpdateCmd c s) c).busy = true ∧ (fwUpdateCmd c s).mgmt.flashQ ≠ [] := by
  have hcmd := fwUpdateCmd_of_accepted hc hb hr hq
  rw [startFlash_of_package (Nat.succ_ne_self 3) (by simpa [getCtx_begun 4 hc] using hok)] at hcmd
  have hctx : getCtx (fwUpdateCmd c s) c = getCtx (begun c 4 s) c := by rw [hcmd]; rfl
  rw [hctx, getCtx_begun 4 hc, hcmd]
  exact ⟨rfl, List.cons_ne_nil _ _⟩

/-- FW_UPDATE with a package that R532 refuses: its result, MGW_FW_REFUSED, and the flash as it was. -/
theorem fwUpdateCmd_refuses {r : Nat} (hr : cmdRefused s c 4 = 0) (hq : s.mgmt.flashQ = []) (h0 : r ≠ 0)
    (hbad : fwCheck s.mgmt.keys s.mgmt.svnMin (some (getCtx s c).written) s.mgmt.firmware = r) :
    (getCtx (fwUpdateCmd c s) c).result = r ∧ shown (fwUpdateCmd c s) 0xE06 = true ∧ (fwUpdateCmd c s).flash = s.flash := by
  have hcmd := fwUpdateCmd_of_accepted hc hb hr hq
  rw [startFlash_of_refused_package (Nat.succ_ne_self 3) (by simpa [getCtx_begun 4 hc] using hbad) h0] at hcmd
  obtain ⟨-, hresult, -⟩ := getCtx_endCmd_same (s := begun c 4 s) r (lt_begun 4 hc)
  rw [hcmd, getCtx_startFlash_nil, startFlash_nil_flash]
  exact ⟨hresult, shown_startFlash_nil (shown_raise_same _ _), by simp⟩

/-- HEM_SAVE stages the record of the HEM's state. -/
theorem hemSaveCmd_of_accepted {im : Image} (hr : cmdRefused s c 5 = 0) (him : s.image = some im) :
    hemSaveCmd c s = endCmd c 0 { begun c 5 s with mgmt := { (begun c 5 s).mgmt with
      hem := hemRecord s.clock im.hemd s.hem } } := by
  rw [hemSaveCmd, runCmd_of_accepted _ hc hb hr]
  simp [hemdOf, him]

/-- HEM_RESTORE offers the staged record to the HEM. -/
theorem hemRestoreCmd_of_accepted {im : Image} (hr : cmdRefused s c 6 = 0) (him : s.image = some im) :
    hemRestoreCmd c s =
      let u := hemApply (offerRecord s.clock im.hemd s.mgmt.hem) (begun c 6 s)
      endCmd c (if u.hem.restoreRes = 1 then 0 else 9) u := by
  rw [hemRestoreCmd, runCmd_of_accepted _ hc hb hr]
  simp only [hemdOf, begun_image, him, Option.map_some]
  rfl

/-- HEM_SAVE ends with the record staged. -/
theorem hemSaveCmd_saves {im : Image} (hr : cmdRefused s c 5 = 0) (him : s.image = some im) :
    (getCtx (hemSaveCmd c s) c).result = 0 ∧ (getCtx (hemSaveCmd c s) c).claim = none ∧
      (hemSaveCmd c s).mgmt.hem = hemRecord s.clock im.hemd s.hem ∧
      shown (hemSaveCmd c s) 0xE00 = true := by
  rw [hemSaveCmd_of_accepted hc hb hr him]
  obtain ⟨hresult, hclaim⟩ := getCtx_endCmd_of_begun (t := { begun c 5 s with mgmt := { (begun c 5 s).mgmt with
    hem := hemRecord s.clock im.hemd s.hem } }) 0 hc hr (by decide) rfl
  exact ⟨hresult, hclaim, rfl, shown_endCmd _ _ _⟩

/-- HEM_RESTORE of a record that the HEM accepts. -/
theorem hemRestoreCmd_restores {im : Image} (hr : cmdRefused s c 6 = 0) (him : s.image = some im)
    (hok : recordCheck im.hemd s.hem s.mgmt.hem = 1) :
    (getCtx (hemRestoreCmd c s) c).result = 0 ∧ (hemRestoreCmd c s).hem.restored = true ∧
      (hemRestoreCmd c s).hem.restoreRes = 1 ∧ shown (hemRestoreCmd c s) 0xAE7 = true := by
  obtain ⟨u, hu⟩ : ∃ u, u = hemApply (offerRecord s.clock im.hemd s.mgmt.hem) (begun c 6 s) := ⟨_, rfl⟩
  obtain ⟨hrestored, hres, hshown, hmgmt⟩ := hemApply_of_accepted (s := begun c 6 s) s.clock hok
  rw [← hu] at hrestored hres hshown hmgmt
  obtain ⟨hresult, -⟩ := getCtx_endCmd_of_begun (t := u) 0 hc hr (by decide) (by rw [hmgmt])
  have hcmd : hemRestoreCmd c s = endCmd c 0 u := by
    rw [hemRestoreCmd_of_accepted hc hb hr him, ← hu]
    simp only [hres, if_true]
  rw [hcmd, endCmd_hem]
  exact ⟨hresult, hrestored, hres, keepsShown_endCmd _ _ _ _ hshown⟩

/-- HEM_RESTORE of a record that the HEM refuses. -/
theorem hemRestoreCmd_refuses {im : Image} (hr : cmdRefused s c 6 = 0) (him : s.image = some im)
    (hbad : recordCheck im.hemd s.hem s.mgmt.hem ≠ 1) :
    (getCtx (hemRestoreCmd c s) c).result = 9 ∧ (hemRestoreCmd c s).hem.restoreRes = recordCheck im.hemd s.hem s.mgmt.hem ∧
      (hemRestoreCmd c s).hem.bank = s.hem.bank ∧
      shown (hemRestoreCmd c s) 0xAE8 = true := by
  obtain ⟨u, hu⟩ : ∃ u, u = hemApply (offerRecord s.clock im.hemd s.mgmt.hem) (begun c 6 s) := ⟨_, rfl⟩
  obtain ⟨hres, hbank, hshown, hmgmt⟩ := hemApply_of_refused (s := begun c 6 s) s.clock hbad
  rw [← hu] at hres hbank hshown hmgmt
  obtain ⟨hresult, -⟩ := getCtx_endCmd_of_begun (t := u) 9 hc hr (by decide) (by rw [hmgmt])
  have hcmd : hemRestoreCmd c s = endCmd c 9 u := by
    rw [hemRestoreCmd_of_accepted hc hb hr him, ← hu]
    simp only [hres, begun_hem, hbad, if_false]
  rw [hcmd, endCmd_hem]
  exact ⟨hresult, hres, hbank, keepsShown_endCmd _ _ _ _ hshown⟩

/-- KEY_ORDER of an order whose conditions hold: BUSY while it is fused. -/
theorem keyOrderCmd_starts (hr : cmdRefused s c 7 = 0) (hok : orderWhy s s.mgmt.order = 0) :
    (getCtx (keyOrderCmd c s) c).busy = true ∧ (keyOrderCmd c s).mgmt.fusing = some (fusingOf c s.mgmt.order) ∧
      (keyOrderCmd c s).mgmt.keys = s.mgmt.keys := by
  have hcmd : keyOrderCmd c s = beginOrder c (begun c 7 s) := runCmd_of_accepted _ hc hb hr
  rw [beginOrder_of_accepted (by rw [orderWhy_begun]; exact hok)] at hcmd
  have hctx : getCtx (keyOrderCmd c s) c = getCtx (begun c 7 s) c := by rw [hcmd]; rfl
  rw [hctx, getCtx_begun 7 hc, hcmd]
  exact ⟨rfl, rfl, rfl⟩

/-- KEY_ORDER of an order that a condition of R539 turns away. -/
theorem keyOrderCmd_refuses (hr : cmdRefused s c 7 = 0) (hbad : orderWhy s s.mgmt.order ≠ 0) :
    (getCtx (keyOrderCmd c s) c).result = 0xA ∧ (keyOrderCmd c s).mgmt.orderWhy = orderWhy s s.mgmt.order ∧
      shown (keyOrderCmd c s) 0xE09 = true ∧
      (keyOrderCmd c s).mgmt.keys = s.mgmt.keys := by
  have hcmd : keyOrderCmd c s = beginOrder c (begun c 7 s) := runCmd_of_accepted _ hc hb hr
  rw [beginOrder_of_refused (w := orderWhy s s.mgmt.order) (orderWhy_begun c 7 s _) hbad] at hcmd
  obtain ⟨-, hresult, -⟩ := getCtx_endCmd_same (s := raise 0xE09 { begun c 7 s with mgmt := { (begun c 7 s).mgmt with
    orderWhy := orderWhy s s.mgmt.order } }) 0xA (lt_begun 7 hc)
  rw [hcmd]
  exact ⟨hresult, rfl, keepsShown_endCmd _ _ _ _ (shown_raise_same _ _), rfl⟩

/-- HEALTH_SNAP copies the health report into the context; it needs no claim and no image (R504, R528). -/
theorem healthSnapCmd_copies :
    (getCtx (healthSnapCmd c s) c).result = 0 ∧ (getCtx (healthSnapCmd c s) c).health = healthReport s ∧
      shown (healthSnapCmd c s) 0xE00 = true := by
  have hr : cmdRefused s c 8 = 0 := by simp [cmdRefused]
  obtain ⟨u, hu⟩ : ∃ u, u = modCtx c (fun x => { x with health := healthReport (begun c 8 s) }) (begun c 8 s) := ⟨_, rfl⟩
  have hcmd : healthSnapCmd c s = endCmd c 0 u := by rw [healthSnapCmd, runCmd_of_accepted _ hc hb hr, hu]
  obtain ⟨-, hresult, -, hhealth, -⟩ := getCtx_endCmd_same (c := c) (s := u) 0 (by simpa [hu] using hc)
  rw [hcmd]
  refine ⟨hresult, hhealth.trans ?_, shown_endCmd _ _ _⟩
  rw [hu, getCtx_modCtx_same _ (by simpa using hc)]
  rfl

end Starts

/-! ### The watchdog's reset (R21, R510, R530) -/

/-- A flash write interrupted leaves the management plane without flash writes, and nothing else there changes. -/
theorem breakFlash_mgmt (s : State) : (breakFlash s).mgmt = { s.mgmt with flashQ := [] } := by
  unfold breakFlash
  split
  · next h => rw [← h]
  · rfl

theorem breakFlash_of_running {j : FlashJob} {r : List FlashJob} {s : State} (h : s.mgmt.flashQ = j :: r) :
    (breakFlash s).flash = setFlash j [] s.flash := by
  simp [breakFlash, h]

/-- Fusing interrupted leaves nothing being fused, and the contexts and flash writes as they were. -/
theorem breakFusing_mgmt (s : State) :
    (breakFusing s).mgmt.fusing = none ∧ (breakFusing s).mgmt.ctxs = s.mgmt.ctxs ∧
      (breakFusing s).mgmt.flashQ = s.mgmt.flashQ := by
  have hkept : ∀ f m, (applyOrder f m).flashQ = m.flashQ := fun f m => by
    unfold applyOrder
    split <;> rfl
  unfold breakFusing
  split
  · next h => exact ⟨h, rfl, rfl⟩
  · next f _ =>
    dsimp only
    split
    · exact ⟨rfl, rfl, rfl⟩
    · split
      · exact ⟨rfl, applyOrder_ctxs _ _, hkept _ _⟩
      · exact ⟨rfl, rfl, rfl⟩

theorem breakFusing_of_none {s : State} (h : s.mgmt.fusing = none) : breakFusing s = s := by
  simp [breakFusing, h]

/-- An image in FETCH or VERIFY is abandoned, and a verifying live request with it (R74, R530). -/
theorem abandonLoad_loader (s : State) : (abandonLoad s).loader.job = none ∧ (abandonLoad s).loader.liveJob = none := by
  cases hj : s.loader.job <;> cases hl : s.loader.liveJob <;> simp [abandonLoad, hj, hl]

/-- What the watchdog leaves of a context (R530): no claim, no command, and RESULT 0xB where a command ran. -/
def Ctx.EndedAs (x y : Ctx) : Prop := y.claim = none ∧ y.busy = false ∧ (x.busy = true → y.result = 0xB)

theorem getCtx_watchdogCtx_ne {c d : Nat} (s : State) (h : c ≠ d) : getCtx (watchdogCtx s d) c = getCtx s c := by
  rw [watchdogCtx, dropClaim, getCtx_modCtx_ne _ _ h]
  split
  · rw [endCmd, getCtx_raise, getCtx_modCtx_ne _ _ h]
  · rfl

theorem getCtx_watchdogCtx_same {c : Nat} {s : State} (h : c < s.mgmt.ctxs.length) :
    (getCtx s c).EndedAs (getCtx (watchdogCtx s c) c) := by
  unfold watchdogCtx dropClaim
  split
  · obtain ⟨hbusy, hresult, -⟩ := getCtx_endCmd_same 0xB h
    rw [getCtx_modCtx_same _ (by simpa [endCmd] using h)]
    exact ⟨rfl, hbusy, fun _ => hresult⟩
  · next hidle =>
    rw [getCtx_modCtx_same _ h]
    exact ⟨rfl, by simpa using hidle, fun hbusy => absurd hbusy hidle⟩

@[simp] theorem watchdogCtx_mgmt_length (s : State) (c : Nat) :
    (watchdogCtx s c).mgmt.ctxs.length = s.mgmt.ctxs.length := by
  unfold watchdogCtx dropClaim
  split <;> simp [endCmd]

/-- The watchdog ends each context of a list once. -/
theorem foldl_watchdogCtx_ends {c : Nat} {l : List Nat} (hl : l.Nodup) (hm : c ∈ l) {s : State}
    (h : c < s.mgmt.ctxs.length) : (getCtx s c).EndedAs (getCtx (l.foldl watchdogCtx s) c) := by
  induction l generalizing s with
  | nil => exact absurd hm List.not_mem_nil
  | cons d r ih =>
    obtain ⟨hd, hr⟩ := List.nodup_cons.mp hl
    rw [List.foldl_cons]
    by_cases hc : c = d
    · subst hc
      have hrest : getCtx (r.foldl watchdogCtx (watchdogCtx s c)) c = getCtx (watchdogCtx s c) c :=
        List.foldlRecOn r watchdogCtx (motive := fun t => getCtx t c = getCtx (watchdogCtx s c) c) rfl fun t ht x hx =>
          (getCtx_watchdogCtx_ne t fun hcx : c = x => hd (hcx ▸ hx)).trans ht
      rw [hrest]
      exact getCtx_watchdogCtx_same h
    · rw [← getCtx_watchdogCtx_ne s hc]
      exact ih hr ((List.mem_cons.mp hm).resolve_left hc) (by simpa using h)

/-- What the end of a context at the watchdog leaves: loader, flash, HEM and log, and of the management plane all but the
contexts. -/
def besideCtxs (s : State) := (s.loader, s.flash, s.hem, s.events.log, { s.mgmt with ctxs := [] })

theorem besideCtxs_watchdogCtx (s : State) (c : Nat) : besideCtxs (watchdogCtx s c) = besideCtxs s := by
  unfold watchdogCtx
  split <;> rfl

theorem keepsShown_watchdogCtx (s : State) (c : Nat) : KeepsShown s (watchdogCtx s c) := by
  have hdrop : ∀ t, KeepsShown t (dropClaim c t) := fun t => .of_events rfl
  unfold watchdogCtx
  split
  · exact (keepsShown_endCmd _ _ _).trans (hdrop _)
  · exact hdrop _

/-- The log emptied and the HEM stalled, with HLT_MGMT_RESET shown (R33, R510). -/
theorem emptyLog_stallHem (s : State) :
    (emptyLog (stallHem s)).events.log = [] ∧ shown (emptyLog (stallHem s)) 0xC0B = true ∧
      (emptyLog (stallHem s)).hem.stall = (Config.freeWord s.free).toNat ∧
      (emptyLog (stallHem s)).mgmt = s.mgmt ∧ (emptyLog (stallHem s)).flash = s.flash :=
  ⟨rfl, shown_raise_same _ _, rfl, rfl, rfl⟩

/-- The loads, the fusing and the flash write that the watchdog interrupts (R530). -/
theorem watchdog_interrupts (s : State) :
    let t := breakFlash (breakFusing (abandonLoad s))
    t.loader = (abandonLoad s).loader ∧ t.hem = s.hem ∧ t.events = s.events ∧ t.mgmt.ctxs = s.mgmt.ctxs ∧
      t.mgmt.fusing = none ∧ t.mgmt.flashQ = [] ∧
      (s.mgmt.fusing = none → t.mgmt.keys = s.mgmt.keys ∧ t.mgmt.svnMin = s.mgmt.svnMin) ∧
      (∀ j r, s.mgmt.flashQ = j :: r → t.flash = setFlash j [] s.flash) := by
  obtain ⟨a, ha⟩ : ∃ a, a = abandonLoad s := ⟨_, rfl⟩
  have hmgmt : a.mgmt = s.mgmt := by rw [ha]; rfl
  have hflash : a.flash = s.flash := by rw [ha]; rfl
  obtain ⟨hfusing, hctxs, hqueue⟩ := breakFusing_mgmt a
  have hkept : ∀ u, (breakFlash u).loader = u.loader ∧ (breakFlash u).hem = u.hem ∧ (breakFlash u).events = u.events := fun u =>
    ⟨same_of_alone .loader (by apply view_breakFlash <;> rfl), same_of_alone .hem (by apply view_breakFlash <;> rfl),
      same_of_alone .events (by apply view_breakFlash <;> rfl)⟩
  have hsame : ∀ u, (breakFusing u).loader = u.loader ∧ (breakFusing u).hem = u.hem ∧ (breakFusing u).events = u.events ∧
      (breakFusing u).flash = u.flash := fun u =>
    ⟨same_of_alone .loader (by apply view_breakFusing <;> rfl), same_of_alone .hem (by apply view_breakFusing <;> rfl),
      same_of_alone .events (by apply view_breakFusing <;> rfl), same_of_alone .flash (by apply view_breakFusing <;> rfl)⟩
  obtain ⟨hloader, hhem, hevents⟩ := hkept (breakFusing a)
  obtain ⟨hloader', hhem', hevents', hflash'⟩ := hsame a
  rw [← ha]
  refine ⟨hloader.trans hloader', ?_, ?_, ?_, ?_, ?_, fun hnone => ?_, fun j r hq => ?_⟩
  · rw [hhem, hhem', ha]; rfl
  · rw [hevents, hevents', ha]; rfl
  · rw [breakFlash_mgmt, ← hmgmt, ← hctxs]
  · rw [breakFlash_mgmt]; exact hfusing
  · rw [breakFlash_mgmt]
  · rw [breakFlash_mgmt, breakFusing_of_none (by rw [hmgmt, hnone]), hmgmt]
    exact ⟨rfl, rfl⟩
  · rw [breakFlash_of_running (by rw [hqueue, hmgmt, hq]), hflash', hflash]

/-- A management plane watchdog reset (R21, R510, R530). -/
theorem watchdogReset_resets {s : State} (h4 : s.mgmt.ctxs.length = 4) :
    let t := watchdogReset s
    t.image = s.image ∧ t.mgmt.fusing = none ∧ t.mgmt.flashQ = [] ∧ t.loader.job = none ∧ t.loader.liveJob = none ∧
      t.events.log = [] ∧ shown t 0xC0B = true ∧ (∀ c, c < 4 → (getCtx s c).EndedAs (getCtx t c)) ∧
      (s.mgmt.fusing = none → t.mgmt.keys = s.mgmt.keys ∧ t.mgmt.svnMin = s.mgmt.svnMin) ∧
      (∀ j r, s.mgmt.flashQ = j :: r → t.flash = setFlash j [] s.flash) ∧
      t.hem.stall = (Config.freeWord s.free).toNat := by
  obtain ⟨s1, hs1⟩ : ∃ s1, s1 = emptyLog (stallHem s) := ⟨_, rfl⟩
  obtain ⟨s2, hs2⟩ : ∃ s2, s2 = breakFlash (breakFusing (abandonLoad s1)) := ⟨_, rfl⟩
  obtain ⟨s3, hs3⟩ : ∃ s3, s3 = (List.range 4).foldl watchdogCtx s2 := ⟨_, rfl⟩
  obtain ⟨hlog1, hshown1, hstall1, hmgmt1, hflash1⟩ := emptyLog_stallHem s
  rw [← hs1] at hlog1 hshown1 hstall1 hmgmt1 hflash1
  obtain ⟨hloader2, hhem2, hevents2, hctxs2, hfusing2, hqueue2, hkeys2, hflash2⟩ := watchdog_interrupts s1
  rw [← hs2] at hloader2 hhem2 hevents2 hctxs2 hfusing2 hqueue2 hkeys2 hflash2
  rw [hmgmt1] at hctxs2 hkeys2 hflash2
  obtain ⟨hjob, hlive⟩ := abandonLoad_loader s1
  have hbeside : besideCtxs s3 = besideCtxs s2 := by
    rw [hs3]
    exact foldl_keeps (part := besideCtxs) _ _ besideCtxs_watchdogCtx
  simp only [besideCtxs, Prod.mk.injEq] at hbeside
  obtain ⟨hloader3, hflash3, hhem3, hlog3, hmgmt3⟩ := hbeside
  have hshown3 : KeepsShown s2 s3 := by
    rw [hs3]
    exact keepsShown_foldl _ _ keepsShown_watchdogCtx
  have hreset : watchdogReset s = { s3 with loader := { s3.loader with
      acceptedCtx := none, live := s3.loader.live.map fun r => { r with ctx := none } } } := by
    rw [hs3, hs2, hs1]
    rfl
  have himage : (watchdogReset s).image = s.image := same_of_alone .image (by apply view_watchdogReset <;> rfl)
  refine ⟨himage, ?_⟩
  rw [hreset]
  refine ⟨(congrArg Mgmt.fusing hmgmt3).trans hfusing2, (congrArg Mgmt.flashQ hmgmt3).trans hqueue2, ?_, ?_, ?_, ?_,
    fun c hc => ?_, fun hnone => ?_, fun j r hq => ?_, ?_⟩
  · exact (congrArg Loader.job (hloader3.trans hloader2)).trans hjob
  · exact (congrArg Loader.liveJob (hloader3.trans hloader2)).trans hlive
  · exact hlog3.trans ((congrArg Events.log hevents2).trans hlog1)
  · exact hshown3 _ ((KeepsShown.of_events hevents2) _ hshown1)
  · have hsame : getCtx s2 c = getCtx s c := by rw [getCtx, getCtx, hctxs2]
    rw [← hsame]
    have hends := foldl_watchdogCtx_ends List.nodup_range (List.mem_range.mpr hc) (s := s2) (by rw [hctxs2, h4]; exact hc)
    rwa [← hs3] at hends
  · exact ⟨(congrArg Mgmt.keys hmgmt3).trans (hkeys2 hnone).1, (congrArg Mgmt.svnMin hmgmt3).trans (hkeys2 hnone).2⟩
  · exact hflash3.trans ((hflash2 j r hq).trans (by rw [hflash1]))
  · exact (congrArg Hem.stall (hhem3.trans hhem2)).trans hstall1

/-! ### O57 -/

/-- Settles O57: what a command written becomes, what each one's start leaves, and how flash writes, key orders and the
watchdog's reset end. -/
theorem managementCommands : Obligations.ManagementCommands := by
  refine ⟨fun i c cmd s ho hc hi => ?written, fun c s ho hc hb => ⟨fun hr hl hf => ?load,
    fun hr => ⟨fun hl hs => ?live, fun hbusy => ?liveRefused⟩,
    fun hr hq => ⟨fun hok => ?toFlash, fun e he => ?toFlashRefused⟩,
    fun hr hq => ⟨fun hok => ?firmware, fun r h0 hbad => ?firmwareRefused⟩,
    fun im him hr => ?save, fun im him hr => ⟨fun hok => ?restore, fun hbad => ?restoreRefused⟩,
    fun hr => ⟨fun hok => ?order, fun hbad => ?orderRefused⟩, ?snap⟩,
    fun j s hup hq hj => ⟨?flashDone, ?flashFailed⟩, fun f s hup hf hj => ?fused, fun s hup h4 => ?watchdog⟩
  case written =>
    obtain ⟨act, hact⟩ := exec_command ho hi
    refine ⟨fun hbusy => ?_, fun hidle ⟨hrec, h4, h8⟩ => ?_, fun hidle hrec h8 hclaim => ?_⟩
    · refine ⟨touchCtx c s, by rw [hact, runCmd_of_busy cmd act hc hbusy], rfl, ?_, rfl⟩
      rw [touchCtx, getCtx_modCtx_same _ hc]
    · obtain ⟨hresult, hbusy, -, hshown, -⟩ := refusedCmd_ends cmd 8 hc
      exact ⟨_, by rw [hact, runCmd_of_refused act hc hidle (cmdRefused_of_recovery hrec h4 h8) (by decide)], hresult, hbusy,
        hshown⟩
    · obtain ⟨hresult, -, hlast, hshown, hflash, hloader⟩ := refusedCmd_ends cmd 2 hc
      exact ⟨_, by rw [hact, runCmd_of_refused act hc hidle (cmdRefused_of_unclaimed hrec h8 hclaim) (by decide)], hresult,
        hlast, hshown, hflash, hloader⟩
  case load => exact ⟨_, exec_load ho, loadCmd_starts hc hb hr hl hf⟩
  case live => exact ⟨_, exec_loadLive ho, loadLiveCmd_starts hc hb hr hl hs⟩
  case liveRefused => exact ⟨_, exec_loadLive ho, loadLiveCmd_refuses hc hb hr hbusy⟩
  case toFlash => exact ⟨_, exec_imgToFlash ho, imgToFlashCmd_starts hc hb hr hq hok⟩
  case toFlashRefused => exact ⟨_, exec_imgToFlash ho, imgToFlashCmd_refuses hc hb hr hq he⟩
  case firmware => exact ⟨_, exec_fwUpdate ho, fwUpdateCmd_starts hc hb hr hq hok⟩
  case firmwareRefused => exact ⟨_, exec_fwUpdate ho, fwUpdateCmd_refuses hc hb hr hq h0 hbad⟩
  case save => exact ⟨_, exec_hemSave ho, hemSaveCmd_saves hc hb hr him⟩
  case restore => exact ⟨_, exec_hemRestore ho, hemRestoreCmd_restores hc hb hr him hok⟩
  case restoreRefused => exact ⟨_, exec_hemRestore ho, hemRestoreCmd_refuses hc hb hr him hbad⟩
  case order => exact ⟨_, exec_keyOrder ho, keyOrderCmd_starts hc hb hr hok⟩
  case orderRefused => exact ⟨_, exec_keyOrder ho, keyOrderCmd_refuses hc hb hr hbad⟩
  case snap => exact ⟨_, exec_healthSnap ho, healthSnapCmd_copies hc hb⟩
  case flashDone =>
    obtain ⟨t, ht, hflash, hqueue, hresult, hshown⟩ := flashWriteDone_ends true hup hq hj
    exact ⟨t, ht, hflash, hqueue, hresult, hshown rfl⟩
  case flashFailed =>
    obtain ⟨t, ht, hflash, hqueue, hresult, -⟩ := flashWriteDone_ends false hup hq hj
    exact ⟨t, ht, hflash, hqueue, hresult⟩
  case fused =>
    obtain ⟨t, ht, hnone, hresult, hshown, hkeys, hsvn⟩ := mgwKeyChange_ends hup hf hj
    refine ⟨t, ht, hnone, hresult, hshown, ?_⟩
    rw [hkeys, hsvn]
    exact ⟨fun k ha hk he => applyOrder_program ha hk he, fun k ha hk hp => applyOrder_revoke ha hk hp, applyOrder_advance⟩
  case watchdog =>
    obtain ⟨himage, hfusing, hqueue, hjob, hlive, hlog, hshown, hctxs, hkeys, hflash, hstall⟩ := watchdogReset_resets h4
    exact ⟨watchdogReset s, by simp [exec, execMgmtWatchdogReset, hup], himage, hfusing, hqueue, hjob, hlive, hlog, hshown,
      fun c hc => hctxs c hc, hkeys, hflash, hstall⟩

end Sys2Proof.Machine

/-! O49: joining, resync and dropped partners. What a HELLO changes; the base content of a resync; acknowledgements,
mismatches and drops; the target edge of a live replacement. -/

namespace Sys2Proof.Machine

open Sys2Proof

/-! ### Claims written and seen (R466, R475, R490) -/

/-- Both words of EPG_CLAIM change alone when one is written. -/
theorem setClaim_pair (c : Word) (u : UnitState) (s : State) :
    (setClaim c u s).pair = { s.pair with claim := (setClaim c u s).pair.claim } := by
  unfold setClaim
  dsimp only
  split <;> rfl

theorem setUnit_pair (u : UnitState) (s : State) :
    (setUnit u s).pair = { s.pair with claim := (setUnit u s).pair.claim } := setClaim_pair _ _ _

/-- The unit state written leaves the claim. -/
theorem setUnit_claim (u : UnitState) (s : State) : (setUnit u s).pair.claim.claim = s.pair.claim.claim :=
  (setClaim_writes s.pair.claim.claim u s).1

@[simp] theorem setUnit_cache (u : UnitState) (s : State) : (setUnit u s).cache = s.cache :=
  same_of_alone .cache (view_setUnit _ _ rfl)

@[simp] theorem setUnit_ledger (u : UnitState) (s : State) : (setUnit u s).ledger = s.ledger :=
  same_of_alone .ledger (view_setUnit _ _ rfl)

/-- A claim seen changes H alone. -/
theorem seeClaim_eq (c : Word) (s : State) :
    seeClaim c s = { s with pair := { s.pair with high := (seeClaim c s).pair.high } } := by
  unfold seeClaim
  split <;> rfl

/-- H is at least every claim seen (R466). -/
theorem le_high_seeClaim (c : Word) (s : State) : c.toNat ≤ (seeClaim c s).pair.high.toNat := by
  unfold seeClaim
  split
  · exact Nat.le_refl _
  · next h => exact Nat.not_lt.mp h

/-- A claim taken changes the claim and H alone of the pair sequencer's state. -/
theorem takeClaim_pair (c : Word) (s : State) :
    (takeClaim c s).pair = { s.pair with
      claim := (takeClaim c s).pair.claim, high := (takeClaim c s).pair.high } := by
  have hseen : (seeClaim c s).pair = { s.pair with high := (seeClaim c s).pair.high } :=
    congrArg State.pair (seeClaim_eq c s)
  have hasked : ∀ t, (askReports t).pair = t.pair := fun t => same_of_alone .pair (by apply view_askReports <;> rfl)
  unfold takeClaim
  split
  · rw [hseen]
  · rw [hasked, adoptClaim, setClaim_pair, hseen]

/-! ### HELLO on the active (R478, R479) -/

/-- A HELLO noted: the partner's unit state known, its claim seen. -/
def helloSeen (unit : UnitState) (claim : Word) (s : State) : State :=
  seeClaim claim (modEpg (fun p => { p with
    peerUnit := unit, partner := if p.mirrored then p.partner else partnerCode unit }) s)

/-- The join check compares the image, and counts mismatches against the joining order (R479). -/
theorem joinCheck_congr {s t : State} (pid : Word) (digests : List Word) (unit : UnitState) (himage : t.image = s.image)
    (hclock : t.clock = s.clock) (hmismatch : t.pair.mismatch = s.pair.mismatch)
    (horder : t.pair.joinOrder = s.pair.joinOrder) : joinCheck pid digests unit t = joinCheck pid digests unit s := by
  have harray : arrayIdOf t = arrayIdOf s := by rw [arrayIdOf, arrayIdOf, himage]
  have hrecent : recentMismatches t = recentMismatches s := by rw [recentMismatches, recentMismatches, hclock, hmismatch]
  rw [joinCheck, joinCheck, harray, himage, hrecent, horder]

/-- A HELLO noted says what the partner is, and leaves claim, mirroring, resync and join check as they were. -/
theorem helloSeen_notes (unit : UnitState) (claim : Word) (s : State) :
    let t := helloSeen unit claim s
    t.pair.peerUnit = unit ∧ claim.toNat ≤ t.pair.high.toNat ∧ t.pair.claim = s.pair.claim ∧
      t.pair.mirrored = s.pair.mirrored ∧ t.pair.phase = s.pair.phase ∧ t.events = s.events ∧
      ∀ pid digests u, joinCheck pid digests u t = joinCheck pid digests u s := by
  obtain ⟨m, hm⟩ : ∃ m, m = modEpg (fun p => { p with
    peerUnit := unit, partner := if p.mirrored then p.partner else partnerCode unit }) s := ⟨_, rfl⟩
  have hseen : helloSeen unit claim s = { m with pair := { m.pair with high := (seeClaim claim m).pair.high } } := by
    rw [← seeClaim_eq, hm, helloSeen]
  have hhigh := le_high_seeClaim claim m
  simp only [hseen]
  refine ⟨by rw [hm]; rfl, hhigh, by rw [hm]; rfl, by rw [hm]; rfl, by rw [hm]; rfl, by rw [hm]; rfl, fun pid digests u => ?_⟩
  exact joinCheck_congr pid digests u (by rw [hm]; rfl) (by rw [hm]; rfl) (by rw [hm]; rfl) (by rw [hm]; rfl)

/-- A HELLO of another die is taken. -/
theorem exec_hello {pid die claim : Word} {unit : UnitState} {digests : List Word} {lseq : Nat} {s : State}
    (hh : hears s = true) (hp : pairEn s = true) (hd : die ≠ s.dieId) :
    exec (.hello pid die unit claim digests lseq) s = .next (takeHello pid unit claim digests lseq s) := by
  simp [exec, execHello, hh, hp, hd]

/-- The active's join check of a partner that is neither mirrored nor in resync: phase 1, or the condition that fails with
EPG_JOIN_REFUSED. -/
theorem helloActive_checks {pid : Word} {unit : UnitState} {digests : List Word} (lseq : Nat) {s : State}
    (hm : s.pair.mirrored = false) (h0 : s.pair.phase = 0) :
    let t := helloActive pid unit digests lseq s
    t.pair.peerUnit = s.pair.peerUnit ∧ t.pair.claim = s.pair.claim ∧ t.pair.high = s.pair.high ∧
      (joinCheck pid digests unit s = 0 → t.pair.phase = 1 ∧ t.pair.joinSeq = lseq ∧ t.events = s.events) ∧
      (joinCheck pid digests unit s ≠ 0 →
        t.pair.phase = 0 ∧ t.pair.joinWhy = joinCheck pid digests unit s ∧ shown t 0xAC9 = true) := by
  by_cases hwhy : joinCheck pid digests unit s = 0
  · have ht : helloActive pid unit digests lseq s = modEpg (fun p => { p with phase := 1, joinSeq := lseq }) s := by
      simp [helloActive, hm, h0, hwhy]
    simp only [ht]
    exact ⟨rfl, rfl, rfl, fun _ => ⟨rfl, rfl, rfl⟩, fun h => absurd hwhy h⟩
  · have ht : helloActive pid unit digests lseq s =
        raise 0xAC9 (modEpg (fun p => { p with joinWhy := joinCheck pid digests unit s }) s) := by
      simp [helloActive, hm, h0, hwhy]
    simp only [ht]
    exact ⟨rfl, rfl, rfl, fun h => absurd h hwhy, fun _ => ⟨h0, rfl, shown_raise_same _ _⟩⟩

/-- A HELLO on an active that does not wait for a preemption is put to its join check. -/
theorem takeHello_of_active {pid claim : Word} {unit : UnitState} {digests : List Word} {lseq : Nat} {s : State}
    (hu : s.pair.claim.unit = .active) (hsw : s.pair.switch ≠ 3) :
    takeHello pid unit claim digests lseq s = helloActive pid unit digests lseq (helloSeen unit claim s) := by
  simp only [takeHello, hu, if_true, hsw, false_and, if_false]
  rfl

/-! ### HELLO on a joiner (R479, R480) -/

/-- A joiner of phase 0 that waits for the stream: UNSYNCED in phase 2, nothing buffered, its cache empty. -/
theorem startJoin_joins {s : State} (h0 : s.pair.phase = 0) :
    let t := startJoin s
    t.pair.claim.unit = .unsynced ∧ t.pair.claim.claim = s.pair.claim.claim ∧ t.pair.phase = 2 ∧ t.pair.buffer = [] ∧
      t.cache.stripes = [] ∧ t.cache.ring = [] := by
  simp only [startJoin, h0, if_true]
  rw [setUnit_unit, setUnit_claim, setUnit_cache, setUnit_pair]
  exact ⟨rfl, rfl, rfl, rfl, rfl, rfl⟩

/-- A HELLO of the active on a unit of phase 0 whose comparison holds: it takes the active's claim and waits for the stream. -/
theorem helloJoiner_joins {pid claim : Word} {digests : List Word} {s : State} (h0 : s.pair.phase = 0)
    (hj : joinCheck pid digests s.pair.claim.unit s = 0) :
    helloJoiner pid claim digests s = startJoin (takeClaim claim s) := by
  simp [helloJoiner, hj, h0]

/-- A HELLO of the active on a unit that is STANDBY_JOINING and has no claim procedure under way. -/
theorem takeHello_of_joining {pid claim : Word} {digests : List Word} {lseq : Nat} {s : State}
    (hu : s.pair.claim.unit = .standbyJoining) (ht : s.pair.take = none) (hp : s.pair.powerOwn = false) :
    takeHello pid .active claim digests lseq s = helloJoiner pid claim digests (helloSeen .active claim s) := by
  simp only [takeHello, hu, ht, hp]
  rfl

/-! ### Base content (R480) -/

theorem exec_base {f : Frame} {s : State} (hh : hears s = true) (hb : buffers s = true) :
    exec (.base f) s = .next (takeBase f s) := by
  simp [exec, execBase, hh, hb]

/-- A ledger record that the joiner has read changes nothing. -/
theorem takeBase_of_known_record {l : LRec} {s : State} (h : l.seq ≤ s.ledger.seq) : takeBase (.base (.ledger l)) s = s := by
  have hnext : l.seq ≤ s.ledger.seq + 1 := by omega
  simp [takeBase, baseLedger, applyLedger, h, hnext]

/-- An intent of the base joins the manifest, and its JSEQ is durable. -/
theorem takeBase_intent (r : IntentRec) (s : State) :
    (takeBase (.base (.intent r)) s).pair.manifest = s.pair.manifest ++ [(r.jseq, r.jseq)] ∧
      r.jseq ≤ (takeBase (.base (.intent r)) s).cache.durJseq :=
  ⟨rfl, Nat.le_max_right _ _⟩

/-- A descriptor whose intents are changed in place reads as changed, where it has any. -/
theorem getDesc_setDesc_map {s : State} {key : Nat} (f : Intent → Intent) (h : (getDesc s key).intents ≠ []) :
    getDesc (setDesc key { intents := (getDesc s key).intents.map f } s) key =
      { intents := (getDesc s key).intents.map f } := by
  have hne : ({ intents := (getDesc s key).intents.map f } : StripeDesc) ≠ { intents := [] } := fun heq =>
    h (List.map_eq_nil_iff.mp (congrArg StripeDesc.intents heq))
  exact tabGet_tabPut_same _ _ _ _ (.inl hne)

/-- A page of a dirty block stands in its intent (R346). -/
theorem putBlock_dirty {q : Nat} {d pi : List Byte} (s : State) (i : Intent) (hq : q < survivorMark) (hd : d ≠ []) :
    (putBlock s q d pi i).root = i.root ∧
      tabFind (putBlock s q d pi i).blocks q = some { data := d, pi := pi, accepted := s.drone.count } := by
  have hdirty : ¬ survivorMark ≤ q := Nat.not_le.mpr hq
  simp [putBlock, hdirty, List.isEmpty_iff, hd]

/-- A page of the stream is put into the intent that names it. -/
theorem takePage_dirty {key q j : Nat} {d pi : List Byte} {s : State} {x : Intent} (hx : x ∈ (getDesc s key).intents)
    (hj : x.jseq = j) (hq : q < survivorMark) (hd : d ≠ []) :
    ∃ y ∈ (getDesc (takePage key q j d pi s) key).intents, y.root = x.root ∧
      tabFind y.blocks q = some { data := d, pi := pi, accepted := s.drone.count } := by
  rw [takePage, getDesc_setDesc_map _ (List.ne_nil_of_mem hx)]
  exact ⟨putBlock s q d pi x, List.mem_map.mpr ⟨x, hx, if_pos hj⟩, putBlock_dirty s x hq hd⟩

/-- A page of the base moves the resync to phase 3, and is put into its intent. -/
theorem takeBase_page (key q j : Nat) (d pi : List Byte) (s : State) :
    (takeBase (.basePage key q j d pi) s).pair.phase = 3 ∧
      ∀ x ∈ (getDesc s key).intents, x.jseq = j → q < survivorMark → d ≠ [] →
        ∃ y ∈ (getDesc (takeBase (.basePage key q j d pi) s) key).intents, y.root = x.root ∧
          tabFind y.blocks q = some { data := d, pi := pi, accepted := s.drone.count } :=
  ⟨rfl, fun _ hx hj hq hd => takePage_dirty (s := modEpg _ s) hx hj hq hd⟩

/-- With nothing buffered the base's end changes the resync's phase and the restore's alone (R480, phase 4). -/
theorem endBase_of_no_buffer {s : State} (h : s.pair.buffer = []) :
    (endBase s).pair.phase = 4 ∧ (endBase s).pair.manifest = [] ∧ (endBase s).cache.vault.restore = .ended ∧
      (endBase s).ledger = s.ledger ∧ (endBase s).pair.claim = s.pair.claim := by
  have hnone : (setRestore .ended (modEpg (fun p => { p with phase := 4, manifest := [], baseLeft := 0 }) s)).pair.buffer = [] := h
  simp only [endBase, applyBuffer, hnone, List.filter_nil, List.foldl_nil]
  exact ⟨rfl, rfl, rfl, rfl, rfl⟩

/-! ### Acknowledgements and mismatches on the active (R465, R480) -/

theorem exec_ack {jseq tick iseq : Nat} {s : State} (hh : hears s = true) (hu : s.pair.claim.unit = .active)
    (hm : s.pair.mirrored = true) : exec (.ack jseq tick iseq) s = .next (takeAck jseq tick iseq s) := by
  simp [exec, execAck, hh, hu, hm]

/-- An ACK notes how far the partner is; in phase 4 one of a newer tick that is close to the stream's end completes the resync. -/
theorem takeAck_notes (jseq tick iseq : Nat) (s : State) :
    let t := takeAck jseq tick iseq s
    t.pair.ackJseq = max s.pair.ackJseq jseq ∧ t.pair.ackTick = max s.pair.ackTick tick ∧
      t.pair.ackIseq = max s.pair.ackIseq iseq ∧ t.pair.ackAt = s.clock ∧
      (s.pair.phase = 4 → s.pair.ackTick < tick → s.pair.lastStamp ≤ tick + 256 →
        t.pair.phase = 5 ∧ t.pair.partner = 3 ∧ shown t 0xACA = true) ∧
      (s.pair.phase ≠ 4 → t.pair.phase = s.pair.phase ∧ t.events = s.events) := by
  simp only [takeAck]
  split
  · next h => exact ⟨rfl, rfl, rfl, rfl, fun _ _ _ => ⟨rfl, rfl, shown_raise_same _ _⟩, fun h4 => absurd h.1 h4⟩
  · next h => exact ⟨rfl, rfl, rfl, rfl, fun h4 htick hstamp => absurd ⟨h4, htick, hstamp⟩ h, fun _ => ⟨rfl, rfl⟩⟩

/-- A MISMATCH is noted with its time; mirroring ends, and the active's state stands. -/
theorem exec_mismatch {tick : Nat} {s : State} (hh : hears s = true) (hu : s.pair.claim.unit = .active)
    (hm : s.pair.mirrored = true) (ht : tick ≤ s.drone.count) :
    ∃ t, exec (.mismatch tick) s = .next t ∧ t.pair.mirrored = false ∧ t.pair.phase = 0 ∧ s.clock ∈ t.pair.mismatch ∧
      t.cache = s.cache ∧ t.ledger = s.ledger ∧ t.pair.claim = s.pair.claim := by
  refine ⟨modEpg (fun p => { p with phase := 0, partner := 1, peerUnit := .unsynced }) (stopMirror (noteMismatch s)),
    by simp [exec, execMismatch, hh, hu, hm, ht], rfl, rfl, ?_, rfl, rfl, rfl⟩
  exact List.mem_append_right _ (List.mem_singleton_self _)

/-! ### Partners dropped (R463) -/

/-- DROP sent: the partner is no longer mirrored, and cache, ledger and claim stand. -/
theorem dropPartner_drops (s : State) :
    let t := dropPartner s
    t.pair.mirrored = false ∧ t.pair.phase = 0 ∧ shown t 0xACC = true ∧ t.out = s.out ++ [.frame s.drone.count .drop] ∧
      t.cache = s.cache ∧ t.ledger = s.ledger ∧ t.pair.claim = s.pair.claim :=
  ⟨rfl, rfl, shown_raise_same _ _, by simp [dropPartner, modEpg, stopMirror, emit], by simp [dropPartner, modEpg, stopMirror],
    by simp [dropPartner, modEpg, stopMirror], rfl⟩

/-- A synced partner whose digest is unconfirmed 16,384 ticks behind its own is dropped, and one whose ACKs stop for 1 ms with the
link up. -/
theorem exec_dropPartner {i : Instr} {s : State} (hs : serving s = true) (hu : s.pair.claim.unit = .active)
    (hm : s.pair.mirrored = true)
    (hi : (i = .digestUnconfirmedDrop ∧ s.pair.phase = 5 ∧ s.pair.ackTick + 1 + 16384 ≤ s.drone.count) ∨
      (i = .ackTimeoutDrop ∧ s.pair.link.up = true ∧ s.pair.ackAt + 1000000 ≤ s.clock)) :
    exec i s = .next (dropPartner s) := by
  rcases hi with ⟨rfl, hphase, hlate⟩ | ⟨rfl, hlink, hlate⟩
  · simp [exec, execDigestUnconfirmedDrop, hs, hu, hm, hphase, hlate]
  · simp [exec, execAckTimeoutDrop, hs, hu, hm, hlink, hlate]

/-- DROP received: the standby is UNSYNCED without its copy. -/
theorem exec_drop {s : State} (hh : hears s = true) (hu : s.pair.claim.unit = .standbySynced) :
    ∃ t, exec .drop s = .next t ∧ t.pair.claim.unit = .unsynced ∧ t.pair.phase = 0 ∧ t.cache.stripes = [] ∧
      t.ledger.seq = 0 := by
  refine ⟨setUnit .unsynced (dropCopy s), by simp [exec, execDrop, hh, hu], setUnit_unit _ _, ?_, ?_, ?_⟩
  · rw [setUnit_pair]
    rfl
  · rw [setUnit_cache]
    rfl
  · rw [setUnit_ledger]
    rfl

/-- HANDOVER received: the standby takes the claim once the digest of the tick is confirmed (R488). -/
theorem exec_handover {tick : Nat} {s : State} (hh : hears s = true) (hu : s.pair.claim.unit = .standbySynced) :
    exec (.handover tick) s = .next { s with pair := { s.pair with handover := some tick } } := by
  simp [exec, execHandover, hh, hu, modEpg]

/-! ### The target edge of a live replacement (R83) -/

/-- The active fixes the target edge when its partner reports the image that it has verified itself. -/
theorem exec_liveImg_active {id : Word} {target : Nat} {r : LiveReq} {s : State} (hh : hears s = true)
    (hr : s.loader.live = some r) (hid : r.image.imgId = id) (hu : s.pair.claim.unit = .active) (ht : r.target = none) :
    ∃ t, exec (.liveImg id target) s = .next t ∧
      t.loader.live = some { r with partnerOk := true, target := some (s.drone.count + 256) } ∧
      t.out = s.out ++ [.frame s.drone.count (.liveImg id (s.drone.count + 256))] := by
  subst hid
  obtain ⟨s1, hs1⟩ : ∃ s1 : State, s1 = { s with loader := { s.loader with
    partnerImg := some r.image.imgId, partnerAt := if target = 0 then s.drone.count else s.loader.partnerAt } } := ⟨_, rfl⟩
  have hexec : exec (.liveImg r.image.imgId target) s = .next (fixTarget s1) := by
    simp [exec, execLiveImg, hh, livePair, hu, hs1]
  refine ⟨fixTarget s1, hexec, ?_⟩
  have hfix : fixTarget s1 = emit (.frame s.drone.count (.liveImg r.image.imgId (s.drone.count + 256))) { s1 with
      loader := { s1.loader with
        live := some { r with partnerOk := true, target := some (s.drone.count + 256) } } } := by
    simp [fixTarget, hs1, hr, hu, ht]
  rw [hfix, hs1]
  exact ⟨rfl, rfl⟩

/-- The standby takes the target edge that the active has fixed. -/
theorem exec_liveImg_standby {id : Word} {target : Nat} {r : LiveReq} {s : State} (hh : hears s = true)
    (hr : s.loader.live = some r) (hid : r.image.imgId = id) (hu : s.pair.claim.unit = .standbySynced) (ht : target ≠ 0) :
    exec (.liveImg id target) s = .next { s with loader := { s.loader with
      partnerImg := some id, live := some { r with partnerOk := true, target := some target } } } := by
  simp [exec, execLiveImg, hh, livePair, hu, ht, takeTarget, hr, hid]

/-! ### O49 -/

/-- A HELLO of the unit's own die is no partner's. -/
theorem exec_hello_own {pid claim : Word} {unit : UnitState} {digests : List Word} {lseq : Nat} {s : State} :
    exec (.hello pid s.dieId unit claim digests lseq) s = .next s := by
  simp [exec, execHello]

/-- Settles O49: HELLO on both sides, the base content, ACK and MISMATCH on the active, DROP and HANDOVER on the standby, LIVE_IMG
on both, and the timeouts that drop a partner. -/
theorem joinResyncAndDrops : Obligations.JoinResyncAndDrops := by
  refine ⟨fun pid die claim unit digests lseq s hh hp => ⟨fun hown => ?own, fun hd hu hm h0 hsw => ?active,
      fun hd hu h0 ht hpow hj => ?joiner⟩,
    fun s hh hb => ⟨fun l hl => ?record, fun r => ⟨_, exec_base hh hb, takeBase_intent r s⟩,
      fun key q j d pi => ⟨_, exec_base hh hb, takeBase_page key q j d pi s⟩, fun hbuf => ?done⟩,
    fun s hh hu hm => ⟨fun jseq tick iseq => ⟨_, exec_ack hh hu hm, takeAck_notes jseq tick iseq s⟩,
      fun tick ht => exec_mismatch hh hu hm ht⟩,
    fun s hh hu => ⟨exec_drop hh hu, fun tick => exec_handover hh hu⟩,
    fun id target r s hh hr hid => ⟨fun hu ht => exec_liveImg_active hh hr hid hu ht,
      fun hu ht => exec_liveImg_standby hh hr hid hu ht⟩,
    fun i s hs hu hm hi => ⟨_, exec_dropPartner hs hu hm hi, dropPartner_drops s⟩⟩
  case own =>
    subst hown
    exact exec_hello_own
  case active =>
    obtain ⟨hpeer, hhigh, hclaim, hm', h0', hevents, hcheck⟩ := helloSeen_notes unit claim s
    obtain ⟨hpeer', hclaim', hhigh', hok, hbad⟩ := helloActive_checks (pid := pid) (unit := unit) (digests := digests) lseq
      (hm'.trans hm) (h0'.trans h0)
    rw [hcheck] at hok hbad
    refine ⟨_, by rw [exec_hello hh hp hd, takeHello_of_active hu hsw], hpeer'.trans hpeer, hclaim'.trans hclaim, ?_,
      fun hwhy => ?_, hbad⟩
    · rw [hhigh']
      exact hhigh
    · obtain ⟨hphase, hseq, hevents'⟩ := hok hwhy
      exact ⟨hphase, hseq, hevents'.trans hevents⟩
  case joiner =>
    obtain ⟨-, -, hclaim, -, h0', -, hcheck⟩ := helloSeen_notes .active claim s
    have hjoin : joinCheck pid digests (helloSeen .active claim s).pair.claim.unit (helloSeen .active claim s) = 0 := by
      rw [hcheck, hclaim, hu]
      exact hj
    have hphase : (takeClaim claim (helloSeen .active claim s)).pair.phase = 0 := by
      rw [takeClaim_pair]
      exact h0'.trans h0
    obtain ⟨hunit, htaken, hjoined⟩ := startJoin_joins hphase
    refine ⟨_, by rw [exec_hello hh hp hd, takeHello_of_joining hu ht hpow, helloJoiner_joins (h0'.trans h0) hjoin], hunit, ?_,
      hjoined⟩
    rw [htaken]
    exact (takeClaim_writes claim _).1
  case record => rw [exec_base hh hb, takeBase_of_known_record hl]
  case done => exact ⟨endBase s, by simp [exec, execBaseDone, hh, hb], endBase_of_no_buffer hbuf⟩

end Sys2Proof.Machine

/-! What the proofs of O11 and O12 share: one position of a list changed, and steps that only end legs. -/

namespace Sys2Proof.Machine

open Sys2Proof

/-! ### One position of a list -/

theorem nth_modAt_same {α : Type} (d : α) {l : List α} {n : Nat} (f : α → α) (h : n < l.length) :
    nth d (modAt l n f) n = f (nth d l n) := by
  simp [nth, modAt, List.getD_eq_getElem?_getD, h]

theorem nth_modAt_ne {α : Type} (d : α) (l : List α) {n m : Nat} (f : α → α) (h : m ≠ n) :
    nth d (modAt l n f) m = nth d l m := by
  simp [nth, modAt, List.getD_eq_getElem?_getD, Ne.symm h]

/-! ### Steps that only end legs (R106 to R108)

Legs may leave the running caravan, hung legs are counted as before, and what is shown stays shown. -/

/-- No leg begins, no hang is counted, no event is cleared. -/
structure OnlyEnds (s t : State) : Prop where
  hung : t.drone.hungCnt = s.drone.hungCnt
  legs : t.drone.running ⊆ s.drone.running
  shown : KeepsShown s t

theorem OnlyEnds.refl (s : State) : OnlyEnds s s := ⟨rfl, fun _ hx => hx, fun _ hn => hn⟩

theorem OnlyEnds.trans {s t u : State} (h : OnlyEnds s t) (g : OnlyEnds t u) : OnlyEnds s u :=
  ⟨g.hung.trans h.hung, fun _ hx => h.legs (g.legs hx), h.shown.trans g.shown⟩

/-- What leaves the drone alone ends no leg. -/
theorem OnlyEnds.of_drone {s t : State} (hd : t.drone = s.drone) (hk : KeepsShown s t) : OnlyEnds s t :=
  ⟨by rw [hd], by rw [hd]; exact fun _ hx => hx, hk⟩

/-- What leaves the drone and the event unit alone ends no leg and shows nothing. -/
theorem OnlyEnds.of_same {s t : State} (hd : t.drone = s.drone := by rfl) (he : t.events = s.events := by rfl) :
    OnlyEnds s t := .of_drone hd (.of_events he)

/-- The mask that shows the drone and the event unit alone. -/
def droneAndEvents (p : Piece) : Bool := p != .drone && p != .events

theorem OnlyEnds.of_view {s t : State} (h : view droneAndEvents t = view droneAndEvents s) : OnlyEnds s t :=
  .of_same (same_of_view (p := .drone) h rfl) (same_of_view (p := .events) h rfl)

theorem OnlyEnds.ite {s a b : State} {c : Prop} [Decidable c] (ha : OnlyEnds s a) (hb : OnlyEnds s b) :
    OnlyEnds s (if c then a else b) := by
  split
  · exact ha
  · exact hb

theorem onlyEnds_foldl {α : Type} {g : State → α → State} (l : List α) (s : State)
    (h : ∀ t x, OnlyEnds t (g t x)) : OnlyEnds s (l.foldl g s) :=
  List.foldlRecOn l g (motive := OnlyEnds s) (.refl s) fun _ ht x _ => ht.trans (h _ x)

theorem onlyEnds_raise (n : Nat) (s : State) : OnlyEnds s (raise n s) := .of_drone rfl (keepsShown_raise n s)

theorem OnlyEnds.raise {s t : State} (h : OnlyEnds s t) (n : Nat) : OnlyEnds s (raise n t) := h.trans (onlyEnds_raise n t)

theorem onlyEnds_raiseIf (c : Bool) (n : Nat) (s : State) : OnlyEnds s (raiseIf c n s) :=
  .ite (onlyEnds_raise n s) (.refl s)

theorem onlyEnds_requeue (w : Work) (s : State) : OnlyEnds s (requeue w s) := ⟨rfl, fun _ hx => hx, .of_events rfl⟩

theorem onlyEnds_queueWorks (job : Nat) (cls : WorkClass) (zr : Bool) (ws : List Work) (s : State) :
    OnlyEnds s (queueWorks job cls zr ws s) := ⟨rfl, fun _ hx => hx, .of_events rfl⟩

theorem onlyEnds_dropWork (bad : Work → Bool) (s : State) : OnlyEnds s (dropWork bad s) := by
  refine .trans (t := { s with drone := { s.drone with
    queued := s.drone.queued.filter fun w => !bad w, next := s.drone.next.filter fun w => !bad w } })
    ⟨rfl, fun _ hx => hx, .of_events rfl⟩ (onlyEnds_foldl allStreams _ fun t st => ?_)
  unfold endUrgency
  split
  · exact ⟨rfl, fun _ hx => hx, keepsShown_raise 0xD04 _⟩
  · exact .refl t

/-! ### The course of a DMA channel (R190 to R211) -/

theorem onlyEnds_setChan (ch : Nat) (c : Chan) (s : State) : OnlyEnds s (setChan ch c s) :=
  .of_view (view_setChan _ _ _ rfl)

theorem onlyEnds_modChan (ch : Nat) (f : Chan → Chan) (s : State) : OnlyEnds s (modChan ch f s) :=
  onlyEnds_setChan _ _ _

theorem onlyEnds_emit (o : Output) (s : State) : OnlyEnds s (emit o s) := .of_view (view_emit _ _ rfl rfl)

theorem onlyEnds_issueWrite (ch : Nat) (w : DmaWrite) (s : State) : OnlyEnds s (issueWrite ch w s) :=
  .ite ((onlyEnds_setChan _ _ s).trans (onlyEnds_emit _ _)) (onlyEnds_setChan _ _ s)

theorem onlyEnds_endGroup (ch : Nat) (s : State) : OnlyEnds s (endGroup ch s) :=
  ⟨rfl, fun _ hx => (List.mem_filter.mp hx).1, .of_events rfl⟩

theorem onlyEnds_endGroup_modChan (ch : Nat) (f : Chan → Chan) (s : State) : OnlyEnds s (endGroup ch (modChan ch f s)) :=
  (onlyEnds_modChan ch f s).trans (onlyEnds_endGroup ch _)

theorem onlyEnds_faultAt (ch : Nat) (wr : Bool) (kind cause space : Nat) (addr : Word) (r : DescRun) (n : Nat) (crc : Word)
    (s : State) : OnlyEnds s (faultAt ch wr kind cause space addr r n crc s) := onlyEnds_endGroup_modChan _ _ _

theorem onlyEnds_issueWrites (all : Bool) (ch fuel : Nat) (s : State) : OnlyEnds s (issueWrites all ch fuel s) := by
  fun_induction issueWrites all ch fuel s
  case case1 => exact .refl _
  case case2 => exact .refl _
  case case3 => exact .refl _
  case case4 => exact onlyEnds_faultAt _ _ _ _ _ _ _ _ _ _
  case case5 ih => exact ((onlyEnds_setChan _ _ _).trans (onlyEnds_issueWrite _ _ _)).trans ih

theorem onlyEnds_issueFetchDesc (ch : Nat) (a : Word) (s : State) : OnlyEnds s (issueFetchDesc ch a s) :=
  .ite ((onlyEnds_setChan _ _ _).trans (onlyEnds_emit _ _))
    ((onlyEnds_setChan _ _ _).trans (onlyEnds_endGroup_modChan _ _ _))

theorem onlyEnds_issueRead (ch : Nat) (s : State) : OnlyEnds s (issueRead ch s) := by
  unfold issueRead
  dsimp only
  split
  · exact .refl s
  · exact .ite (.refl s) (.ite (onlyEnds_faultAt _ _ _ _ _ _ _ _ _ _)
      ((onlyEnds_setChan _ _ _).trans (onlyEnds_emit _ _)))

theorem onlyEnds_pacedReads (ch fuel : Nat) (s : State) : OnlyEnds s (pacedReads ch fuel s) := by
  fun_induction pacedReads ch fuel s
  case case1 => exact .refl _
  case case2 ih => exact ((onlyEnds_setChan _ _ _).trans (onlyEnds_issueRead _ _)).trans ih
  case case3 => exact .refl _

theorem onlyEnds_wantLeg (ch : Nat) (s : State) : OnlyEnds s (wantLeg ch s) := by
  unfold wantLeg
  dsimp only
  split
  · exact .refl s
  · exact .ite (onlyEnds_queueWorks _ _ _ _ _) (.refl s)

theorem onlyEnds_issueStore (ch : Nat) (r : DescRun) (s : State) : OnlyEnds s (issueStore ch r s) :=
  .ite ((onlyEnds_modChan _ _ _).trans (onlyEnds_issueWrite _ _ _)) (onlyEnds_endGroup_modChan _ _ _)

theorem onlyEnds_endDesc (ch : Nat) (r : DescRun) (s : State) : OnlyEnds s (endDesc ch r s) :=
  (onlyEnds_modChan _ _ s).trans ((onlyEnds_raiseIf _ _ _).trans (onlyEnds_raiseIf _ _ _))

theorem onlyEnds_finishDescs (ch : Nat) (rs : List DescRun) (s : State) : OnlyEnds s (finishDescs ch rs s) := by
  induction rs generalizing s with
  | nil => exact .refl s
  | cons r rest ih =>
    exact .ite (ih s) (.ite ((onlyEnds_issueStore ch r s).trans (ih _)) (.ite (ih s) ((onlyEnds_endDesc ch r s).trans (ih _))))

theorem onlyEnds_startList (ch : Nat) (a : Word) (s : State) : OnlyEnds s (startList ch a s) :=
  .ite (onlyEnds_setChan _ _ _) ((onlyEnds_setChan _ _ _).trans (onlyEnds_issueFetchDesc _ _ _))

theorem onlyEnds_endList (ch : Nat) (s : State) : OnlyEnds s (endList ch s) := by
  unfold endList
  dsimp only
  have hend : ∀ c, OnlyEnds s (chanEvent c ch (setChan ch { getChan s ch with
      listEnd := true, active := [], state := .idle } s)) := fun c =>
    (onlyEnds_setChan _ _ _).trans (onlyEnds_raiseIf _ _ _)
  split
  · exact hend _
  · exact (hend _).trans ((onlyEnds_modChan _ _ _).trans (onlyEnds_startList _ _ _))

theorem onlyEnds_followOn (ch : Nat) (r : DescRun) (s : State) : OnlyEnds s (followOn ch r s) :=
  .ite (.ite (onlyEnds_endList _ _) (.refl s)) (.ite (onlyEnds_issueFetchDesc _ _ _) (.refl s))

theorem onlyEnds_goOn (ch : Nat) (s : State) : OnlyEnds s (goOn ch s) := by
  refine .ite (.refl s) ?_
  split
  · exact .ite (onlyEnds_issueFetchDesc _ _ _) (.refl s)
  · split
    · exact .refl s
    · exact .ite ((onlyEnds_wantLeg ch s).trans (onlyEnds_pacedReads _ _ _)) (.ite (.refl s) (onlyEnds_followOn _ _ _))

theorem onlyEnds_drain (ch : Nat) (s : State) : OnlyEnds s (drain ch s) := .ite (onlyEnds_issueWrites _ _ _ _) (.refl s)

theorem onlyEnds_settleHalt (ch : Nat) (s : State) : OnlyEnds s (settleHalt ch s) :=
  .ite ((onlyEnds_setChan _ _ _).trans (onlyEnds_raiseIf _ _ _)) (.refl s)

theorem onlyEnds_compatSpread (ch : Nat) (s : State) : OnlyEnds s (compatSpread ch s) := by
  refine .ite ?_ (.refl s)
  refine .trans (t := setDmaGlob (chanPf ch) { dmaGlob s (chanPf ch) with firstCh := ch } s)
    (.of_view (view_setDmaGlob _ _ _ rfl)) ?_
  refine .trans (onlyEnds_foldl _ _ fun t x => onlyEnds_endGroup_modChan _ _ _) (onlyEnds_foldl _ _ fun t x => ?_)
  exact (onlyEnds_drain x t).trans ((onlyEnds_finishDescs _ _ _).trans (onlyEnds_settleHalt _ _))

theorem onlyEnds_spreadFault (ch : Nat) (s : State) : OnlyEnds s (spreadFault ch s) :=
  .ite ((onlyEnds_setChan _ _ _).trans (onlyEnds_compatSpread _ _)) (.refl s)

theorem onlyEnds_advance (ch : Nat) (s : State) : OnlyEnds s (advance ch s) :=
  (onlyEnds_drain _ _).trans <| (onlyEnds_finishDescs _ _ _).trans <| (onlyEnds_goOn _ _).trans <|
    (onlyEnds_drain _ _).trans <| (onlyEnds_spreadFault _ _).trans (onlyEnds_settleHalt _ _)

theorem onlyEnds_rewindGroup (l : Leg) (s : State) : OnlyEnds s (rewindGroup l s) := by
  unfold rewindGroup
  split
  · exact (onlyEnds_endGroup _ _).trans (onlyEnds_modChan _ _ _)
  · exact .refl s

theorem onlyEnds_hangGroup (l : Leg) (s : State) : OnlyEnds s (hangGroup l s) := by
  unfold hangGroup
  split
  · exact .refl s
  · dsimp only
    split
    · exact onlyEnds_rewindGroup l s
    · exact (onlyEnds_rewindGroup l s).trans ((onlyEnds_faultAt _ _ _ _ _ _ _ _ _ _).trans (onlyEnds_advance _ _))

end Sys2Proof.Machine

/-! O11: hung legs, late compilations, and legs at an edge. -/

namespace Sys2Proof.Machine

open Sys2Proof

/-! ### A command that the host's error ends (R163) -/

theorem onlyEnds_refund (s : State) (w : Work) : OnlyEnds s (refund s w) := by
  unfold refund
  split
  · exact .refl s
  · split
    · exact .refl s
    · exact ⟨rfl, fun _ hx => hx, .of_events rfl⟩

theorem onlyEnds_endJob (id : Nat) (s : State) : OnlyEnds s (endJob id s) := by
  unfold endJob
  split
  · exact .refl s
  · exact ⟨rfl, fun _ hx => hx, .of_events rfl⟩

theorem onlyEnds_cancelJob (id : Nat) (s : State) : OnlyEnds s (cancelJob id s) :=
  (onlyEnds_foldl _ s onlyEnds_refund).trans ((onlyEnds_dropWork _ _).trans (onlyEnds_endJob id _))

theorem onlyEnds_hostError (seq : Nat) (s : State) : OnlyEnds s (hostError seq s) := by
  have hcmd : ∀ f t, OnlyEnds t (modCmd seq f t) := fun f t => .of_view (view_modCmd _ _ _ rfl rfl)
  unfold hostError
  split
  · exact .refl s
  · dsimp only
    refine .ite (.refl s) (.ite (.trans ?_ (.of_view (view_endQuery _ _ rfl rfl))) (.trans ?_ (.of_view (view_endCmd05 _ _ rfl rfl))))
    all_goals exact (onlyEnds_foldl _ s fun t i => onlyEnds_cancelJob i t).trans (hcmd _ _)

/-! ### Health (R496, R499, R501) -/

theorem OnlyEnds.setReason {s t : State} (h : OnlyEnds s t) (n : Nat) : OnlyEnds s (setReason n t) :=
  .ite h (.raise (h.trans .of_same) 0xC00)

theorem onlyEnds_fatalStop (s : State) : OnlyEnds s (fatalStop s) :=
  .ite (.refl s) (.setReason (.raise .of_same 0xC08) 4)

theorem onlyEnds_retirePc (pc : Nat) (s : State) : OnlyEnds s (retirePc pc s) := by
  have hcheck : ∀ t, OnlyEnds s t → OnlyEnds s (checkWtPerm t) := fun t h =>
    h.trans (.of_view (view_checkWtPerm _ rfl rfl))
  have hnoted : OnlyEnds s (checkWtPerm (raise 0xC04 { s with
      health := { s.health with pcRetire := s.health.pcRetire ||| BitVec.ofNat 64 (2 ^ pc) }
      flash := { s.flash with health := { s.flash.health with pcRetired := addOnce s.flash.health.pcRetired pc } } })) :=
    hcheck _ (.raise .of_same _)
  exact .ite (.refl s) (.ite (hnoted.setReason 2) hnoted)

/-! ### Votes and retirement (R230, R234, R237) -/

theorem onlyEnds_modPair (p : Nat) (f : PairStat → PairStat) (s : State) : OnlyEnds s (modPair p f s) :=
  .of_same

theorem onlyEnds_setVotes (vs : List Vote) (s : State) : OnlyEnds s { s with reeds := { s.reeds with votes := vs } } :=
  .of_same

theorem onlyEnds_placeVote (s : State) (id : Nat) : OnlyEnds s (placeVote s id) := by
  unfold placeVote
  split
  · exact .refl s
  · refine .ite (.refl s) ?_
    split
    · exact .refl s
    · exact ⟨rfl, fun _ hx => hx, .of_events rfl⟩

theorem onlyEnds_placeVotes (s : State) : OnlyEnds s (placeVotes s) := by
  unfold placeVotes
  dsimp only
  refine .trans ?_ (onlyEnds_foldl _ _ onlyEnds_placeVote)
  exact (onlyEnds_dropWork _ s).trans (onlyEnds_setVotes _ _)

/-- A leg that goes to a vote stops running. -/
theorem onlyEnds_toVote (l : Leg) (saved : List (Nat × Nat × List Byte × List Byte)) (forced : Option Bool) (s : State) :
    OnlyEnds (stopLeg l.id s) (toVote l saved forced s) := by
  unfold toVote
  split <;> exact (onlyEnds_setVotes _ _).trans (onlyEnds_placeVotes _)

theorem onlyEnds_withdrawPair (p : Nat) (s : State) : OnlyEnds s (withdrawPair p s) :=
  .trans (onlyEnds_dropWork _ s) (onlyEnds_placeVotes _)

theorem onlyEnds_writeSlotMap (s : State) : OnlyEnds s (writeSlotMap s) :=
  .ite (.setReason (.raise .of_same 0x905) 0) .of_same

theorem onlyEnds_condemn (p why : Nat) (s : State) : OnlyEnds s (condemn p why s) := by
  refine .ite (.refl s) (.trans (.trans ?_ (onlyEnds_withdrawPair p _)) (onlyEnds_writeSlotMap _))
  exact .trans .of_same (onlyEnds_modPair p _ _)

theorem onlyEnds_countHang (p : Nat) (s : State) : OnlyEnds s (countHang p s) :=
  .ite ((onlyEnds_modPair _ _ _).trans (onlyEnds_condemn _ _ _)) (onlyEnds_modPair _ _ _)

/-! ### A hung leg (R108, R234) -/

/-- A hang counted and reported. -/
def noteHang (s : State) : State := raise 0xD01 { s with drone := { s.drone with hungCnt := s.drone.hungCnt + 1 } }

theorem onlyEnds_hangDma (l : Leg) (s : State) : OnlyEnds s (hangDma l s) := by
  have hcount : OnlyEnds s { s with health := { s.health with dmaHangs := s.health.dmaHangs + 1 } } :=
    .of_same
  unfold hangDma
  dsimp only
  split
  · exact hcount.trans (onlyEnds_hangGroup _ _)
  · split
    · exact hcount.trans (onlyEnds_hostError _ _)
    · exact hcount.trans (onlyEnds_hostError _ _)
    · exact hcount

theorem onlyEnds_hangHbm (l : Leg) (s : State) : OnlyEnds s (hangHbm l s) :=
  .ite ((onlyEnds_retirePc _ _).trans (onlyEnds_requeue _ _)) (onlyEnds_fatalStop _)

/-- What follows a counted hang: the leg stops, and nothing else begins. -/
theorem onlyEnds_hangLeg (s : State) (l : Leg) : OnlyEnds (stopLeg l.id (noteHang s)) (hangLeg s l) :=
  .ite (.ite (onlyEnds_countHang _ _) ((onlyEnds_toVote _ _ _ _).trans (onlyEnds_countHang _ _)))
    (.ite ((onlyEnds_rewindGroup _ _).trans (onlyEnds_requeue _ _)) (.ite (onlyEnds_hangDma _ _) (onlyEnds_hangHbm _ _)))

/-- A leg cancelled as hung is counted and reported, and no longer runs. -/
theorem hangLeg_cancels (s : State) (l : Leg) :
    (hangLeg s l).drone.hungCnt = s.drone.hungCnt + 1 ∧ shown (hangLeg s l) 0xD01 = true ∧
      ∀ x ∈ (hangLeg s l).drone.running, x.id ≠ l.id := by
  have hends := onlyEnds_hangLeg s l
  refine ⟨hends.hung, hends.shown _ (shown_raise_same _ _), fun x hx => ?_⟩
  have hkept := hends.legs hx
  simp only [stopLeg, List.mem_filter, bne_iff_ne] at hkept
  exact hkept.2

/-! ### A pair's hangs (R234, R235) -/

/-- The first hang of a pair in its window is counted at the pair, which is not condemned for it. -/
theorem countHang_of_first {p : Nat} {s : State} (h : within s (pairStat s p).hangAt = false) :
    countHang p s = modPair p (fun x => { x with hung := sat 255 (x.hung + 1), hangAt := some s.drone.count }) s := by
  simp [countHang, h]

theorem pairStat_modPair_same {p : Nat} {s : State} (f : PairStat → PairStat) (h : p < s.reeds.stat.length) :
    pairStat (modPair p f s) p = f (pairStat s p) := nth_modAt_same _ f h

theorem placeVote_stat (s : State) (id : Nat) : (placeVote s id).reeds.stat = s.reeds.stat := by
  unfold placeVote
  split
  · rfl
  · split
    · rfl
    · split <;> rfl

theorem placeVotes_stat (s : State) : (placeVotes s).reeds.stat = s.reeds.stat := by
  have hdrop : ∀ bad, (dropWork bad s).reeds = s.reeds := fun bad => same_of_alone .reeds (view_dropWork _ _ rfl rfl rfl)
  unfold placeVotes
  dsimp only
  rw [foldl_keeps (part := fun t => t.reeds.stat) _ _ placeVote_stat, hdrop]

/-- A vote begun leaves the pairs' status, the time and the image. -/
theorem toVote_keeps (l : Leg) (saved : List (Nat × Nat × List Byte × List Byte)) (forced : Option Bool) (s : State) :
    (toVote l saved forced s).reeds.stat = s.reeds.stat ∧ (toVote l saved forced s).drone.count = s.drone.count ∧
      (toVote l saved forced s).image = s.image := by
  refine ⟨?_, same_of_alone .tick (by simp), same_of_alone .image (by simp)⟩
  unfold toVote
  split <;> rw [placeVotes_stat] <;> rfl

/-- The window of a pair's hang is the same at the same time under the same image. -/
theorem within_congr {s t : State} (hcount : t.drone.count = s.drone.count) (himage : t.image = s.image) (x : Option Nat) :
    within t x = within s x := by
  have hwindow : reedWindow t = reedWindow s := by simp only [reedWindow, tickNs_of_image himage, himage]
  rw [within, within, hwindow, hcount]

/-- A hang counted at a pair that has had none within the window. -/
theorem countHang_counts {p : Nat} {s t : State} (hstat : t.reeds.stat = s.reeds.stat)
    (hcount : t.drone.count = s.drone.count) (himage : t.image = s.image)
    (hfirst : within s (pairStat s p).hangAt = false) (hp : p < s.reeds.stat.length) :
    (pairStat (countHang p t) p).hung = min 255 ((pairStat s p).hung + 1) := by
  have hpair : pairStat t p = pairStat s p := by rw [pairStat, pairStat, hstat]
  have hfirst' : within t (pairStat t p).hangAt = false := by rw [hpair, within_congr hcount himage, hfirst]
  rw [countHang_of_first hfirst', pairStat_modPair_same _ (by rw [hstat]; exact hp), hpair]
  rfl

/-- A reed leg's hang is counted at its pair. -/
theorem hangLeg_counts_pair {s : State} {l : Leg} (hk : l.kind = .reed)
    (hfirst : within s (pairStat s (l.pair.getD 0)).hangAt = false) (hp : l.pair.getD 0 < s.reeds.stat.length) :
    (pairStat (hangLeg s l) (l.pair.getD 0)).hung = min 255 ((pairStat s (l.pair.getD 0)).hung + 1) := by
  have hleg : hangLeg s l = countHang (l.pair.getD 0)
      (if l.op = .test then stopLeg l.id (noteHang s) else toVote l [] none (noteHang s)) := by
    simp only [hangLeg, hk, if_true, noteHang]
    split <;> rfl
  rw [hleg]
  split
  · exact countHang_counts rfl rfl rfl hfirst hp
  · obtain ⟨hstat, hcount, himage⟩ := toVote_keeps l [] none (noteHang s)
    exact countHang_counts hstat hcount himage hfirst hp

/-! ### The caravan being compiled (R91, R92, R100) -/

/-- A unit of work tried behind a late seal is placed only while the seal's number of places is not full (R92). -/
theorem tryWork_length_le {s : State} {c : Seal} {k : Nat} (hcut : s.drone.cut = some c) (hlate : c.late = some k) (hold : Nat)
    (urgent : Bool) {a : Acc} (w : Work) (ha : a.placed.length ≤ k) : (tryWork s hold urgent a w).placed.length ≤ k := by
  unfold tryWork
  split
  · exact ha
  · next hroom =>
    have hlt : a.placed.length < k := by
      simp only [hcut, hlate, Option.bind_some, Option.any_some, Bool.or_eq_true, decide_eq_true_eq, not_or, Nat.not_le] at hroom
      exact hroom.2
    split
    · exact ha
    · exact Nat.succ_le_of_lt hlt

/-- A late compilation places no more than it had placed by its seal (R92). -/
theorem compileAcc_length_le {s : State} {c : Seal} {k : Nat} (hcut : s.drone.cut = some c) (hlate : c.late = some k)
    (mode last : Nat) : (compileAcc s mode last).placed.length ≤ k := by
  have hfold : ∀ (hold : Nat) (urgent : Bool) (ws : List Work) (a : Acc), a.placed.length ≤ k →
      (ws.foldl (tryWork s hold urgent) a).placed.length ≤ k := fun hold urgent ws a ha =>
    List.foldlRecOn ws _ (motive := fun a : Acc => a.placed.length ≤ k) ha fun _ hb w _ =>
      tryWork_length_le hcut hlate hold urgent w hb
  unfold compileAcc
  exact hfold _ _ _ _ (hfold _ _ _ _ (hfold _ _ _ _ (hfold _ _ _ _ (hfold _ _ _ _ (Nat.zero_le k)))))

/-- Work that is queued stays queued or is placed. -/
theorem placeCaravan_keeps_work (mode last : Nat) {s : State} {w : Work} (hw : w ∈ s.drone.queued) :
    w ∈ (placeCaravan mode last s).drone.queued ∨ w.id ∈ (placeCaravan mode last s).drone.next.map Work.id := by
  by_cases hid : w.id ∈ (placeCaravan mode last s).drone.next.map Work.id
  · exact .inr hid
  · refine .inl (List.mem_filter.mpr ⟨hw, ?_⟩)
    simpa [placeCaravan] using hid

/-! ### Legs at an edge (R90, R106, R107) -/

/-- A changed leg is the function's value of a leg that ran. -/
theorem mem_modLeg {id : Nat} {f : Leg → Leg} {s : State} {x : Leg} :
    x ∈ (modLeg id f s).drone.running ↔ ∃ l ∈ s.drone.running, (if l.id = id then f l else l) = x := List.mem_map

/-- A leg that does not finish is marked, the others stay as they are. -/
theorem delayLeg_marks (id : Nat) (s : State) :
    (∀ x ∈ (delayLeg id s).drone.running, x.id = id → x.late = true) ∧
      ∀ x : Leg, x.id ≠ id → (x ∈ (delayLeg id s).drone.running ↔ x ∈ s.drone.running) := by
  simp only [delayLeg, mem_modLeg]
  refine ⟨?_, fun x hx => ⟨?_, fun hmem => ⟨x, hmem, if_neg hx⟩⟩⟩
  · rintro x ⟨l, -, rfl⟩ hid
    split
    · rfl
    · next hne => rw [if_neg hne] at hid; exact absurd hid hne
  · rintro ⟨l, hl, rfl⟩
    split at hx
    · next heq => exact absurd heq hx
    · next hne => rwa [if_neg hne]

/-- No leg that is marked late has finished. -/
theorem finishedLegs_not_late (open_ ls : List Leg) : ∀ l ∈ finishedLegs open_ ls, l.late = false := by
  fun_induction finishedLegs open_ ls
  case case1 => simp
  case case2 ih => exact ih
  case case3 l r hcond ih =>
    intro x hx
    rcases List.mem_cons.mp hx with rfl | hx
    · simp only [Bool.or_eq_true, not_or, Bool.not_eq_true] at hcond
      exact hcond.1
    · exact ih x hx

/-- An overrun that has not been counted is counted, recorded and reported (R106, R110). -/
theorem countOverrun_of_uncounted {s : State} {l : Leg} (h : l.counted = false) :
    countOverrun s l = raise 0xD00 (modLeg l.id (fun x => { x with counted := true }) { s with drone := { s.drone with
      overrunCnt := s.drone.overrunCnt + 1
      lastTick := l.ownTick
      lastRes := l.resource
      lastKind := l.kind.code } }) := by
  simp [countOverrun, h]

/-- Settles O11: the seal by whether compilation is late, overruns by the marks of their legs, hangs by what ends with them. -/
theorem caravansAndLateLegs : Obligations.CaravansAndLateLegs := by
  refine ⟨⟨fun s hs hcut => ?sealed, fun k s hs hcut => ?late, fun mode last k c s hcut hlate => ?compiled,
    fun leg l s hl hdone htick => ?overrun, fun ls => finishedLegs_not_late [] ls, fun a l ha hl hdone hres => ?behind,
    fun s l hc => ?counted, fun s l hc => ?once⟩, fun leg l s hs hl hdone htick => ?hung, fun l s => ?cancelled⟩
  case sealed => simp [exec, execCaravanSeal, hs, hcut, sealAt]
  case late =>
    exact ⟨raise 0xD02 (sealAt (some k) { s with drone := { s.drone with lateCnt := s.drone.lateCnt + 1 } }),
      by simp [exec, execCaravanSeal, hs, hcut], rfl, rfl, rfl, shown_raise_same _ _⟩
  case compiled =>
    exact ⟨by simpa [placeCaravan] using compileAcc_length_le hcut hlate mode last,
      fun w hw => placeCaravan_keeps_work mode last hw⟩
  case overrun =>
    obtain ⟨hlate, hrest⟩ := delayLeg_marks leg s
    exact ⟨delayLeg leg s, by simp [exec, execDrnOverrun, hl, hdone, htick], hlate, hrest, rfl⟩
  case behind => simp [finishedLegs, ha, hl, hdone, hres]
  case counted =>
    rw [countOverrun_of_uncounted hc]
    refine ⟨rfl, rfl, rfl, rfl, shown_raise_same _ _, rfl, fun x hx hid => ?_⟩
    obtain ⟨y, -, rfl⟩ := mem_modLeg.mp hx
    split
    · rfl
    · next hne => rw [if_neg hne] at hid; exact absurd hid hne
  case once => simp [countOverrun, hc]
  case hung =>
    exact ⟨delayLeg leg s, by simp [exec, execDrnLegHung, hl, hs, hdone, htick], (delayLeg_marks leg s).1, rfl⟩
  case cancelled =>
    obtain ⟨hcount, hshown, hgone⟩ := hangLeg_cancels s l
    exact ⟨hcount, hshown, hgone, hangLeg_counts_pair⟩

end Sys2Proof.Machine

/-! O12: urgent streams, DRN_BG_HOLD, and the cache mode. -/

namespace Sys2Proof.Machine

open Sys2Proof

/-! ### Patience of the five streams (R102, R103, R110) -/

theorem Stream.bit_lt (st : Stream) : st.bit < 5 := by cases st <;> decide

/-- A stream is found by its bit. -/
theorem streamOf_bit (st : Stream) : streamOf st.bit = some st := by cases st <;> rfl

theorem Stream.bit_ne {a b : Stream} (h : a ≠ b) : a.bit ≠ b.bit := fun hbit =>
  h (Option.some.inj (by rw [← streamOf_bit a, hbit, streamOf_bit]))

/-- A stream's patience replaced. -/
def setPatience (st : Stream) (p : Patience) (s : State) : State :=
  { s with drone := { s.drone with patience := modAt s.drone.patience st.bit fun _ => p } }

theorem patienceOf_congr {s t : State} (h : t.drone.patience = s.drone.patience) (st : Stream) :
    patienceOf t st = patienceOf s st := by
  rw [patienceOf, patienceOf, h]

theorem patienceOf_setPatience_same {st : Stream} {s : State} (p : Patience) (h : s.drone.patience.length = 5) :
    patienceOf (setPatience st p s) st = p := nth_modAt_same _ _ (h ▸ st.bit_lt)

theorem patienceOf_setPatience_ne {a b : Stream} (p : Patience) (s : State) (h : b ≠ a) :
    patienceOf (setPatience a p s) b = patienceOf s b := nth_modAt_ne _ _ _ (Stream.bit_ne h)

/-- What a stream made urgent records, and that the others keep theirs (R103). -/
theorem setUrgent_records {st : Stream} {s : State} (h : s.drone.patience.length = 5) :
    (patienceOf (setUrgent st s) st).urgent = true ∧
      (patienceOf (setUrgent st s) st).remain = admittedOf s.drone.queued st ∧
      ∀ o : Stream, o ≠ st → patienceOf (setUrgent st s) o = patienceOf s o := by
  obtain ⟨p, hp, hu, hr⟩ : ∃ p : Patience, (∀ o, patienceOf (setUrgent st s) o = patienceOf (setPatience st p s) o) ∧
      p.urgent = true ∧ p.remain = admittedOf s.drone.queued st := ⟨_, fun _ => rfl, rfl, rfl⟩
  rw [hp, patienceOf_setPatience_same p h]
  exact ⟨hu, hr, fun o ho => (hp o).trans (patienceOf_setPatience_ne p s ho)⟩

/-! ### Holds (R110, R111) -/

/-- DRN_BG_HOLD holds the streams whose bits are set, and vault never. -/
theorem mem_holdOf {value : Word} {st : Stream} : st ∈ holdOf value ↔ st ≠ .vault ∧ value.getLsbD st.bit = true := by
  cases st <;> simp [holdOf, bit]

/-- A stream held has its patience reset; what is in use stays. -/
theorem holdStream_resets {s : State} (st : Stream) (h : s.drone.patience.length = 5) :
    (holdStream s st).drone.patience.length = 5 ∧ (holdStream s st).drone.holdUsed = s.drone.holdUsed ∧
      ∀ o : Stream, patienceOf (holdStream s st) o = if o = st then Patience.reset else patienceOf s o := by
  have hdrone : (holdStream s st).drone = (setPatience st Patience.reset s).drone := raiseIf_drone _ _ _
  refine ⟨by simp [hdrone, setPatience, modAt, h], by rw [hdrone]; rfl, fun o => ?_⟩
  rw [patienceOf_congr (congrArg Drone.patience hdrone)]
  split
  · next ho => rw [ho, patienceOf_setPatience_same _ h]
  · next ho => exact patienceOf_setPatience_ne _ s ho

/-- Streams held one after another have their patience reset. -/
theorem foldl_holdStream_resets (l : List Stream) {s : State} (h : s.drone.patience.length = 5) :
    (l.foldl holdStream s).drone.holdUsed = s.drone.holdUsed ∧
      ∀ o : Stream, patienceOf (l.foldl holdStream s) o = if o ∈ l then Patience.reset else patienceOf s o := by
  induction l generalizing s with
  | nil => simp
  | cons st r ih =>
    obtain ⟨hlen, hused, hpat⟩ := holdStream_resets st h
    obtain ⟨hused', hpat'⟩ := ih hlen
    refine ⟨hused'.trans hused, fun o => ?_⟩
    rw [List.foldl_cons, hpat', hpat]
    by_cases ho : o = st <;> simp [ho]

/-- The first compilation behind the write clears what the newly held streams have recorded (R111). -/
theorem adoptHold_clears {s : State} (h : s.drone.patience.length = 5) :
    (adoptHold s).drone.holdUsed = s.drone.hold ∧ ∀ st : Stream, patienceOf (adoptHold s) st =
      if st ∈ s.drone.hold ∧ st ∉ s.drone.holdUsed then Patience.reset else patienceOf s st := by
  obtain ⟨hused, hpat⟩ := foldl_holdStream_resets (s.drone.hold.filter fun st => !s.drone.holdUsed.contains st)
    (s := { s with drone := { s.drone with holdUsed := s.drone.hold } }) h
  refine ⟨hused, fun st => (hpat st).trans ?_⟩
  simp only [List.mem_filter, Bool.not_eq_true', List.contains_eq_mem, decide_eq_false_iff_not]
  rfl

/-- DRN_BG_HOLD written with no reserved bit set (R110). -/
theorem exec_drnBgHoldWrite {f : Nat} {value : Word} {s : State} (hf : pfFull s f = true) (hv : value &&& ~~~0x1D = 0) :
    exec (.drnBgHoldWrite f value) s = .next (writeBgHold value s) := by
  have hmask : (regMask [(0, 1), (2, 3)] [] [] []).all = (0x1D : Word) := by decide
  have hclear : reservedSet (some (regMask [(0, 1), (2, 3)] [] [] [])) value = false := by
    simp only [reservedSet, hmask, hv]
    rfl
  simp only [exec, execDrnBgHoldWrite, hf, if_true, rowWrite_of_legitimate _ _ hclear]

/-! ### The cache mode (R33, R343, R345, R360) -/

theorem holdCeiling_of_fresh {s : State} (h : s.cache.stale = false) :
    holdCeiling s = raise 0xB02 { s with cache := { s.cache with stale := true, freshSeen := 0 } } := by
  simp [holdCeiling, h]

/-- The fence holder's PF writes JRN_CTL. -/
theorem jrnWritable_of_fenceHolder {s : State} {f : Nat} (hf : pfFull s f = true) (hh : fenceHolder s = true) :
    jrnWritable s f = true := by
  simp [jrnWritable, hf, hh]

/-- An intent marked for destage. -/
def Intent.markAll (i : Intent) : Intent := { i with eligible := true, allMark := true }

/-- Every dirty stripe marked for destage, with the bits of DESTAGE_ALL. -/
def markStripes (s : State) : State :=
  { s with cache := { s.cache with
    destageAll := true
    cleanWait := true
    stripes := tabMap (fun _ (d : StripeDesc) => { intents := d.intents.map Intent.markAll }) s.cache.stripes } }

theorem sumBy_map {α β : Type} (f : β → Nat) (g : α → β) (l : List α) : sumBy f (l.map g) = sumBy (fun x => f (g x)) l := by
  simp [sumBy, List.foldl_map]

/-- Marks change no dirty load (R324). -/
theorem dirtyLoad_markStripes (s : State) : dirtyLoad (markStripes s) = dirtyLoad s := by
  have hbytes : ∀ (pi : Nat) (i : Intent), intentBytes pi i.markAll = intentBytes pi i := fun _ _ => rfl
  simp only [dirtyLoad, markStripes, tabMap, sumBy_map, hbytes]
  rfl

theorem checkClean_stripes (s : State) : (checkClean s).cache.stripes = s.cache.stripes := by
  unfold checkClean
  dsimp only
  split <;> rfl

/-- JRN_CLEAN is shown when nothing is dirty (R360). -/
theorem shown_checkClean {s : State} (hw : s.cache.cleanWait = true) (hd : dirtyLoad s = 0) :
    shown (checkClean s) 0xB0D = true := by
  simp [checkClean, hw, hd]

/-- DESTAGE_ALL marks every intent of every dirty stripe, and shows a cache that is clean already (R334, R360). -/
theorem destageAll_marks (s : State) :
    (∀ k d, (k, d) ∈ (destageAll s).cache.stripes → ∀ i ∈ d.intents, i.eligible = true ∧ i.allMark = true) ∧
      (destageAll s).cache.stripes.map (·.1) = s.cache.stripes.map (·.1) ∧
      (dirtyLoad s = 0 → shown (destageAll s) 0xB0D = true) := by
  have hstripes : (destageAll s).cache.stripes = (markStripes s).cache.stripes := checkClean_stripes (markStripes s)
  rw [hstripes]
  refine ⟨fun k d hd i hi => ?_, by simp [markStripes, tabMap], fun hclean => ?_⟩
  · obtain ⟨p, -, hp⟩ := List.mem_map.mp hd
    obtain ⟨-, rfl⟩ := Prod.mk.inj hp
    obtain ⟨j, -, rfl⟩ := List.mem_map.mp hi
    exact ⟨rfl, rfl⟩
  · exact shown_checkClean (s := markStripes s) rfl ((dirtyLoad_markStripes s).trans hclean)

/-- Settles O12: streams by their patience and their holds, the cache mode by what each row writes. -/
theorem urgencyHoldsAndCacheMode : Obligations.UrgencyHoldsAndCacheMode := by
  refine ⟨⟨fun st s hs hu hh hq hp hlen => ?urgent, fun f value s hf hv => exec_drnBgHoldWrite hf hv,
    fun value => ⟨fun hm => (mem_holdOf.mp hm).1 rfl, fun st hst => by simp [mem_holdOf, hst]⟩,
    fun s hlen => adoptHold_clears hlen⟩, fun s hs hold hst => ?stale, fun s hs hw hn => ?exit,
    fun f on s hf hh => ?force, fun f s hf hh => ?destage⟩
  case urgent =>
    obtain ⟨hurgent, hremain, hothers⟩ := setUrgent_records (st := st) hlen
    exact ⟨setUrgent st s, by simp [exec, execDrnUrgentSet, streamOf_bit, hs, hu, hh, hq, hp], hurgent, hremain,
      shown_raise_same _ _, hothers⟩
  case stale =>
    refine ⟨holdCeiling s, by simp [exec, execJrnCeilStale, hs, hold], ?_⟩
    rw [holdCeiling_of_fresh hst]
    exact ⟨rfl, shown_raise_same _ _⟩
  case exit => exact ⟨exitWt s, by simp [exec, execJrnWtExit, hs, hw, hn], rfl, shown_raise_same _ _⟩
  case force => simp [exec, execJrnWtForce, jrnWritable_of_fenceHolder hf hh, setWtForce]
  case destage =>
    exact ⟨destageAll s, by simp [exec, execJrnDestageAll, jrnWritable_of_fenceHolder hf hh], destageAll_marks s⟩

end Sys2Proof.Machine

/-! What the proofs of O41 and O44 share: drives and what the ports keep for a slot, and SLOT records. -/

namespace Sys2Proof.Machine

open Sys2Proof

/-! ### What the drive ports keep for a slot (R419, R420) -/

theorem getStat_setStat_same {x : SlotStat} (n : Nat) (s : State) (h : x ≠ SlotStat.blank) : getStat (setStat n x s) n = x :=
  tabGet_tabPut_same _ _ _ _ (.inl h)

/-- A slot with a cause set is not blank. -/
theorem ne_blank_of_causes {x : SlotStat} (h : x.causes ≠ 0) : x ≠ SlotStat.blank := fun hx => h (by rw [hx]; rfl)

theorem getLsbD_cause {n : Nat} (c : BitVec 8) (h : n < 8) : (c ||| BitVec.ofNat 8 (2 ^ n)).getLsbD n = true := by
  rw [BitVec.getLsbD_or, BitVec.getLsbD_ofNat, Nat.testBit_two_pow_self]
  simp [h]

/-- A cause set is kept with what the slot had (R420). -/
theorem getStat_slotCause (slot : Nat) {n : Nat} (s : State) (h : n < 8) :
    getStat (slotCause slot n s) slot =
      { getStat s slot with causes := (getStat s slot).causes ||| BitVec.ofNat 8 (2 ^ n) } := by
  have hbit := getLsbD_cause (getStat s slot).causes h
  have hne : (getStat s slot).causes ||| BitVec.ofNat 8 (2 ^ n) ≠ 0 := fun hz => by
    rw [hz] at hbit
    simp at hbit
  exact getStat_setStat_same slot s (ne_blank_of_causes hne)

/-- The cause is shown in the slot's status and by the slot's event (R420). -/
theorem slotCause_shows (slot : Nat) {n : Nat} (s : State) (h : n < 8) :
    shown (slotCause slot n s) (0x940 + slot) = true ∧ (getStat (slotCause slot n s) slot).causes.getLsbD n = true := by
  refine ⟨shown_raise_same _ _, ?_⟩
  rw [getStat_slotCause slot s h]
  exact getLsbD_cause _ h

theorem keepsShown_slotCause (slot n : Nat) (s : State) : KeepsShown s (slotCause slot n s) := keepsShown_raise _ (setStat _ _ s)

/-! ### Drives (R396, R399) -/

theorem getDrive_congr {s t : State} (h : t.drives.drives = s.drives.drives) (pos : Nat) : getDrive t pos = getDrive s pos := by
  rw [getDrive, getDrive, h]

theorem slotDrive_congr {s t : State} (h : t.drives.drives = s.drives.drives) (n : Nat) : slotDrive t n = slotDrive s n := by
  rw [slotDrive, slotDrive, h]

theorem modDrive_of_some {pos : Nat} {d : Drive} {s : State} (f : Drive → Drive) (h : getDrive s pos = some d) :
    modDrive pos f s = { s with drives := { s.drives with drives := tabInsert s.drives.drives pos (f d) } } := by
  simp only [modDrive, h]

theorem getDrive_modDrive_same {pos : Nat} {d : Drive} {s : State} (f : Drive → Drive) (h : getDrive s pos = some d) :
    getDrive (modDrive pos f s) pos = some (f d) := by
  rw [modDrive_of_some f h]
  exact tabFind_tabInsert_same _ _ _

@[simp] theorem modDrive_drives_posMap (pos : Nat) (f : Drive → Drive) (s : State) :
    (modDrive pos f s).drives.posMap = s.drives.posMap := by
  unfold modDrive
  split <;> rfl

/-- What a table gives at a key is one of its entries. -/
theorem mem_of_tabFind {α : Type} {t : Tab α} {k : Nat} {v : α} (h : tabFind t k = some v) : (k, v) ∈ t := by
  induction t with
  | nil => simp [tabFind] at h
  | cons p r ih =>
    obtain ⟨i, w⟩ := p
    simp only [tabFind] at h
    split at h
    · next hi => simp_all
    · exact List.mem_cons_of_mem _ (ih h)

/-- No drive has a slot. -/
theorem slotDrive_eq_none {s : State} {n : Nat} : slotDrive s n = none ↔ ∀ p ∈ s.drives.drives, p.2.slot ≠ some n := by
  simp [slotDrive]

/-- A drive changed that keeps its slot takes none. -/
theorem slotDrive_modDrive_none {pos n : Nat} {s : State} {f : Drive → Drive} (hf : ∀ d, (f d).slot = d.slot)
    (h : slotDrive s n = none) : slotDrive (modDrive pos f s) n = none := by
  rw [slotDrive_eq_none] at h ⊢
  intro p hp
  unfold modDrive at hp
  split at hp
  · exact h p hp
  · next d hd =>
    rcases mem_tabInsert hp with hold | hnew
    · exact h p hold
    · rw [hnew, hf]
      exact h _ (mem_of_tabFind hd)

/-! ### Admin steps (R403) -/

/-- The next admin step is the drive's, and leaves with its data. -/
theorem adminStep_issues {pos : Nat} {d : Drive} {s : State} (st : BringUp) (h : getDrive s pos = some d) :
    getDrive (adminStep pos st s) pos = some { d with step := st } ∧
      (adminStep pos st s).out = s.out ++ [.admin pos st (adminData s st)] := by
  have hmod : getDrive (modDrive pos (fun d => { d with step := st }) s) pos = some { d with step := st } :=
    getDrive_modDrive_same _ h
  have hout : (modDrive pos (fun d => { d with step := st }) s).out = s.out := same_of_alone .out (by simp)
  exact ⟨hmod, congrArg (· ++ _) hout⟩

/-! ### Slot records (R257, R389) -/

/-- The five flags of a SLOT record fit its first byte, with the tag's in bit 0. -/
theorem slotFlags_byte : ∀ tag drain served lastRes returned : Bool,
    let flags := (if tag then 1 else 0) + (if drain then 2 else 0) + (if served then 4 else 0) +
      (if lastRes then 8 else 0) + (if returned then 16 else 0)
    flags < 256 ^ 1 ∧ flags % 2 = if tag then 1 else 0 := by decide

/-- Tag, service state and extents are read back from a SLOT record. -/
theorem slotOf_slotBytes (r old : SlotRec) (x : SlotStat) (fresh : Bool) :
    (slotOf (slotBytes r x) old fresh).tagValid = r.tagValid ∧ (slotOf (slotBytes r x) old fresh).state = r.state ∧
      (r.dataExt < 2 ^ 32 → (slotOf (slotBytes r x) old fresh).dataExt = r.dataExt) := by
  obtain ⟨flags, hflags⟩ : ∃ n, n = (if r.tagValid then 1 else 0) + (if r.drain then 2 else 0) + (if r.served then 4 else 0) +
      (if x.lastRes then 8 else 0) + (if x.returned then 16 else 0) := ⟨_, rfl⟩
  obtain ⟨tail, htail⟩ : ∃ l, l = leBytes 8 r.failTick ++ (leBytes 1 (x.cluster.getD 0xF) ++ (zeros 7 ++
      (takePad 20 x.serial ++ takePad 20 x.failedSerial))) := ⟨_, rfl⟩
  have hbytes : slotBytes r x = leBytes 1 flags ++ (leBytes 1 r.encl ++ (leBytes 1 r.state.code ++
      (leBytes 1 r.failWhy ++ (leBytes 4 r.dataExt ++ tail)))) := by
    simp only [slotBytes, hflags, htail, List.append_assoc]
  obtain ⟨hlt, hodd⟩ : flags < 256 ^ 1 ∧ flags % 2 = if r.tagValid then 1 else 0 := hflags ▸ slotFlags_byte ..
  have hflag : field (slotBytes r x) 0 1 = flags := by
    rw [hbytes]
    simpa using field_append [] (leBytes 1 r.encl ++ (leBytes 1 r.state.code ++
      (leBytes 1 r.failWhy ++ (leBytes 4 r.dataExt ++ tail)))) 1 flags hlt
  have hstate : field (slotBytes r x) 2 1 = r.state.code := by
    rw [hbytes]
    simpa using field_append (leBytes 1 flags ++ leBytes 1 r.encl) (leBytes 1 r.failWhy ++ (leBytes 4 r.dataExt ++ tail)) 1
      r.state.code (by cases r.state <;> decide)
  have hext : r.dataExt < 2 ^ 32 → field (slotBytes r x) 4 4 = r.dataExt := fun h => by
    rw [hbytes]
    simpa using field_append (leBytes 1 flags ++ leBytes 1 r.encl ++ leBytes 1 r.state.code ++ leBytes 1 r.failWhy) tail 4
      r.dataExt h
  refine ⟨?_, ?_, hext⟩
  · simp only [slotOf, hflag, hodd]
    cases r.tagValid <;> rfl
  · simp only [slotOf, hstate]
    cases r.state <;> rfl

/-- A SLOT change made by the unit, up to what its record sends. -/
theorem changeSlot_writes (n : Nat) (f : SlotRec → SlotRec) (g : SlotStat → SlotStat) (s : State) :
    (∃ fresh, (changeSlot n f g s).ledger.slots = tabPut SlotRec.absent s.ledger.slots n
        (slotOf (slotBytes (f (getSlot s n)) (g (getStat s n))) (getSlot s n) fresh)) ∧
      (changeSlot n f g s).ledger.seq = s.ledger.seq + 1 ∧ (changeSlot n f g s).drives.drives = s.drives.drives ∧
      (changeSlot n f g s).events = s.events := by
  obtain ⟨bs, hbs⟩ : ∃ bs, bs = slotBytes (f (getSlot s n)) (g (getStat s n)) := ⟨_, rfl⟩
  have happly : (∃ fresh, (applySlot n bs s).ledger.slots =
      tabPut SlotRec.absent s.ledger.slots n (slotOf bs (getSlot s n) fresh)) ∧
      (applySlot n bs s).drives.drives = s.drives.drives ∧ (applySlot n bs s).events = s.events := by
    unfold applySlot
    dsimp only
    split <;> exact ⟨⟨_, rfl⟩, rfl, rfl⟩
  have hlog : ∀ (r : LRec) (t : State), (logRec r t).ledger.slots = t.ledger.slots ∧ (logRec r t).drives = t.drives ∧
      (logRec r t).events = t.events := fun r t =>
    ⟨same_of_alone .slots (by apply view_logRec <;> rfl), same_of_alone .drives (by apply view_logRec <;> rfl),
      same_of_alone .events (by apply view_logRec <;> rfl)⟩
  obtain ⟨hslots, hdrives, hevents⟩ := hlog
    { seq := s.ledger.seq + 1, type := .slot, volume := n, key := 0, payload := bs } (applySlot n bs s)
  obtain ⟨⟨fresh, hslots'⟩, hdrives', hevents'⟩ := happly
  rw [← hbs]
  have hchange : changeSlot n f g s = logRec
      { seq := s.ledger.seq + 1, type := .slot, volume := n, key := 0, payload := bs } (applySlot n bs s) := by
    rw [hbs]
    rfl
  rw [hchange]
  exact ⟨⟨fresh, hslots.trans hslots'⟩, logRec_seq _ _, (congrArg Drives.drives hdrives).trans hdrives',
    hevents.trans hevents'⟩

/-- A slot with a tag, changed without losing it, has the state and the extents that the change gives it. -/
theorem getSlot_changeSlot {n : Nat} {f : SlotRec → SlotRec} (g : SlotStat → SlotStat) {s : State}
    (htag : (f (getSlot s n)).tagValid = true) :
    (getSlot (changeSlot n f g s) n).tagValid = true ∧
      (getSlot (changeSlot n f g s) n).state = (f (getSlot s n)).state ∧
      ((f (getSlot s n)).dataExt < 2 ^ 32 → (getSlot (changeSlot n f g s) n).dataExt = (f (getSlot s n)).dataExt) := by
  obtain ⟨⟨fresh, hslots⟩, -⟩ := changeSlot_writes n f g s
  obtain ⟨htag', hstate, hext⟩ := slotOf_slotBytes (f (getSlot s n)) (getSlot s n) (g (getStat s n)) fresh
  have hne : slotOf (slotBytes (f (getSlot s n)) (g (getStat s n))) (getSlot s n) fresh ≠ SlotRec.absent := fun h => by
    rw [htag, h] at htag'
    exact absurd htag' (by decide)
  have hget : getSlot (changeSlot n f g s) n =
      slotOf (slotBytes (f (getSlot s n)) (g (getStat s n))) (getSlot s n) fresh := by
    rw [getSlot, hslots]
    exact tabGet_tabPut_same _ _ _ _ (.inl hne)
  rw [hget]
  exact ⟨htag'.trans htag, hstate, hext⟩

theorem dataExtOf_lt (nsze : Nat) : dataExtOf nsze < 2 ^ 32 := by
  simp only [dataExtOf]
  omega

/-! ### SMART log reads (R362, R420) -/

/-- The wear is noted and a warning shown, before the warning's verdict on the drive. -/
theorem readSmart_eq (slot warning used : Nat) (s : State) : ∃ t,
    (t.drives.drives = s.drives.drives ∧ KeepsShown s t ∧ t.array = s.array ∧ tabFind t.ledger.wearNow slot = some used ∧
      (warning % 256 ≠ 0 → shown t (0x940 + slot) = true ∧ (getStat t slot).causes.getLsbD 7 = true)) ∧
    readSmart slot warning used s =
      if fenceHolder s = true ∧ BitVec.ofNat 8 warning &&& 0x1D ≠ 0 then wantDeclare slot 5 t else t := by
  obtain ⟨s1, hs1⟩ : ∃ t, t = { s with ledger := { s.ledger with wearNow := tabInsert s.ledger.wearNow slot used } } :=
    ⟨_, rfl⟩
  have hwear : tabFind s1.ledger.wearNow slot = some used := by
    rw [hs1]
    exact tabFind_tabInsert_same _ _ _
  have hkept : KeepsShown s s1 := .of_events (by rw [hs1])
  refine ⟨if warning % 256 = 0 then s1 else slotCause slot 7 s1, ?_, by simp [readSmart, hs1]⟩
  split
  · next hnone => exact ⟨by rw [hs1], hkept, by rw [hs1], hwear, fun hw => absurd hnone hw⟩
  · exact ⟨by rw [hs1]; rfl, hkept.trans (keepsShown_slotCause _ _ _), by rw [hs1]; rfl, hwear,
      fun _ => slotCause_shows slot s1 (by decide)⟩

theorem readSmart_drives (slot warning used : Nat) (s : State) :
    (readSmart slot warning used s).drives.drives = s.drives.drives := by
  obtain ⟨t, ⟨hdrives, -⟩, hread⟩ := readSmart_eq slot warning used s
  rw [hread]
  split <;> exact hdrives

end Sys2Proof.Machine

/-! O41: the causes of a failed drive, and a returned drive forgotten. -/

namespace Sys2Proof.Machine

open Sys2Proof

/-! ### Drive commands uncollected (R99) -/

/-- A command given up is in flight no longer, and declares nothing. -/
theorem abandonSub_dropInflight (d : Sub) (s : State) :
    (abandonSub d (dropInflight d s)).drone.inflight = s.drone.inflight.filter (fun x => x.cid != d.cid) ∧
      (abandonSub d (dropInflight d s)).array = s.array := by
  have hdrone : ∀ t, (abandonSub d t).drone = t.drone := fun t => same_of_alone .drone (view_abandonSub _ _ rfl)
  have hdrop : (dropInflight d s).drone.inflight = s.drone.inflight.filter fun x => x.cid != d.cid := by
    unfold dropInflight
    split <;> rfl
  exact ⟨by rw [hdrone, hdrop], same_of_alone .array (by simp)⟩

/-! ### PLC_FAIL_CTL (R368, R390, R391) -/

/-- The state in which a fence holder's write of PLC_FAIL_CTL acts: SLOT is kept. -/
def withFailSlot (slot : Nat) (s : State) : State := { s with array := { s.array with failSlot := slot } }

theorem writeFailSlot_of_fenceHolder {s : State} (slot : Nat) (act : State → State) (h : fenceHolder s = true) :
    writeFailSlot slot act s = act (withFailSlot slot s) := by
  simp [writeFailSlot, h, withFailSlot]

theorem writeFailSlot_of_other {s : State} (slot : Nat) (act : State → State) (h : fenceHolder s = false) :
    writeFailSlot slot act s = refuseSlot slot s := by
  simp [writeFailSlot, h]

/-- A refusal is shown at the slot (R391). -/
theorem getSlot_refuseSlot (slot : Nat) (s : State) : (getSlot (refuseSlot slot s) slot).refused = true := by
  have hne : { getSlot s slot with refused := true } ≠ SlotRec.absent := fun h => by
    simpa [SlotRec.absent] using congrArg SlotRec.refused h
  have hget : getSlot (refuseSlot slot s) slot = { getSlot s slot with refused := true } :=
    tabGet_tabPut_same _ _ _ _ (.inl hne)
  rw [hget]

/-- An ordered failure is declared for a slot that has a drive to fail (R368). -/
theorem orderFail_declares (slot : Nat) (s : State) :
    (orderFail slot s).array.failSlot = s.array.failSlot ∧ (orderFail slot s).ledger = s.ledger ∧
      (orderFail slot s).array.declare =
        if (getSlot s slot).state = .absent ∨ (getSlot s slot).state = .failed then s.array.declare
        else s.array.declare ++ [(slot, 7)] := by
  unfold orderFail
  split <;> exact ⟨rfl, rfl, rfl⟩

theorem exec_failOrder {f slot : Nat} {s : State} (hf : pfFull s f = true) (hs : slot < 384) :
    exec (.failOrder f slot) s = .next (writeFailSlot slot (orderFail slot) s) := by
  simp [exec, execFailOrder, hf, hs]

/-! ### A returned drive forgotten (R390) -/

theorem exec_forgetReturned {f slot : Nat} {s : State} (hf : pfFull s f = true) (hs : slot < 384)
    (hh : fenceHolder s = true) : exec (.forgetReturned f slot) s = .next (forget slot (withFailSlot slot s)) := by
  simp [exec, execForgetReturned, hf, hs, writeFailSlot_of_fenceHolder slot _ hh]

/-- The slot with its returned drive's record removed. -/
def eraseReturned (slot : Nat) (s : State) : State :=
  changeSlot slot (fun r => { r with state := .absent })
    (fun x => { x with serial := [], failedSerial := [], returned := false, lastRes := false }) s

/-- A drive that joins its slot as a new one (R389, R390). -/
def rejoinDrive (slot pos : Nat) (d : Drive) (s : State) : State :=
  changeSlot slot (fun r => { r with state := joinedState r, dataExt := dataExtOf d.info.nsze })
    (fun x => { x with serial := d.info.serial, cluster := some (pos / 32) }) s

theorem forget_of_not_returned {slot : Nat} {s : State} (h : (getStat s slot).returned = false) : forget slot s = s := by
  simp [forget, h]

theorem slotDrive_eraseReturned (slot : Nat) (s : State) : slotDrive (eraseReturned slot s) slot = slotDrive s slot :=
  slotDrive_congr (changeSlot_writes _ _ _ _).2.2.1 slot

/-- With no drive in the slot only the record goes. -/
theorem forget_of_no_drive {slot : Nat} {s : State} (h : (getStat s slot).returned = true) (hd : slotDrive s slot = none) :
    forget slot s = eraseReturned slot s := by
  have hd' := (slotDrive_eraseReturned slot s).trans hd
  rw [eraseReturned] at hd'
  simp only [forget, h, hd', Bool.not_true, Bool.false_eq_true, if_false, eraseReturned]

/-- A ready drive joins anew, is relabelled and flushed. -/
theorem forget_of_ready {slot pos : Nat} {d : Drive} {s : State} (h : (getStat s slot).returned = true)
    (hd : slotDrive s slot = some (pos, d)) (hr : d.step = .ready) :
    forget slot s = queueWorks 0 .journal false [driveSub 0 slot .flush 0 0 false [] 0]
      (unskip (writeLabel slot (rejoinDrive slot pos d (eraseReturned slot s)))) := by
  have hd' := (slotDrive_eraseReturned slot s).trans hd
  rw [eraseReturned] at hd'
  simp only [forget, h, hd', hr, Bool.not_true, Bool.false_eq_true, if_false, if_true, eraseReturned, rejoinDrive]

/-- A tagged slot whose drive joins anew is in the pool with the drive's extents. -/
theorem getSlot_rejoinDrive {slot : Nat} (pos : Nat) (d : Drive) {s : State} (ht : (getSlot s slot).tagValid = true) :
    (getSlot (rejoinDrive slot pos d (eraseReturned slot s)) slot).state = .pool ∧
      (getSlot (rejoinDrive slot pos d (eraseReturned slot s)) slot).dataExt = dataExtOf d.info.nsze := by
  have htag : (getSlot (eraseReturned slot s) slot).tagValid = true := (getSlot_changeSlot _ ht).1
  obtain ⟨-, hstate, hext⟩ := getSlot_changeSlot (n := slot) (s := eraseReturned slot s)
    (f := fun r => { r with state := joinedState r, dataExt := dataExtOf d.info.nsze })
    (fun x => { x with serial := d.info.serial, cluster := some (pos / 32) }) htag
  exact ⟨hstate.trans (by simp [joinedState, htag]), hext (dataExtOf_lt _)⟩

/-- Settles O41: each cause by the declaration it leaves, and FORGET_RETURNED by what stands in the slot. -/
theorem failureCauses : Obligations.FailureCauses := by
  refine ⟨fun cid d s hs hd hdue => ⟨fun hh => ?uncollected, fun hh => ?givenUp⟩,
    fun slot warning used pos d s hs hd hr => ?smart,
    fun f slot s hf hslot => ⟨_, exec_failOrder hf hslot, fun hh => ?refused, fun hh => ?ordered⟩,
    fun f slot s hf hslot hh => ⟨fun hret => ?kept, fun hret hd => ?gone, fun pos d hret hd hr htag => ?anew⟩⟩
  case uncollected => simp [exec, execDriveCommandTimeout, hd, hs, hdue, timeOut, hh, wantDeclare]
  case givenUp =>
    have hcid : d.cid = cid := by simpa using List.find?_some hd
    obtain ⟨hinflight, harray⟩ := abandonSub_dropInflight d s
    refine ⟨abandonSub d (dropInflight d s), by simp [exec, execDriveCommandTimeout, hd, hs, hdue, timeOut, hh], ?_,
      by rw [harray]⟩
    rw [hinflight]
    intro x hx
    simpa [hcid] using (List.mem_filter.mp hx).2
  case smart =>
    obtain ⟨t, ⟨-, -, harray, hwear, hwarned⟩, hread⟩ := readSmart_eq slot warning used s
    refine ⟨readSmart slot warning used s, by simp [exec, execSmartPoll, hd, hs, hr], ?_⟩
    rw [hread]
    split
    · exact ⟨hwear, hwarned, by rw [← harray]; rfl⟩
    · exact ⟨hwear, hwarned, by rw [harray]⟩
  case refused =>
    rw [writeFailSlot_of_other slot _ hh]
    exact ⟨getSlot_refuseSlot slot s, rfl⟩
  case ordered =>
    rw [writeFailSlot_of_fenceHolder slot _ hh]
    exact orderFail_declares slot (withFailSlot slot s)
  case kept => rw [exec_forgetReturned hf hslot hh, forget_of_not_returned (s := withFailSlot slot s) hret, withFailSlot]
  case gone =>
    obtain ⟨-, hseq, -⟩ := changeSlot_writes slot (fun r => { r with state := .absent })
      (fun x => { x with serial := [], failedSerial := [], returned := false, lastRes := false }) (withFailSlot slot s)
    have harray : (eraseReturned slot (withFailSlot slot s)).array = (withFailSlot slot s).array :=
      same_of_alone .array (by apply view_changeSlot <;> rfl)
    exact ⟨_, exec_forgetReturned hf hslot hh, by rw [forget_of_no_drive (s := withFailSlot slot s) hret hd, harray]; rfl,
      by rw [forget_of_no_drive (s := withFailSlot slot s) hret hd]; exact hseq⟩
  case anew =>
    obtain ⟨u, hu⟩ : ∃ u, u = rejoinDrive slot pos d (eraseReturned slot (withFailSlot slot s)) := ⟨_, rfl⟩
    obtain ⟨hstate, hext⟩ := getSlot_rejoinDrive pos d (s := withFailSlot slot s) htag
    have hseq : u.ledger.seq = s.ledger.seq + 2 := by
      rw [hu]
      exact (changeSlot_writes _ _ _ _).2.1.trans (congrArg (· + 1) (changeSlot_writes _ _ _ _).2.1)
    have hforget := forget_of_ready (s := withFailSlot slot s) hret hd hr
    rw [← hu] at hforget hstate hext
    refine ⟨_, exec_forgetReturned hf hslot hh, ?_⟩
    rw [hforget]
    exact ⟨hseq, hstate, hext⟩

end Sys2Proof.Machine

/-! O44: bring-up and the life of a drive. -/

namespace Sys2Proof.Machine

open Sys2Proof

/-! ### Refusals (R402, R403) -/

theorem exec_adminCompletion {pos : Nat} {d : Drive} {s : State} (a : AdminAnswer) (hs : serving s = true)
    (hd : getDrive s pos = some d) : exec (.adminCompletion pos a) s = .next (adminAnswer pos d a s) := by
  simp [exec, execAdminCompletion, hd, hs]

theorem haltDrive_halts {pos : Nat} {d : Drive} {s : State} (st : BringUp) (h : getDrive s pos = some d) :
    getDrive (haltDrive pos st s) pos = some { d with step := st, ccEn := false } := getDrive_modDrive_same _ h

/-- A refusal is shown at its slot with its reason, and leaves the drives (R402, R419). -/
theorem refuseAt_shows {why : Nat} (slot : Nat) (s : State) (h : why ≠ 0) :
    (getStat (refuseAt slot why s) slot).refuse = why ∧ shown (refuseAt slot why s) (0x940 + slot) = true ∧
      (refuseAt slot why s).drives.drives = s.drives.drives := by
  have hne : { getStat s slot with refuse := why } ≠ SlotStat.blank := fun hb => h (congrArg SlotStat.refuse hb)
  refine ⟨?_, shown_raise_same _ _, rfl⟩
  rw [refuseAt, getStat_slotCause slot _ (by decide), getStat_setStat_same slot s hne]

/-- A bring-up step that fails stops the drive, with reason 1 at its slot, or at its position's (R402). -/
theorem refuseDrive_stops {pos : Nat} {d : Drive} {s : State} (hd : getDrive s pos = some d) :
    getDrive (refuseDrive pos 1 s) pos = some { d with step := .stopped, ccEn := false } ∧
      (getStat (refuseDrive pos 1 s) (d.slot.getD (posMap s pos).slot)).refuse = 1 ∧
      shown (refuseDrive pos 1 s) (0x940 + d.slot.getD (posMap s pos).slot) = true := by
  have hrefuse : refuseDrive pos 1 s = refuseAt (d.slot.getD (posMap s pos).slot) 1 (haltDrive pos .stopped s) := by
    simp [refuseDrive, hd]
  obtain ⟨hstat, hshown, hdrives⟩ := refuseAt_shows (why := 1) (d.slot.getD (posMap s pos).slot) (haltDrive pos .stopped s)
    (by decide)
  rw [hrefuse]
  exact ⟨(getDrive_congr hdrives pos).trans (haltDrive_halts _ hd), hstat, hshown⟩

/-- The steps whose failure is refused with 0x1. -/
theorem adminAnswer_failed {pos : Nat} {d : Drive} (s : State)
    (h : d.step = .waitRdy ∨ d.step = .identCtrl ∨ d.step = .cqs ∨ d.step = .sqs ∨ d.step = .smart) :
    adminAnswer pos d .failed s = refuseDrive pos 1 s := by
  rcases h with h | h | h | h | h <;> simp [adminAnswer, h]

/-! ### The last step of a bring-up (R403) -/

/-- A slot that joins keeps its drive, and what is shown. -/
theorem joinSlot_keeps (slot : Nat) (s : State) :
    (joinSlot slot s).drives.drives = s.drives.drives ∧ (joinSlot slot s).events = s.events := by
  unfold joinSlot
  dsimp only
  split
  · exact ⟨rfl, rfl⟩
  · obtain ⟨-, -, hdrives, hevents⟩ := changeSlot_writes slot (fun r => { r with state := joinedState r })
      (fun x => { x with lastRes := false, returned := false }) s
    exact ⟨hdrives, hevents⟩

/-- A drive whose bring-up is complete is ready, and its slot shows it (R403, R419). -/
theorem readyDrive_readies {pos : Nat} {d : Drive} {s : State} (hd : getDrive s pos = some d) :
    (getDrive (readyDrive pos s) pos).map (·.step) = some .ready ∧
      ∀ n, d.slot = some n → shown (readyDrive pos s) (0x940 + n) = true := by
  obtain ⟨s1, hs1⟩ : ∃ t, t = modDrive pos (fun x => { x with step := .ready }) s := ⟨_, rfl⟩
  have hready : getDrive s1 pos = some { d with step := .ready } := by
    rw [hs1]
    exact getDrive_modDrive_same _ hd
  cases hslot : d.slot with
  | none =>
    have hall : readyDrive pos s = s1 := by simp [readyDrive, hd, hslot, hs1]
    rw [hall, hready]
    exact ⟨rfl, fun n hn => absurd hn (by simp)⟩
  | some n =>
    obtain ⟨c, hc⟩ : ∃ t, t = slotCause n 1 (setStat n { getStat s1 n with refuse := 0 } s1) := ⟨_, rfl⟩
    obtain ⟨s2, hs2⟩ : ∃ t, t = joinSlot n c := ⟨_, rfl⟩
    obtain ⟨hdrives, hevents⟩ := joinSlot_keeps n c
    have hall : readyDrive pos s =
        if decides s2 && d.info.label_.isNone && slotServes s2 n then writeLabel n s2 else s2 := by
      simp [readyDrive, hd, hslot, hs1, hs2, hc]
    have hlast : (readyDrive pos s).drives.drives = s2.drives.drives ∧ (readyDrive pos s).events = s2.events := by
      rw [hall]
      split <;> exact ⟨rfl, rfl⟩
    have hdrives' : (readyDrive pos s).drives.drives = s1.drives.drives := by rw [hlast.1, hs2, hdrives, hc]; rfl
    have hevents' : (readyDrive pos s).events = c.events := by rw [hlast.2, hs2, hevents]
    refine ⟨by rw [getDrive_congr hdrives', hready]; rfl, fun m hm => ?_⟩
    obtain rfl := Option.some.inj hm
    refine KeepsShown.of_events hevents' _ ?_
    rw [hc]
    exact shown_raise_same _ _

/-- The SMART log read completes a bring-up. -/
theorem smartAnswer_readies {pos : Nat} {d : Drive} {s : State} (warning used : Nat) (hd : getDrive s pos = some d) :
    (getDrive (readyDrive pos (d.slot.elim s fun n => readSmart n warning used s)) pos).map (·.step) = some .ready ∧
      ∀ n, d.slot = some n →
        shown (readyDrive pos (d.slot.elim s fun n => readSmart n warning used s)) (0x940 + n) = true := by
  refine readyDrive_readies ?_
  cases d.slot with
  | none => exact hd
  | some n => exact (getDrive_congr (readSmart_drives n warning used s) pos).trans hd

/-! ### Completions (R95) -/

/-- Without a trial every completion reaches the device as it is. -/
theorem arrival_of_no_trial {s : State} (d : Sub) (status : Nat) (data : List Byte) (h : s.sampled.trial = none) :
    arrival d status data s = accept d.cid status data s := by
  have hno : trialActs s = none := by simp [trialActs, h]
  simp [arrival, strikeTlp, hno]

/-! ### DRV_POS_MAP (R399, R400) -/

/-- A drive that takes a free slot has it. -/
theorem takeSlot_assigns {pos n : Nat} {d : Drive} {s : State} (hd : getDrive s pos = some d) (hfree : slotDrive s n = none) :
    (getDrive (takeSlot pos n s) pos).bind (·.slot) = some n := by
  obtain ⟨s1, hs1⟩ : ∃ t, t = slotCause n 0 (modDrive pos (fun x => { x with slot := some n }) s) := ⟨_, rfl⟩
  have hslot : getDrive s1 pos = some { d with slot := some n } := by
    rw [hs1]
    exact getDrive_modDrive_same _ hd
  have hstep : ∀ t, t.drives.drives = s1.drives.drives → (getDrive (afterSlot pos t) pos).bind (·.slot) = some n :=
    fun t ht => by
      have ht' : getDrive t pos = some { d with slot := some n } := (getDrive_congr ht pos).trans hslot
      rw [afterSlot, (adminStep_issues _ ht').1]
      rfl
  simp only [takeSlot, hd, hfree, Option.isSome_none, Bool.false_eq_true, if_false, ← hs1]
  refine hstep _ ?_
  split
  · exact (changeSlot_writes _ _ _ _).2.2.1
  · rfl

/-- The drive of a position whose map entry is valid takes the entry's slot. -/
theorem mappedSlot_assigns {pos n : Nat} {d : Drive} {s : State} (hd : getDrive s pos = some d)
    (hmap : posMap s pos = { slot := n, valid := true }) (hfree : slotDrive s n = none) :
    (getDrive (mappedSlot pos s) pos).bind (·.slot) = some n := by
  simp only [mappedSlot, hmap, if_true]
  exact takeSlot_assigns hd hfree

/-- DRV_POS_MAP as a fence holder's write leaves it. -/
def putPosMap (pos : Nat) (m : PosMap) (s : State) : State :=
  { s with drives := { s.drives with posMap := tabPut { slot := pos, valid := true } s.drives.posMap pos m } }

theorem posMap_putPosMap {pos : Nat} {m : PosMap} (s : State) (h : m.slot ≠ pos) : posMap (putPosMap pos m s) pos = m :=
  tabGet_tabPut_same _ _ _ _ (.inl fun hm => h (congrArg PosMap.slot hm))

theorem posMap_modDrive (pos : Nat) (f : Drive → Drive) (s : State) (k : Nat) : posMap (modDrive pos f s) k = posMap s k := by
  rw [posMap, modDrive_drives_posMap, posMap]

/-- A waiting drive, switched on again, takes the slot that its position's entry names. -/
theorem mappedSlot_assigns_waiting {pos n : Nat} {d : Drive} {s : State} {f : Drive → Drive} (hf : ∀ d, (f d).slot = d.slot)
    (hd : getDrive s pos = some d) (hmap : posMap s pos = { slot := n, valid := true }) (hfree : slotDrive s n = none) :
    (getDrive (mappedSlot pos (modDrive pos f s)) pos).bind (·.slot) = some n :=
  mappedSlot_assigns (getDrive_modDrive_same f hd) ((posMap_modDrive pos f s pos).trans hmap) (slotDrive_modDrive_none hf hfree)

/-- DRV_POS_MAP of a position with no drive takes SLOT and VALID, and nothing follows (R399). -/
theorem writePosMap_of_empty {pos : Nat} {w : Word} {s : State} (hh : fenceHolder s = true) (hn : bits w 0 9 < 384)
    (hd : getDrive s pos = none) : writePosMap pos w s = putPosMap pos { slot := bits w 0 9, valid := bit w 9 } s := by
  rw [getDrive] at hd
  simp [writePosMap, hh, hn, getDrive, hd, putPosMap]

/-- An UNASSIGNED drive is switched on again to take the slot that the write names (R399, R400). -/
theorem writePosMap_of_unassigned {pos : Nat} {w : Word} {d : Drive} {s : State} (hh : fenceHolder s = true)
    (hn : bits w 0 9 < 384) (hd : getDrive s pos = some d) (hst : d.step = .unassigned) (hv : bit w 9 = true) :
    writePosMap pos w s = mappedSlot pos (modDrive pos (fun d => { d with ccEn := true })
      (putPosMap pos { slot := bits w 0 9, valid := true } s)) := by
  rw [getDrive] at hd
  simp [writePosMap, hh, hn, getDrive, hd, hst, hv, putPosMap]

/-- A FOREIGN drive that is adopted loses its label and takes the slot that the write names (R399). -/
theorem writePosMap_of_foreign {pos : Nat} {w : Word} {d : Drive} {s : State} (hh : fenceHolder s = true)
    (hn : bits w 0 9 < 384) (hd : getDrive s pos = some d) (hst : d.step = .foreign) (hact : bits w 10 2 = 1)
    (hv : bit w 9 = true) :
    writePosMap pos w s = mappedSlot pos (modDrive pos (fun d => { d with ccEn := true, info := { d.info with label_ := none } })
      (putPosMap pos { slot := bits w 0 9, valid := true } s)) := by
  rw [getDrive] at hd
  simp [writePosMap, hh, hn, getDrive, hd, hst, hact, hv, putPosMap]

/-- The two rows of DRV_POS_MAP write it. -/
theorem exec_posMapRow {i : Instr} {f pos : Nat} {value : Word} {s : State} (hf : pfFull s f = true) (hp : pos < 384)
    (hi : (i = .posMapAdopt f pos value ∧ bits value 10 2 = 1) ∨ (i = .posMapValidSet f pos value ∧ bit value 9 = true))
    (hv : reservedSet (drvMask 0x1000) value = false) : exec i s = .next (writePosMap pos value s) := by
  rcases hi with ⟨rfl, hact⟩ | ⟨rfl, hvalid⟩
  · simp [exec, execPosMapAdopt, hf, hp, hact, rowWrite_of_legitimate (writePosMap pos) s hv]
  · simp [exec, execPosMapValidSet, hf, hp, hvalid, rowWrite_of_legitimate (writePosMap pos) s hv]

/-- Settles O44: each answer of the bring-up, each poll, and DRV_POS_MAP by the drive that waits at the position. -/
theorem driveBringUp : Obligations.DriveBringUp := by
  refine ⟨fun pos d s hs hd => ⟨fun hst => ?rdy, fun hst => ?hostId, fun hst => ?cqs, fun warning used hst => ?smart,
    fun hst => ?failed, fun hst => ?expired, fun hst => ⟨?well, fun n hn hh => ?fatal⟩⟩, fun slot s hs hd => ?refused,
    fun cid status data d s hs hd hnew htrial => ?arrived, fun i f pos value s hf hp hi hv =>
      ⟨fun hh => ?other, fun hh hn hne => ⟨fun hd => ?empty, fun d hd hst hvalid hfree => ?waiting⟩⟩⟩
  case rdy => exact ⟨_, exec_adminCompletion .rdy hs hd, by simpa [adminAnswer, hst] using adminStep_issues .identCtrl hd⟩
  case hostId => exact ⟨_, exec_adminCompletion .ok hs hd, by simpa [adminAnswer, hst] using adminStep_issues .numQueues hd⟩
  case cqs => exact ⟨_, exec_adminCompletion .ok hs hd, by simpa [adminAnswer, hst] using adminStep_issues .sqs hd⟩
  case smart =>
    exact ⟨_, exec_adminCompletion (.smart warning used) hs hd,
      by simpa [adminAnswer, hst] using smartAnswer_readies warning used hd⟩
  case failed =>
    obtain ⟨hstep, hstat, -⟩ := refuseDrive_stops hd
    exact ⟨_, exec_adminCompletion .failed hs hd, by rw [adminAnswer_failed s hst]; exact ⟨hstep, hstat⟩⟩
  case expired => exact ⟨refuseDrive pos 1 s, by simp [exec, execCapToExpiry, hd, hs, hst], refuseDrive_stops hd⟩
  case well =>
    have hpoll : pollCsts d false s = s := by cases hslot : d.slot <;> simp [pollCsts, hslot]
    simp [exec, execCstsPoll, hd, hs, hst, hpoll]
  case fatal => simp [exec, execCstsPoll, hd, hs, hst, pollCsts, hn, hh, wantDeclare]
  case refused =>
    obtain ⟨hshown, hcause⟩ := slotCause_shows slot s (n := 6) (by decide)
    exact ⟨slotCause slot 6 s, by simp [exec, execDriveDmaRefused, hs, hd], hcause, hshown, rfl⟩
  case arrived =>
    have hcid : d.cid = cid := by simpa using List.find?_some hd
    have hno : (s.drives.arrived.any fun a => a.1 == cid) = false := by simpa using hnew
    simp only [exec, execDriveCompletionArrival, hd, hs, hno, Bool.not_false, Bool.and_self, if_true,
      arrival_of_no_trial d status data htrial, accept, hcid]
  case other => rw [exec_posMapRow hf hp hi hv, writePosMap, hh]; rfl
  case empty =>
    exact ⟨_, exec_posMapRow hf hp hi hv, by rw [writePosMap_of_empty hh hn hd]; exact posMap_putPosMap s hne⟩
  case waiting =>
    refine ⟨_, exec_posMapRow hf hp hi hv, ?_⟩
    have hmap : posMap (putPosMap pos { slot := bits value 0 9, valid := true } s) pos =
        { slot := bits value 0 9, valid := true } := posMap_putPosMap s hne
    rcases hst with hst | ⟨hst, hact⟩
    · rw [writePosMap_of_unassigned hh hn hd hst hvalid]
      exact mappedSlot_assigns_waiting (fun _ => rfl) hd hmap hfree
    · rw [writePosMap_of_foreign hh hn hd hst hact hvalid]
      exact mappedSlot_assigns_waiting (fun _ => rfl) hd hmap hfree

end Sys2Proof.Machine

/-! What the proofs of O60, O24 and O22 share: the commands that a row takes, one command changed, and plans. -/

namespace Sys2Proof.Machine

open Sys2Proof

/-! ### Commands at their turn (R150) -/

theorem ready05_eq_some {s : State} {cmd op : Nat} {c : Cmd} (hc : findCmd s cmd = some c) (hp : c.phase = .decoded)
    (ho : c.entry.opcode = op) : ready05 s cmd op = some c := by
  simp [ready05, hc, hp, ho]

theorem seq_of_findCmd {s : State} {cmd : Nat} {c : Cmd} (h : findCmd s cmd = some c) : c.seq = cmd := by
  simpa using List.find?_some h

/-- The rows of VOL_CREATE, VOL_DELETE and VOL_RESIZE try the command that they name (R174). -/
theorem exec_volCommand {i : Instr} {cmd : Nat} {c : Cmd} {s : State} (hs : serving s = true) (hc : findCmd s cmd = some c)
    (hi : (i = .volCreate cmd ∧ c.entry.opcode = 0x40) ∨ (i = .volDelete cmd ∧ c.entry.opcode = 0x41) ∨
      (i = .volResize cmd ∧ c.entry.opcode = 0x42)) : exec i s = .next (tryVolume cmd s) := by
  rcases hi with ⟨rfl, ho⟩ | ⟨rfl, ho⟩ | ⟨rfl, ho⟩
  · simp [exec, execVolCreate, hc, Option.filter_some, ho, hs]
  · simp [exec, execVolDelete, hc, Option.filter_some, ho, hs]
  · simp [exec, execVolResize, hc, Option.filter_some, ho, hs]

/-! ### One command changed -/

theorem findCmd_congr {s t : State} (h : t.host.cmds = s.host.cmds) (n : Nat) : findCmd t n = findCmd s n := by
  rw [findCmd, h, findCmd]

theorem findCmd_modCmd_map {n : Nat} {f : Cmd → Cmd} (s : State) (hf : ∀ x, (f x).seq = x.seq) :
    findCmd (modCmd n f s) n = (findCmd s n).map f := by
  have hseq : ((fun c : Cmd => c.seq == n) ∘ fun c => if c.seq = n then f c else c) = fun c => c.seq == n := by
    funext c
    by_cases h : c.seq = n <;> simp [h, hf]
  simp only [findCmd, modCmd, List.find?_map, hseq]
  cases h : s.host.cmds.find? fun c => c.seq == n with
  | none => rfl
  | some c => simp [show c.seq = n by simpa using List.find?_some h]

theorem findCmd_modCmd {n : Nat} {f : Cmd → Cmd} {c : Cmd} {s : State} (hc : findCmd s n = some c)
    (hf : ∀ x, (f x).seq = x.seq) : findCmd (modCmd n f s) n = some (f c) := by
  rw [findCmd_modCmd_map s hf, hc, Option.map_some]

/-- What holds of some command and does not tell the changed one from what it was holds as before. -/
theorem any_modCmd {n : Nat} {f : Cmd → Cmd} {p : Cmd → Bool} (s : State) (h : ∀ x, x.seq = n → p (f x) = p x) :
    (modCmd n f s).host.cmds.any p = s.host.cmds.any p := by
  simp only [modCmd, List.any_map]
  congr 1
  funext c
  by_cases hc : c.seq = n <;> simp [hc, h]

/-- The entry of a command. -/
def entryOf (s : State) (n : Nat) : Option Entry := (findCmd s n).map (·.entry)

theorem entryOf_eq_some {s : State} {n : Nat} {c : Cmd} (h : findCmd s n = some c) : entryOf s n = some c.entry := by
  simp [entryOf, h]

theorem entryOf_modCmd {n : Nat} {f : Cmd → Cmd} {s : State} (hf : ∀ x, (f x).seq = x.seq)
    (he : ∀ x, (f x).entry = x.entry) : entryOf (modCmd n f s) n = entryOf s n := by
  simp only [entryOf, findCmd_modCmd_map s hf, Option.map_map]
  congr 1
  funext x
  exact he x

/-- What keeps the view of the commands keeps their entries. -/
theorem entryOf_of_view {s t : State} (h : view (alone .cmds) t = view (alone .cmds) s) (n : Nat) :
    entryOf t n = entryOf s n := by
  rw [entryOf, findCmd_congr (same_of_alone .cmds h), entryOf]

/-! ### Plans (R93, R154) -/

theorem getJob_modJob_same {id : Nat} {j : Job} {s : State} (f : Job → Job) (h : getJob s id = some j) :
    getJob (modJob id f s) id = some (f j) := by
  simp only [modJob, h]
  exact tabFind_tabInsert_same _ _ _

theorem getJob_modJob_ne {id k : Nat} (f : Job → Job) (s : State) (h : k ≠ id) : getJob (modJob id f s) k = getJob s k := by
  unfold modJob
  split
  · rfl
  · exact tabFind_tabInsert_ne _ _ h

/-- A plan started stands under the drone's next number with its purpose and what it has. -/
theorem getJob_wantJob_same (p : Purpose) (cls : WorkClass) (zr : Bool) (red : Nat) (want failed : List Nat)
    (got : Tab (List Byte)) (s : State) :
    ∃ j, getJob (wantJob p cls zr red want failed got s).2 s.drone.nextId = some j ∧ j.purpose = p ∧ j.got = got := by
  refine ⟨_, getJob_modJob_same _ (tabFind_tabInsert_same _ _ _), ?_, ?_⟩ <;> rfl

/-- A plan given more work keeps all but what it waits for. -/
theorem getJob_moreWork_same {id : Nat} {j : Job} {s : State} (ws : List Work) (h : getJob s id = some j) :
    getJob (moreWork id ws s) id = some { j with left := j.left + ws.length } := by
  simp only [moreWork, h]
  exact getJob_modJob_same _ h

theorem findCmd_wantJob (p : Purpose) (cls : WorkClass) (zr : Bool) (red : Nat) (want failed : List Nat)
    (got : Tab (List Byte)) (s : State) (n : Nat) : findCmd (wantJob p cls zr red want failed got s).2 n = findCmd s n :=
  findCmd_congr (same_of_alone .cmds (view_wantJob _ _ _ _ _ _ _ _ rfl rfl)) n

end Sys2Proof.Machine

/-! O60: each row whose condition holds answers the state of its operation. -/

namespace Sys2Proof.Machine

open Sys2Proof

/-! ### Host commands (R165, R166) -/

/-- WRITE_ZEROES and DEALLOCATE are tried on the cache. -/
theorem exec_zeroing {i : Instr} {cmd : Nat} {c : Cmd} {s : State} (hs : serving s = true) (hc : findCmd s cmd = some c)
    (hp : c.phase = .decoded)
    (hi : (i = .writeZeroes cmd ∧ c.entry.opcode = 3) ∨ (i = .deallocate cmd ∧ c.entry.opcode = 4)) :
    exec i s = .next (tryWrite cmd s) := by
  rcases hi with ⟨rfl, ho⟩ | ⟨rfl, ho⟩
  · simp [exec, execWriteZeroes, ready05_eq_some hc hp ho, hs, seq_of_findCmd hc]
  · simp [exec, execDeallocate, ready05_eq_some hc hp ho, hs, seq_of_findCmd hc]

theorem exec_flush {cmd : Nat} {c : Cmd} {s : State} (hs : serving s = true) (hc : findCmd s cmd = some c)
    (hp : c.phase = .decoded) (ho : c.entry.opcode = 5) : exec (.flush cmd) s = .next (flushVol cmd s) := by
  simp [exec, execFlush, ready05_eq_some hc hp ho, hs]

/-! ### The page of a miss (R283) -/

theorem exec_pageMissRead {vol page copy : Nat} {s : State} (hs : serving s = true) :
    (copyArrived (parcelKey vol page) copy s = false →
      exec (.pageMissRead vol page copy) s = .next (pageArrived (parcelKey vol page) s)) ∧
    ∀ id j, copyArrived (parcelKey vol page) copy s = true → pageJob s (parcelKey vol page) = some (id, j) →
      exec (.pageMissRead vol page copy) s = .next (pageRead (parcelKey vol page) (cancelJob id s)) :=
  ⟨fun h => by simp [exec, execPageMissRead, hs, h], fun id j h hj => by simp [exec, execPageMissRead, hs, h, hj]⟩

/-! ### Registers that a row writes (R286, R307, R308, R312, R391, R518) -/

theorem exec_plcPgSelWrite {f : Nat} {w : Word} {s : State} (hf : pfSeen s f = true)
    (hw : reservedSet (plcMask 0x40) w = false) : exec (.plcPgSelWrite f w) s = .next (writePgSel w s) := by
  simp [exec, execPlcPgSelWrite, hf, rowWrite_of_legitimate writePgSel s hw]

theorem exec_plcLostSelWrite {f : Nat} {w : Word} {s : State} (hf : pfSeen s f = true)
    (hw : reservedSet (plcMask 0x4028) w = false) (hh : fenceHolder s = true) :
    exec (.plcLostSelWrite f w) s = .next (writeLostSel w s) := by
  simp [exec, execPlcLostSelWrite, hf, hh, rowWrite_of_legitimate writeLostSel s hw]

theorem exec_evtLogSelWrite {f : Nat} {w : Word} {s : State} (hf : pfSeen s f = true)
    (hw : reservedSet (evtMask 0x408) w = false) : exec (.evtLogSelWrite f w) s = .next (selectLog (bits w 0 32) s) := by
  simp [exec, execEvtLogSelWrite, hf, rowWrite_of_legitimate (fun v => selectLog (bits v 0 32)) s hw]

/-- The three rows of SMC_PRELOAD write it. -/
theorem exec_preloadRow {i : Instr} {f : Nat} {w : Word} {s : State} (hf : pfFull s f = true)
    (hw : reservedSet (smcMask 0x18) w = false) (hgo : bit w 0 = true)
    (hi : (i = .smcPreload f w ∧ bits w 1 2 = 0) ∨ (i = .smcPreloadLock f w ∧ bits w 1 2 = 1) ∨
      (i = .smcUnlock f w ∧ bits w 1 2 = 2)) : exec i s = .next (writePreload f w s) := by
  have hrow := rowWrite_of_legitimate (writePreload f) s hw
  rcases hi with ⟨rfl, hop⟩ | ⟨rfl, hop⟩ | ⟨rfl, hop⟩
  · simp [exec, execSmcPreload, hf, hgo, hop, hrow]
  · simp [exec, execSmcPreloadLock, hf, hgo, hop, hrow]
  · simp [exec, execSmcUnlock, hf, hgo, hop, hrow]

/-! ### Rebuild (R374) and scrub (R385) -/

theorem exec_rebuildParcelStart {k : Nat} {s : State} (hs : serving s = true) (hh : fenceHolder s = true)
    (hd : dumping s = false) (hr : restoreEnded s = true) (hroom : s.array.active.length < s.array.parallel)
    (hk : nextParcel s = some k) : exec .rebuildParcelStart s = .next (noteQueue (startParcel k s)) := by
  simp [exec, execRebuildParcelStart, hs, hh, hd, hr, hroom, hk]

theorem exec_scrubCheckDone {vol parcel stripe id : Nat} {j : Job} {s : State} (hs : serving s = true)
    (hj : s.jobs.find? (fun p => p.2.left == 0 && p.2.purpose == .scrubCheck (stripeKey (parcelKey vol parcel) stripe)) =
      some (id, j)) :
    exec (.scrubCheckDone vol parcel stripe) s = .next (endCheck id (stripeKey (parcelKey vol parcel) stripe) s) := by
  simp [exec, execScrubCheckDone, hs, hj]

/-! ### The pair (R454, R469, R471, R472) -/

/-- A retrain that is late, a link that goes down and silence for 100 µs each lose the link. -/
theorem exec_linkLost {i : Instr} {s : State} (hm : mgmtUp s = true)
    (hi : (i = .retrainTimeout ∧ s.pair.link.training = true ∧ s.pair.link.l0At + 2000000 ≤ s.clock) ∨
      (i = .epgLinkDown ∧ linkLive s = true) ∨
      (i = .flitSilenceTimeout ∧ s.pair.link.l0 = true ∧ s.pair.link.lastFlit + 100000 ≤ s.clock)) :
    exec i s = .next (declareLoss s) := by
  rcases hi with ⟨rfl, htrain, hlate⟩ | ⟨rfl, hlive⟩ | ⟨rfl, hl0, hlate⟩
  · simp [exec, execRetrainTimeout, hm, htrain, hlate]
  · simp [exec, execEpgLinkDown, hm, hlive]
  · simp [exec, execFlitSilenceTimeout, hm, hl0, hlate]

theorem exec_postRoundDurable {r : Round} {s : State} (hs : serving s = true) (hu : s.pair.claim.unit = .active)
    (hr : s.pair.rounds.find? (fun r => !r.noted && decide (postMajority s ≤ r.done)) = some r) :
    exec .postRoundDurable s = .next (roundDurable r s) := by
  simp [exec, execPostRoundDurable, roundStep, hr, hs, hu]

/-! ### O60 -/

/-- Settles O60: each row's condition is its premise. -/
theorem commandsTakeEffect : Obligations.CommandsTakeEffect := by
  refine ⟨fun cmd c s hs hc => ⟨fun hp ho => exec_zeroing hs hc hp (.inl ⟨rfl, ho⟩),
      fun hp ho => exec_zeroing hs hc hp (.inr ⟨rfl, ho⟩), fun hp ho => exec_flush hs hc hp ho,
      fun ho => exec_volCommand hs hc (.inl ⟨rfl, ho⟩), fun ho => exec_volCommand hs hc (.inr (.inl ⟨rfl, ho⟩)),
      fun ho => exec_volCommand hs hc (.inr (.inr ⟨rfl, ho⟩))⟩,
    fun f ch s ho => ⟨fun hst => ?start, fun hst => ?abort⟩, fun f off width w s => ⟨?bar0, fun hb => ?bar2⟩,
    fun s hd => ?snapshot, fun s hs hh hd => ?checkpoint, fun n s hs hn hst => ?ckptEnd,
    fun vol page copy s hs => exec_pageMissRead hs, fun s hs htier => ?tier,
    fun f w s hf => ⟨exec_plcPgSelWrite hf, exec_plcLostSelWrite hf, exec_evtLogSelWrite hf, ?hltSnap⟩,
    fun f w s hf hw hgo => ⟨fun hop => exec_preloadRow hf hw hgo (.inl ⟨rfl, hop⟩),
      fun hop => exec_preloadRow hf hw hgo (.inr (.inl ⟨rfl, hop⟩)),
      fun hop => exec_preloadRow hf hw hgo (.inr (.inr ⟨rfl, hop⟩))⟩,
    fun f pos w s hf hpos hw => ⟨fun hact => exec_posMapRow hf hpos (.inl ⟨rfl, hact⟩) hw,
      fun hv => exec_posMapRow hf hpos (.inr ⟨rfl, hv⟩) hw⟩,
    fun stripe i s hd hi hn => ?destage, fun stripe s hs hd => ?retire,
    fun k s hs hh hd hr hroom hk => exec_rebuildParcelStart hs hh hd hr hroom hk, fun vol parcel s hs => ?stripeDone,
    fun s hs hh hd hr hb => ?scrub, fun vol parcel stripe id j s hs hj => exec_scrubCheckDone hs hj,
    fun x s hs hx hl => ?behind,
    fun s hm => ⟨fun ht hl => exec_linkLost hm (.inl ⟨rfl, ht, hl⟩), fun hl => exec_linkLost hm (.inr (.inl ⟨rfl, hl⟩)),
      fun h0 hl => exec_linkLost hm (.inr (.inr ⟨rfl, h0, hl⟩)), fun ms => ?aging, fun place loc => ?ue⟩,
    fun s hs hu hmir => ⟨fun hph hack => ?digest, fun hl hack => ?ack⟩,
    fun s hd => ?round, fun r s hs hu hr => exec_postRoundDurable hs hu hr, fun s hd => ?posts,
    fun s ht => ⟨fun found => ?sram, fun pc rows ue done => ?hbm, fun g pct => ?phy⟩⟩
  case start => simp [exec, execDmaStart, ho, hst]
  case abort => simp [exec, execFaultActAbort, ho, hst]
  case bar0 => simp [exec, execRegisterWrite]
  case bar2 => simp [exec, execRegisterWrite, hb]
  case snapshot => simp [exec, execPlacementSnapshot, hd]
  case checkpoint => simp [exec, execCheckpointStart, hs, hh, hd]
  case ckptEnd => simp [exec, execPlcCkpt, ckptOver, hn, hs, hst]
  case tier => simp [exec, execTierHighWatermark, hs, htier]
  case hltSnap => simp [exec, execHltSnapWrite, hf]
  case destage => simp [exec, execDestagePlan, hd, hi, hn]
  case retire => simp [exec, execIntentRetire, hs, hd]
  case stripeDone => simp [exec, execRebuildStripeDone, hs]
  case scrub => simp [exec, execScrubStripeStart, hs, hh, hd, hr, hb]
  case behind => simp [exec, execScrubBehind, hs, hx, hl]
  case aging => simp [exec, execAgingMeasure, hm]
  case ue => simp [exec, execEccUncorrectable, hm]
  case digest => exact exec_dropPartner hs hu hmir (.inl ⟨rfl, hph, hack⟩)
  case ack => exact exec_dropPartner hs hu hmir (.inr ⟨rfl, hl, hack⟩)
  case round => simp [exec, execRelayPostRound, hd]
  case posts => simp [exec, execPostRead, readStep, hd]
  case sram => simp [exec, execSramPatrol, ht]
  case hbm => simp [exec, execHbmPatrol, ht]
  case phy => simp [exec, execPhyMarginMeasure, ht]

end Sys2Proof.Machine

/-! O24: volume commands. VOLUME records read back; what keeps the volume table and the entries of the commands; the effect of a
volume command, its refusal and its end; the plan of a VOL_QUERY. -/

namespace Sys2Proof.Machine

open Sys2Proof

/-! ### VOLUME records (R168, R173, R281) -/

/-- A volume is read back from its record, each field of one byte modulo 256. -/
theorem parseVol_volBytes {v : Volume} (h0 : 0 < v.size) (h : v.size < 2 ^ 64) :
    parseVol (volBytes (some v)) = some { v with
      family := v.family % 256, k := v.k % 256, m := v.m % 256, stripLog := v.stripLog % 256, piBytes := v.piBytes % 256
      fdLevel := v.fdLevel % 256, fdMin := v.fdMin % 256, owner := v.owner % 256 } := by
  obtain ⟨tail, htail⟩ : ∃ l, l = leBytes 1 v.family ++ leBytes 1 v.k ++ leBytes 1 v.m ++ leBytes 1 v.stripLog ++
      leBytes 1 v.piBytes ++ leBytes 1 v.fdLevel ++ leBytes 1 v.fdMin ++ leBytes 1 v.state.code ++ leBytes 1 v.owner :=
    ⟨_, rfl⟩
  have hbytes : volBytes (some v) = leBytes 8 v.size ++ tail := by simp only [volBytes, htail, List.append_assoc]
  have hsize : field (volBytes (some v)) 0 8 = v.size := by
    rw [hbytes]
    simpa using field_append [] tail 8 v.size h
  have hfield : ∀ n, field (volBytes (some v)) (8 + n) 1 = field tail n 1 := fun n => by
    rw [hbytes, field, field, slice, slice, List.drop_append, List.drop_of_length_le (by simp)]
    simp
  have hne : v.size ≠ 0 := by omega
  simp only [parseVol, hsize, hne, if_false, hfield 0, hfield 1, hfield 2, hfield 3, hfield 4, hfield 5, hfield 6, hfield 7,
    hfield 8]
  simp only [htail, field, slice, leBytes, List.cons_append, List.nil_append, List.drop, takePad, leNat, BitVec.toNat_ofNat]
  cases v.state <;> rfl

theorem field_byte_lt (bs : List Byte) (off : Nat) : field bs off 1 < 256 := by
  have h : ∀ l : List Byte, l.length = 1 → leNat l < 256 := fun l hl => by
    obtain ⟨b, rfl⟩ := List.length_eq_one_iff.mp hl
    simpa [leNat] using b.isLt
  exact h _ (length_slice bs off 1)

/-- The volume that a VOL_CREATE describes is read back as it is. -/
theorem parseVol_newVolume {e : Entry} (h : e.lba < 2 ^ 48) : parseVol (volBytes (some (newVolume e))) = some (newVolume e) := by
  rw [parseVol_volBytes (show 0 < e.lba + 1 by omega) (show e.lba + 1 < 2 ^ 64 by omega)]
  simp [newVolume, Nat.mod_eq_of_lt, field_byte_lt]

theorem getVol_congr {s t : State} (h : t.host.volumes = s.host.volumes) (n : Nat) : getVol t n = getVol s n := by
  rw [getVol, h, getVol]

/-- A change of the volume table leaves the volume that its record says. -/
theorem getVol_changeVol {n : Nat} {v x : Volume} {s : State} (h : parseVol (volBytes (some v)) = some x) :
    getVol (changeVol n (some v) s) n = some x := by
  have hlog : ∀ r t, (logRec r t).host.volumes = t.host.volumes := fun r t =>
    same_of_alone .volumes (by apply view_logRec <;> rfl)
  simp only [getVol, changeVol, ledgerChange, hlog, applyRec, h, applyVolume]
  exact tabFind_tabInsert_same _ _ _

theorem changeVol_keeps_size_state {v : Volume} (n : Nat) (s : State) (h0 : 0 < v.size) (h : v.size < 2 ^ 64) :
    ∃ x, getVol (changeVol n (some v) s) n = some x ∧ x.size = v.size ∧ x.state = v.state :=
  ⟨_, getVol_changeVol (parseVol_volBytes h0 h), rfl, rfl⟩

/-! ### What keeps the volume table (R170) -/

theorem view_zeroMask_volumes (k : Nat) (f : LEntry → LEntry) (extra : List Byte) (s : State) :
    view (alone .volumes) (changeEntry .zeroMask k f extra s) = view (alone .volumes) s := by
  simp [changeEntry, ledgerChange, applyRec]

theorem view_zeroFrom_volumes (v : Volume) (n : Nat) (s : State) (k : Nat) :
    view (alone .volumes) (zeroFrom v n s k) = view (alone .volumes) s := by
  simp [zeroFrom, view_zeroMask_volumes]

theorem view_setGroups_volumes (v : Volume) (e : Entry) (s : State) (k : Nat) :
    view (alone .volumes) (setGroups v e s k) = view (alone .volumes) s := by
  have hdiscard : ∀ gs : List Nat, view (alone .volumes) (gs.foldl (fun t g => (List.range 8).foldl (fun t j =>
      discardBlocks (stripeKey k (8 * g + j)) 0 v.stripe t) t) s) = view (alone .volumes) s := fun gs =>
    view_foldl _ _ _ fun t g => by simp
  simp [setGroups, view_zeroMask_volumes, hdiscard]

theorem view_enterCmd_volumes (c : Cmd) (v : Volume) (got : Tab (List Byte)) (big : Bool) (s : State) :
    view (alone .volumes) (enterCmd c v got big s) = view (alone .volumes) s := by
  unfold enterCmd
  dsimp only
  rw [view_modCmd _ _ _ rfl rfl, view_foldl_snd _ _ _ fun a key => by simp]
  simp [view_setGroups_volumes]

theorem view_runRemoval_volumes (c : Cmd) (v : Volume) (n : Nat) (s : State) :
    view (alone .volumes) (runRemoval c v n s) = view (alone .volumes) s := by
  simp [runRemoval, view_zeroFrom_volumes]

theorem view_runGrow_volumes (c : Cmd) (v : Volume) (s : State) :
    view (alone .volumes) (runGrow c v s) = view (alone .volumes) s := by
  unfold runGrow
  dsimp only
  split
  · simp
  · split
    · simp [view_zeroFrom_volumes]
    · split <;> simp [view_enterCmd_volumes, view_zeroFrom_volumes]

/-- A volume command that goes on leaves the volume table: it changed when the command took effect. -/
theorem runVolume_volumes (seq : Nat) (s : State) : (runVolume seq s).host.volumes = s.host.volumes := by
  refine same_of_alone .volumes ?_
  unfold runVolume
  split
  · rfl
  · split
    · rfl
    · split
      · exact view_runRemoval_volumes ..
      · simp [view_runRemoval_volumes, view_runGrow_volumes]
      · simp
      · simp

/-! ### Work that goes on keeps the command's entry -/

theorem entryOf_volDone (n : Nat) (s : State) : entryOf (volDone n s) n = entryOf s n :=
  entryOf_modCmd (fun _ => rfl) fun _ => rfl

theorem entryOf_enterCmd (c : Cmd) (v : Volume) (got : Tab (List Byte)) (big : Bool) (s : State) :
    entryOf (enterCmd c v got big s) c.seq = entryOf s c.seq := by
  unfold enterCmd
  dsimp only
  refine Eq.trans (entryOf_modCmd (fun _ => rfl) fun _ => rfl) (entryOf_of_view ?_ _)
  rw [view_foldl_snd _ _ _ fun a key => by simp]
  simp

theorem entryOf_runRemoval (c : Cmd) (v : Volume) (n : Nat) (s : State) :
    entryOf (runRemoval c v n s) c.seq = entryOf s c.seq := by
  unfold runRemoval
  extract_lets s1 keep s2
  have h1 : view (alone .cmds) s1 = view (alone .cmds) s := by simp [s1]
  have h2 : view (alone .cmds) s2 = view (alone .cmds) s := by simp [s2, h1]
  split
  · rfl
  · split
    · exact entryOf_of_view h1 _
    · split
      · exact entryOf_of_view h1 _
      · rw [entryOf_volDone]
        exact entryOf_of_view (by simp [h2]) _

theorem entryOf_runGrow (c : Cmd) (v : Volume) (s : State) : entryOf (runGrow c v s) c.seq = entryOf s c.seq := by
  unfold runGrow
  extract_lets s1 d
  have h1 : view (alone .cmds) s1 = view (alone .cmds) s := by simp [s1]
  split
  · exact entryOf_modCmd (fun _ => rfl) fun _ => rfl
  · split
    · rw [entryOf_volDone]
      exact entryOf_of_view h1 _
    · split
      · exact entryOf_of_view (by simp [h1]) _
      · exact (entryOf_enterCmd d v [] _ s1).trans (entryOf_of_view h1 _)

theorem entryOf_runQuery (c : Cmd) (s : State) : entryOf (runQuery c s) c.seq = entryOf s c.seq := by
  unfold runQuery
  split
  · refine Eq.trans (entryOf_of_view (view_moreWork _ _ _ rfl rfl) _) ?_
    exact Eq.trans (entryOf_modCmd (fun _ => rfl) fun _ => rfl) (entryOf_of_view (by simp) _)
  · rfl

theorem entryOf_runVolume (n : Nat) (s : State) : entryOf (runVolume n s) n = entryOf s n := by
  unfold runVolume
  split
  · rfl
  next c hc =>
    obtain rfl := seq_of_findCmd hc
    split
    · rfl
    · split
      · exact entryOf_runRemoval ..
      · dsimp only
        split
        · exact entryOf_runRemoval ..
        · exact entryOf_runGrow ..
      · exact entryOf_runQuery ..
      · exact entryOf_volDone ..

/-! ### Ends (R159, R176) -/

theorem finishCmd_volumes (n st : Nat) (res : Word) (s : State) :
    (finishCmd n st res s).host.volumes = s.host.volumes :=
  same_of_alone .volumes (by simp)

theorem findCmd_finishCmd {n : Nat} {c : Cmd} {s : State} (st : Nat) (res : Word) (hc : findCmd s n = some c)
    (hp : c.phase.result?.isNone = true) (hd : c.discard = false) :
    findCmd (finishCmd n st res s) n = some { c with phase := .finished st res } := by
  have hopen : c.phase.result?.isSome = false := by simpa using hp
  simp only [finishCmd, hc, hopen, hd, Bool.false_eq_true, if_false]
  have hfind : findCmd { s with host := { s.host with finish := s.host.finish ++ [n] } } n = some c := hc
  exact hd ▸ findCmd_modCmd hfind fun _ => rfl

/-- A volume command without a verdict has not ended. -/
theorem endVolume_of_open {n : Nat} {c : Cmd} {s : State} (hc : findCmd s n = some c) (hv : c.verdict = none) :
    endVolume n s = s := by
  simp [endVolume, hc, hv]

/-- The end of a command that deletes no volume leaves the volume table. -/
theorem endVolume_volumes {n : Nat} {c : Cmd} {s : State} (hc : findCmd s n = some c)
    (h : c.entry.opcode ≠ 0x41 ∨ ∀ v, c.verdict = some v → v.1 ≠ 0) :
    (endVolume n s).host.volumes = s.host.volumes := by
  simp only [endVolume, hc]
  split
  · rfl
  next v hv =>
    split
    · rfl
    · rw [if_neg (by rintro ⟨ho, h0⟩; exact h.elim (· ho) (· v hv h0)), finishCmd_volumes]

/-- A refused command keeps its verdict, and ends with it as soon as nothing holds its end (R169, R174). -/
theorem endVolume_refused {n : Nat} {c : Cmd} {w : Word} {s : State} (hc : findCmd s n = some c)
    (hp : c.phase.result?.isNone = true) (hv : c.verdict = some (1, w)) (hd : c.discard = false) :
    ∃ d, findCmd (endVolume n s) n = some d ∧ d.verdict = some (1, w) ∧
      (earlierVolCmd s c = false → c.lseq = 0 → c.roots = [] → c.jseq = 0 → s.pair.mirrored = false →
        ledgerDurable s 0 = true → d.phase = .finished 1 w) := by
  have hopen : c.phase.result?.isSome = false := by simpa using hp
  simp only [endVolume, hc, hv, hopen]
  split
  case isTrue hheld =>
    refine ⟨c, hc, hv, fun he hl hr hj hm hdur => ?_⟩
    simp [he, hl, hr, hj, hm, hdur] at hheld
  case isFalse =>
    rw [if_neg (by simp)]
    exact ⟨_, findCmd_finishCmd 1 w hc hp hd, hv, fun _ _ _ _ _ _ => rfl⟩

/-! ### Effect (R168 to R172) -/

/-- A refused command with its verdict (R169). -/
def Cmd.refuse (r : Nat) (c : Cmd) : Cmd := { c with parts := 1, verdict := some (1, BitVec.ofNat 64 r) }

/-- What taking effect notes of a command `c` that meets the state `s` (R170, R173): the volume's size and record as they
were, and the ledger as the effect leaves it. -/
def Cmd.take (c : Cmd) (s : State) (x : Cmd) : Cmd :=
  { x with
    parts := 1, oldSize := ((getVol s c.entry.volume).map (·.size)).getD 0, lseq := (volEffect c.entry s).ledger.seq
    record := ((getVol s c.entry.volume).map (volRecord s c.entry.volume)).getD [] }

theorem takeEffect_refused {c : Cmd} {r : Nat} {s : State} (hp : c.parts = 0) (he : effectHeld s c = false)
    (hr : volRefusal s c = some r) : takeEffect c s = modCmd c.seq (Cmd.refuse r) s := by
  simp only [takeEffect, hp, he, hr]
  rfl

theorem takeEffect_accepted {c : Cmd} {s : State} (hp : c.parts = 0) (he : effectHeld s c = false)
    (hr : volRefusal s c = none) : takeEffect c s = modCmd c.seq (c.take s) (volEffect c.entry s) := by
  simp only [takeEffect, hp, he, hr]
  rfl

theorem takeEffect_of_taken {c : Cmd} {s : State} (h : c.parts ≠ 0) : takeEffect c s = s := by
  simp [takeEffect, h]

/-- A volume command that is not refused takes effect: its volume and what it notes; the other commands stay. -/
theorem takeEffect_takes {c : Cmd} {s : State} (hc : findCmd s c.seq = some c) (hp : c.parts = 0)
    (he : effectHeld s c = false) (hr : volRefusal s c = none) :
    findCmd (takeEffect c s) c.seq = some (c.take s c) ∧
      (takeEffect c s).host.volumes = (volEffect c.entry s).host.volumes ∧
      ∀ n, earlierData (takeEffect c s) (c.take s c) n = earlierData s c n := by
  have hcmds : (volEffect c.entry s).host.cmds = s.host.cmds := same_of_alone .cmds (by simp)
  rw [takeEffect_accepted hp he hr]
  refine ⟨findCmd_modCmd ((findCmd_congr hcmds _).trans hc) fun _ => rfl, rfl, fun n => ?_⟩
  refine (any_modCmd _ fun x hx => ?_).trans (by rw [hcmds]; rfl)
  simp [Cmd.take, hx]

/-- A VOL_CREATE makes the volume that it describes (R168). -/
theorem getVol_volEffect_create {e : Entry} (s : State) (ho : e.opcode = 0x40) (hl : e.lba < 2 ^ 48) :
    getVol (volEffect e s) e.volume = some (newVolume e) := by
  simp only [volEffect, ho]
  exact getVol_changeVol (parseVol_newVolume hl)

/-- A VOL_DELETE marks its volume DELETING (R171). -/
theorem getVol_volEffect_delete {e : Entry} {v : Volume} {s : State} (ho : e.opcode = 0x41) (hv : getVol s e.volume = some v)
    (h0 : 0 < v.size) (h : v.size < 2 ^ 48) : (getVol (volEffect e s) e.volume).map (·.state) = some .deleting := by
  obtain ⟨x, hx, -, hstate⟩ := changeVol_keeps_size_state (v := { v with state := .deleting }) e.volume s h0
    (Nat.lt_trans h (by decide))
  simp only [volEffect, ho, hv, hx, Option.map_some, hstate]

/-- A VOL_RESIZE gives its volume the new size (R172). -/
theorem getVol_volEffect_resize {e : Entry} {v : Volume} {s : State} (ho : e.opcode = 0x42) (hv : getVol s e.volume = some v)
    (hl : e.lba < 2 ^ 48) : (getVol (volEffect e s) e.volume).map (·.size) = some (e.lba + 1) := by
  have hlost : ∀ a n (t : State), getVol (removeLost e.volume a n t) e.volume = getVol t e.volume := fun a n t =>
    getVol_congr (same_of_alone .volumes (by simp)) _
  obtain ⟨x, hx, hsize, -⟩ := changeVol_keeps_size_state (v := { v with size := e.lba + 1 }) e.volume s (Nat.succ_pos _)
    (show e.lba + 1 < 2 ^ 64 by omega)
  simp only [volEffect, ho, hv, hlost, hx, Option.map_some, hsize]

/-- A volume command that is not refused, and creates none, has its volume (R169). -/
theorem getVol_of_not_refused {c : Cmd} {s : State} (hr : volRefusal s c = none) (ho : c.entry.opcode ≠ 0x40) :
    ∃ v, getVol s c.entry.volume = some v := by
  cases hv : getVol s c.entry.volume with
  | some v => exact ⟨v, rfl⟩
  | none => simp [volRefusal, ho, volMine, hv] at hr

/-! ### The turn of a volume command (R174) -/

theorem tryVolume_of_open {n : Nat} {c : Cmd} {s : State} (hc : findCmd s n = some c) (hp : c.phase.result?.isNone = true) :
    tryVolume n s = endVolume n (runVolume n (takeEffect c s)) := by
  simp only [tryVolume, hc, Option.filter_some, hp, if_true]

theorem runVolume_of_verdict {n : Nat} {c : Cmd} {s : State} (hc : findCmd s n = some c) (hv : c.verdict.isSome = true) :
    runVolume n s = s := by
  simp [runVolume, hc, hv]

/-- A VOL_DELETE waits while earlier commands on its volume run (R171). -/
theorem runVolume_of_earlier {n : Nat} {c : Cmd} {s : State} (hc : findCmd s n = some c) (ho : c.entry.opcode = 0x41)
    (hv : (getVol s c.entry.volume).isSome = true) (he : earlierData s c 0 = true) : runVolume n s = s := by
  obtain ⟨v, hv⟩ := Option.isSome_iff_exists.mp hv
  simp [runVolume, hc, ho, hv, runRemoval, he]

/-- A volume command refused at its turn leaves the volume table and keeps its verdict. -/
theorem tryVolume_refused {n r : Nat} {c : Cmd} {s : State} (hc : findCmd s n = some c) (hp : c.phase.result?.isNone = true)
    (h0 : c.parts = 0) (he : effectHeld s c = false) (hr : volRefusal s c = some r) :
    (tryVolume n s).host.volumes = s.host.volumes ∧ (c.discard = false →
      ∃ d, findCmd (tryVolume n s) n = some d ∧ d.verdict = some (1, BitVec.ofNat 64 r) ∧
        (earlierVolCmd s c = false → c.lseq = 0 → c.roots = [] → c.jseq = 0 → s.pair.mirrored = false →
          ledgerDurable s 0 = true → d.phase = .finished 1 (BitVec.ofNat 64 r))) := by
  obtain rfl := seq_of_findCmd hc
  have hc1 : findCmd (modCmd c.seq (Cmd.refuse r) s) c.seq = some (c.refuse r) := findCmd_modCmd hc fun _ => rfl
  have hstep : tryVolume c.seq s = endVolume c.seq (modCmd c.seq (Cmd.refuse r) s) := by
    rw [tryVolume_of_open hc hp, takeEffect_refused h0 he hr, runVolume_of_verdict hc1 rfl]
  have hearlier : earlierVolCmd (modCmd c.seq (Cmd.refuse r) s) (c.refuse r) = earlierVolCmd s c :=
    any_modCmd s fun x hx => by simp [Cmd.refuse, hx]
  rw [hstep]
  refine ⟨(endVolume_volumes hc1 (.inr fun v hv => ?_)).trans rfl, fun hd => ?_⟩
  · cases hv
    exact Nat.one_ne_zero
  · obtain ⟨d, hfind, hv, hend⟩ := endVolume_refused hc1 hp rfl hd
    exact ⟨d, hfind, hv, fun h1 => hend (hearlier.trans h1)⟩

/-- A volume command that takes effect leaves its volume as the effect does, unless it has deleted it. -/
theorem getVol_tryVolume_of_effect {n : Nat} {c : Cmd} {s : State} (hc : findCmd s n = some c)
    (hp : c.phase.result?.isNone = true) (h0 : c.parts = 0) (he : effectHeld s c = false) (hr : volRefusal s c = none)
    (ho : c.entry.opcode ≠ 0x41) (k : Nat) : getVol (tryVolume n s) k = getVol (volEffect c.entry s) k := by
  obtain rfl := seq_of_findCmd hc
  obtain ⟨htaken, hvols, -⟩ := takeEffect_takes hc h0 he hr
  obtain ⟨d, hd, hentry⟩ := Option.map_eq_some_iff.mp ((entryOf_runVolume ..).trans (entryOf_eq_some htaken))
  have hopcode : d.entry.opcode ≠ 0x41 := by rwa [hentry]
  rw [tryVolume_of_open hc hp]
  exact getVol_congr ((endVolume_volumes hd (.inl hopcode)).trans ((runVolume_volumes ..).trans hvols)) k

/-- A VOL_DELETE behind commands that still run leaves its volume DELETING (R171). -/
theorem tryVolume_deletes {n : Nat} {c : Cmd} {v : Volume} {s : State} (hc : findCmd s n = some c)
    (hp : c.phase.result?.isNone = true) (h0 : c.parts = 0) (he : effectHeld s c = false) (hr : volRefusal s c = none)
    (hv : c.verdict = none) (ho : c.entry.opcode = 0x41) (hvol : getVol s c.entry.volume = some v) (hpos : 0 < v.size)
    (hlt : v.size < 2 ^ 48) (hearlier : earlierData s c 0 = true) :
    (getVol (tryVolume n s) c.entry.volume).map (·.state) = some .deleting := by
  obtain rfl := seq_of_findCmd hc
  obtain ⟨htaken, hvols, hdata⟩ := takeEffect_takes hc h0 he hr
  have hdeleting := getVol_volEffect_delete ho hvol hpos hlt
  have hsome : (getVol (takeEffect c s) c.entry.volume).isSome = true := by
    rw [getVol_congr hvols, ← Option.isSome_map (f := (·.state)), hdeleting]
    rfl
  rw [tryVolume_of_open hc hp, runVolume_of_earlier htaken ho hsome ((hdata 0).trans hearlier), endVolume_of_open htaken hv,
    getVol_congr hvols, hdeleting]

/-! ### VOL_QUERY (R173) -/

/-- A VOL_QUERY that goes on runs under a plan that moves its record. -/
theorem runVolume_query {n : Nat} {c : Cmd} {s : State} (hc : findCmd s n = some c) (ho : c.entry.opcode = 0x43)
    (h0 : c.parts ≠ 0) (hv : c.verdict = none) (hp : c.phase = .waiting) :
    findCmd (runVolume n s) n = some { c with phase := .running } ∧
      ∃ p ∈ (runVolume n s).jobs, p.2.purpose = .hostOut n ∧ p.2.got = [(0, c.record)] := by
  obtain rfl := seq_of_findCmd hc
  have hstep : runVolume c.seq s = runQuery c s := by simp [runVolume, hc, ho, h0, hv]
  obtain ⟨j, hj, hpurpose, hgot⟩ :=
    getJob_wantJob_same (.hostOut c.seq) .foreground false 0 [] [] [(0, c.record)] s
  rw [hstep, runQuery, if_pos hp]
  refine ⟨?_, _, mem_of_tabFind (getJob_moreWork_same _ hj), hpurpose, hgot⟩
  refine (findCmd_congr (same_of_alone .cmds (view_moreWork _ _ _ rfl rfl)) _).trans ?_
  exact findCmd_modCmd ((findCmd_wantJob ..).trans hc) fun _ => rfl

/-- A VOL_QUERY taken from the decoder, waiting for its record to move. -/
def queryTaken (n : Nat) (s : State) : State := modCmd n (fun c => { c with phase := .waiting }) s

theorem exec_volQuery {n : Nat} {c : Cmd} {s : State} (hs : serving s = true) (hc : findCmd s n = some c)
    (hp : c.phase = .decoded) (ho : c.entry.opcode = 0x43) : exec (.volQuery n) s = .next (tryVolume n (queryTaken n s)) := by
  simp [exec, execVolQuery, ready05_eq_some hc hp ho, hs, queryTaken]

theorem findCmd_queryTaken {n : Nat} {c : Cmd} {s : State} (hc : findCmd s n = some c) :
    findCmd (queryTaken n s) n = some { c with phase := .waiting } :=
  findCmd_modCmd hc fun _ => rfl

/-- What holds a volume command back does not look at its own phase. -/
theorem effectHeld_queryTaken {n : Nat} {c : Cmd} {s : State} (hc : findCmd s n = some c) :
    effectHeld (queryTaken n s) { c with phase := .waiting } = effectHeld s c := by
  obtain rfl := seq_of_findCmd hc
  refine congrArg (haltHolds s || ·) (any_modCmd s fun x hx => ?_)
  simp [hx]

/-- A VOL_QUERY in its turn runs under a plan that moves the record it holds once it has taken effect. -/
theorem tryVolume_query {n : Nat} {c d : Cmd} {s : State} (hc : findCmd s n = some c) (hp : c.phase = .waiting)
    (hd : findCmd (takeEffect c s) n = some d) (ho : d.entry.opcode = 0x43) (h0 : d.parts ≠ 0) (hv : d.verdict = none)
    (hdp : d.phase = .waiting) :
    ∃ c' p, findCmd (tryVolume n s) n = some c' ∧ c'.phase = .running ∧ p ∈ (tryVolume n s).jobs ∧
      p.2.purpose = .hostOut n ∧ p.2.got = [(0, d.record)] := by
  obtain ⟨hrun, p, hpjobs, hpurpose, hgot⟩ := runVolume_query hd ho h0 hv hdp
  rw [tryVolume_of_open hc (by rw [hp]; rfl), endVolume_of_open hrun hv]
  exact ⟨_, p, hrun, rfl, hpjobs, hpurpose, hgot⟩

/-- A VOL_QUERY that takes effect moves its volume's record as it is then. -/
theorem tryVolume_query_now {n : Nat} {c : Cmd} {v : Volume} {s : State} (hc : findCmd s n = some c) (hp : c.phase = .waiting)
    (ho : c.entry.opcode = 0x43) (h0 : c.parts = 0) (he : effectHeld s c = false) (hr : volRefusal s c = none)
    (hv : c.verdict = none) (hvol : getVol s c.entry.volume = some v) :
    ∃ c' p, findCmd (tryVolume n s) n = some c' ∧ c'.phase = .running ∧ p ∈ (tryVolume n s).jobs ∧
      p.2.purpose = .hostOut n ∧ p.2.got = [(0, volRecord s c.entry.volume v)] := by
  obtain rfl := seq_of_findCmd hc
  have hrecord : (c.take s c).record = volRecord s c.entry.volume v := by simp [Cmd.take, hvol]
  obtain ⟨htaken, -⟩ := takeEffect_takes hc h0 he hr
  exact hrecord ▸ tryVolume_query hc hp htaken ho Nat.one_ne_zero hv hp

/-! ### O24 -/

/-- Settles O24: a VOL_CREATE, VOL_DELETE or VOL_RESIZE in its turn by its verdict, a VOL_QUERY by whether it has taken
effect. -/
theorem volumeCommands : Obligations.VolumeCommands := by
  refine ⟨fun i cmd c s hs hc hp hi h0 he hv hl => ⟨fun hr => ?effect, fun r hr => ?refused⟩,
    fun cmd c s hs hc hp ho hv => ⟨fun v h0 he hr hvol => ?query, fun h0 => ?queryAgain, fun r h0 he hr => ?queryRefused⟩⟩
  case refused =>
    obtain ⟨hvols, hend⟩ := tryVolume_refused hc hp h0 he hr
    exact ⟨_, exec_volCommand hs hc hi, hvols, hend⟩
  case effect =>
    refine ⟨_, exec_volCommand hs hc hi, fun ho => ?create, fun ho hearlier hsize => ?delete, fun ho => ?resize⟩
    case create =>
      rw [getVol_tryVolume_of_effect hc hp h0 he hr (by rw [ho]; decide)]
      exact getVol_volEffect_create s ho hl
    case resize =>
      obtain ⟨v, hvol⟩ := getVol_of_not_refused hr (by rw [ho]; decide)
      rw [getVol_tryVolume_of_effect hc hp h0 he hr (by rw [ho]; decide)]
      exact getVol_volEffect_resize ho hvol hl
    case delete =>
      obtain ⟨v, hvol⟩ := getVol_of_not_refused hr (by rw [ho]; decide)
      obtain ⟨hpos, hlt⟩ := hsize v hvol
      exact tryVolume_deletes hc hp h0 he hr hv ho hvol hpos hlt hearlier
  case query =>
    have hheld := (effectHeld_queryTaken hc).trans he
    obtain ⟨c', p, h⟩ := tryVolume_query_now (findCmd_queryTaken hc) rfl ho h0 hheld hr hv hvol
    exact ⟨_, c', p, exec_volQuery hs hc hp ho, h⟩
  case queryAgain =>
    have hc1 := findCmd_queryTaken hc
    have htaken := (congrArg (findCmd · cmd) (takeEffect_of_taken (s := queryTaken cmd s) h0)).trans hc1
    obtain ⟨c', p, h⟩ := tryVolume_query hc1 rfl htaken ho h0 hv rfl
    exact ⟨_, c', p, exec_volQuery hs hc hp ho, h⟩
  case queryRefused =>
    obtain ⟨-, hend⟩ := tryVolume_refused (findCmd_queryTaken hc) rfl h0 ((effectHeld_queryTaken hc).trans he) hr
    refine ⟨_, exec_volQuery hs hc hp ho, fun hd => ?_⟩
    obtain ⟨c', hfind, hverdict, -⟩ := hend hd
    exact ⟨c', hfind, hverdict⟩

end Sys2Proof.Machine

/-! O22: READ and VERIFY begin. The lookups of a command; what a block that needs no drive is known by; the plan of a READ while
its stripes begin; the lost blocks and the parts that the stripes leave with the command. -/

namespace Sys2Proof.Machine

open Sys2Proof

/-! ### Lookups (R292) -/

/-- A command's lookups change of it only what it has resolved. -/
theorem findCmd_lookupAll {n : Nat} {c : Cmd} {s : State} (ks : List Nat) (hc : findCmd s n = some c) :
    ∃ ks', findCmd (lookupAll n ks s).2 n = some { c with resolved := ks' } := by
  refine List.foldlRecOn ks _ (motive := fun a => ∃ ks', findCmd a.2 n = some { c with resolved := ks' })
    ⟨c.resolved, hc⟩ fun (a : Bool × State) ⟨ks', ha⟩ k _ => ?_
  have hlook : findCmd (smcLookup (keyVol k) (keyParcel k) 0 false (.cmd n) a.2).2 n = some { c with resolved := ks' } :=
    (findCmd_congr (same_of_alone .cmds (view_smcLookup _ _ _ _ _ _ rfl rfl rfl rfl rfl)) n).trans ha
  split
  · exact ⟨ks', ha⟩
  · dsimp only
    split
    · exact ⟨ks', ha⟩
    · split
      · exact ⟨addOnce ks' k, findCmd_modCmd hlook fun _ => rfl⟩
      · exact ⟨ks', hlook⟩

/-! ### Known blocks (R154, R156, R157) -/

/-- The mask that shows what known blocks come from: volumes, entries, dirty blocks and the lost-block list. -/
def blockSources (p : Piece) : Bool := p != .volumes && p != .entries && p != .stripes && p != .lost

theorem getEntry_of_view {s t : State} (h : view blockSources t = view blockSources s) (k : Nat) :
    getEntry t k = getEntry s k :=
  congrArg (tabGet LEntry.blank · k) (same_of_view h (p := .entries) rfl)

theorem knownBlock_of_view {s t : State} (h : view blockSources t = view blockSources s) (v : Volume) (key q : Nat) :
    knownBlock t v key q = knownBlock s v key q := by
  have hstripes : t.cache.stripes = s.cache.stripes := same_of_view h (p := .stripes) rfl
  have hlost : t.array.lost = s.array.lost := same_of_view h (p := .lost) rfl
  have hvol : ∀ k, getVol t k = getVol s k := getVol_congr (same_of_view h (p := .volumes) rfl)
  have hcached : cachedBlock t v key q = cachedBlock s v key q := by
    rw [cachedBlock, holderOf, getDesc, hstripes, cachedBlock, holderOf, getDesc]
  have hisLost : ∀ n b, isLost t n b = isLost s n b := fun n b => by rw [isLost, hvol, hlost, isLost]
  rw [knownBlock, hcached, hisLost, getEntry_of_view h, knownBlock]

/-! ### Plans that share one place in the queue (R100) -/

/-- The state in which the plans of a command share the place of the next one. -/
def sharePlace (s : State) : State := { s with drone := { s.drone with heir := some s.drone.nextId } }

/-- The end of that: plans take over the place again that they took in the first state. -/
def unsharePlace (s t : State) : State := { t with drone := { t.drone with heir := s.drone.heir } }

theorem view_sharePlace {m : Piece → Bool} (s : State) (h : m .drone = true) : view m (sharePlace s) = view m s :=
  view_drone_heir _ _ h

/-! ### The plan of a READ (R154) -/

/-- A plan that has its number behind it, with its purpose. -/
def Planned (id : Nat) (p : Purpose) (s : State) : Prop :=
  id < s.drone.nextId ∧ ∃ j, getJob s id = some j ∧ j.purpose = p

theorem Planned.of_same {id : Nat} {p : Purpose} {s t : State} (h : Planned id p s) (hj : t.jobs = s.jobs)
    (hd : s.drone.nextId ≤ t.drone.nextId) : Planned id p t := by
  obtain ⟨hlt, j, hfind, hpurpose⟩ := h
  exact ⟨Nat.lt_of_lt_of_le hlt hd, j, by rwa [getJob, hj], hpurpose⟩

theorem Planned.modJob {id : Nat} {p : Purpose} {s : State} {f : Job → Job} (h : Planned id p s) (k : Nat)
    (hf : k ≠ id ∨ ∀ j, (f j).purpose = j.purpose) : Planned id p (modJob k f s) := by
  obtain ⟨hlt, j, hfind, hpurpose⟩ := h
  refine ⟨by simpa using hlt, ?_⟩
  by_cases hk : k = id
  · subst hk
    exact ⟨_, getJob_modJob_same f hfind, ((hf.resolve_left (· rfl)) j).trans hpurpose⟩
  · exact ⟨j, (getJob_modJob_ne f s (Ne.symm hk)).trans hfind, hpurpose⟩

theorem Planned.moreWork {id : Nat} {p : Purpose} {s : State} (h : Planned id p s) (k : Nat) (ws : List Work) :
    Planned id p (moreWork k ws s) := by
  unfold Machine.moreWork
  split
  · exact h
  · exact (h.modJob (f := fun x => { x with left := x.left + ws.length }) k (.inr fun _ => rfl)).of_same rfl
      (Nat.le_add_right _ _)

theorem Planned.wantJob {id : Nat} {p : Purpose} {s : State} (h : Planned id p s) (p' : Purpose) (cls : WorkClass) (zr : Bool)
    (red : Nat) (want failed : List Nat) (got : Tab (List Byte)) :
    Planned id p (wantJob p' cls zr red want failed got s).2 := by
  obtain ⟨hlt, j, hfind, hpurpose⟩ := h
  refine Planned.modJob ⟨Nat.lt_succ_of_lt hlt, j, ?_, hpurpose⟩ _ (.inr fun _ => rfl)
  exact (tabFind_tabInsert_ne _ _ (Nat.ne_of_lt hlt)).trans hfind

theorem Planned.advanceFetch {id : Nat} {p : Purpose} {s : State} (h : Planned id p s) {k : Nat} (hk : k ≠ id) (key : Nat) :
    Planned id p (advanceFetch k key s).2 := by
  have htouch : ∀ l : List (Nat × Nat × Nat × List Nat), Planned id p (l.foldl (fun t k => touchRows k t) s) := fun l =>
    h.of_same (same_of_alone .jobs (by simp)) (Nat.le_of_eq (congrArg Drone.nextId (same_of_alone .drone (by simp))).symm)
  unfold Machine.advanceFetch
  split
  · dsimp only
    split
    · exact h
    · split
      · exact (htouch _).modJob k (.inl hk)
      · exact ((htouch _).modJob k (.inl hk)).moreWork k _
  · exact h

/-! ### Stripes of a READ (R157, R369) -/

/-- What the stripes of a READ leave of its command: its phase and its buffers, and the lost blocks that it has met. -/
structure Cmd.ReadsOn (c d : Cmd) : Prop where
  phase : d.phase = c.phase
  sg : d.sg = c.sg
  lost : c.lost ⊆ d.lost

theorem Cmd.ReadsOn.refl (c : Cmd) : c.ReadsOn c := ⟨rfl, rfl, fun _ h => h⟩

theorem Cmd.ReadsOn.trans {a b c : Cmd} (h : a.ReadsOn b) (g : b.ReadsOn c) : a.ReadsOn c :=
  ⟨g.phase.trans h.phase, g.sg.trans h.sg, fun _ hx => g.lost (h.lost hx)⟩

/-- A fold whose steps keep an invariant and each leave some lost blocks with the command leaves all of them. -/
theorem foldl_collects_lost {α : Type} {g : State → α → State} {n : Nat} {inv : State → Prop} {met : α → List Nat}
    (hstep : ∀ t x c, inv t → findCmd t n = some c →
      inv (g t x) ∧ ∃ d, findCmd (g t x) n = some d ∧ c.ReadsOn d ∧ met x ⊆ d.lost)
    (l : List α) {s : State} {c : Cmd} (hs : inv s) (hc : findCmd s n = some c) :
    inv (l.foldl g s) ∧ ∃ d, findCmd (l.foldl g s) n = some d ∧ c.ReadsOn d ∧ ∀ x ∈ l, met x ⊆ d.lost := by
  induction l generalizing s c with
  | nil => exact ⟨hs, c, hc, .refl c, by simp⟩
  | cons x r ih =>
    obtain ⟨hinv, b, hb, hcb, hmet⟩ := hstep s x c hs hc
    obtain ⟨hinv', d, hd, hbd, hrest⟩ := ih hinv hb
    refine ⟨hinv', d, hd, hcb.trans hbd, fun y hy => ?_⟩
    rcases List.mem_cons.mp hy with rfl | hy
    · exact fun _ hz => hbd.lost (hmet hz)
    · exact hrest y hy

/-- What a READ does of a block of a stripe before any fetch: a known block goes to the parent plan, a lost one to the report. -/
def noteBlock (n parent : Nat) (v : Volume) (e : Entry) (key : Nat) (s t : State) (q : Nat) : State :=
  match knownBlock s v key q with
  | some (some b) => modJob parent (fun j => { j with
      got := tabInsert j.got (v.firstOf key + q - e.lba) b
      pages := if (cachedBlock s v key q).isSome then addOnce j.pages (v.firstOf key + q - e.lba) else j.pages }) t
  | some none => modCmd n (fun c => { c with
      lost := c.lost ++ [v.firstOf key + q - e.lba], listed := s.array.lostVer, iseq := max c.iseq s.pair.iseq }) t
  | none => t

/-- What a READ does of a stripe once its known blocks are noted: the others are fetched. -/
def fetchStripe (n parent : Nat) (v : Volume) (e : Entry) (key : Nat) (s t : State) : State :=
  let want := ((stripeShare v e key).filter fun q => (knownBlock s v key q).isNone).map v.tagOf
  if want.isEmpty then t
  else
    let r := wantJob (.readPart n (v.firstOf key) key) .foreground false 0 want [] [] t
    (advanceFetch r.1 key (modJob parent (fun j => { j with left := j.left + 1 }) r.2)).2

theorem readStripe_eq (n parent : Nat) (v : Volume) (e : Entry) (s : State) (key : Nat) :
    readStripe n parent v e s key =
      fetchStripe n parent v e key s ((stripeShare v e key).foldl (noteBlock n parent v e key s) s) := rfl

/-- The lost blocks of a READ in a stripe, by index. -/
def lostShare (s : State) (v : Volume) (e : Entry) (key : Nat) : List Nat :=
  ((stripeShare v e key).filter fun q => knownBlock s v key q == some none).map fun q => v.firstOf key + q - e.lba

theorem lostShare_of_view {s t : State} (h : view blockSources t = view blockSources s) (v : Volume) (e : Entry) (key : Nat) :
    lostShare t v e key = lostShare s v e key := by
  simp only [lostShare, knownBlock_of_view h]

theorem Planned.noteBlock {id parent n : Nat} {p : Purpose} {t : State} (h : Planned id p t) (v : Volume) (e : Entry) (key : Nat)
    (s : State) (q : Nat) : Planned id p (noteBlock n parent v e key s t q) := by
  unfold Machine.noteBlock
  split
  · exact h.modJob parent (.inr fun _ => rfl)
  · exact h.of_same rfl (Nat.le_refl _)
  · exact h

theorem findCmd_noteBlock {n parent : Nat} {c : Cmd} {t : State} (v : Volume) (e : Entry) (key : Nat) (s : State) (q : Nat)
    (hc : findCmd t n = some c) :
    ∃ d, findCmd (noteBlock n parent v e key s t q) n = some d ∧ c.ReadsOn d ∧
      (if knownBlock s v key q = some none then [v.firstOf key + q - e.lba] else []) ⊆ d.lost := by
  unfold noteBlock
  split
  next b hb =>
    refine ⟨c, (findCmd_congr (by simp) n).trans hc, .refl c, by simp [hb]⟩
  next hb =>
    refine ⟨_, findCmd_modCmd hc fun _ => rfl, ⟨rfl, rfl, by simp⟩, by simp [hb]⟩
  next hb => exact ⟨c, hc, .refl c, by simp [hb]⟩

theorem Planned.fetchStripe {parent n : Nat} {p : Purpose} {t : State} (h : Planned parent p t) (v : Volume) (e : Entry)
    (key : Nat) (s : State) : Planned parent p (fetchStripe n parent v e key s t) := by
  unfold Machine.fetchStripe
  dsimp only
  split
  · exact h
  · exact ((h.wantJob ..).modJob (f := fun j => { j with left := j.left + 1 }) parent (.inr fun _ => rfl)).advanceFetch
      (Nat.ne_of_gt h.1) key

theorem findCmd_fetchStripe (n parent : Nat) (v : Volume) (e : Entry) (key : Nat) (s t : State) :
    findCmd (fetchStripe n parent v e key s t) n = findCmd t n :=
  findCmd_congr (same_of_alone .cmds (by simp [fetchStripe])) n

/-- A stripe of a READ keeps the READ's plan and leaves its lost blocks with the command. -/
theorem readStripe_keeps {n parent : Nat} {c : Cmd} {s : State} (v : Volume) (e : Entry) (key : Nat)
    (hs : Planned parent (.readOut n) s) (hc : findCmd s n = some c) :
    Planned parent (.readOut n) (readStripe n parent v e s key) ∧
      ∃ d, findCmd (readStripe n parent v e s key) n = some d ∧ c.ReadsOn d ∧ lostShare s v e key ⊆ d.lost := by
  obtain ⟨hplan, d, hd, hcd, hmet⟩ := foldl_collects_lost (g := noteBlock n parent v e key s) (n := n)
    (inv := Planned parent (.readOut n))
    (fun t q b ht hb => ⟨ht.noteBlock v e key s q, findCmd_noteBlock v e key s q hb⟩) (stripeShare v e key) hs hc
  rw [readStripe_eq]
  refine ⟨hplan.fetchStripe v e key s, d, (findCmd_fetchStripe ..).trans hd, hcd, fun x hx => ?_⟩
  obtain ⟨q, hq, rfl⟩ := List.mem_map.mp hx
  obtain ⟨hmem, hknown⟩ := List.mem_filter.mp hq
  exact hmet q hmem (by simp [beq_iff_eq.mp hknown])

/-- A READ's command and plan before its first stripe; the plans of its stripes will share the plan's place (R100). -/
def readBegun (c : Cmd) (s : State) : State :=
  modCmd c.seq (fun c => { c with phase := .running }) (wantJob (.readOut c.seq) .foreground false 0 [] [] []
    (sharePlace s)).2

theorem readBegun_begins {c d : Cmd} {s : State} (hd : findCmd s c.seq = some d) :
    Planned s.drone.nextId (.readOut c.seq) (readBegun c s) ∧
      findCmd (readBegun c s) c.seq = some { d with phase := .running } ∧
      view blockSources (readBegun c s) = view blockSources s := by
  obtain ⟨j, hj, hpurpose, -⟩ := getJob_wantJob_same (.readOut c.seq) .foreground false 0 [] [] [] (sharePlace s)
  refine ⟨⟨?_, j, hj, hpurpose⟩, findCmd_modCmd ((findCmd_wantJob ..).trans hd) fun _ => rfl, ?_⟩
  · simp [readBegun, wantJob, newJob, queueWorks, sharePlace]
  · rw [readBegun, view_modCmd _ _ _ rfl rfl, view_wantJob _ _ _ _ _ _ _ _ rfl rfl, view_sharePlace _ rfl]

/-- A stripe of a READ keeps, beside the READ's plan, what known blocks come from. -/
theorem readStripe_collects {n parent : Nat} {c : Cmd} {s u : State} (v : Volume) (e : Entry) (key : Nat)
    (hs : Planned parent (.readOut n) s ∧ view blockSources s = view blockSources u) (hc : findCmd s n = some c) :
    (Planned parent (.readOut n) (readStripe n parent v e s key) ∧
        view blockSources (readStripe n parent v e s key) = view blockSources u) ∧
      ∃ d, findCmd (readStripe n parent v e s key) n = some d ∧ c.ReadsOn d ∧ lostShare u v e key ⊆ d.lost := by
  obtain ⟨hplan, d, hd, hreads, hmet⟩ := readStripe_keeps v e key hs.1 hc
  refine ⟨⟨hplan, (view_readStripe _ _ _ _ _ _ rfl rfl rfl rfl rfl).trans hs.2⟩, d, hd, hreads, ?_⟩
  rwa [← lostShare_of_view hs.2]

theorem launchRead_eq (c : Cmd) (v : Volume) (s : State) : launchRead c v s =
    unsharePlace s ((cmdStripes v c.entry).foldl (readStripe c.seq s.drone.nextId v c.entry) (readBegun c s)) := rfl

/-- A READ launched runs under a plan that will write its buffers, and has its lost blocks. -/
theorem launchRead_runs {c d : Cmd} {s : State} (v : Volume) (hd : findCmd s c.seq = some d) :
    (∃ p ∈ (launchRead c v s).jobs, p.2.purpose = .readOut c.seq) ∧
      ∃ d', findCmd (launchRead c v s) c.seq = some d' ∧ ({ d with phase := .running } : Cmd).ReadsOn d' ∧
        ∀ key ∈ cmdStripes v c.entry, lostShare s v c.entry key ⊆ d'.lost := by
  obtain ⟨hplan, hrun, hsource⟩ := readBegun_begins hd
  obtain ⟨⟨⟨-, j, hj, hpurpose⟩, -⟩, d', hd', hreads, hlost⟩ := foldl_collects_lost
    (fun _ key _ hu hb => readStripe_collects v c.entry key hu hb) (cmdStripes v c.entry) ⟨hplan, hsource⟩ hrun
  rw [launchRead_eq]
  exact ⟨⟨_, mem_of_tabFind hj, hpurpose⟩, d', hd', hreads, hlost⟩

/-! ### Stripes of a VERIFY (R158) -/

/-- A stripe of a VERIFY that is not all zero is one more part of the command. -/
theorem verifyStripe_counts {n : Nat} {c : Cmd} {s : State} (v : Volume) (e : Entry) (key : Nat) (hc : findCmd s n = some c) :
    ∃ d, findCmd (verifyStripe n v e s key) n = some d ∧ d.phase = c.phase ∧
      d.parts = c.parts + if groupZero (getEntry s (key / 256)) key then 0 else 1 := by
  unfold verifyStripe
  extract_lets qs lost s1 xs want r
  obtain ⟨b, hb, hphase, hparts⟩ : ∃ b, findCmd s1 n = some b ∧ b.phase = c.phase ∧ b.parts = c.parts := by
    simp only [s1]
    split
    · exact ⟨c, hc, rfl, rfl⟩
    · exact ⟨_, findCmd_modCmd hc fun _ => rfl, rfl, rfl⟩
  split
  · exact ⟨b, hb, hphase, by simp [hparts]⟩
  · have hfind : findCmd r.2 n = some b := (findCmd_congr (same_of_alone .cmds (by simp [r])) n).trans hb
    have hcount : findCmd (modCmd n (fun c => { c with parts := c.parts + 1 }) r.2) n = some { b with parts := b.parts + 1 } :=
      findCmd_modCmd hfind fun _ => rfl
    refine ⟨_, (findCmd_congr (same_of_alone .cmds (by simp)) n).trans hcount, hphase, ?_⟩
    simp [hparts]

/-- The stripes of a VERIFY that are not all zero. -/
def checkedStripes (s : State) (keys : List Nat) : List Nat :=
  keys.filter fun key => !groupZero (getEntry s (key / 256)) key

/-- The stripes of a VERIFY leave one part for each that is not all zero. -/
theorem foldl_verifyStripe_counts {n : Nat} {c : Cmd} {s u : State} (v : Volume) (e : Entry) (keys : List Nat)
    (hs : view blockSources s = view blockSources u) (hc : findCmd s n = some c) :
    ∃ d, findCmd (keys.foldl (verifyStripe n v e) s) n = some d ∧ d.phase = c.phase ∧
      d.parts = c.parts + (checkedStripes u keys).length := by
  induction keys generalizing s c with
  | nil => exact ⟨c, hc, rfl, rfl⟩
  | cons key r ih =>
    obtain ⟨b, hb, hphase, hparts⟩ := verifyStripe_counts v e key hc
    obtain ⟨d, hd, hphase', hparts'⟩ := ih ((view_verifyStripe _ _ _ _ _ rfl rfl rfl rfl rfl).trans hs) hb
    refine ⟨d, hd, hphase'.trans hphase, ?_⟩
    rw [hparts', hparts, getEntry_of_view hs]
    cases hz : groupZero (getEntry u (key / 256)) key with
    | true => simp [checkedStripes, hz]
    | false =>
      simp only [checkedStripes, List.filter_cons, hz, Bool.not_false, if_true, List.length_cons]
      simp only [Bool.false_eq_true, if_false]
      omega

/-- A VERIFY's command before its first stripe; the plans of its stripes will share one place (R100). -/
def verifyBegun (c : Cmd) (s : State) : State := modCmd c.seq (fun c => { c with phase := .running }) (sharePlace s)

theorem launchVerify_of_parts {c d : Cmd} {v : Volume} {s t : State}
    (ht : t = unsharePlace s ((cmdStripes v c.entry).foldl (verifyStripe c.seq v c.entry) (verifyBegun c s)))
    (hd : findCmd t c.seq = some d) (h : d.parts ≠ 0) : launchVerify c v s = t := by
  have hplaced : withPlace (some s.drone.nextId) (fun t => (cmdStripes v c.entry).foldl (verifyStripe c.seq v c.entry)
      (modCmd c.seq (fun c => { c with phase := .running }) t)) s = t := ht ▸ rfl
  simp [launchVerify, hplaced, hd, h]

/-- A VERIFY launched with a stripe to check runs in as many parts as it has such stripes. -/
theorem launchVerify_runs {c d : Cmd} {s : State} (v : Volume) (hd : findCmd s c.seq = some d) (h0 : d.parts = 0)
    (hne : checkedStripes s (cmdStripes v c.entry) ≠ []) :
    ∃ d', findCmd (launchVerify c v s) c.seq = some d' ∧ d'.phase = .running ∧
      d'.parts = (checkedStripes s (cmdStripes v c.entry)).length := by
  have hsource : view blockSources (verifyBegun c s) = view blockSources s := by
    rw [verifyBegun, view_modCmd _ _ _ rfl rfl, view_sharePlace _ rfl]
  have hrun : findCmd (verifyBegun c s) c.seq = some { d with phase := .running } :=
    findCmd_modCmd (s := sharePlace s) hd fun _ => rfl
  obtain ⟨d', hd', hphase, hparts⟩ := foldl_verifyStripe_counts v c.entry (cmdStripes v c.entry) hsource hrun
  have hcount : d'.parts = (checkedStripes s (cmdStripes v c.entry)).length := by rw [hparts, h0, Nat.zero_add]
  have hopen : d'.parts ≠ 0 := by rwa [hcount, Ne, List.length_eq_zero_iff]
  rw [launchVerify_of_parts rfl hd' hopen]
  exact ⟨d', hd', hphase, hcount⟩

/-! ### O22 -/

/-- A READ or VERIFY waits while an entry is looked up or a resize still has its blocks, and else is launched. -/
theorem tryRead_eq {n : Nat} {c : Cmd} {v : Volume} {s : State} (hc : findCmd s n = some c)
    (hv : getVol s c.entry.volume = some v) :
    tryRead n s =
      if !(lookupAll n (cmdParcels v c.entry) s).1 || resizeBars s c then
        modCmd n (fun c => { c with phase := .waiting }) (lookupAll n (cmdParcels v c.entry) s).2
      else if c.entry.opcode = 1 then launchRead c v (lookupAll n (cmdParcels v c.entry) s).2
      else launchVerify c v (lookupAll n (cmdParcels v c.entry) s).2 := by
  simp only [tryRead, hc, hv]

theorem tryRead_waits {n : Nat} {c : Cmd} {v : Volume} {s : State} (hc : findCmd s n = some c)
    (hv : getVol s c.entry.volume = some v)
    (h : (lookupAll n (cmdParcels v c.entry) s).1 = false ∨ resizeBars s c = true) :
    ∃ d, findCmd (tryRead n s) n = some d ∧ d.phase = .waiting ∧ d.sg = c.sg := by
  obtain ⟨ks, hks⟩ := findCmd_lookupAll (cmdParcels v c.entry) hc
  rw [tryRead_eq hc hv, if_pos (by rcases h with h | h <;> simp [h])]
  exact ⟨_, findCmd_modCmd hks fun _ => rfl, rfl, rfl⟩

/-- A READ that need not wait runs under a plan that will write its buffers, and reports its lost blocks by index. -/
theorem tryRead_reads {n : Nat} {c : Cmd} {v : Volume} {s : State} (hc : findCmd s n = some c)
    (hv : getVol s c.entry.volume = some v) (ho : c.entry.opcode = 1)
    (hlook : (lookupAll n (cmdParcels v c.entry) s).1 = true) (hbar : resizeBars s c = false) :
    (∃ p ∈ (tryRead n s).jobs, p.2.purpose = .readOut n) ∧
      ∃ d, findCmd (tryRead n s) n = some d ∧ d.phase = .running ∧ d.sg = c.sg ∧
        ∀ key ∈ cmdStripes v c.entry, lostShare (lookupAll n (cmdParcels v c.entry) s).2 v c.entry key ⊆ d.lost := by
  obtain ⟨ks, hks⟩ := findCmd_lookupAll (cmdParcels v c.entry) hc
  obtain rfl := seq_of_findCmd hc
  obtain ⟨hjob, d, hd, hreads, hlost⟩ := launchRead_runs v hks
  rw [tryRead_eq hc hv, if_neg (by simp [hlook, hbar]), if_pos ho]
  exact ⟨hjob, d, hd, hreads.phase, hreads.sg, hlost⟩

/-- A VERIFY that need not wait, with a stripe to check, runs in as many parts as it has such stripes. -/
theorem tryRead_verifies {n : Nat} {c : Cmd} {v : Volume} {s : State} (hc : findCmd s n = some c)
    (hv : getVol s c.entry.volume = some v) (ho : c.entry.opcode = 7) (h0 : c.parts = 0)
    (hlook : (lookupAll n (cmdParcels v c.entry) s).1 = true) (hbar : resizeBars s c = false)
    (hne : checkedStripes (lookupAll n (cmdParcels v c.entry) s).2 (cmdStripes v c.entry) ≠ []) :
    ∃ d, findCmd (tryRead n s) n = some d ∧ d.phase = .running ∧
      d.parts = (checkedStripes (lookupAll n (cmdParcels v c.entry) s).2 (cmdStripes v c.entry)).length := by
  obtain ⟨ks, hks⟩ := findCmd_lookupAll (cmdParcels v c.entry) hc
  obtain rfl := seq_of_findCmd hc
  rw [tryRead_eq hc hv, if_neg (by simp [hlook, hbar]), if_neg (by rw [ho]; decide)]
  exact launchVerify_runs v hks h0 hne

/-- Settles O22: a READ and a VERIFY each wait, or are launched on what their lookups left. -/
theorem readAndVerifyStart : Obligations.ReadAndVerifyStart := by
  refine ⟨fun cmd mem c c1 v s s0 r hs hc hp ho hv hs0 hc1 hr => ?read,
    fun cmd c v s r hs hc hp ho hv hparts hr => ?verify⟩
  case read =>
    have hc0 : findCmd s0 cmd = some { c with sg := cmdBuffers c.entry mem } := hs0 ▸ findCmd_modCmd hc fun _ => rfl
    have hv0 : getVol s0 c.entry.volume = some v := hs0 ▸ hv
    obtain rfl : c1 = { c with sg := cmdBuffers c.entry mem } := Option.some.inj (hc1.symm.trans hc0)
    have hexec : exec (.read cmd mem) s = .next (tryRead cmd s0) := by
      simp [exec, execRead, ready05_eq_some hc hp ho, hs, hs0]
    by_cases hwait : r.1 = false ∨ resizeBars s0 { c with sg := cmdBuffers c.entry mem } = true
    · obtain ⟨d, hd, hphase, hsg⟩ := tryRead_waits hc0 hv0 (hr ▸ hwait)
      refine ⟨_, d, hexec, hd, hsg, fun _ => hphase, fun hlook hbar => ?_⟩
      simp [hlook, hbar] at hwait
    · obtain ⟨hlook, hbar⟩ := not_or.mp hwait
      obtain ⟨hjob, d, hd, hphase, hsg, hlost⟩ :=
        tryRead_reads hc0 hv0 ho (by simpa [← hr] using hlook) (by simpa using hbar)
      refine ⟨_, d, hexec, hd, hsg, fun h => absurd h hwait, fun _ _ => ⟨hphase, hjob, fun key hkey q hq hknown => ?_⟩⟩
      rw [hr] at hknown
      exact hlost key hkey (List.mem_map.mpr ⟨q, List.mem_filter.mpr ⟨hq, by simp [hknown]⟩, rfl⟩)
  case verify =>
    have hexec : exec (.verify cmd) s = .next (tryRead cmd s) := by
      simp [exec, execVerify, ready05_eq_some hc hp ho, hs]
    subst hr
    refine ⟨_, hexec, fun hwait => ?_, fun hlook hbar ⟨key, hkey, hzero⟩ => ?_⟩
    · obtain ⟨d, hd, hphase, -⟩ := tryRead_waits hc hv hwait
      exact ⟨d, hd, hphase⟩
    · exact tryRead_verifies hc hv ho hparts hlook hbar
        (List.ne_nil_of_mem (a := key) (List.mem_filter.mpr ⟨hkey, by simp [hzero]⟩))

end Sys2Proof.Machine

/-! What the proofs of O31 and O32 share: what the placing of votes and a condemned pair leave of the reeds, and engines whose
confirmed faults are counted. -/

namespace Sys2Proof.Machine

open Sys2Proof

/-! ### What votes and condemned pairs leave (R230, R235, R237) -/

/-- A pair's status without the reason of its retirement. -/
def PairStat.tally (x : PairStat) : PairStat := { x with retireWhy := 0 }

/-- A vote without its voter. -/
def Vote.matter (v : Vote) : Vote := { v with voter := none }

/-- The reeds without what the placing of votes and the condemning of pairs change: the voters, the retirements and the
request for spares. -/
def Reeds.tally (r : Reeds) : Reeds :=
  { r with stat := r.stat.map PairStat.tally, condemned := [], votes := r.votes.map Vote.matter, sparesOut := false }

theorem pairStat_tally_of_tally {s t : State} (h : t.reeds.tally = s.reeds.tally) (p : Nat) :
    (pairStat t p).tally = (pairStat s p).tally := by
  have hstat : ∀ u : State, u.reeds.tally.stat[p]? = u.reeds.stat[p]?.map PairStat.tally := fun u => List.getElem?_map
  have hnth : ∀ u : State, (pairStat u p).tally = (u.reeds.tally.stat[p]?).getD PairStat.reset := fun u => by
    rw [hstat, pairStat, nth, List.getD_eq_getElem?_getD]
    cases u.reeds.stat[p]? <;> rfl
  rw [hnth, hnth, h]

theorem counts_of_tally {r r' : Reeds} (h : r'.tally = r.tally) :
    r'.voteLog = r.voteLog ∧ r'.mismatchCnt = r.mismatchCnt :=
  ⟨(congrArg Reeds.voteLog h :), (congrArg Reeds.mismatchCnt h :)⟩

/-- A vote stays in the set, with another voter at the most. -/
theorem vote_of_tally {s t : State} (h : t.reeds.tally = s.reeds.tally) {v : Vote} (hv : v ∈ s.reeds.votes) :
    ∃ w ∈ t.reeds.votes, w.matter = v.matter := by
  have hvotes : t.reeds.votes.map Vote.matter = s.reeds.votes.map Vote.matter := congrArg (fun r : Reeds => r.votes) h
  exact List.mem_map.mp (hvotes ▸ List.mem_map_of_mem hv)

/-- A vote that has left the set stays away. -/
theorem no_vote_of_tally {s t : State} {id : Nat} (h : t.reeds.tally = s.reeds.tally)
    (hs : ∀ v ∈ s.reeds.votes, v.leg.id ≠ id) : ∀ v ∈ t.reeds.votes, v.leg.id ≠ id := fun v hv => by
  obtain ⟨w, hw, heq⟩ := vote_of_tally h.symm hv
  have hleg : w.matter.leg = v.matter.leg := by rw [heq]
  exact hleg ▸ hs w hw

/-- Votes given another voter are the same matters. -/
theorem tally_setVoters (r : Reeds) (c : Vote → Prop) [DecidablePred c] (p : Option Nat) :
    Reeds.tally { r with votes := r.votes.map fun v => if c v then { v with voter := p } else v } = r.tally := by
  have hmatter : ∀ v : Vote, Vote.matter (if c v then { v with voter := p } else v) = v.matter := fun v => by
    split <;> rfl
  simp [Reeds.tally, Function.comp_def, hmatter]

theorem reeds_dropWork (bad : Work → Bool) (s : State) : (dropWork bad s).reeds = s.reeds :=
  same_of_alone .reeds (view_dropWork _ _ rfl rfl rfl)

theorem tally_placeVote (s : State) (id : Nat) : (placeVote s id).reeds.tally = s.reeds.tally := by
  unfold placeVote
  split
  · rfl
  · split
    · rfl
    · split
      · rfl
      · exact tally_setVoters _ _ _

theorem tally_placeVotes (s : State) : (placeVotes s).reeds.tally = s.reeds.tally := by
  unfold placeVotes
  dsimp only
  rw [foldl_keeps (part := fun t => t.reeds.tally) _ _ tally_placeVote]
  exact (tally_setVoters _ _ _).trans (congrArg Reeds.tally (reeds_dropWork _ s))

theorem tally_writeSlotMap (s : State) : (writeSlotMap s).reeds.tally = s.reeds.tally := by
  unfold writeSlotMap setReason
  dsimp only
  (repeat' split) <;> rfl

/-- A condemned pair's retirement reason is recorded, and nothing else of its status changes. -/
theorem tally_modPair_retireWhy (p why : Nat) (s : State) :
    (modPair p (fun x => { x with retireWhy := why }) s).reeds.tally = s.reeds.tally := by
  have hstat : (modAt s.reeds.stat p fun x => { x with retireWhy := why }).map PairStat.tally =
      s.reeds.stat.map PairStat.tally := by
    refine List.ext_getElem? fun n => ?_
    simp only [modAt, List.getElem?_map, List.getElem?_modify]
    split <;> cases s.reeds.stat[n]? <;> rfl
  simp [Reeds.tally, modPair, hstat]

theorem tally_condemn (p why : Nat) (s : State) : (condemn p why s).reeds.tally = s.reeds.tally := by
  unfold condemn
  split
  · rfl
  · dsimp only
    rw [tally_writeSlotMap, withdrawPair, tally_placeVotes, reeds_dropWork]
    exact tally_modPair_retireWhy p why _

/-! ### Legs that have stopped -/

/-- No stopped leg runs again while legs only end. -/
theorem OnlyEnds.stopped {id : Nat} {s t : State} (h : OnlyEnds (stopLeg id s) t) : ∀ x ∈ t.drone.running, x.id ≠ id :=
  fun x hx => by
    have hkept := h.legs hx
    simp only [stopLeg, List.mem_filter, bne_iff_ne] at hkept
    exact hkept.2

/-! ### Engines with confirmed faults (R235) -/

/-- The confirmed faults of an engine. -/
def PairStat.fault (b : Bool) (x : PairStat) : Nat := if b then x.faultB else x.faultA

/-- The fault that makes an engine suspect. -/
def PairStat.suspect (b : Bool) (x : PairStat) : Option Nat := if b then x.suspectB else x.suspectA

/-- A pair's status with one more confirmed fault of an engine, the first of its window or a later one. -/
def PairStat.faulted (b second : Bool) (now : Nat) (x : PairStat) : PairStat :=
  { x with
    suspectA := if !b && !second then some now else x.suspectA
    suspectB := if b && !second then some now else x.suspectB
    faultA := if b then x.faultA else sat 255 (x.faultA + 1)
    faultB := if b then sat 255 (x.faultB + 1) else x.faultB }

theorem fault_tally (b : Bool) (x : PairStat) : x.tally.fault b = x.fault b := rfl

theorem suspect_tally (b : Bool) (x : PairStat) : x.tally.suspect b = x.suspect b := rfl

theorem fault_faulted_same (b second : Bool) (now : Nat) (x : PairStat) :
    (x.faulted b second now).fault b = min 255 (x.fault b + 1) := by
  cases b <;> rfl

theorem faulted_other (b second : Bool) (now : Nat) (x : PairStat) :
    (x.faulted b second now).fault (!b) = x.fault (!b) ∧ (x.faulted b second now).suspect (!b) = x.suspect (!b) := by
  cases b <;> exact ⟨rfl, rfl⟩

/-- The first fault of a window makes the engine suspect from its tick on. -/
theorem suspect_faulted_first (b : Bool) (now : Nat) (x : PairStat) : (x.faulted b false now).suspect b = some now := by
  cases b <;> rfl

/-- A confirmed fault of an engine counted at its pair. -/
def faultNoted (p : Nat) (b : Bool) (s : State) : State :=
  modPair p (PairStat.faulted b (within s ((pairStat s p).suspect b)) s.drone.count)
    { s with health := { s.health with reedFaults := s.health.reedFaults + 1 } }

/-- A confirmed fault is counted; a second one of the window condemns the pair. -/
theorem confirmFault_eq (p : Nat) (b : Bool) (s : State) : confirmFault p b s =
    if !within s ((pairStat s p).suspect b) then faultNoted p b s
    else condemn p (if b then 2 else 1) (raiseIf (lastSlot s p) 0x909 (faultNoted p b s)) := rfl

theorem onlyEnds_confirmFault (p : Nat) (b : Bool) (s : State) : OnlyEnds s (confirmFault p b s) := by
  have hnoted : OnlyEnds s (faultNoted p b s) := .of_same
  exact .ite hnoted (hnoted.trans ((onlyEnds_raiseIf _ _ _).trans (onlyEnds_condemn _ _ _)))

theorem reeds_raiseIf (c : Bool) (n : Nat) (s : State) : (raiseIf c n s).reeds = s.reeds := by
  cases c <;> rfl

theorem tally_confirmFault (p : Nat) (b : Bool) (s : State) :
    (confirmFault p b s).reeds.tally = (faultNoted p b s).reeds.tally := by
  rw [confirmFault_eq]
  cases within s ((pairStat s p).suspect b)
  · rfl
  · exact (tally_condemn _ _ _).trans (congrArg Reeds.tally (reeds_raiseIf _ _ _))

/-- An engine that lost a vote, which is reported, or failed a test has a confirmed fault; another engine is left alone. -/
def markEngine (vote lost : Bool) (p : Nat) (b : Bool) (s : State) : State :=
  if lost then confirmFault p b (raiseIf vote 0x901 s) else s

/-- What marking an engine does: a confirmed fault where it lost; the other engine, the votes and their log stand. -/
structure EngineMarked (lost : Bool) (p : Nat) (b : Bool) (s t : State) : Prop where
  fault : (pairStat t p).fault b = if lost then min 255 ((pairStat s p).fault b + 1) else (pairStat s p).fault b
  suspect : lost = true → within s ((pairStat s p).suspect b) = false → (pairStat t p).suspect b = some s.drone.count
  other : (pairStat t p).fault (!b) = (pairStat s p).fault (!b) ∧ (pairStat t p).suspect (!b) = (pairStat s p).suspect (!b)
  lastTest : (pairStat t p).lastTest = (pairStat s p).lastTest
  pairs : t.reeds.stat.length = s.reeds.stat.length
  log : t.reeds.voteLog = s.reeds.voteLog ∧ t.reeds.mismatchCnt = s.reeds.mismatchCnt
  gone : ∀ id, (∀ v ∈ s.reeds.votes, v.leg.id ≠ id) → ∀ v ∈ t.reeds.votes, v.leg.id ≠ id
  time : t.drone.count = s.drone.count ∧ t.image = s.image

theorem pairStat_confirmFault {p : Nat} {s : State} (b : Bool) (hp : p < s.reeds.stat.length) :
    (pairStat (confirmFault p b s) p).tally =
      ((pairStat s p).faulted b (within s ((pairStat s p).suspect b)) s.drone.count).tally :=
  (pairStat_tally_of_tally (tally_confirmFault p b s) p).trans
    (congrArg PairStat.tally (nth_modAt_same PairStat.reset _ hp))

theorem engineMarked_confirmFault {p : Nat} {s : State} (b : Bool) (hp : p < s.reeds.stat.length) :
    EngineMarked true p b s (confirmFault p b s) := by
  have htally := tally_confirmFault p b s
  have hpair := pairStat_confirmFault b hp
  obtain ⟨hfault, hsuspect⟩ := faulted_other b (within s ((pairStat s p).suspect b)) s.drone.count (pairStat s p)
  have hpairs : (confirmFault p b s).reeds.stat.length = (faultNoted p b s).reeds.stat.length := by
    simpa [Reeds.tally] using congrArg (fun r : Reeds => r.stat.length) htally
  exact {
    fault := by rw [← fault_tally, hpair, fault_tally, fault_faulted_same, if_pos rfl]
    suspect := fun _ hfirst => by rw [← suspect_tally, hpair, suspect_tally, hfirst, suspect_faulted_first]
    other := ⟨by rw [← fault_tally, hpair, fault_tally, hfault], by rw [← suspect_tally, hpair, suspect_tally, hsuspect]⟩
    lastTest := (congrArg PairStat.lastTest hpair :)
    pairs := hpairs.trans (by simp [faultNoted, modPair, modAt])
    log := (counts_of_tally htally :)
    gone := fun _ hgone => no_vote_of_tally htally hgone
    time := ⟨same_of_alone .tick (by simp), same_of_alone .image (by simp)⟩ }

theorem engineMarked_markEngine (vote lost : Bool) {p : Nat} {s : State} (b : Bool) (hp : p < s.reeds.stat.length) :
    EngineMarked lost p b s (markEngine vote lost p b s) := by
  cases lost
  · exact ⟨rfl, fun h => absurd h (by decide), ⟨rfl, rfl⟩, rfl, rfl, ⟨rfl, rfl⟩, fun _ h => h, ⟨rfl, rfl⟩⟩
  · cases vote
    · exact engineMarked_confirmFault b hp
    · have hraised := engineMarked_confirmFault (s := raise 0x901 s) b hp
      exact ⟨hraised.fault, hraised.suspect, hraised.other, hraised.lastTest, hraised.pairs, hraised.log, hraised.gone,
        hraised.time⟩

theorem onlyEnds_markEngine (vote lost : Bool) (p : Nat) (b : Bool) (s : State) : OnlyEnds s (markEngine vote lost p b s) :=
  .ite ((onlyEnds_raiseIf _ _ _).trans (onlyEnds_confirmFault _ _ _)) (.refl s)

/-- A lost vote is reported. -/
theorem shown_markEngine_vote (p : Nat) (b : Bool) (s : State) : shown (markEngine true true p b s) 0x901 = true :=
  (onlyEnds_confirmFault p b _).shown _ (shown_raise_same _ _)

/-- Engine A marked, then engine B. -/
def markEngines (vote lostA lostB : Bool) (p : Nat) (s : State) : State :=
  markEngine vote lostB p true (markEngine vote lostA p false s)

theorem onlyEnds_markEngines (vote lostA lostB : Bool) (p : Nat) (s : State) :
    OnlyEnds s (markEngines vote lostA lostB p s) :=
  (onlyEnds_markEngine _ _ _ _ _).trans (onlyEnds_markEngine _ _ _ _ _)

/-- A vote lost by either engine is reported. -/
theorem shown_markEngines_vote {lostA lostB : Bool} (p : Nat) (s : State) (h : lostA = true ∨ lostB = true) :
    shown (markEngines true lostA lostB p s) 0x901 = true := by
  rcases h with rfl | rfl
  · exact (onlyEnds_markEngine _ _ _ _ _).shown _ (shown_markEngine_vote p false s)
  · exact shown_markEngine_vote p true _

/-- Each engine of a pair that lost has one more confirmed fault, and is suspect from a fault that is the first of its window. -/
structure EnginesMarked (lostA lostB : Bool) (p : Nat) (s t : State) : Prop where
  faultA : (pairStat t p).faultA = if lostA then min 255 ((pairStat s p).faultA + 1) else (pairStat s p).faultA
  faultB : (pairStat t p).faultB = if lostB then min 255 ((pairStat s p).faultB + 1) else (pairStat s p).faultB
  suspectA : lostA = true → within s (pairStat s p).suspectA = false → (pairStat t p).suspectA = some s.drone.count
  suspectB : lostB = true → within s (pairStat s p).suspectB = false → (pairStat t p).suspectB = some s.drone.count

/-- The marks of the two engines of a pair do not meet. -/
theorem EngineMarked.both {lostA lostB : Bool} {p : Nat} {s t u : State} (hA : EngineMarked lostA p false s t)
    (hB : EngineMarked lostB p true t u) : EnginesMarked lostA lostB p s u := by
  have hfault : (pairStat t p).faultB = (pairStat s p).faultB := hA.other.1
  have hsuspect : (pairStat t p).suspectB = (pairStat s p).suspectB := hA.other.2
  obtain ⟨hcount, himage⟩ := hA.time
  exact {
    faultA := hB.other.1.trans hA.fault
    faultB := hfault ▸ hB.fault
    suspectA := fun hlost hfirst => hB.other.2.trans (hA.suspect hlost hfirst)
    suspectB := fun hlost hfirst =>
      hcount ▸ hB.suspect hlost ((within_congr hcount himage _).trans ((congrArg (within s) hsuspect).trans hfirst)) }

/-- What comes before the marks and changes only the pair's votes and last test does not show in them. -/
theorem EnginesMarked.of_before {lostA lostB : Bool} {p votes lastTest : Nat} {s t u : State}
    (h : EnginesMarked lostA lostB p t u)
    (hpair : pairStat t p = { pairStat s p with votes := votes, lastTest := lastTest })
    (htime : t.drone.count = s.drone.count ∧ t.image = s.image) : EnginesMarked lostA lostB p s u := by
  obtain ⟨hfaultA, hfaultB, hsuspectA, hsuspectB⟩ := h
  simp only [hpair, within_congr htime.1 htime.2, htime.1] at hfaultA hfaultB hsuspectA hsuspectB
  exact ⟨hfaultA, hfaultB, hsuspectA, hsuspectB⟩

theorem enginesMarked (vote lostA lostB : Bool) {p : Nat} {s : State} (hp : p < s.reeds.stat.length) :
    EnginesMarked lostA lostB p s (markEngines vote lostA lostB p s) :=
  have hA := engineMarked_markEngine vote lostA false hp
  hA.both (engineMarked_markEngine vote lostB true (hA.pairs ▸ hp))

/-- What marking engines leaves: the pair's last test, the log and the count of mismatches, and the set of votes. -/
theorem markEngines_keeps (vote lostA lostB : Bool) {p : Nat} {s : State} (hp : p < s.reeds.stat.length) :
    (pairStat (markEngines vote lostA lostB p s) p).lastTest = (pairStat s p).lastTest ∧
      (markEngines vote lostA lostB p s).reeds.voteLog = s.reeds.voteLog ∧
      (markEngines vote lostA lostB p s).reeds.mismatchCnt = s.reeds.mismatchCnt ∧
      ∀ id, (∀ v ∈ s.reeds.votes, v.leg.id ≠ id) → ∀ v ∈ (markEngines vote lostA lostB p s).reeds.votes, v.leg.id ≠ id :=
  have hA := engineMarked_markEngine vote lostA false hp
  have hB := engineMarked_markEngine vote lostB true (hA.pairs ▸ hp)
  ⟨hB.lastTest.trans hA.lastTest, hB.log.1.trans hA.log.1, hB.log.2.trans hA.log.2, fun id h => hB.gone id (hA.gone id h)⟩

/-! ### Differences between a pair's engines (R225, R229, R493) -/

/-- Without a trial no leg is struck. -/
theorem reedUnit_of_no_trial {s : State} (p : Nat) (h : s.sampled.trial = none) : reedUnit p s = (false, s) := by
  simp [reedUnit, trialActs, h]

/-- A pair's engines differ or not: a difference is counted and reported. -/
def noteDifference (differ : Bool) (s : State) : State :=
  if differ then raise 0x900 { s with reeds := { s.reeds with mismatchCnt := s.reeds.mismatchCnt + 1 } } else s

theorem noteDifference_counts (differ : Bool) (s : State) :
    (noteDifference differ s).reeds =
      { s.reeds with mismatchCnt := if differ then s.reeds.mismatchCnt + 1 else s.reeds.mismatchCnt } := by
  cases differ <;> rfl

theorem onlyEnds_noteDifference (differ : Bool) (s : State) : OnlyEnds s (noteDifference differ s) :=
  .ite (.raise .of_same 0x900) (.refl s)

end Sys2Proof.Machine

/-! O32: known-vector tests. -/

namespace Sys2Proof.Machine

open Sys2Proof

/-! ### Test legs queued (R493) -/

theorem mem_placeInQueue {order : Nat} {ws q : List Work} {w : Work} : w ∈ placeInQueue order ws q ↔ w ∈ q ∨ w ∈ ws := by
  have hsplit : w ∈ q ↔ w ∈ q.takeWhile (fun w => decide (w.order ≤ order)) ∨
      w ∈ q.dropWhile fun w => decide (w.order ≤ order) := by
    rw [← List.mem_append, List.takeWhile_append_dropWhile]
  rw [hsplit, placeInQueue, List.mem_append, List.mem_append, or_right_comm]

theorem exec_reedTestDue {pair : Nat} {s : State} (hs : serving s = true) (hd : testDue s pair = true) :
    exec (.reedTestDue pair) s = .next (queueTest pair s) := by
  simp [exec, execReedTestDue, hs, hd]

/-- A pair's test leg joins the queue: 8 inputs of 512 bytes, 144 cycles. -/
theorem queueTest_queues (p : Nat) (s : State) :
    ∃ l : Leg, (∀ w, w ∈ (queueTest p s).drone.queued ↔ w ∈ s.drone.queued ∨ w = .leg l) ∧ l.kind = .reed ∧
      l.op = .test ∧ l.pair = some p ∧ l.cost = 144 :=
  ⟨_, fun _ => mem_placeInQueue.trans (or_congr_right List.mem_singleton), rfl, rfl, rfl, rfl⟩

/-! ### Test legs ended (R236, R493) -/

/-- A test fails or not: a failure is counted and reported. -/
def noteTestFail (bad : Bool) (s : State) : State :=
  if bad then raise 0x908 { s with health := { s.health with testFails := s.health.testFails + 1 } } else s

/-- A pair's test leg stops and dates the pair's last test. -/
def dateTest (l : Leg) (p : Nat) (s : State) : State :=
  modPair p (fun x => { x with lastTest := s.drone.count }) (stopLeg l.id s)

theorem onlyEnds_noteTestFail (bad : Bool) (s : State) : OnlyEnds s (noteTestFail bad s) :=
  .ite (.raise .of_same 0x908) (.refl s)

/-- A test leg ended: dated, a difference and a failure noted. -/
def endTest (l : Leg) (p : Nat) (bad differ : Bool) (s : State) : State :=
  noteTestFail bad (noteDifference differ (dateTest l p s))

/-- Without a trial a test marks the engines whose output was not as expected. -/
theorem testResult_of_no_trial {l : Leg} {p : Nat} {s : State} (okA okB differ : Bool) (hp : l.pair = some p)
    (ht : s.sampled.trial = none) : testResult l okA okB differ s =
      markEngines false (!okA) (!okB) p (endTest l p (!okA || !okB) differ s) := by
  have hunit : reedUnit p (stopLeg l.id s) = (false, stopLeg l.id s) := reedUnit_of_no_trial p ht
  cases okA <;> cases okB <;>
    simp [testResult, hp, hunit, markEngines, markEngine, raiseIf, endTest, noteTestFail, noteDifference, dateTest]

theorem exec_reedTestResult {pair : Nat} {l : Leg} {s : State} (okA okB differ : Bool) (hs : serving s = true)
    (hl : s.drone.running.find? (fun l => l.op == .test && l.pair == some pair) = some l) (ht : s.sampled.trial = none) :
    exec (.reedTestResult pair okA okB differ) s =
      .next (markEngines false (!okA) (!okB) pair (endTest l pair (!okA || !okB) (differ || okA != okB) s)) := by
  have hpair : l.pair = some pair := by
    have hfound := List.find?_some (p := fun l : Leg => l.op == .test && l.pair == some pair) hl
    simp only [Bool.and_eq_true, beq_iff_eq] at hfound
    exact hfound.2
  rw [← testResult_of_no_trial _ _ _ hpair ht]
  simp [exec, execReedTestResult, hl, hs]

theorem onlyEnds_endTest (l : Leg) (p : Nat) (bad differ : Bool) (s : State) :
    OnlyEnds (stopLeg l.id s) (endTest l p bad differ s) :=
  have hdated : OnlyEnds (stopLeg l.id s) (dateTest l p s) := .of_same
  hdated.trans ((onlyEnds_noteDifference _ _).trans (onlyEnds_noteTestFail _ _))

theorem endTest_reeds (l : Leg) (p : Nat) (bad differ : Bool) (s : State) :
    (endTest l p bad differ s).reeds = { (dateTest l p s).reeds with
      mismatchCnt := if differ then s.reeds.mismatchCnt + 1 else s.reeds.mismatchCnt } := by
  cases bad <;> exact noteDifference_counts _ _

theorem stat_length_endTest (l : Leg) (p : Nat) (bad differ : Bool) (s : State) :
    (endTest l p bad differ s).reeds.stat.length = s.reeds.stat.length := by
  rw [endTest_reeds]
  exact List.length_modify _ _ _

/-- The end of a test leg takes no time and leaves the image. -/
theorem endTest_time (l : Leg) (p : Nat) (bad differ : Bool) (s : State) :
    (endTest l p bad differ s).drone.count = s.drone.count ∧ (endTest l p bad differ s).image = s.image := by
  cases bad <;> cases differ <;> exact ⟨rfl, rfl⟩

theorem pairStat_endTest (l : Leg) {p : Nat} (bad differ : Bool) {s : State} (hp : p < s.reeds.stat.length) :
    pairStat (endTest l p bad differ s) p = { pairStat s p with lastTest := s.drone.count } := by
  rw [pairStat, endTest_reeds]
  exact nth_modAt_same PairStat.reset _ hp

theorem shown_endTest_failed (l : Leg) (p : Nat) {bad : Bool} (differ : Bool) (s : State) (h : bad = true) :
    shown (endTest l p bad differ s) 0x908 = true := by
  subst h
  exact shown_raise_same _ _

theorem shown_endTest_differing (l : Leg) (p : Nat) (bad : Bool) {differ : Bool} (s : State) (h : differ = true) :
    shown (endTest l p bad differ s) 0x900 = true := by
  subst h
  exact (onlyEnds_noteTestFail bad _).shown _ (shown_raise_same _ _)

/-- Settles O32: a test's end is recorded, then the engines that failed it are marked. -/
theorem knownVectorTests : Obligations.KnownVectorTests := by
  refine ⟨fun pair s hs hd => ?due, fun pair okA okB differ l s hs hl ht hp => ?ended⟩
  case due =>
    obtain ⟨l, hqueued, hleg⟩ := queueTest_queues pair s
    exact ⟨_, l, exec_reedTestDue hs hd, hqueued, hleg⟩
  case ended =>
    have hpairs : pair < (endTest l pair (!okA || !okB) (differ || okA != okB) s).reeds.stat.length :=
      (stat_length_endTest l pair _ _ s).symm ▸ hp
    have hends := onlyEnds_markEngines false (!okA) (!okB) pair (endTest l pair (!okA || !okB) (differ || okA != okB) s)
    obtain ⟨hlast, hlog, hcount, -⟩ := markEngines_keeps false (!okA) (!okB) hpairs
    obtain ⟨hfaultA, hfaultB, hsuspectA, hsuspectB⟩ :=
      (enginesMarked false (!okA) (!okB) hpairs).of_before (pairStat_endTest l _ _ hp) (endTest_time l pair _ _ s)
    rw [endTest_reeds] at hlog hcount
    refine ⟨_, exec_reedTestResult okA okB differ hs hl ht, ((onlyEnds_endTest _ _ _ _ _).trans hends).stopped,
      hlast.trans (by rw [pairStat_endTest l _ _ hp]), hlog, fun hbad => hends.shown _ (shown_endTest_failed _ _ _ _ ?failed),
      fun hdiff => ⟨hends.shown _ (shown_endTest_differing _ _ _ _ hdiff), hcount.trans (if_pos hdiff)⟩,
      fun hsame => hcount.trans (if_neg (by simp [hsame])), fun hok => hfaultA.trans (by simp [hok]),
      fun hok => hfaultB.trans (by simp [hok]), fun hbad => ⟨hfaultA.trans (by simp [hbad]), hsuspectA (by simp [hbad])⟩,
      fun hbad => ⟨hfaultB.trans (by simp [hbad]), hsuspectB (by simp [hbad])⟩⟩
    case failed => rw [← Bool.not_and, hbad, Bool.not_false]

end Sys2Proof.Machine

/-! O31: compared segments and the results of votes. -/

namespace Sys2Proof.Machine

open Sys2Proof

/-! ### Segments compared (R225, R229) -/

theorem xorErr_nil (bs : List Byte) : xorErr bs [] = bs := by
  cases bs <;> rfl

/-- Without a trial the engines' copies differ from the output by their own errors alone. -/
theorem compareSegment_of_no_trial {l : Leg} {errA errB a b : List Byte} {s : State} (hmore : l.segment < l.segments)
    (ht : s.sampled.trial = none) (ha : a = xorErr (l.segmentOut l.segment) (takePad 64 errA))
    (hb : b = xorErr (l.segmentOut l.segment) errB) : compareSegment l errA errB s =
      if a = b then writeSegment l a s
      else toVote l [(l.pair.getD 0, l.segment, a, b)] none (noteDifference true s) := by
  have hforced : forcedEngine s = false := by simp [forcedEngine, ht]
  have hunit : (if l.segment = 0 && l.voteFor.isNone then reedUnit (l.pair.getD 0) s else (false, s)) = (false, s) := by
    rw [reedUnit_of_no_trial _ ht, ite_self]
  rw [compareSegment, if_neg (Nat.not_le.mpr hmore)]
  simp only [hunit, hforced, Bool.false_eq_true, if_false, xorErr_nil, ← ha, ← hb]
  rfl

/-- A segment that is not the last is written, and the leg goes on. -/
theorem writeSegment_goes_on {l : Leg} (a : List Byte) (s : State) (hmore : l.segment + 1 < l.segments) :
    writeSegment l a s = modLeg l.id (fun _ => { l with
      outs := modAt l.outs (l.segment % l.outputs) (· ++ a)
      diff := l.diff || (l.op == .check && a.any (· ≠ 0))
      segment := l.segment + 1 }) s :=
  if_neg (Nat.not_le.mpr hmore)

theorem pairLeg_pair {s : State} {p : Nat} {l : Leg} (h : pairLeg s p = some l) : l.pair = some p := by
  have hfound := List.find?_some (p := fun l : Leg => l.kind == .reed && l.pair == some p && !l.done && l.op != .test) h
  simp only [Bool.and_eq_true, beq_iff_eq] at hfound
  exact hfound.1.1.2

theorem exec_reedSegmentCompare {pair : Nat} {l : Leg} {s : State} (errA errB : List Byte) (hs : serving s = true)
    (hl : pairLeg s pair = some l) :
    exec (.reedSegmentCompare pair errA errB) s = .next (compareSegment l errA errB s) := by
  simp [exec, execReedSegmentCompare, hl, hs]

/-! ### Votes begun (R229, R230) -/

theorem mismatchCnt_placeVotes (s : State) : (placeVotes s).reeds.mismatchCnt = s.reeds.mismatchCnt :=
  (counts_of_tally (tally_placeVotes s)).2

theorem toVote_mismatchCnt (l : Leg) (saved : List (Nat × Nat × List Byte × List Byte)) (forced : Option Bool) (s : State) :
    (toVote l saved forced s).reeds.mismatchCnt = s.reeds.mismatchCnt := by
  unfold toVote
  split <;> rw [mismatchCnt_placeVotes] <;> rfl

/-- The vote on an ordinary leg that mismatched or hung. -/
def firstVote (l : Leg) (saved : List (Nat × Nat × List Byte × List Byte)) (forced : Option Bool) (s : State) : Vote where
  leg := l.fresh
  tick := s.drone.count
  slot := l.slot.getD 0
  pair := l.pair.getD 0
  saved := saved
  forced := forced
  tried := 0
  asked := []
  voter := none

/-- The leg stopped and its vote in the set, not yet placed. -/
def beginVote (l : Leg) (saved : List (Nat × Nat × List Byte × List Byte)) (forced : Option Bool) (s : State) : State :=
  { stopLeg l.id s with reeds := { s.reeds with votes := s.reeds.votes ++ [firstVote l saved forced s] } }

theorem toVote_of_ordinary {l : Leg} (saved : List (Nat × Nat × List Byte × List Byte)) (forced : Option Bool) (s : State)
    (hv : l.voteFor = none) : toVote l saved forced s = placeVotes (beginVote l saved forced s) := by
  simp only [toVote, hv]
  rfl

/-- An ordinary leg's mismatch begins a vote on it, with the saved copies. -/
theorem toVote_begins {l : Leg} (saved : List (Nat × Nat × List Byte × List Byte)) (forced : Option Bool) (s : State)
    (hv : l.voteFor = none) :
    ∃ v ∈ (toVote l saved forced s).reeds.votes, v.leg = l.fresh ∧ v.pair = l.pair.getD 0 ∧ v.saved = saved ∧
      v.forced = forced := by
  have hbegun : firstVote l saved forced s ∈ (beginVote l saved forced s).reeds.votes :=
    List.mem_append_right _ (List.mem_singleton_self _)
  obtain ⟨w, hw, hmatter⟩ := vote_of_tally (tally_placeVotes (beginVote l saved forced s)) hbegun
  rw [toVote_of_ordinary saved forced s hv]
  exact ⟨w, hw, (congrArg Vote.leg hmatter :), (congrArg Vote.pair hmatter :), (congrArg Vote.saved hmatter :),
    (congrArg Vote.forced hmatter :)⟩

/-! ### Votes decided (R231, R235, R244) -/

theorem exec_voteResult {leg : Nat} {s : State} (hs : serving s = true) :
    exec (.voteResult leg) s = .next (voteResult s leg) := by
  simp [exec, execVoteResult, hs]

/-- A decided vote before it is judged: it has left the set, the voter's outputs are the leg's, and the log records it. -/
def voteTaken (v : Vote) (ref : Leg) (s : State) : State :=
  logVote v (ref.pair.getD 0x1F) (outcomeOf v ref) (legOutputs { ref with id := v.leg.id }
    (modPair (ref.pair.getD 0x1F) (fun x => { x with votes := sat 255 (x.votes + 1) }) (dropVote v.leg.id (stopLeg ref.id s))))

/-- A vote on one unforced mismatch marks the engines that lost it. -/
theorem decideVote_marks {v : Vote} {p n : Nat} {a b : List Byte} (ref : Leg) (s : State) (hf : v.forced = none)
    (hsaved : v.saved = [(p, n, a, b)]) : decideVote v ref s =
      markEngines true (a != refSegment ref n) (b != refSegment ref n) p (voteTaken v ref s) := by
  simp [decideVote, hsaved, hf, judge, losers, markEngines, markEngine, raiseIf, voteTaken]

theorem reeds_legOutputs (l : Leg) (s : State) : (legOutputs l s).reeds = s.reeds :=
  same_of_alone .reeds (view_legOutputs _ _ rfl)

theorem onlyEnds_voteTaken (v : Vote) (ref : Leg) (s : State) : OnlyEnds (stopLeg ref.id s) (voteTaken v ref s) := by
  have hdropped : OnlyEnds (stopLeg ref.id s) (modPair (ref.pair.getD 0x1F) (fun x => { x with votes := sat 255 (x.votes + 1) })
      (dropVote v.leg.id (stopLeg ref.id s))) := .of_same
  have houts : ∀ l t, OnlyEnds t (legOutputs l t) := fun _ _ => .of_view (view_legOutputs _ _ rfl)
  exact hdropped.trans ((houts _ _).trans .of_same)

/-- The reeds once the vote is taken: it has left the set, its voter has one more vote, and the log shows it. -/
theorem voteTaken_reeds (v : Vote) (ref : Leg) (s : State) :
    (voteTaken v ref s).reeds =
      { s.reeds with
        stat := modAt s.reeds.stat (ref.pair.getD 0x1F) fun x => { x with votes := sat 255 (x.votes + 1) }
        votes := s.reeds.votes.filter fun x => x.leg.id != v.leg.id
        voteLog :=
          { tick := v.tick % 2 ^ 48, slot := v.slot, pair := v.pair, voter := ref.pair.getD 0x1F
            outcome := outcomeOf v ref } } := by
  rw [voteTaken, logVote, reeds_legOutputs]
  rfl

theorem pairStat_voteTaken (v : Vote) (ref : Leg) {p : Nat} {s : State} (hp : p < s.reeds.stat.length) :
    ∃ votes, pairStat (voteTaken v ref s) p = { pairStat s p with votes := votes } := by
  rw [pairStat, voteTaken_reeds]
  by_cases h : p = ref.pair.getD 0x1F
  · subst h
    exact ⟨_, nth_modAt_same PairStat.reset _ hp⟩
  · exact ⟨(pairStat s p).votes, nth_modAt_ne PairStat.reset _ _ h⟩

theorem voteTaken_time (v : Vote) (ref : Leg) (s : State) :
    (voteTaken v ref s).drone.count = s.drone.count ∧ (voteTaken v ref s).image = s.image :=
  ⟨same_of_alone .tick (by simp [voteTaken]), same_of_alone .image (by simp [voteTaken])⟩

/-- OUTCOME of a vote on one unforced mismatch of the leg's own pair. -/
theorem outcomeOf_unforced {v : Vote} {n : Nat} {a b : List Byte} (ref : Leg) (hf : v.forced = none)
    (hsaved : v.saved = [(v.pair, n, a, b)]) :
    outcomeOf v ref = if refSegment ref n = b then 0 else if refSegment ref n = a then 1 else 2 := by
  simp only [@eq_comm _ (refSegment ref n)]
  by_cases hb : b = refSegment ref n
  · simp [outcomeOf, hf, hsaved, losers, hb]
  · have hlost : (b != refSegment ref n) = true := bne_iff_ne.mpr hb
    by_cases ha : a = refSegment ref n
    · simp [outcomeOf, hf, hsaved, losers, hb, hlost, ha]
    · simp [outcomeOf, hf, hsaved, losers, hb, hlost, ha, bne_iff_ne.mpr ha]

/-- What is dropped from the set is the vote of its leg. -/
theorem no_vote_dropped (vs : List Vote) (id : Nat) : ∀ x ∈ vs.filter (fun v => v.leg.id != id), x.leg.id ≠ id :=
  fun x hx => by simpa using (List.mem_filter.mp hx).2

/-! ### Votes undecided (R233)

What an abandoned leg's work does to the reeds is to look decode rows up (R228). -/

/-- The reeds without the decode row cache. -/
def Reeds.sansRows (r : Reeds) : Reeds := { r with dmxKeys := [], dmxMisses := 0 }

theorem fields_of_sansRows {r r' : Reeds} (h : r'.sansRows = r.sansRows) :
    r'.votes = r.votes ∧ r'.voteLog = r.voteLog ∧ r'.stat = r.stat ∧ r'.failCnt = r.failCnt :=
  ⟨(congrArg Reeds.votes h :), (congrArg Reeds.voteLog h :), (congrArg Reeds.stat h :), (congrArg Reeds.failCnt h :)⟩

theorem sansRows_touchRows (s : State) (key : Nat × Nat × Nat × List Nat) :
    (touchRows key s).reeds.sansRows = s.reeds.sansRows := by
  unfold touchRows
  split <;> rfl

/-- What keeps the reeds keeps them without the cache. -/
theorem sansRows_of_view {s t : State} (h : view (alone .reeds) t = view (alone .reeds) s) :
    t.reeds.sansRows = s.reeds.sansRows := congrArg Reeds.sansRows (same_of_alone .reeds h)

theorem sansRows_advanceFetch (id key : Nat) (s : State) : (advanceFetch id key s).2.reeds.sansRows = s.reeds.sansRows := by
  have htouch : ∀ keys : List (Nat × Nat × Nat × List Nat),
      (keys.foldl (fun t k => touchRows k t) s).reeds.sansRows = s.reeds.sansRows := fun keys =>
    foldl_keeps (part := fun t => t.reeds.sansRows) keys s sansRows_touchRows
  have hmod : ∀ f t, (modJob id f t).reeds.sansRows = t.reeds.sansRows := fun _ _ =>
    sansRows_of_view (view_modJob _ _ _ rfl)
  have hmore : ∀ ws t, (moreWork id ws t).reeds.sansRows = t.reeds.sansRows := fun _ _ =>
    sansRows_of_view (view_moreWork _ _ _ rfl rfl)
  unfold advanceFetch
  dsimp only
  split
  · split
    · rfl
    · split
      · rw [hmod, htouch]
      · rw [hmore, hmod, htouch]
  · rfl

theorem sansRows_rebuildStripe (fuel pk : Nat) (s : State) : (rebuildStripe fuel pk s).reeds.sansRows = s.reeds.sansRows := by
  induction fuel generalizing s with
  | zero => rfl
  | succ n ih =>
    unfold rebuildStripe
    dsimp only
    split
    · split
      · rfl
      · split
        · exact ih _
        · exact (sansRows_advanceFetch _ _ _).trans (sansRows_of_view (view_wantJob _ _ _ _ _ _ _ _ rfl rfl))
    · rfl

theorem sansRows_copyStripe (pk : Nat) (s : State) : (copyStripe pk s).reeds.sansRows = s.reeds.sansRows := by
  have hask : (smcAsk pk 3 (.background .migration) s).2.reeds.sansRows = s.reeds.sansRows :=
    sansRows_of_view (by simp)
  unfold copyStripe
  dsimp only
  split
  · split
    · rfl
    · split
      · exact hask
      · refine ((sansRows_advanceFetch _ _ _).trans ?_).trans hask
        exact (sansRows_of_view (view_modMig _ _ _ rfl)).trans (sansRows_of_view (view_wantJob _ _ _ _ _ _ _ _ rfl rfl))
  · rfl

theorem sansRows_cancelJob (id : Nat) (s : State) : (cancelJob id s).reeds.sansRows = s.reeds.sansRows :=
  sansRows_of_view (view_cancelJob _ _ rfl rfl rfl rfl)

theorem sansRows_abandonWork (l : Leg) (s : State) : (abandonWork l s).reeds.sansRows = s.reeds.sansRows := by
  have hhost : ∀ seq first, (abandonHost seq first l s).reeds.sansRows = s.reeds.sansRows := fun _ _ =>
    sansRows_of_view (view_abandonHost _ _ _ _ rfl rfl rfl)
  have hreplan : ∀ key root, (replan key root 0 (cancelJob l.job s)).reeds.sansRows = s.reeds.sansRows := fun _ _ =>
    (sansRows_of_view (view_replan _ _ _ _ rfl rfl)).trans (sansRows_cancelJob _ s)
  have hcopy : ∀ pk f, (copyStripe pk (modMig pk f (cancelJob l.job s))).reeds.sansRows = s.reeds.sansRows := fun _ _ =>
    (sansRows_copyStripe _ _).trans ((sansRows_of_view (view_modMig _ _ _ rfl)).trans (sansRows_cancelJob _ s))
  unfold abandonWork
  split
  · rfl
  · dsimp only
    split
    · exact hhost _ _
    · exact hhost _ _
    · exact hhost _ _
    · exact hreplan _ _
    · exact hreplan _ _
    · exact (sansRows_rebuildStripe _ _ _).trans (sansRows_cancelJob _ s)
    · exact hcopy _ _
    · exact hcopy _ _
    · exact sansRows_of_view (view_queueWorks _ _ _ _ _ rfl)
    · exact sansRows_cancelJob _ s

/-- Work abandoned clears no event. -/
theorem keepsShown_abandonWork (l : Leg) (s : State) : KeepsShown s (abandonWork l s) := by
  have hview : ∀ {u t : State}, view (alone .events) t = view (alone .events) u → KeepsShown u t := fun h =>
    .of_events (same_of_alone .events h)
  have hcancel := keepsShown_cancelJob l.job s
  have hcopy : ∀ pk f, KeepsShown s (copyStripe pk (modMig pk f (cancelJob l.job s))) := fun _ _ =>
    hcancel.trans (hview (by simp))
  unfold abandonWork
  split
  · exact hview rfl
  · dsimp only
    split
    · exact hview (by simp)
    · exact hview (by simp)
    · exact hview (by simp)
    · exact hcancel.trans (hview (by simp))
    · exact hcancel.trans (hview (by simp))
    · exact hcancel.trans (hview (by simp))
    · exact hcopy _ _
    · exact hcopy _ _
    · exact hview (by simp)
    · exact hcancel

/-- A vote without a result leaves the set, logged and reported. -/
def voteFails (v : Vote) (s : State) : State := raise 0x902 (logVote v 0x1F 3 (dropVote v.leg.id s))

/-- The leg of an undecided vote, to be placed again. -/
def Leg.again (l : Leg) : Leg := { l with attempts := l.attempts + 1, avoid := l.slot, slot := none, pair := none }

theorem undecided_of_attempts_left {v : Vote} (s : State) (h : v.leg.attempts < 3) :
    undecided v s = requeue (.leg v.leg.again) (voteFails v s) := by
  simp [undecided, h, voteFails, Leg.again]

/-- The leg of a vote that failed for good, counted and reported. -/
def legFails (s : State) : State := raise 0x907 { s with reeds := { s.reeds with failCnt := s.reeds.failCnt + 1 } }

theorem undecided_of_no_attempt_left {v : Vote} (s : State) (h : 3 ≤ v.leg.attempts) :
    undecided v s = abandonWork v.leg (legFails (voteFails v s)) := by
  simp [undecided, Nat.not_lt.mpr h, voteFails, legFails]

theorem voteResult_of_voter {leg : Nat} {v : Vote} {ref : Leg} {s : State}
    (hv : s.reeds.votes.find? (fun v => v.leg.id == leg) = some v)
    (hl : s.drone.running.find? (fun l => l.voteFor == some leg) = some ref) (hdone : ref.done = true) :
    voteResult s leg = decideVote v ref s := by
  simp [voteResult, hv, hl, hdone]

theorem voteResult_of_no_voter {leg : Nat} {v : Vote} {s : State}
    (hv : s.reeds.votes.find? (fun v => v.leg.id == leg) = some v)
    (hl : s.drone.running.find? (fun l => l.voteFor == some leg) = none) (hvoter : v.voter = none) :
    voteResult s leg = undecided v s := by
  simp [voteResult, hv, hl, hvoter]

theorem leg_id_of_vote {leg : Nat} {v : Vote} {vs : List Vote} (hv : vs.find? (fun v => v.leg.id == leg) = some v) :
    v.leg.id = leg := by
  simpa using List.find?_some (p := fun v : Vote => v.leg.id == leg) hv

theorem mem_insertBy_self {α : Type} (le : α → α → Bool) (x : α) (l : List α) : x ∈ insertBy le x l := by
  induction l with
  | nil => exact List.mem_singleton_self x
  | cons y r ih =>
    unfold insertBy
    split
    · exact List.mem_cons_of_mem y ih
    · exact List.mem_cons_self

/-- A failed vote leaves the set and is reported and logged without a voter. -/
theorem voteFails_records (v : Vote) (s : State) :
    (∀ x ∈ (voteFails v s).reeds.votes, x.leg.id ≠ v.leg.id) ∧ shown (voteFails v s) 0x902 = true ∧
      (voteFails v s).reeds.voteLog.outcome = 3 ∧ (voteFails v s).reeds.voteLog.voter = 0x1F ∧
      (voteFails v s).reeds.stat = s.reeds.stat :=
  ⟨no_vote_dropped _ _, shown_raise_same _ _, rfl, rfl, rfl⟩

/-- What a failed vote records stands, whatever becomes of its leg. -/
theorem undecided_keeps (v : Vote) (s : State) :
    (undecided v s).reeds.votes = (voteFails v s).reeds.votes ∧ (undecided v s).reeds.voteLog = (voteFails v s).reeds.voteLog ∧
      (undecided v s).reeds.stat = (voteFails v s).reeds.stat ∧ KeepsShown (voteFails v s) (undecided v s) := by
  by_cases h : v.leg.attempts < 3
  · rw [undecided_of_attempts_left s h]
    exact ⟨rfl, rfl, rfl, .of_events rfl⟩
  · rw [undecided_of_no_attempt_left s (Nat.not_lt.mp h)]
    obtain ⟨hvotes, hlog, hstat, -⟩ := fields_of_sansRows (sansRows_abandonWork v.leg (legFails (voteFails v s)))
    have hraised : KeepsShown (voteFails v s) (legFails (voteFails v s)) := keepsShown_raise 0x907 _
    exact ⟨hvotes, hlog, hstat, hraised.trans (keepsShown_abandonWork _ _)⟩

/-! ### O31 -/

/-- Equal copies are written, and the other legs of the caravan run on. -/
theorem writeSegment_writes {l : Leg} (a : List Byte) (s : State) (hmore : l.segment + 1 < l.segments) :
    (∀ x ∈ (writeSegment l a s).drone.running, x.id = l.id →
        x.segment = l.segment + 1 ∧ x.outs = modAt l.outs (l.segment % l.outputs) (· ++ a)) ∧
      (writeSegment l a s).reeds = s.reeds ∧ (writeSegment l a s).events = s.events ∧
      ∀ x ∈ s.drone.running, x.id ≠ l.id → x ∈ (writeSegment l a s).drone.running := by
  rw [writeSegment_goes_on a s hmore]
  refine ⟨fun x hx hid => ?_, rfl, rfl, fun x hx hid => mem_modLeg.mpr ⟨x, hx, if_neg hid⟩⟩
  obtain ⟨y, -, rfl⟩ := mem_modLeg.mp hx
  split at hid
  · next h => simp [h]
  · next h => exact absurd hid h

/-- Different copies stop the leg, are counted and reported, and go to a vote with an ordinary leg. -/
theorem toVote_of_difference {l : Leg} {p : Nat} (a b : List Byte) (s : State) (hp : l.pair = some p) :
    let t := toVote l [(l.pair.getD 0, l.segment, a, b)] none (noteDifference true s)
    (∀ x ∈ t.drone.running, x.id ≠ l.id) ∧ t.reeds.mismatchCnt = s.reeds.mismatchCnt + 1 ∧ shown t 0x900 = true ∧
      (l.voteFor = none → ∃ v ∈ t.reeds.votes, v.leg = l.fresh ∧ v.pair = p ∧ v.saved = [(p, l.segment, a, b)] ∧
        v.forced = none) := by
  intro t
  have hends : OnlyEnds (stopLeg l.id (noteDifference true s)) t := onlyEnds_toVote _ _ _ _
  have hreeds := noteDifference_counts true s
  refine ⟨hends.stopped, ?_, hends.shown 0x900 (shown_raise_same _ _), fun hv => ?_⟩
  · rw [toVote_mismatchCnt, hreeds]
    rfl
  · obtain ⟨v, hmem, hleg, hpair, hsaved, hforced⟩ :=
      toVote_begins [(l.pair.getD 0, l.segment, a, b)] none (noteDifference true s) hv
    rw [hp, Option.getD_some] at hpair hsaved
    exact ⟨v, hmem, hleg, hpair, hsaved, hforced⟩

/-- Settles O31: a compare writes or begins a vote; a decided vote marks the losers; an undecided one fails. -/
theorem segmentComparesAndVotes : Obligations.SegmentComparesAndVotes := by
  refine ⟨fun pair errA errB a b l s hs hl hmore ht ha hb => ?compared,
    fun leg n a b v ref s hs hv hl hdone hf hsaved hp => ?decided, fun leg v s hs hv hl hvoter => ?undecided⟩
  case compared =>
    refine ⟨_, exec_reedSegmentCompare errA errB hs hl, fun heq => ?equal, fun hne => ?different⟩
    case equal =>
      rw [compareSegment_of_no_trial (Nat.lt_of_succ_lt hmore) ht ha hb, if_pos heq]
      exact writeSegment_writes a s hmore
    case different =>
      rw [compareSegment_of_no_trial (Nat.lt_of_succ_lt hmore) ht ha hb, if_neg hne]
      exact toVote_of_difference a b s (pairLeg_pair hl)
  case decided =>
    have hid := leg_id_of_vote hv
    have hpairs : v.pair < (voteTaken v ref s).reeds.stat.length := by
      rw [voteTaken_reeds]
      exact (List.length_modify _ _ _).symm ▸ hp
    have hends := onlyEnds_markEngines true (a != refSegment ref n) (b != refSegment ref n) v.pair (voteTaken v ref s)
    obtain ⟨-, hlog, -, hgone⟩ := markEngines_keeps true (a != refSegment ref n) (b != refSegment ref n) hpairs
    obtain ⟨votes, hpair⟩ := pairStat_voteTaken v ref hp
    obtain ⟨hfaultA, hfaultB, -, -⟩ :=
      (enginesMarked true (a != refSegment ref n) (b != refSegment ref n) hpairs).of_before hpair (voteTaken_time v ref s)
    rw [voteTaken_reeds] at hlog hgone
    rw [exec_voteResult hs, voteResult_of_voter hv hl hdone, decideVote_marks ref s hf hsaved]
    refine ⟨_, rfl, hgone leg (hid ▸ no_vote_dropped _ _), ((onlyEnds_voteTaken v ref s).trans hends).stopped,
      by rw [hlog], by rw [hlog], by rw [hlog], by rw [hlog]; exact outcomeOf_unforced ref hf hsaved,
      fun hlost => ?lostA, fun hlost => ?lostB⟩
    case lostA =>
      have hbne := bne_iff_ne.mpr hlost
      exact ⟨shown_markEngines_vote _ _ (.inl hbne), hfaultA.trans (if_pos hbne)⟩
    case lostB =>
      have hbne := bne_iff_ne.mpr hlost
      exact ⟨shown_markEngines_vote _ _ (.inr hbne), hfaultB.trans (if_pos hbne)⟩
  case undecided =>
    have hid := leg_id_of_vote hv
    obtain ⟨hgone, hshown, houtcome, hnone, hsame⟩ := voteFails_records v s
    obtain ⟨hvotes, hlog, hstat, hkeeps⟩ := undecided_keeps v s
    rw [exec_voteResult hs, voteResult_of_no_voter hv hl hvoter]
    refine ⟨_, rfl, fun x hx => hid ▸ hgone x (hvotes ▸ hx), hkeeps _ hshown, hlog ▸ houtcome, hlog ▸ hnone,
      hstat.trans hsame, fun hleft => ?again, fun hspent => ?failed⟩
    case again =>
      rw [undecided_of_attempts_left s hleft]
      exact ⟨v.leg.again, mem_insertBy_self _ _ _, hid, rfl, rfl, rfl⟩
    case failed =>
      rw [undecided_of_no_attempt_left s hspent]
      obtain ⟨-, -, -, hfail⟩ := fields_of_sansRows (sansRows_abandonWork v.leg (legFails (voteFails v s)))
      exact ⟨hfail, keepsShown_abandonWork _ _ _ (shown_raise_same _ _)⟩

end Sys2Proof.Machine

/-! The stripe map cache: what replacement and lookups leave, and a lookup that hits. -/

namespace Sys2Proof.Machine

open Sys2Proof

/-! ### What replacement leaves (R297) -/

/-- The stripe map cache without its lines and the counters. -/
def Smc.sansLines (c : Smc) : Smc := { c with lines := [], side := [], evict := [], cnt := [] }

theorem fields_of_sansLines {c d : Smc} (h : d.sansLines = c.sansLines) :
    d.fills = c.fills ∧ d.queue = c.queue ∧ d.run = c.run :=
  ⟨(congrArg Smc.fills h :), (congrArg Smc.queue h :), (congrArg Smc.run h :)⟩

theorem sansLines_evictLine (i : Nat) (c : Smc) : (evictLine i c).sansLines = c.sansLines := by
  unfold evictLine
  split
  · rfl
  · split <;> rfl

theorem sansLines_takeWay {set : Nat} {c : Smc} {r : Nat × Smc} (h : takeWay set c = some r) :
    r.2.sansLines = c.sansLines := by
  unfold takeWay at h
  dsimp only at h
  split at h
  · exact Option.some.inj h ▸ rfl
  · split at h
    · contradiction
    · split at h
      · contradiction
      · split at h
        · contradiction
        · exact Option.some.inj h ▸ sansLines_evictLine _ _

theorem sansLines_installLine {l : SmcLine} {age : Nat} {c : Smc} {r : Nat × Smc} (h : installLine l age c = some r) :
    r.2.sansLines = c.sansLines := by
  obtain ⟨x, hx, rfl⟩ := Option.map_eq_some_iff.mp h
  exact (sansLines_takeWay hx :)

/-! ### What a lookup leaves (R292 to R300) -/

/-- The stripe map cache without what a lookup may change: lines, fills, ports, parked lookups and counters. -/
def Smc.sansLookups (c : Smc) : Smc := { c.sansLines with fills := [], ports := [], parked := [] }

theorem sansLookups_of_sansLines {c d : Smc} (h : d.sansLines = c.sansLines) : d.sansLookups = c.sansLookups :=
  congrArg (fun c : Smc => { c with fills := [], ports := [], parked := [] }) h

theorem sansLookups_missSub (vol p port : Nat) (way : Option Nat) (stream : Bool) (who : Requester) (s : State) :
    (missSub vol p port way stream who s).2.smc.sansLookups = s.smc.sansLookups := by
  unfold missSub
  dsimp only
  (repeat' split) <;> rfl

theorem sansLookups_lookWay (i : Nat) (l : SmcLine) (vol p port : Nat) (stream : Bool) (who : Requester) (s : State) :
    (lookWay i l vol p port stream who s).2.smc.sansLookups = s.smc.sansLookups := by
  unfold lookWay
  split
  · rfl
  · split <;> exact sansLookups_missSub ..

theorem sansLookups_lookCore (vol p port : Nat) (stream : Bool) (who : Requester) (s : State) :
    (lookCore vol p port stream who s).2.smc.sansLookups = s.smc.sansLookups := by
  unfold lookCore
  dsimp only
  split
  case h_1 => exact sansLookups_lookWay ..
  case h_2 =>
    split
    case h_1 =>
      split
      case h_1 => rfl
      case h_2 hi =>
        have hway := sansLookups_of_sansLines (sansLines_installLine hi)
        split
        · exact hway
        · exact (sansLookups_lookWay ..).trans hway
    case h_2 =>
      split
      case h_1 =>
        split
        case h_1 => rfl
        case h_2 hi =>
          have hway := sansLookups_of_sansLines (sansLines_installLine hi)
          split
          · exact hway
          · exact (sansLookups_lookWay ..).trans hway
      case h_2 =>
        split
        · exact sansLookups_missSub ..
        · split
          case h_1 => rfl
          case h_2 ht => exact (sansLookups_missSub ..).trans (sansLookups_of_sansLines (sansLines_takeWay ht))

/-- A prefetch starts a fill and changes nothing else. -/
theorem prefetchLine_keeps (vol g : Nat) (s : State) :
    (prefetchLine vol g s).smc.sansLookups = s.smc.sansLookups ∧ (prefetchLine vol g s).smc.parked = s.smc.parked := by
  unfold prefetchLine
  dsimp only
  split <;> exact ⟨rfl, rfl⟩

theorem afterLook_keeps (vol g port : Nat) (s : State) :
    (afterLook vol g port s).smc.sansLookups = s.smc.sansLookups ∧ (afterLook vol g port s).smc.parked = s.smc.parked := by
  unfold afterLook
  split
  · obtain ⟨hnear, hnearParked⟩ := prefetchLine_keeps vol (g + 1) s
    obtain ⟨hfar, hfarParked⟩ := prefetchLine_keeps vol (g + 2) (prefetchLine vol (g + 1) s)
    exact ⟨hfar.trans hnear, hfarParked.trans hnearParked⟩
  · exact ⟨rfl, rfl⟩

theorem bornPage_smc (k : Nat) (s : State) : (bornPage k s).smc = s.smc := by
  unfold bornPage
  split <;> rfl

theorem sansLookups_smcLookup (vol p port : Nat) (stream : Bool) (who : Requester) (s : State) :
    (smcLookup vol p port stream who s).2.smc.sansLookups = s.smc.sansLookups := by
  unfold smcLookup
  dsimp only
  split
  case isTrue => rfl
  case isFalse =>
    split
    case h_1 => rfl
    case h_2 => rfl
    case h_3 =>
      refine (afterLook_keeps ..).1.trans ((sansLookups_lookCore ..).trans ?_)
      rw [bornPage_smc]
      rfl

/-! ### A lookup that hits (R294, R296) -/

theorem bornPage_of_here {k : Nat} {s : State} (h : pageHere s k = true) : bornPage k s = s := by
  have hpage : (tabFind s.ledger.pages (pageOf k)).isSome = true := Option.isSome_of_any h
  simp [bornPage, Option.isNone_eq_false_iff.mpr hpage]

/-- The state in which a port's scan detector has seen a lookup (R298). -/
def lookSeen (vol g port : Nat) (s : State) : State :=
  { s with smc := { s.smc with ports := modAt s.smc.ports port (portLook s.smc.seqDetEn vol g) } }

theorem lookCore_of_valid {vol p i : Nat} (port : Nat) (stream : Bool) (who : Requester) {l : SmcLine} {s : State}
    (hline : findLine s.smc vol (p / 8) = some (i, l)) (hhas : l.has (p % 8) = true) :
    lookCore vol p port stream who s = (.hit, { s with smc := hitWay i l stream s.smc }) := by
  simp only [lookCore, hline, lookWay, hhas, if_true]

/-- A lookup that its port accepts, and that hits, is a hit. -/
theorem smcLookup_of_hit {vol p port : Nat} {stream : Bool} {who : Requester} {s : State} (hready : s.smc.ready = true)
    (hopen : portHeld s.smc port = false) :
    let s1 := bornPage (parcelKey vol p) (lookSeen vol (p / 8) port s)
    let r := lookCore vol p port (stream || (scanning s1.smc port vol (p / 8) && !who.preloads)) who s1
    r.1 = .hit → smcLookup vol p port stream who s = (.hit, afterLook vol (p / 8) port r.2) := by
  intro s1 r hhit
  rw [smcLookup, if_neg (by simp [hready, hopen])]
  dsimp only
  split
  case h_1 h => exact absurd (hhit.symm.trans h) (by decide)
  case h_2 h => exact absurd (hhit.symm.trans h) (by decide)
  case h_3 => exact Prod.ext hhit rfl

/-- An accepted lookup of a valid sub-block whose page is resident hits, and parks nothing. -/
theorem smcLookup_hits {vol p port i : Nat} (stream : Bool) (who : Requester) {l : SmcLine} {s : State}
    (hready : s.smc.ready = true) (hopen : portHeld s.smc port = false) (hhere : pageHere s (parcelKey vol p) = true)
    (hline : findLine s.smc vol (p / 8) = some (i, l)) (hhas : l.has (p % 8) = true) :
    ∃ t, smcLookup vol p port stream who s = (.hit, t) ∧ t.smc.parked = s.smc.parked := by
  have hborn : bornPage (parcelKey vol p) (lookSeen vol (p / 8) port s) = lookSeen vol (p / 8) port s := bornPage_of_here hhere
  have hcore := fun st => lookCore_of_valid (s := lookSeen vol (p / 8) port s) port st who hline hhas
  have hlook := smcLookup_of_hit (vol := vol) (p := p) (stream := stream) (who := who) hready hopen
  rw [hborn] at hlook
  dsimp only at hlook
  rw [hcore] at hlook
  exact ⟨_, hlook rfl, (afterLook_keeps ..).2⟩

end Sys2Proof.Machine

/-! O37: preloads and unlocks. -/

namespace Sys2Proof.Machine

open Sys2Proof

/-! ### What a running operation leaves (R307, R308) -/

/-- A PF's registers without OVER. -/
def SmcPf.sansOvers (x : SmcPf) : SmcPf := { x with overs := 0 }

/-- An operation without the part of its range that is still to be covered. -/
def Preload.sansRange (r : Preload) : Preload := { r with first := 0, count := 0 }

/-- The stripe map cache without what a running operation may change: what lookups change, OVER and the rest of its range. -/
def Smc.sansProgress (c : Smc) : Smc :=
  { c.sansLookups with pf0 := c.pf0.sansOvers, pf1 := c.pf1.sansOvers, run := c.run.map Preload.sansRange }

theorem sansProgress_of_sansLookups {c d : Smc} (h : d.sansLookups = c.sansLookups) : d.sansProgress = c.sansProgress :=
  congrArg (fun c : Smc =>
    { c with pf0 := c.pf0.sansOvers, pf1 := c.pf1.sansOvers, run := c.run.map Preload.sansRange }) h

theorem smcPf_sansProgress (c : Smc) (f : Nat) : smcPf c.sansProgress f = (smcPf c f).sansOvers := by
  unfold smcPf
  split <;> rfl

theorem fields_of_sansProgress {c d : Smc} (h : d.sansProgress = c.sansProgress) (f : Nat) :
    d.heldOp = c.heldOp ∧ d.run.map Preload.sansRange = c.run.map Preload.sansRange ∧
      (smcPf d f).sansOvers = (smcPf c f).sansOvers :=
  ⟨(congrArg Smc.heldOp h :), (congrArg Smc.run h :), by rw [← smcPf_sansProgress, h, smcPf_sansProgress]⟩

theorem sansLookups_unlockLine (vol g : Nat) (c : Smc) : (unlockLine vol g c).sansLookups = c.sansLookups := by
  unfold unlockLine
  split
  · rfl
  · split <;> rfl

theorem sansProgress_overs (f : Nat) (c : Smc) :
    (modSmcPf f (fun x => { x with overs := x.overs + 1 }) c).sansProgress = c.sansProgress := by
  unfold modSmcPf
  split <;> rfl

theorem sansProgress_lockLine (pf vol g : Nat) (c : Smc) : (lockLine pf vol g c).sansProgress = c.sansProgress := by
  unfold lockLine
  split
  · rfl
  · split
    · rfl
    · split
      · rfl
      · exact sansProgress_overs pf _

/-- An operation that goes on to its next parcel, its line locked or not, is the same operation. -/
theorem sansProgress_next {c d : Smc} {r : Preload} (first count : Nat) (hd : d.sansProgress = c.sansProgress)
    (hr : c.run = some r) : { d with run := some { r with first := first, count := count } }.sansProgress = c.sansProgress := by
  have hrun : d.run.map Preload.sansRange = some r.sansRange := by rw [(fields_of_sansProgress hd 0).2.1, hr]; rfl
  have hsame : { d with run := some { r with first := first, count := count } }.sansProgress = d.sansProgress := by
    simp only [Smc.sansProgress, hrun]
    rfl
  exact hsame.trans hd

/-- The state in which an operation has passed its next parcel, a line that is complete locked (R308). -/
def passParcel (r : Preload) (s : State) : State :=
  let c := if r.op = 1 ∧ (r.first % 8 = 7 ∨ r.count = 1) then lockLine r.pf r.vol (r.first / 8) s.smc else s.smc
  { s with smc := { c with run := some { r with first := r.first + 1, count := r.count - 1 } } }

theorem sansProgress_passParcel {r : Preload} {s t : State} (hr : s.smc.run = some r)
    (ht : t.smc.sansProgress = s.smc.sansProgress) : (passParcel r t).smc.sansProgress = s.smc.sansProgress := by
  refine sansProgress_next _ _ ?_ hr
  split
  · exact (sansProgress_lockLine ..).trans ht
  · exact ht

/-- An operation goes on: an unlock, or a parcel that is loaded or hit, passes on to the next one. -/
theorem preloadRun_succ (n : Nat) {r : Preload} {s : State} (hr : s.smc.run = some r) : preloadRun (n + 1) s =
    let looked := smcLookup r.vol r.first 3 false (.preload r.pf) s
    if r.count = 0 || preloadWaits s.smc then s
    else if r.op = 2 then preloadRun n (passParcel r { s with smc := unlockLine r.vol (r.first / 8) s.smc })
    else if loaded s.smc r.vol r.first ∧ r.first % 8 ≠ 0 then preloadRun n (passParcel r s)
    else if looked.1 = .hit then preloadRun n (passParcel r looked.2) else looked.2 := by
  simp only [preloadRun, hr]
  rcases smcLookup r.vol r.first 3 false (.preload r.pf) s with ⟨looked, t⟩
  cases looked <;> rfl

theorem sansProgress_preloadRun (n : Nat) (s : State) : (preloadRun n s).smc.sansProgress = s.smc.sansProgress := by
  induction n generalizing s with
  | zero => rfl
  | succ n ih =>
    rcases hr : s.smc.run with _ | r
    · simp only [preloadRun, hr]
    · have hpass : ∀ t : State, t.smc.sansProgress = s.smc.sansProgress →
          (preloadRun n (passParcel r t)).smc.sansProgress = s.smc.sansProgress := fun t ht =>
        (ih _).trans (sansProgress_passParcel hr ht)
      have hlook := sansProgress_of_sansLookups (sansLookups_smcLookup r.vol r.first 3 false (.preload r.pf) s)
      rw [preloadRun_succ n hr]
      split
      · rfl
      · split
        · exact hpass _ (sansProgress_of_sansLookups (sansLookups_unlockLine r.vol (r.first / 8) s.smc))
        · split
          · exact hpass s rfl
          · dsimp only
            split
            · exact hpass _ hlook
            · exact hlook

theorem sansProgress_preloadStep (s : State) : (preloadStep s).smc.sansProgress = s.smc.sansProgress := by
  unfold preloadStep
  split
  · rfl
  · exact sansProgress_preloadRun _ _

theorem preloadStep_of_no_run {s : State} (h : s.smc.run = none) : preloadStep s = s := by
  simp [preloadStep, h]

/-! ### An operation begins (R307, R309) -/

/-- A refused operation sets ERR and ends with SMC_PRELOAD_DONE. -/
theorem beginPreload_refused {r : Preload} {s : State} (h : preloadRefused s r.pf r.vol = true) :
    let t := beginPreload r s
    t.smc.run = none ∧ smcPf t.smc r.pf = { smcPf s.smc r.pf with err := true, overs := 0 } ∧ shown t 0xB61 = true ∧
      t.smc.lines = s.smc.lines ∧ t.smc.heldOp = s.smc.heldOp := by
  intro t
  let c := modSmcPf r.pf (fun x => { x with err := true, overs := 0 }) { s.smc with run := none }
  have ht : t = raise 0xB61 { s with smc := c } := if_pos h
  obtain ⟨hrun, hheld, hlines⟩ :=
    modSmcPf_frame r.pf (fun x => { x with err := true, overs := 0 }) { s.smc with run := none }
  rw [ht]
  exact ⟨hrun, smcPf_modSmcPf .., shown_raise_same .., hlines, hheld⟩

/-- A permitted operation runs; of its PF's registers it clears ERR and counts OVER. -/
theorem beginPreload_permitted {r : Preload} {s : State} (h : preloadRefused s r.pf r.vol = false) :
    let t := beginPreload r s
    t.smc.run.map Preload.sansRange = some r.sansRange ∧
      (smcPf t.smc r.pf).sansOvers = { (smcPf s.smc r.pf).sansOvers with err := false } ∧ t.smc.heldOp = s.smc.heldOp := by
  intro t
  let n := parcelsOf s r.vol
  let lo := r.first / 8 * 8
  let q : Preload :=
    { r with first := lo, count := if r.first < n then min n ((r.first + r.count + 7) / 8 * 8) - lo else 0 }
  let c := modSmcPf r.pf (fun x => { x with err := false, overs := 0 }) { s.smc with run := some q }
  have ht : t = preloadStep { s with smc := c } := if_neg (by simp [h])
  obtain ⟨hrun, hheld, -⟩ := modSmcPf_frame r.pf (fun x => { x with err := false, overs := 0 }) { s.smc with run := some q }
  obtain ⟨hheld', hrun', hpf⟩ := fields_of_sansProgress (sansProgress_preloadStep { s with smc := c }) r.pf
  rw [ht]
  refine ⟨hrun'.trans ?_, hpf.trans ?_, hheld'.trans hheld⟩
  · rw [show ({ s with smc := c } : State).smc.run = some q from hrun]
    rfl
  · exact congrArg SmcPf.sansOvers (smcPf_modSmcPf ..)

/-- An operation that runs is the one begun, whatever of its range is left. -/
theorem names_of_run {o : Option Preload} {r : Preload} (h : o.map Preload.sansRange = some r.sansRange) :
    o.map (·.pf) = some r.pf ∧ o.map (·.op) = some r.op := by
  obtain ⟨q, rfl, hq⟩ := Option.map_eq_some_iff.mp h
  exact ⟨(congrArg (fun x : Preload => some x.pf) hq :), (congrArg (fun x : Preload => some x.op) hq :)⟩

/-! ### SMC_PRELOAD written with GO (R307, R310) -/

/-- The registers of a PF after SMC_PRELOAD is written with an OP that is used. -/
def preloadWritten (f : Nat) (w : Word) (s : State) : State :=
  { s with smc := modSmcPf f (fun x => { x with op := bits w 1 2, count := bits w 8 24 }) s.smc }

/-- The operation that a GO asks for, its range sampled. -/
def orderedPreload (f : Nat) (w : Word) (s : State) : Preload where
  pf := f
  op := bits w 1 2
  vol := (smcPf s.smc f).baseVol
  first := (smcPf s.smc f).baseParcel
  count := bits w 8 24

theorem smcPf_preloadWritten (f : Nat) (w : Word) (s : State) :
    smcPf (preloadWritten f w s).smc f = { smcPf s.smc f with op := bits w 1 2, count := bits w 8 24 } :=
  smcPf_modSmcPf ..

theorem preloadWritten_frame (f : Nat) (w : Word) (s : State) :
    (preloadWritten f w s).smc.run = s.smc.run ∧ (preloadWritten f w s).smc.heldOp = s.smc.heldOp ∧
      (preloadWritten f w s).smc.lines = s.smc.lines :=
  modSmcPf_frame ..

/-- A GO of a PF that has no operation starts a held one where none runs, then begins its own or holds it. -/
theorem writePreload_of_go {f : Nat} {w : Word} {s : State} (hgo : bit w 0 = true) (hop : bits w 1 2 ≠ 3)
    (hrun : ∀ q, s.smc.run = some q → q.pf ≠ f) (hheld : ∀ r, s.smc.heldOp = some r → r.pf ≠ f) :
    writePreload f w s =
      let s2 := startHeld (preloadWritten f w s)
      if s2.smc.run.isSome then { s2 with smc := { s2.smc with heldOp := some (orderedPreload f w s) } }
      else beginPreload (orderedPreload f w s) s2 := by
  have hnone : ∀ {o : Option Preload}, (∀ r, o = some r → r.pf ≠ f) → o.any (fun r => r.pf == f) = false := fun h => by
    simpa [Option.any_eq_false] using h
  have hpf := smcPf_preloadWritten f w s
  rw [preloadWritten] at hpf
  rw [writePreload]
  simp only [if_neg hop, hnone hrun, hnone hheld, hgo, hpf]
  rfl

theorem exec_smcPreloadHeldStart (s : State) : exec .smcPreloadHeldStart s = .next (startHeld s) := rfl

theorem startHeld_of_none_held {s : State} (h : s.smc.heldOp = none) : startHeld s = s := by
  unfold startHeld
  split
  · next h' => simp [h] at h'
  · rfl

theorem startHeld_of_run {s : State} {q : Preload} (h : s.smc.run = some q) : startHeld s = s := by
  unfold startHeld
  split
  · next h' _ => simp [h] at h'
  · rfl

theorem startHeld_of_held {s : State} {r : Preload} (hrun : s.smc.run = none) (hheld : s.smc.heldOp = some r) :
    startHeld s = beginPreload r { s with smc := { s.smc with heldOp := none } } := by
  simp [startHeld, hrun, hheld]

/-- The rows of SMC_PRELOAD name an OP that is used. -/
theorem op_used_of_row {i : Instr} {f : Nat} {w : Word} (hi : (i = .smcPreload f w ∧ bits w 1 2 = 0) ∨
    (i = .smcPreloadLock f w ∧ bits w 1 2 = 1) ∨ (i = .smcUnlock f w ∧ bits w 1 2 = 2)) : bits w 1 2 ≠ 3 := by
  omega

/-- A GO where nothing runs and nothing is held begins its operation. -/
theorem writePreload_begins {f : Nat} {w : Word} {s : State} (hgo : bit w 0 = true) (hop : bits w 1 2 ≠ 3)
    (hrun : s.smc.run = none) (hheld : s.smc.heldOp = none) :
    writePreload f w s = beginPreload (orderedPreload f w s) (preloadWritten f w s) := by
  obtain ⟨hrun', hheld', -⟩ := preloadWritten_frame f w s
  rw [writePreload_of_go hgo hop (by simp [hrun]) (by simp [hheld]), startHeld_of_none_held (hheld'.trans hheld)]
  exact if_neg (by simp [hrun', hrun])

/-- A GO behind the other PF's operation is held with its range sampled. -/
theorem writePreload_holds {f : Nat} {w : Word} {s : State} {q : Preload} (hgo : bit w 0 = true) (hop : bits w 1 2 ≠ 3)
    (hrun : s.smc.run = some q) (hother : q.pf ≠ f) (hheld : ∀ r, s.smc.heldOp = some r → r.pf ≠ f) :
    writePreload f w s = { preloadWritten f w s with smc :=
      { (preloadWritten f w s).smc with heldOp := some (orderedPreload f w s) } } := by
  have hrun' := (preloadWritten_frame f w s).1.trans hrun
  rw [writePreload_of_go hgo hop (fun _ hq => Option.some.inj (hrun.symm.trans hq) ▸ hother) hheld, startHeld_of_run hrun']
  exact if_pos (by simp [hrun'])

/-! ### An operation ends (R322) -/

theorem exec_smcPreloadDone (s : State) : exec .smcPreloadDone s = .next (endPreload s) := rfl

theorem endPreload_of_covered {s : State} {r : Preload} (hrun : s.smc.run = some r) (hover : r.count = 0) :
    endPreload s =
      raise 0xB61 { s with smc := modSmcPf r.pf (fun x => { x with done := true }) { s.smc with run := none } } := by
  simp [endPreload, hrun, hover]

/-! ### UNLOCK_ALL (R312) -/

theorem mem_tabInsert_self {α : Type} (t : Tab α) (k : Nat) (v : α) : (k, v) ∈ tabInsert t k v :=
  mem_of_tabFind (tabFind_tabInsert_same t k v)

/-- An insertion leaves the entries of the other keys. -/
theorem mem_tabInsert_of_mem {α : Type} {t : Tab α} {k : Nat} {p : Nat × α} (v : α) (hp : p ∈ t) (hk : p.1 ≠ k) :
    p ∈ tabInsert t k v := by
  induction t with
  | nil => contradiction
  | cons q t ih =>
    simp only [tabInsert]
    split
    · exact List.mem_cons_of_mem _ hp
    · split
      · next hq =>
        rcases List.mem_cons.mp hp with rfl | hp
        · exact absurd hq.symm hk
        · exact List.mem_cons_of_mem _ hp
      · rcases List.mem_cons.mp hp with rfl | hp
        · exact List.mem_cons_self
        · exact List.mem_cons_of_mem _ (ih hp)

/-- An erasure leaves the entries of the other keys. -/
theorem mem_tabErase_of_mem {α : Type} {t : Tab α} {k : Nat} {p : Nat × α} (hp : p ∈ t) (hk : p.1 ≠ k) :
    p ∈ tabErase t k := by
  induction t with
  | nil => contradiction
  | cons q t ih =>
    simp only [tabErase]
    split
    · next hq =>
      rcases List.mem_cons.mp hp with rfl | hp
      · exact absurd hq hk
      · exact hp
    · rcases List.mem_cons.mp hp with rfl | hp
      · exact List.mem_cons_self
      · exact List.mem_cons_of_mem _ (ih hp)

/-- A line as an unlock leaves it. -/
def SmcLine.unlocked (l : SmcLine) : SmcLine := { l with lock := false }

/-- The line found under a key is a line of the cache with that key. -/
theorem findLine_eq_some {c : Smc} {vol g : Nat} {q : Nat × SmcLine} (h : findLine c vol g = some q) :
    q ∈ c.lines ∧ q.1 / 16 = smcSet vol g ∧ q.2.vol = vol ∧ q.2.g = g := by
  have hkey : q.2.is vol g = true := List.find?_some (p := fun p : Nat × SmcLine => p.2.is vol g) h
  have hset := List.mem_filter.mp (List.mem_of_find?_eq_some h)
  simp only [SmcLine.is, Bool.and_eq_true, beq_iff_eq] at hkey
  exact ⟨hset.1, by simpa using hset.2, hkey⟩

/-- A line that stands in its set is found under its key. -/
theorem findLine_isSome {c : Smc} {q : Nat × SmcLine} (hq : q ∈ c.lines) (hset : q.1 / 16 = smcSet q.2.vol q.2.g) :
    (findLine c q.2.vol q.2.g).isSome = true :=
  List.find?_isSome.mpr ⟨q, List.mem_filter.mpr ⟨hq, by simp [hset]⟩, by simp [SmcLine.is]⟩

theorem unlockLine_of_found {c : Smc} {vol g i : Nat} {l : SmcLine} (h : findLine c vol g = some (i, l)) :
    unlockLine vol g c = if l.empty then dropLine i c else putLine i l.unlocked c := by
  simp [unlockLine, h, SmcLine.unlocked]

theorem unlockLine_of_not_found {c : Smc} {vol g : Nat} (h : findLine c vol g = none) : unlockLine vol g c = c := by
  simp [unlockLine, h]

/-- The way of p holds p's line alone, as it was or unlocked, and no other way its key. -/
structure HoldsAlone (p : Nat × SmcLine) (c : Smc) : Prop where
  here : p ∈ c.lines ∨ (p.1, p.2.unlocked) ∈ c.lines
  alone : ∀ q ∈ c.lines, q.1 = p.1 ∨ (q.2.vol = p.2.vol ∧ q.2.g = p.2.g) → q = p ∨ q = (p.1, p.2.unlocked)

/-- An unlock of the line's own key leaves it unlocked. -/
theorem HoldsAlone.unlock_own {p : Nat × SmcLine} {c : Smc} (h : HoldsAlone p c)
    (hset : p.1 / 16 = smcSet p.2.vol p.2.g) (hfull : p.2.empty = false) :
    HoldsAlone p (unlockLine p.2.vol p.2.g c) ∧ (p.1, p.2.unlocked) ∈ (unlockLine p.2.vol p.2.g c).lines := by
  obtain ⟨⟨i, l⟩, hfound⟩ := Option.isSome_iff_exists.mp
    (h.here.elim (findLine_isSome · hset) (findLine_isSome (q := (p.1, p.2.unlocked)) · hset))
  obtain ⟨hmem, -, hkey⟩ := findLine_eq_some hfound
  have hl : i = p.1 ∧ l.empty = p.2.empty ∧ l.unlocked = p.2.unlocked := by
    rcases h.alone _ hmem (.inr hkey) with rfl | hq
    · exact ⟨rfl, rfl, rfl⟩
    · obtain ⟨rfl, rfl⟩ := Prod.mk.inj hq
      exact ⟨rfl, rfl, rfl⟩
  obtain ⟨rfl, hempty, hunlocked⟩ := hl
  have hput : unlockLine p.2.vol p.2.g c = putLine p.1 p.2.unlocked c := by
    rw [unlockLine_of_found hfound, hempty, hfull, hunlocked]
    rfl
  rw [hput]
  have hself := mem_tabInsert_self c.lines p.1 p.2.unlocked
  exact ⟨⟨.inr hself, fun q hq hclose => (mem_tabInsert hq).elim (h.alone q · hclose) .inr⟩, hself⟩

/-- An unlock of another key leaves the line, and the unlocked one, where they are. -/
theorem HoldsAlone.unlock_other {p : Nat × SmcLine} {c : Smc} {vol g : Nat} (h : HoldsAlone p c)
    (hother : ¬ (vol = p.2.vol ∧ g = p.2.g)) :
    HoldsAlone p (unlockLine vol g c) ∧
      ((p.1, p.2.unlocked) ∈ c.lines → (p.1, p.2.unlocked) ∈ (unlockLine vol g c).lines) := by
  rcases hfound : findLine c vol g with _ | ⟨i, l⟩
  · rw [unlockLine_of_not_found hfound]
    exact ⟨h, id⟩
  · obtain ⟨hmem, -, hvol, hg⟩ := findLine_eq_some hfound
    have hway : p.1 ≠ i := fun hi => by
      rcases h.alone _ hmem (.inl hi.symm) with rfl | hq
      · exact hother ⟨hvol.symm, hg.symm⟩
      · obtain ⟨rfl, rfl⟩ := Prod.mk.inj hq
        exact hother ⟨hvol.symm, hg.symm⟩
    rw [unlockLine_of_found hfound]
    split
    · exact ⟨⟨h.here.imp (mem_tabErase_of_mem · hway) (mem_tabErase_of_mem · hway),
        fun q hq hclose => h.alone q (mem_tabErase hq) hclose⟩, (mem_tabErase_of_mem · hway)⟩
    · refine ⟨⟨h.here.imp (mem_tabInsert_of_mem _ · hway) (mem_tabInsert_of_mem _ · hway), fun q hq hclose => ?_⟩,
        (mem_tabInsert_of_mem _ · hway)⟩
      rcases mem_tabInsert hq with hq | rfl
      · exact h.alone q hq hclose
      · exact absurd hclose
          (not_or.mpr ⟨Ne.symm hway, fun hkey => hother ⟨hvol.symm.trans hkey.1, hg.symm.trans hkey.2⟩⟩)

/-- Unlocks of several lines, the line among them, leave it unlocked. -/
theorem unlocked_mem_of_unlocks {p : Nat × SmcLine} (ps : List (Nat × SmcLine)) {c : Smc} (h : HoldsAlone p c)
    (hset : p.1 / 16 = smcSet p.2.vol p.2.g) (hfull : p.2.empty = false)
    (hp : p ∈ ps ∨ (p.1, p.2.unlocked) ∈ c.lines) :
    (p.1, p.2.unlocked) ∈ (ps.foldl (fun c q => unlockLine q.2.vol q.2.g c) c).lines := by
  induction ps generalizing c with
  | nil => exact hp.resolve_left (List.not_mem_nil)
  | cons q ps ih =>
    by_cases hkey : q.2.vol = p.2.vol ∧ q.2.g = p.2.g
    · obtain ⟨hvol, hg⟩ := hkey
      obtain ⟨halone, hdone⟩ := h.unlock_own hset hfull
      rw [List.foldl_cons, hvol, hg]
      exact ih halone (.inr hdone)
    · obtain ⟨halone, hstays⟩ := h.unlock_other hkey
      refine ih halone (hp.imp (fun hmem => ?_) hstays)
      exact (List.mem_cons.mp hmem).resolve_left fun hpq => hkey (hpq ▸ ⟨rfl, rfl⟩)

/-! ### O37 -/

/-- Settles O37: a GO by what runs and what is held, a held operation, the end of a range, and UNLOCK_ALL. -/
theorem smcPreloads : Obligations.SmcPreloads := by
  refine ⟨fun i f op w s hi hf hw hgo hop => ⟨fun hrun hheld => ?begins, fun q hrun hother hheld => ?holds⟩,
    fun r s hrun hheld => ?held, fun r s hrun hover => ?covered, fun f s hf => ?unlocks⟩
  case begins =>
    subst hop
    have hexec := exec_preloadRow hf hw hgo hi
    rw [writePreload_begins hgo (op_used_of_row hi) hrun hheld] at hexec
    have hregs := smcPf_preloadWritten f w s
    rcases hrefused : preloadRefused s f (smcPf s.smc f).baseVol
    case false =>
      obtain ⟨hruns, hpf, -⟩ := beginPreload_permitted (r := orderedPreload f w s) (s := preloadWritten f w s) hrefused
      replace hpf := hpf.trans (congrArg (fun x : SmcPf => { x.sansOvers with err := false }) hregs)
      exact ⟨_, hexec, (congrArg SmcPf.op hpf :), (congrArg SmcPf.count hpf :), nofun,
        fun _ => ⟨(congrArg SmcPf.err hpf :), names_of_run hruns⟩⟩
    case true =>
      obtain ⟨hended, hpf, hshown, hlines, -⟩ :=
        beginPreload_refused (r := orderedPreload f w s) (s := preloadWritten f w s) hrefused
      replace hpf := hpf.trans (congrArg (fun x : SmcPf => { x with err := true, overs := 0 }) hregs)
      exact ⟨_, hexec, (congrArg SmcPf.op hpf :), (congrArg SmcPf.count hpf :), fun _ => ⟨hended,
        (congrArg SmcPf.err hpf :), hshown, hlines.trans (preloadWritten_frame f w s).2.2⟩, nofun⟩
  case holds =>
    subst hop
    have hexec := exec_preloadRow hf hw hgo hi
    rw [writePreload_holds hgo (op_used_of_row hi) hrun hother hheld] at hexec
    obtain ⟨hsame, -, hlines⟩ := preloadWritten_frame f w s
    exact ⟨_, hexec, hsame.trans hrun, hlines, rfl⟩
  case held =>
    refine ⟨_, (exec_smcPreloadHeldStart s).trans (congrArg _ (startHeld_of_held hrun hheld)), ?_⟩
    rcases hrefused : preloadRefused s r.pf r.vol
    case false =>
      obtain ⟨hruns, -, hnone⟩ := beginPreload_permitted (s := { s with smc := { s.smc with heldOp := none } }) hrefused
      exact ⟨hnone, nofun, fun _ => names_of_run hruns⟩
    case true =>
      obtain ⟨hended, hpf, hshown, -, hnone⟩ :=
        beginPreload_refused (s := { s with smc := { s.smc with heldOp := none } }) hrefused
      exact ⟨hnone, fun _ => ⟨hended, (congrArg SmcPf.err hpf :), hshown⟩, nofun⟩
  case covered =>
    obtain ⟨hnone, -, hlines⟩ := modSmcPf_frame r.pf (fun x => { x with done := true }) { s.smc with run := none }
    have hpf := congrArg SmcPf.done (smcPf_modSmcPf r.pf (fun x => { x with done := true }) { s.smc with run := none })
    exact ⟨_, (exec_smcPreloadDone s).trans (congrArg _ (endPreload_of_covered hrun hover)), hnone, hpf,
      shown_raise_same .., hlines⟩
  case unlocks =>
    refine ⟨unlockAll f s, if_pos hf, fun p v hp hfound hlock hfull hvol hport hsole => ?_⟩
    have hown : p ∈ s.smc.lines.filter fun q => q.2.lock && (getVol s q.2.vol).any fun v => portOf v.owner == portOf f :=
      List.mem_filter.mpr ⟨hp, by simp [hlock, hvol, hport]⟩
    exact unlocked_mem_of_unlocks _ ⟨.inl hp, fun q hq hclose => .inl (hsole q hq hclose)⟩ (findLine_eq_some hfound).2.1 hfull
      (.inl hown)

end Sys2Proof.Machine

/-! O36: fills, parked lookups and the buffers toward the tier. -/

namespace Sys2Proof.Machine

open Sys2Proof

/-! ### Answers (R294) -/

/-- Every command with a sequence number has a parcel's entry. -/
def Answered (seq k : Nat) (s : State) : Prop := ∀ c ∈ s.host.cmds, c.seq = seq → k ∈ c.resolved

theorem answerLook_smc (s : State) (w : Requester × Nat) (vol : Nat) : (answerLook s w vol).smc = s.smc := by
  unfold answerLook
  split <;> rfl

theorem mem_addOnce {l : List Nat} {x y : Nat} : y ∈ addOnce l x ↔ y = x ∨ y ∈ l := by
  unfold addOnce
  split
  · next h => exact ⟨.inr, (·.elim (· ▸ by simpa using h) id)⟩
  · rw [List.mem_append, List.mem_singleton, or_comm]

/-- A command after the lookup of command n was answered with the entry of parcel k. -/
def Cmd.answered (n k : Nat) (c : Cmd) : Cmd := if c.seq = n then { c with resolved := addOnce c.resolved k } else c

theorem seq_answered (n k : Nat) (c : Cmd) : (c.answered n k).seq = c.seq := by
  unfold Cmd.answered
  split <;> rfl

theorem cmds_answerLook_cmd (s : State) (n p vol : Nat) :
    (answerLook s (.cmd n, p) vol).host.cmds = s.host.cmds.map (Cmd.answered n (parcelKey vol p)) := rfl

theorem answered_answerLook (s : State) (seq p vol : Nat) :
    Answered seq (parcelKey vol p) (answerLook s (.cmd seq, p) vol) := by
  intro c hc hseq
  rw [cmds_answerLook_cmd] at hc
  obtain ⟨d, -, rfl⟩ := List.mem_map.mp hc
  rw [Cmd.answered, if_pos ((seq_answered ..).symm.trans hseq)]
  exact mem_addOnce.mpr (.inl rfl)

/-- A further answer takes no entry away. -/
theorem Answered.answerLook {seq k : Nat} {s : State} (h : Answered seq k s) (w : Requester × Nat) (vol : Nat) :
    Answered seq k (answerLook s w vol) := by
  obtain ⟨who, p⟩ := w
  cases who with
  | cmd n =>
    intro c hc hseq
    rw [cmds_answerLook_cmd] at hc
    obtain ⟨d, hd, rfl⟩ := List.mem_map.mp hc
    have hk := h d hd ((seq_answered ..).symm.trans hseq)
    unfold Cmd.answered
    split
    · exact mem_addOnce.mpr (.inr hk)
    · exact hk
  | preload | internal | prefetch => exact h

/-- Every command among the requesters of a fill is answered. -/
theorem answered_of_waiter {seq p : Nat} {ws : List (Requester × Nat)} (hw : (.cmd seq, p) ∈ ws) (vol : Nat) (s : State) :
    Answered seq (parcelKey vol p) (ws.foldl (fun t w => answerLook t w vol) s) := by
  obtain ⟨before, after, rfl⟩ := List.append_of_mem hw
  rw [List.foldl_append, List.foldl_cons]
  exact List.foldlRecOn after _ (motive := Answered seq (parcelKey vol p)) (answered_answerLook _ seq p vol) fun _ ht w _ =>
    ht.answerLook w vol

/-! ### A fill completes (R294, R299) -/

theorem askAgain_of_no_queue {s : State} (h : s.smc.queue = []) : askAgain s = s := by
  rw [askAgain, h, List.foldl_nil, ← h]

theorem sansLines_installFill (f : Fill) (s : State) : (installFill f s).smc.sansLines = s.smc.sansLines := by
  unfold installFill
  dsimp only
  (repeat' split) <;> rfl

theorem sansLines_sideUsed (f : Fill) (s : State) : (sideUsed f s).smc.sansLines = s.smc.sansLines := by
  unfold sideUsed
  split
  · rfl
  · split
    · rfl
    · next h => exact (sansLines_installLine h :)

/-- The state in which a fill has left the fills in flight, its port free. -/
def fillTaken (f : Fill) (s : State) : State :=
  let c := { s.smc with fills := s.smc.fills.filter fun x => !(x.vol == f.vol && x.g == f.g && x.side == f.side) }
  { s with smc := if f.side then c else freePort f.port c }

/-- The state in which a fill's line stands in its place (R294, R300). -/
def fillPlaced (f : Fill) (s : State) : State :=
  let t := installFill f (fillTaken f s)
  if f.side && f.waiters.any (·.1 != .prefetch) then sideUsed f t else t

theorem fillTaken_keeps (f : Fill) (s : State) :
    (fillTaken f s).smc.fills = s.smc.fills.filter (fun x => !(x.vol == f.vol && x.g == f.g && x.side == f.side)) ∧
      (fillTaken f s).smc.queue = s.smc.queue ∧ (fillTaken f s).smc.run = s.smc.run ∧
      (fillTaken f s).smc.lines = s.smc.lines := by
  unfold fillTaken
  dsimp only
  split <;> exact ⟨rfl, rfl, rfl, rfl⟩

theorem sansLines_fillPlaced (f : Fill) (s : State) : (fillPlaced f s).smc.sansLines = (fillTaken f s).smc.sansLines := by
  unfold fillPlaced
  dsimp only
  split
  · exact (sansLines_sideUsed ..).trans (sansLines_installFill ..)
  · exact sansLines_installFill ..

/-- A line with a way that waited for it stands there, with the entries that its fill read. -/
theorem fillPlaced_line {f : Fill} {s : State} {i : Nat} (hside : f.side = false) (hway : f.way = some i)
    (hfree : tabFind s.smc.lines i = none) {l : SmcLine}
    (hl : l = {
      vol := f.vol, g := f.g, subs := fillSubs s f (List.replicate 8 none), age := if f.stream then 3 else 0, lock := false })
    (hfull : l.empty = false) : tabFind (fillPlaced f s).smc.lines i = some l := by
  have hput : fillPlaced f s = { fillTaken f s with smc := putLine i l (fillTaken f s).smc } := by
    have hfree' : tabFind (fillTaken f s).smc.lines i = none := (fillTaken_keeps f s).2.2.2 ▸ hfree
    have hsubs : fillSubs (fillTaken f s) f (List.replicate 8 none) = fillSubs s f (List.replicate 8 none) := rfl
    rw [fillPlaced, hside, Bool.false_and, installFill]
    simp only [hside, hway, hfree', hsubs, ← hl, hfull, Bool.false_eq_true, if_false]
  rw [hput]
  exact tabFind_tabInsert_same ..

theorem answerLooks_smc (ws : List (Requester × Nat)) (vol : Nat) (s : State) :
    (ws.foldl (fun t w => answerLook t w vol) s).smc = s.smc :=
  foldl_keeps ws s fun t w => answerLook_smc t w vol

/-- Where nothing waits for a port and no operation runs, a completed fill places its line and answers its requesters. -/
theorem exec_smcFill {vol g : Nat} {f : Fill} {s : State} (hrun : s.smc.run = none) (hqueue : s.smc.queue = [])
    (hf : s.smc.fills.find? (fun f => f.vol == vol && f.g == g) = some f) :
    exec (.smcFill vol g) s = .next (f.waiters.foldl (fun t w => answerLook t w f.vol) (fillPlaced f s)) := by
  obtain ⟨-, hqueue', hrun', -⟩ := fillTaken_keeps f s
  obtain ⟨-, hqueue'', hrun''⟩ := fields_of_sansLines (sansLines_fillPlaced f s)
  have hsmc := answerLooks_smc f.waiters f.vol (fillPlaced f s)
  have hend : endFill f s = f.waiters.foldl (fun t w => answerLook t w f.vol) (fillPlaced f s) :=
    askAgain_of_no_queue ((congrArg Smc.queue hsmc).trans (hqueue''.trans (hqueue'.trans hqueue)))
  have hexec : exec (.smcFill vol g) s = .next (preloadStep (endFill f s)) := by
    simp only [exec, execSmcFill, hf, afterFill]
  rw [hexec, hend, preloadStep_of_no_run ((congrArg Smc.run hsmc).trans (hrun''.trans (hrun'.trans hrun)))]

/-! ### A parked lookup presented again (R295) -/

/-- A parked lookup whose line is valid is answered and no longer parked. -/
theorem representParked_hits {x : Parked} {i : Nat} {l : SmcLine} {s : State} (hready : s.smc.ready = true)
    (hopen : portHeld s.smc x.port = false) (hhere : pageHere s (parcelKey x.vol x.parcel) = true)
    (hline : findLine s.smc x.vol (x.parcel / 8) = some (i, l)) (hhas : l.has (x.parcel % 8) = true) :
    ∃ t, representParked x s = answerLook t (x.who, x.parcel) x.vol ∧ t.smc.parked = s.smc.parked.erase x ∧
      t.smc.run = s.smc.run := by
  let s1 : State := { s with smc := { s.smc with parked := s.smc.parked.erase x } }
  obtain ⟨t, hlook, hparked⟩ :=
    smcLookup_hits (s := s1) x.streams x.who hready hopen hhere hline hhas
  have hkept := sansLookups_smcLookup x.vol x.parcel x.port x.streams x.who s1
  rw [hlook] at hkept
  refine ⟨t, ?_, hparked, (congrArg Smc.run hkept :)⟩
  simp only [representParked]
  rw [hlook]

/-! ### Pages of the tier (R303) -/

/-- The page of a parcel's entry before it is touched: the resident one, or a new one that holds nothing of its home. -/
def pageBefore (k : Nat) (s : State) : Page :=
  tabGet { dirty := false, used := 0, seq := 0, since := 0, part := if pageHomed s (pageOf k) then some [] else none }
    s.ledger.pages (pageOf k)

/-- A touched page is resident, holds the entry too, and is dirty where a change touched it. -/
theorem tabFind_touchPage (k : Nat) (seq : Option Nat) (s : State) :
    ∃ x, tabFind (touchPage k seq s).ledger.pages (pageOf k) = some x ∧ x.part = (pageBefore k s).part.map (addOnce · k) ∧
      (seq.isSome = true → x.dirty = true) := by
  refine ⟨_, tabFind_tabInsert_same .., ?_⟩
  cases seq with
  | none => exact ⟨rfl, nofun⟩
  | some n => exact ⟨rfl, fun _ => rfl⟩

theorem pageHere_iff {s : State} {k : Nat} : pageHere s k = true ↔
    ∃ x, tabFind s.ledger.pages (pageOf k) = some x ∧ ∀ ks, x.part = some ks → k ∈ ks := by
  simp [pageHere, Option.any_eq_true, Option.all_eq_true]

theorem pageHere_touchPage_self (k : Nat) (seq : Option Nat) (s : State) : pageHere (touchPage k seq s) k = true := by
  obtain ⟨x, hx, hpart, -⟩ := tabFind_touchPage k seq s
  refine pageHere_iff.mpr ⟨x, hx, fun ks hks => ?_⟩
  obtain ⟨old, -, rfl⟩ := Option.map_eq_some_iff.mp (hpart.symm.trans hks)
  exact mem_addOnce.mpr (.inl rfl)

/-- Touching a page takes no entry out of the tier. -/
theorem pageHere_touchPage {s : State} {j : Nat} (h : pageHere s j = true) (k : Nat) (seq : Option Nat) :
    pageHere (touchPage k seq s) j = true := by
  obtain ⟨y, hy, hin⟩ := pageHere_iff.mp h
  by_cases hpage : pageOf j = pageOf k
  · obtain ⟨x, hx, hpart, -⟩ := tabFind_touchPage k seq s
    have hold : pageBefore k s = y := by rw [pageBefore, tabGet, ← hpage, hy, Option.getD_some]
    refine pageHere_iff.mpr ⟨x, by rwa [hpage], fun ks hks => ?_⟩
    obtain ⟨old, hy', rfl⟩ := Option.map_eq_some_iff.mp (hpart.symm.trans hks)
    exact mem_addOnce.mpr (.inr (hin old (hold ▸ hy')))
  · exact pageHere_iff.mpr ⟨y, (tabFind_tabInsert_ne _ _ hpage).trans hy, hin⟩

/-! ### Offers (R304, R305) -/

/-- The entry of a parcel put into the tier where it lacks it. -/
def enterTier (s : State) (k : Nat) : State := if pageHere s k then s else touchPage k none s

theorem enterTier_smc (s : State) (k : Nat) : (enterTier s k).smc = s.smc := by
  unfold enterTier
  split <;> rfl

theorem pageHere_enterTier_self (s : State) (k : Nat) : pageHere (enterTier s k) k = true := by
  unfold enterTier
  split
  · assumption
  · exact pageHere_touchPage_self ..

theorem pageHere_enterTier {s : State} {j : Nat} (h : pageHere s j = true) (k : Nat) : pageHere (enterTier s k) j = true := by
  unfold enterTier
  split
  · exact h
  · exact pageHere_touchPage h ..

/-- Entries put into the tier one after another are all in the tier. -/
theorem pageHere_enterTier_all {k : Nat} {ks : List Nat} (hk : k ∈ ks) (s : State) :
    pageHere (ks.foldl enterTier s) k = true := by
  obtain ⟨before, after, rfl⟩ := List.append_of_mem hk
  rw [List.foldl_append, List.foldl_cons]
  exact List.foldlRecOn after _ (motive := fun t => pageHere t k = true) (pageHere_enterTier_self ..) fun _ ht j _ =>
    pageHere_enterTier ht j

/-- An eviction buffer entry marked as offered, with the tier's answer. -/
def offerSent (e : Evict) (yes : Bool) (s : State) : State :=
  let evict := s.smc.evict.map fun x => if x = e then { x with sent := true, accepted := yes } else x
  { s with smc := { s.smc with evict := evict } }

theorem mem_offerSent {e : Evict} {s : State} (he : e ∈ s.smc.evict) (yes : Bool) :
    { e with sent := true, accepted := yes } ∈ (offerSent e yes s).smc.evict :=
  List.mem_map.mpr ⟨e, he, if_pos rfl⟩

/-- The oldest entry neither offered nor reinstated is the one offered. -/
theorem find_unsent {before after : List Evict} {e : Evict} (h : ∀ x ∈ before, x.sent = true ∨ x.reinstated = true)
    (hsent : e.sent = false) (hre : e.reinstated = false) :
    (before ++ e :: after).find? (fun e => !e.sent && !e.reinstated) = some e := by
  refine List.find?_eq_some_iff_append.mpr ⟨by simp [hsent, hre], before, after, rfl, fun x hx => ?_⟩
  rcases h x hx with h | h <;> simp [h]

theorem exec_smcOffer (s : State) : exec .smcOffer s = .next (sendOffer s) := rfl

theorem sendOffer_declined {e : Evict} {s : State}
    (he : s.smc.evict.find? (fun e => !e.sent && !e.reinstated) = some e)
    (hno : (offeredKeys e).all (pageHere s) = true ∨ s.ledger.aboveHigh = true) : sendOffer s = offerSent e false s := by
  have hyes : (!((offeredKeys e).all (pageHere s) || s.ledger.aboveHigh)) = false := by
    rcases hno with h | h <;> simp only [h, Bool.true_or, Bool.or_true, Bool.not_true]
  simp only [sendOffer, he, hyes]
  rfl

theorem sendOffer_accepted {e : Evict} {s : State}
    (he : s.smc.evict.find? (fun e => !e.sent && !e.reinstated) = some e)
    (hlacks : (offeredKeys e).all (pageHere s) = false) (hlow : s.ledger.aboveHigh = false) :
    sendOffer s = (offeredKeys e).foldl enterTier (offerSent e true s) := by
  simp only [sendOffer, he, hlacks, hlow]
  rfl

theorem sendOffer_of_none_unsent {s : State} (h : ∀ x ∈ s.smc.evict, x.sent = true ∨ x.reinstated = true) :
    sendOffer s = s := by
  have hnone : s.smc.evict.find? (fun e => !e.sent && !e.reinstated) = none :=
    List.find?_eq_none.mpr fun x hx => by rcases h x hx with h | h <;> simp [h]
  simp only [sendOffer, hnone]

/-- The state in which an answered offer has left the eviction buffer, its answer counted. -/
def offerAnswered (e : Evict) (s : State) : State :=
  let c := { s.smc with evict := s.smc.evict.erase e }
  { s with smc := smcCount (if e.accepted then 4 else 5) c }

/-- The tier's answer frees the entry's place and is counted; nothing else waits. -/
theorem exec_smcOfferAnswer {e : Evict} {s : State} (hrun : s.smc.run = none) (hqueue : s.smc.queue = [])
    (he : s.smc.evict.find? (·.sent) = some e) : 
    exec .smcOfferAnswer s = .next (offerAnswered e s) := by
  have hexec : exec .smcOfferAnswer s = .next (answerOffer e s) := by simp only [exec, execSmcOfferAnswer, he]
  have hanswer : answerOffer e s = askAgain (preloadStep (offerAnswered e s)) := rfl
  rw [hexec, hanswer, preloadStep_of_no_run (s := offerAnswered e s) hrun, askAgain_of_no_queue (s := offerAnswered e s) hqueue]

/-! ### The merging buffer drains (R302, R303) -/

theorem exec_smcMergeDrain (s : State) : exec .smcMergeDrain s = .next (drainMerge s) := rfl

theorem drainMerge_of_nil {s : State} (h : s.smc.merge = []) : drainMerge s = s := by
  simp only [drainMerge, h]

theorem drainMerge_of_cons {k n : Nat} {e : LEntry} {r : List (Nat × LEntry × Nat)} {s : State}
    (h : s.smc.merge = (k, e, n) :: r) : drainMerge s = touchPage k (some n) { s with smc := { s.smc with merge := r } } := by
  simp only [drainMerge, h]

/-! ### O36 -/

/-- Settles O36: a fill, a parked lookup, an offer by what the tier lacks, its answer, and a drain. -/
theorem smcFillsAndBuffers : Obligations.SmcFillsAndBuffers := by
  refine ⟨⟨fun vol g f s hrun hqueue hf => ?fill, fun vol parcel i x l s hrun hready hopen hx hhere hline hhas => ?parked⟩,
    fun s => ⟨fun a b e hevict ha hsent hre => ?offer, fun hall => ?noOffer⟩, fun e s hrun hqueue he => ?answer,
    fun s => ⟨fun hnone => ?noDrain, fun k e n r hmerge => ?drain⟩⟩
  case fill =>
    have hkey := List.find?_some (p := fun f : Fill => f.vol == vol && f.g == g) hf
    simp only [Bool.and_eq_true, beq_iff_eq] at hkey
    obtain ⟨rfl, rfl⟩ := hkey
    have hsmc := answerLooks_smc f.waiters f.vol (fillPlaced f s)
    have hfills := (fields_of_sansLines (sansLines_fillPlaced f s)).1.trans (fillTaken_keeps f s).1
    refine ⟨_, exec_smcFill hrun hqueue hf, fun x hx hsame => ?_, fun seq p hw => answered_of_waiter hw f.vol _,
      fun i l hside hway hfree hl hfull => ?_⟩
    · rw [hsmc, hfills] at hx
      simp [hsame] at hx
    · rw [hsmc]
      exact fillPlaced_line hside hway hfree hl hfull
  case parked =>
    have hkey := List.find?_some (p := fun x : Parked => x.vol == vol && x.parcel == parcel) hx
    simp only [Bool.and_eq_true, beq_iff_eq] at hkey
    obtain ⟨rfl, rfl⟩ := hkey
    obtain ⟨t, hrep, hparked, hsame⟩ := representParked_hits hready hopen hhere hline hhas
    have hsmc := answerLook_smc t (x.who, x.parcel) x.vol
    have hexec : exec (.smcParkedRepresent x.vol x.parcel) s = .next (answerLook t (x.who, x.parcel) x.vol) := by
      simp only [exec, execSmcParkedRepresent, hx, hhere, if_true]
      rw [hrep, preloadStep_of_no_run ((congrArg Smc.run hsmc).trans (hsame.trans hrun))]
    exact ⟨_, hexec, (congrArg Smc.parked hsmc).trans hparked, fun seq hwho =>
      hwho ▸ answered_answerLook t seq x.parcel x.vol⟩
  case offer =>
    have he := hevict ▸ find_unsent (after := b) ha hsent hre
    have hmem : e ∈ s.smc.evict := List.mem_of_find?_eq_some he
    refine ⟨fun hno => ?declined, fun hlacks hlow => ?accepted⟩
    case declined =>
      exact ⟨_, (exec_smcOffer s).trans (congrArg _ (sendOffer_declined he hno)), rfl, mem_offerSent hmem false⟩
    case accepted =>
      have hsmc : ((offeredKeys e).foldl enterTier (offerSent e true s)).smc = (offerSent e true s).smc :=
        foldl_keeps _ _ enterTier_smc
      exact ⟨_, (exec_smcOffer s).trans (congrArg _ (sendOffer_accepted he hlacks hlow)), hsmc ▸ mem_offerSent hmem true,
        fun k hk => pageHere_enterTier_all hk _⟩
  case noOffer => exact (exec_smcOffer s).trans (congrArg _ (sendOffer_of_none_unsent hall))
  case answer => exact ⟨_, exec_smcOfferAnswer hrun hqueue he, rfl, rfl, rfl⟩
  case noDrain => exact (exec_smcMergeDrain s).trans (congrArg _ (drainMerge_of_nil hnone))
  case drain =>
    obtain ⟨pg, hpg, -, hdirty⟩ := tabFind_touchPage k (some n) { s with smc := { s.smc with merge := r } }
    exact ⟨_, pg, (exec_smcMergeDrain s).trans (congrArg _ (drainMerge_of_cons hmerge)), rfl, hpg, hdirty rfl, rfl⟩

end Sys2Proof.Machine

/-! What the proofs of O38, O39 and O48 share: stripe descriptors and intents, journal records and batches. -/

namespace Sys2Proof.Machine

open Sys2Proof

/-! ### Descriptors and intents (R328) -/

theorem getDesc_congr {s t : State} (h : t.cache.stripes = s.cache.stripes) (k : Nat) : getDesc t k = getDesc s k := by
  rw [getDesc, h, getDesc]

theorem getDesc_setDesc_ne {k key : Nat} (d : StripeDesc) (s : State) (h : k ≠ key) :
    getDesc (setDesc key d s) k = getDesc s k := tabGet_tabPut_ne _ _ _ h

theorem getDesc_setDesc_same (key : Nat) {d : StripeDesc} (s : State) (h : d.intents ≠ []) :
    getDesc (setDesc key d s) key = d := tabGet_tabPut_same _ _ _ _ (.inl fun hd => h (congrArg StripeDesc.intents hd))

theorem getDesc_modIntent_ne {k key : Nat} (root : Nat) (f : Intent → Intent) (s : State) (h : k ≠ key) :
    getDesc (modIntent key root f s) k = getDesc s k := getDesc_setDesc_ne _ s h

theorem getDesc_modIntent_same {key : Nat} {s : State} (root : Nat) (f : Intent → Intent)
    (h : (getDesc s key).intents ≠ []) :
    (getDesc (modIntent key root f s) key).intents =
      (getDesc s key).intents.map fun i => if i.root = root then f i else i :=
  congrArg StripeDesc.intents (getDesc_setDesc_map _ h)

@[simp] theorem modIntent_appendQ (key root : Nat) (f : Intent → Intent) (s : State) :
    (modIntent key root f s).cache.appendQ = s.cache.appendQ := rfl

@[simp] theorem modIntent_nextJseq (key root : Nat) (f : Intent → Intent) (s : State) :
    (modIntent key root f s).cache.nextJseq = s.cache.nextJseq := rfl

/-- What the change gives holds of every intent with the root, where the change keeps roots. -/
theorem forall_modIntent {key root : Nat} {f : Intent → Intent} {s : State} {P : Intent → Prop}
    (h : (getDesc s key).intents ≠ []) (hf : ∀ x ∈ (getDesc s key).intents, x.root = root → P (f x)) :
    ∀ j ∈ (getDesc (modIntent key root f s) key).intents, j.root = root → P j := by
  intro j hj hroot
  rw [getDesc_modIntent_same root f h] at hj
  obtain ⟨x, hx, rfl⟩ := List.mem_map.mp hj
  by_cases hr : x.root = root
  · simpa only [hr, if_true] using hf x hx hr
  · rw [if_neg hr] at hroot
    exact absurd hroot hr

/-- The first intent of a stripe is found by its root. -/
theorem findIntent_of_first {s : State} {key : Nat} {i : Intent} {r : List Intent} (h : (getDesc s key).intents = i :: r) :
    findIntent s key i.root = some i := by
  simp [findIntent, h]

/-- Changed intents with the root stay first. -/
theorem first_modIntent {s : State} {key : Nat} {i : Intent} {r : List Intent} (f : Intent → Intent)
    (h : (getDesc s key).intents = i :: r) :
    ∃ r', (getDesc (modIntent key i.root f s) key).intents = f i :: r' := by
  refine ⟨r.map fun x => if x.root = i.root then f x else x, ?_⟩
  rw [getDesc_modIntent_same i.root f (by simp [h]), h, List.map_cons, if_pos rfl]

/-! ### Journal records (R327, R328) -/

/-- A record appended changes of the cache the append queue alone. -/
theorem append_cache (r : JRec) (s : State) :
    (append r s).cache = { s.cache with appendQ := s.cache.appendQ ++ [r] } := by
  have hsent : ∀ os t, (emits os t).cache = t.cache := fun os t => foldl_keeps os t fun u o => emit_cache o u
  simp only [append]
  split
  · rw [hsent]
    rfl
  · rfl

theorem getDesc_append (r : JRec) (s : State) (k : Nat) : getDesc (append r s) k = getDesc s k :=
  getDesc_congr (by rw [append_cache]) k

theorem getDesc_takeJseq (s : State) (k : Nat) : getDesc (takeJseq s).2 k = getDesc s k := rfl

/-- The retire record of a destage is appended, and its intent retires (R330). -/
theorem retireIntent_retires {s : State} {key : Nat} {i : Intent} (h : (getDesc s key).intents ≠ []) :
    (retireIntent key i s).cache.appendQ = s.cache.appendQ ++ [.retire s.cache.nextJseq key i.jseq] ∧
      ∀ x ∈ (getDesc (retireIntent key i s) key).intents, x.root = i.root → x.phase = .retiring := by
  have hdesc : getDesc (retireIntent key i s) key =
      getDesc (modIntent key i.root (fun x => { x with phase := .retiring }) (takeJseq s).2) key :=
    getDesc_append _ _ _
  refine ⟨congrArg Cache.appendQ (append_cache _ _), ?_⟩
  rw [hdesc]
  exact forall_modIntent h fun _ _ _ => rfl

/-! ### Batches (R327, R328) -/

theorem le_maxBy {α : Type} {f : α → Nat} {l : List α} {x : α} (h : x ∈ l) : f x ≤ maxBy f l := by
  have hfold : ∀ (l : List α) (a : Nat), a ≤ l.foldl (fun a x => max a (f x)) a ∧
      ∀ x ∈ l, f x ≤ l.foldl (fun a x => max a (f x)) a := fun l => by
    induction l with
    | nil => exact fun a => ⟨Nat.le_refl a, by simp⟩
    | cons y r ih =>
      intro a
      obtain ⟨hacc, hall⟩ := ih (max a (f y))
      refine ⟨Nat.le_trans (Nat.le_max_left _ _) hacc, fun x hx => ?_⟩
      rcases List.mem_cons.mp hx with rfl | hx
      · exact Nat.le_trans (Nat.le_max_right _ _) hacc
      · exact hall x hx
  exact (hfold l 0).2 x h

/-- The cache without its stripes, its ring, and what a clean cache clears. -/
def Cache.sansRing (c : Cache) : Cache := { c with stripes := [], ring := [], ringPos := 0, destageAll := false, cleanWait := false }

theorem sansRing_checkClean (s : State) : (checkClean s).cache.sansRing = s.cache.sansRing := by
  unfold checkClean
  dsimp only
  split <;> rfl

theorem sansRing_dropRetired (rs : List JRec) (s : State) : (dropRetired rs s).cache.sansRing = s.cache.sansRing :=
  foldl_keeps (part := fun t => t.cache.sansRing) rs s fun t r => by cases r <;> rfl

/-- A batch that becomes durable leaves the append queue, and DUR_JSEQ covers it. -/
theorem sansRing_endBatch (s : State) :
    (endBatch s).cache.sansRing = { s.cache.sansRing with
      appendQ := s.cache.appendQ.drop s.cache.batch, batch := 0
      durJseq := maxBy id (s.cache.durJseq :: (s.cache.appendQ.take s.cache.batch).map JRec.jseq) } := by
  simp only [endBatch]
  rw [sansRing_checkClean]
  exact sansRing_dropRetired ..

end Sys2Proof.Machine

/-! O38: the life of an intent, and a journal batch. -/

namespace Sys2Proof.Machine

open Sys2Proof

/-! ### What asking for a ledger page leaves (R291, R295) -/

/-- The ledger without the state of its tier. -/
def Ledger.sansTier (l : Ledger) : Ledger := { l with pages := [], missing := [], misses := 0 }

theorem sansTier_bornPage (k : Nat) (s : State) : (bornPage k s).ledger.sansTier = s.ledger.sansTier := by
  unfold bornPage
  split <;> rfl

@[simp] theorem sansTier_parkLookup (vol p port : Nat) (who : Requester) (s : State) :
    (parkLookup vol p port who s).ledger.sansTier = s.ledger.sansTier := by
  simp only [parkLookup]
  split <;> rfl

@[simp] theorem sansTier_missSub (vol p port : Nat) (way : Option Nat) (stream : Bool) (who : Requester) (s : State) :
    (missSub vol p port way stream who s).2.ledger.sansTier = s.ledger.sansTier := by
  unfold missSub
  dsimp only
  (repeat' split) <;> simp

@[simp] theorem sansTier_lookWay (i : Nat) (l : SmcLine) (vol p port : Nat) (stream : Bool) (who : Requester) (s : State) :
    (lookWay i l vol p port stream who s).2.ledger.sansTier = s.ledger.sansTier := by
  unfold lookWay
  (repeat' split) <;> simp

/-- Wherever a lookup finds its line, it ends in a hit, a way or a miss. -/
theorem sansTier_lookCore (vol p port : Nat) (stream : Bool) (who : Requester) (s : State) :
    (lookCore vol p port stream who s).2.ledger.sansTier = s.ledger.sansTier := by
  unfold lookCore
  dsimp only
  (repeat' split) <;> simp

/-- A lookup changes of the ledger the tier alone. -/
theorem sansTier_smcLookup (vol p port : Nat) (stream : Bool) (who : Requester) (s : State) :
    (smcLookup vol p port stream who s).2.ledger.sansTier = s.ledger.sansTier := by
  have hafter : ∀ vol g (t : State), (afterLook vol g port t).ledger = t.ledger := fun vol g t =>
    same_of_alone .ledger (view_afterLook _ _ _ _ rfl)
  unfold smcLookup
  dsimp only
  split
  case isTrue => rfl
  case isFalse =>
    split
    case h_1 => rfl
    case h_2 => rfl
    case h_3 =>
      rw [hafter]
      exact (sansTier_lookCore ..).trans (sansTier_bornPage ..)

theorem sansTier_smcAsk (k port : Nat) (cls : WorkClass) (s : State) :
    (smcAsk k port cls s).2.ledger.sansTier = s.ledger.sansTier := by
  have hask : ∀ x, (askLook x s).ledger.sansTier = s.ledger.sansTier := fun x => by
    have hlook := sansTier_smcLookup x.vol x.parcel x.port x.streams x.who s
    unfold askLook
    split
    all_goals
      next h =>
        rw [h] at hlook
        exact hlook
  simp only [smcAsk]
  split
  · rfl
  · exact hask _

/-- Asking for a parcel's page leaves cache, volumes and entries, and with them the destage's method. -/
theorem smcAsk_keeps (k port : Nat) (cls : WorkClass) (s : State) :
    let t := (smcAsk k port cls s).2
    t.cache = s.cache ∧ (∀ key, stripeVol t key = stripeVol s key) ∧ (∀ p, getEntry t p = getEntry s p) ∧
      (∀ v e, erasedOf t v e = erasedOf s v e) ∧ ∀ v e key i, methodOf t v e key i = methodOf s v e key i := by
  have htier := sansTier_smcAsk k port cls s
  have hvol : (smcAsk k port cls s).2.host = s.host :=
    same_of_alone .host (view_smcAsk _ _ _ _ rfl rfl rfl rfl rfl)
  have hcache : (smcAsk k port cls s).2.cache = s.cache :=
    same_of_alone .cache (view_smcAsk _ _ _ _ rfl rfl rfl rfl rfl)
  generalize (smcAsk k port cls s).2 = t at htier hvol hcache
  have hentries : t.ledger.entries = s.ledger.entries := (congrArg Ledger.entries htier :)
  have hslots : t.ledger.slots = s.ledger.slots := (congrArg Ledger.slots htier :)
  have hpgt : t.ledger.pgt = s.ledger.pgt := (congrArg Ledger.pgt htier :)
  have herased : ∀ v e, erasedOf t v e = erasedOf s v e := fun v e => by
    have hslot : ∀ n, getSlot t n = getSlot s n := fun n => by rw [getSlot, hslots, getSlot]
    have hserves : ∀ n, slotServes t n = slotServes s n := fun n => by rw [slotServes, hslot, slotServes]
    have hpg : ∀ n, getPg t n = getPg s n := fun n => by rw [getPg, hpgt, getPg]
    have hmember : ∀ i, memberErased t e i = memberErased s e i := fun i => by
      simp only [memberErased, hserves, hpg]
    rw [erasedOf, funext hmember, erasedOf]
  refine ⟨hcache, fun key => ?_, fun p => ?_, herased, fun v e key i => ?_⟩
  · rw [stripeVol, getVol, hvol, stripeVol, getVol]
  · rw [getEntry, hentries, getEntry]
  · rw [methodOf, herased, methodOf]

/-! ### Planning (R330, R336) -/

/-- A plan that fetches keeps its purpose. -/
theorem getJob_advanceFetch {id : Nat} {j : Job} {s : State} (key : Nat) (h : getJob s id = some j) :
    ∃ j', getJob (advanceFetch id key s).2 id = some j' ∧ j'.purpose = j.purpose := by
  have hrows : ∀ l : List (Nat × Nat × Nat × List Nat), getJob (l.foldl (fun t k => touchRows k t) s) id = some j := fun l => by
    rw [getJob, same_of_alone .jobs (s := s) (by simp), ← h, getJob]
  unfold advanceFetch
  rw [h]
  split
  case h_1 j0 v hj hv =>
    obtain rfl : j = j0 := Option.some.inj hj
    dsimp only
    split
    · exact ⟨j, h, rfl⟩
    · split
      · exact ⟨_, getJob_modJob_same _ (hrows _), rfl⟩
      · exact ⟨_, getJob_moreWork_same _ (getJob_modJob_same _ (hrows _)), rfl⟩
  case h_2 => exact ⟨j, h, rfl⟩

/-- The plan of a destage's reads stands, and the cache is as it was. -/
theorem startGather_plans (key root : Nat) (want : List Nat) (s : State) :
    (startGather key root want s).cache = s.cache ∧
      ∃ p ∈ (startGather key root want s).jobs, p.2.purpose = .destageRead key root := by
  refine ⟨same_of_alone .cache (view_startGather _ _ _ _ rfl rfl rfl), ?_⟩
  obtain ⟨j, hj, hpurpose, -⟩ := getJob_wantJob_same (.destageRead key root) .foreground false 0 want [] [] s
  obtain ⟨j', hj', hpurpose'⟩ := getJob_advanceFetch key hj
  exact ⟨_, mem_of_tabFind hj', hpurpose'.trans hpurpose⟩

/-- The superseding record of a stripe's first intent takes the next JSEQ, and nothing else of the intent but its record's fields
changes. -/
theorem supersede_first {s : State} {key : Nat} {i : Intent} {r : List Intent} (h : (getDesc s key).intents = i :: r) :
    (supersede key i.root s).cache.nextJseq = s.cache.nextJseq + 1 ∧
      ∀ j ∈ (getDesc (supersede key i.root s) key).intents, j.root = i.root →
        j.jseq = s.cache.nextJseq ∧ j.prev = i.jseq ∧ j.phase = i.phase ∧ j.method = i.method := by
  have hne : (getDesc s key).intents ≠ [] := by simp [h]
  simp only [supersede, findIntent_of_first h]
  refine ⟨?_, ?_⟩
  · rw [(inStep_keeps _ _).2.2, append_cache]
    rfl
  · rw [getDesc_congr (congrArg Cache.stripes (inStep_keeps _ _).2.2), getDesc_append]
    exact forall_modIntent (s := (takeJseq s).2) hne fun _ _ _ => ⟨rfl, rfl, rfl, rfl⟩

/-- The intent of a stripe as its destage is planned, with its method and STRIP_MASK (R336 to R338). -/
def Intent.planned (s : State) (v : Volume) (e : LEntry) (key : Nat) (i : Intent) : Intent :=
  let j := { i with
    method := methodOf s v e key i, degraded := !(erasedOf s v e).isEmpty, zgroup := groupZero e key, phase := .gathering }
  { j with stripMask := stripMaskOf s v e j }

/-- The state in which a planned destage's reads begin: the intent as planned, and superseded at once on a stripe with no member
erased (R330, R337). -/
def readyToGather (s : State) (v : Volume) (e : LEntry) (key : Nat) (i : Intent) : State :=
  let t := modIntent key i.root (fun _ => i.planned s v e key) s
  if !(erasedOf s v e).isEmpty then t else supersede key i.root t

/-- A placed parcel's destage that is no replay, once the parcel's page is at hand. -/
theorem planDestage_of_placed {s t : State} {key : Nat} {i : Intent} {v : Volume}
    (hask : smcAsk (key / 256) 1 .foreground s = (true, t)) (hv : stripeVol t key = some v)
    (hp : (getEntry t (key / 256)).placed = true) (hr : i.replay = false) :
    planDestage key i s = startGather key i.root (destageWants v (i.planned t v (getEntry t (key / 256)) key))
      (readyToGather t v (getEntry t (key / 256)) key i) := by
  have hno : ¬ i.replay = true := by simp [hr]
  simp only [planDestage, hask, hv, hp, Bool.not_true, Bool.false_eq_true, if_false, if_neg hno]
  rfl

/-- The destage of a parcel without a place, once the parcel's page is at hand. -/
theorem planDestage_of_unplaced {s : State} {key : Nat} {i : Intent} {v : Volume}
    (hask : (smcAsk (key / 256) 1 .foreground s).1 = true) (hv : stripeVol s key = some v)
    (hp : (getEntry s (key / 256)).placed = false) :
    planDestage key i s = retireEmpty key i.root (smcAsk (key / 256) 1 .foreground s).2 := by
  obtain ⟨-, hvol, hentry, -⟩ := smcAsk_keeps (key / 256) 1 .foreground s
  simp [planDestage, hvol, hv, hask, hentry, hp]

/-- A planned intent gathers by its method, and on a stripe with no member erased has its superseding record. -/
theorem readyToGather_plans {s : State} {v : Volume} {e : LEntry} {key : Nat} {i : Intent} {r : List Intent}
    (hi : (getDesc s key).intents = i :: r) :
    let t := readyToGather s v e key i
    (∀ j ∈ (getDesc t key).intents, j.root = i.root → j.phase = .gathering ∧ j.method = methodOf s v e key i) ∧
      (erasedOf s v e = [] → t.cache.nextJseq = s.cache.nextJseq + 1 ∧
        ∀ j ∈ (getDesc t key).intents, j.root = i.root → j.jseq = s.cache.nextJseq ∧ j.prev = i.jseq) := by
  obtain ⟨r', hfirst⟩ := first_modIntent (fun _ => i.planned s v e key) hi
  simp only [readyToGather]
  split
  case isTrue hsome =>
    refine ⟨forall_modIntent (by simp [hi]) fun _ _ _ => ⟨rfl, rfl⟩, fun hnone => ?_⟩
    simp [hnone] at hsome
  case isFalse hnone =>
    obtain ⟨hjseq, hall⟩ := supersede_first hfirst
    refine ⟨fun j hj hroot => ?_, fun _ => ⟨hjseq, fun j hj hroot => ?_⟩⟩
    · obtain ⟨-, -, hphase, hmethod⟩ := hall j hj hroot
      exact ⟨hphase, hmethod⟩
    · obtain ⟨hj', hprev, -⟩ := hall j hj hroot
      exact ⟨hj', hprev⟩

/-- What the planning of a stripe's first intent leaves (R330, R336). -/
theorem planDestage_gathers {s : State} {key : Nat} {i : Intent} {r : List Intent} {v : Volume}
    (hi : (getDesc s key).intents = i :: r) (hask : (smcAsk (key / 256) 1 .foreground s).1 = true)
    (hv : stripeVol s key = some v) (hp : (getEntry s (key / 256)).placed = true) (hr : i.replay = false) :
    let t := planDestage key i s
    (∃ p ∈ t.jobs, p.2.purpose = .destageRead key i.root) ∧
      (∀ j ∈ (getDesc t key).intents, j.root = i.root →
        j.phase = .gathering ∧ j.method = methodOf s v (getEntry s (key / 256)) key i) ∧
      (erasedOf s v (getEntry s (key / 256)) = [] → t.cache.nextJseq = s.cache.nextJseq + 1 ∧
        ∀ j ∈ (getDesc t key).intents, j.root = i.root → j.jseq = s.cache.nextJseq ∧ j.prev = i.jseq) := by
  obtain ⟨hcache, hvol, hentry, herased, hmethod⟩ := smcAsk_keeps (key / 256) 1 .foreground s
  have hplans := readyToGather_plans (v := v) (e := getEntry s (key / 256))
    (s := (smcAsk (key / 256) 1 .foreground s).2) (by rw [getDesc_congr (congrArg Cache.stripes hcache), hi])
  rw [herased, hmethod, hcache] at hplans
  have hplan := planDestage_of_placed (Prod.ext hask rfl) ((hvol key).trans hv) (by rw [hentry]; exact hp) hr
  rw [hentry] at hplan
  simp only [hplan]
  obtain ⟨hkept, hjob⟩ := startGather_plans key i.root
    (destageWants v (i.planned (smcAsk (key / 256) 1 .foreground s).2 v (getEntry s (key / 256)) key))
    (readyToGather (smcAsk (key / 256) 1 .foreground s).2 v (getEntry s (key / 256)) key i)
  refine ⟨hjob, ?_⟩
  rw [getDesc_congr (congrArg Cache.stripes hkept), hkept]
  exact hplans

/-- An intent without a place retires with no block to write (R339). -/
theorem retireEmpty_retires {s : State} {key : Nat} {i : Intent} {r : List Intent} (h : (getDesc s key).intents = i :: r) :
    (retireEmpty key i.root s).cache.appendQ = s.cache.appendQ ++ [.retire s.cache.nextJseq key i.jseq] ∧
      ∀ j ∈ (getDesc (retireEmpty key i.root s) key).intents, j.root = i.root →
        j.phase = .retiring ∧ j.blocks = [] ∧ j.zeros = [] := by
  simp only [retireEmpty, findIntent_of_first h, Option.map_some, Option.getD_some]
  refine ⟨by rw [append_cache]; rfl, ?_⟩
  rw [getDesc_append]
  exact forall_modIntent (s := (takeJseq s).2) (by rw [getDesc_takeJseq]; simp [h]) fun _ _ _ => ⟨rfl, rfl, rfl⟩

/-- What is planned for a stripe is its first intent. -/
theorem first_of_plannable {s : State} {key : Nat} {i : Intent} (h : plannable s key = some i) :
    ∃ r, (getDesc s key).intents = i :: r := by
  unfold plannable at h
  split at h
  · cases h
  next j r hr =>
    split at h
    · exact ⟨r, by rw [hr, Option.some.inj h]⟩
    · cases h

theorem exec_destagePlan {key : Nat} {i : Intent} {s : State} (hd : destages s = true) (hp : plannable s key = some i)
    (hn : nextToPlan s key i = true) : exec (.destagePlan key) s = .next (planDestage key i s) := by
  simp [exec, execDestagePlan, hp, hd, hn]

/-! ### Retirement (R330, R338, R581) -/

theorem exec_intentRetire {key : Nat} {s : State} (hs : serving s = true) (hd : dumping s = false) :
    exec (.intentRetire key) s = .next (retireStep key s) := by
  simp [exec, execIntentRetire, hs, hd]

/-- Under ZGROUP the ledger change that clears the group's bit is appended, and the intent waits for it (R338). -/
theorem clearGroup_appends {s : State} {key : Nat} {i : Intent} (h : (getDesc s key).intents ≠ []) :
    let t := clearGroup key (modIntent key i.root (fun x => { x with phase := .zeroing }) s)
    (∃ l, t.cache.appendQ = s.cache.appendQ ++ [.ledger l] ∧ l.type = .zeroMask) ∧
      ∀ x ∈ (getDesc t key).intents, x.root = i.root → x.phase = .zeroing := by
  have hstripes : ∀ u, (clearGroup key u).cache.stripes = u.cache.stripes := fun u =>
    same_of_alone .stripes (by apply view_changeEntry <;> rfl)
  refine ⟨⟨_, by rw [clearGroup, changeEntry, ledgerChange_appendQ, modIntent_appendQ], rfl⟩, ?_⟩
  rw [getDesc_congr (hstripes _)]
  exact forall_modIntent h fun _ _ _ => rfl

theorem endJob_cache (id : Nat) (s : State) : (endJob id s).cache = s.cache :=
  same_of_alone .cache (view_endJob _ _ rfl rfl)

theorem getDesc_endJob (id : Nat) (s : State) (k : Nat) : getDesc (endJob id s) k = getDesc s k :=
  getDesc_congr (congrArg Cache.stripes (endJob_cache id s)) k

/-- With every strip write durable and the losses listed, an intent retires, behind the ledger change under ZGROUP. -/
theorem retireStep_of_writing {key id : Nat} {i : Intent} {r : List Intent} {j : Job} {s : State}
    (hi : (getDesc s key).intents = i :: r) (hp : i.phase = .writing) (hj : writeJob s key i.root = some (id, j))
    (h0 : j.left = 0) (hl : listedSafely s i = true) :
    retireStep key s = if i.zgroup then clearGroup key (modIntent key i.root (fun x => { x with phase := .zeroing }) (endJob id s))
      else retireIntent key i (endJob id s) := by
  simp [retireStep, hi, hp, hj, h0, hl]

/-- Once the ledger change is durable the intent retires. -/
theorem retireStep_of_zeroing {key : Nat} {i : Intent} {r : List Intent} {s : State} (hi : (getDesc s key).intents = i :: r)
    (hp : i.phase = .zeroing) (hm : maskPending s (key / 256) = false) : retireStep key s = retireIntent key i s := by
  simp [retireStep, hi, hp, hm]

/-! ### The batch in progress (R327) -/

theorem endBatch_durable (s : State) :
    let t := endBatch s
    t.cache.appendQ = s.cache.appendQ.drop s.cache.batch ∧ t.cache.batch = 0 ∧ s.cache.durJseq ≤ t.cache.durJseq ∧
      (∀ r ∈ s.cache.appendQ.take s.cache.batch, r.jseq ≤ t.cache.durJseq) ∧ t.cache.nextJseq = s.cache.nextJseq ∧
      t.ledger.entries = s.ledger.entries := by
  have hcache := sansRing_endBatch s
  have hdur : (endBatch s).cache.durJseq = _ := (congrArg Cache.durJseq hcache :)
  refine ⟨(congrArg Cache.appendQ hcache :), (congrArg Cache.batch hcache :), ?_, fun r hr => ?_,
    (congrArg Cache.nextJseq hcache :), same_of_alone .entries (view_endBatch _ rfl rfl rfl rfl rfl rfl)⟩
  · rw [hdur]
    exact le_maxBy (f := id) List.mem_cons_self
  · rw [hdur]
    exact le_maxBy (f := id) (List.mem_cons_of_mem _ (List.mem_map_of_mem hr))

/-- The batch in progress ends with its transfer. -/
theorem exec_journalAppendDone {id : Nat} {j : Job} {s : State} (hs : serving s = true) (hb : batchJob s = some (id, j))
    (h : (runningLeg s id).isSome = true ∨ j.left = 0) :
    ∃ t, exec .journalAppendDone s = .next (endBatch t) ∧ t.cache = s.cache ∧ t.ledger = s.ledger := by
  have hend : ∀ t, (endJob id t).cache = t.cache ∧ (endJob id t).ledger = t.ledger := fun t =>
    ⟨endJob_cache id t, same_of_alone .ledger (view_endJob _ _ rfl rfl)⟩
  cases hl : runningLeg s id with
  | some l => exact ⟨endJob id (stopLeg l.id s), by simp [exec, execJournalAppendDone, hb, hs, hl], hend _⟩
  | none =>
    have h0 : j.left = 0 := h.resolve_left (by simp [hl])
    exact ⟨endJob id s, by simp [exec, execJournalAppendDone, hb, hs, hl, h0], hend _⟩

/-! ### O38 -/

/-- Settles O38: an intent by the step of its life, and the batch that becomes durable. -/
theorem destageLifeAndJournal : Obligations.DestageLifeAndJournal := by
  refine ⟨⟨fun stripe i s hs hlast hopen hco => ?coalesce,
    fun stripe i v s hd hplan hnext hv hask => ⟨fun hp hr => ?placed, fun hp => ?unplaced⟩,
    fun stripe i r s hs hd hi => ⟨fun id j hp hj h0 hl => ⟨fun hz => ?written, fun hz => ?group⟩, fun hp hm => ?zeroed⟩⟩,
    fun id j s hs hb h => ?batch⟩
  case coalesce =>
    have hmem : i ∈ (getDesc s stripe).intents := List.mem_of_getLast? hlast
    have hne := List.ne_nil_of_mem hmem
    refine ⟨modIntent stripe i.root (fun x => { x with eligible := true }) s,
      by simp [exec, execCoalesceExpiry, hlast, hs, hopen, hco], forall_modIntent hne fun _ _ _ => rfl, fun j hj hroot => ?_,
      fun k hk => getDesc_modIntent_ne _ _ s hk⟩
    rw [getDesc_modIntent_same _ _ hne]
    exact List.mem_map.mpr ⟨j, hj, if_neg hroot⟩
  case placed =>
    obtain ⟨r, hi⟩ := first_of_plannable hplan
    exact ⟨_, exec_destagePlan hd hplan hnext, planDestage_gathers hi hask hv hp hr⟩
  case unplaced =>
    obtain ⟨r, hi⟩ := first_of_plannable hplan
    obtain ⟨hcache, -⟩ := smcAsk_keeps (stripe / 256) 1 .foreground s
    have hfirst : (getDesc (smcAsk (stripe / 256) 1 .foreground s).2 stripe).intents = i :: r := by
      rw [getDesc_congr (congrArg Cache.stripes hcache), hi]
    have hret := retireEmpty_retires hfirst
    rw [hcache] at hret
    exact ⟨_, by rw [exec_destagePlan hd hplan hnext, planDestage_of_unplaced hask hv hp], hret⟩
  case written =>
    have hret := retireIntent_retires (s := endJob id s) (key := stripe) (i := i) (by simp [getDesc_endJob, hi])
    rw [endJob_cache] at hret
    exact ⟨_, by rw [exec_intentRetire hs hd, retireStep_of_writing hi hp hj h0 hl, if_neg (by simp [hz])], hret⟩
  case group =>
    obtain ⟨⟨l, hq, htype⟩, hall⟩ := clearGroup_appends (s := endJob id s) (key := stripe) (i := i)
      (by simp [getDesc_endJob, hi])
    rw [endJob_cache] at hq
    exact ⟨_, l, by rw [exec_intentRetire hs hd, retireStep_of_writing hi hp hj h0 hl, if_pos hz], hq, htype, hall⟩
  case zeroed =>
    exact ⟨_, by rw [exec_intentRetire hs hd, retireStep_of_zeroing hi hp hm], retireIntent_retires (by simp [hi])⟩
  case batch =>
    obtain ⟨t, hexec, hcache, hledger⟩ := exec_journalAppendDone hs hb h
    have hdur := endBatch_durable t
    rw [hcache, hledger] at hdur
    exact ⟨_, hexec, hdur⟩

end Sys2Proof.Machine

/-! O39: power failure at the pin, and the dump. -/

namespace Sys2Proof.Machine

open Sys2Proof

/-! ### Power failure at the pin (R348, R515, R555) -/

/-- The end of a trial leaves pins and cache. -/
theorem endTrial_keeps (why : Nat) (s : State) :
    (endTrial why s).pins = s.pins ∧ (endTrial why s).cache = s.cache := by
  unfold endTrial
  split <;> exact ⟨rfl, rfl⟩

/-- No trial is armed behind its end, and the one that was ends with the cause and its event. -/
theorem endTrial_ends (why : Nat) (s : State) :
    (endTrial why s).trials.arm = none ∧
      (s.trials.arm.isSome = true → (endTrial why s).trials.why = why ∧ shown (endTrial why s) 0xF01 = true) := by
  cases harm : s.trials.arm with
  | none => rw [endTrial_of_none why harm]; exact ⟨harm, fun h => absurd h (by simp)⟩
  | some k => rw [endTrial_of_some why harm]; exact ⟨rfl, fun _ => ⟨rfl, shown_raise_same _ _⟩⟩

/-- A power failure counts from here on, ends a trial and pauses a restore. -/
theorem powerFail_counts (s : State) :
    let t := powerFail s
    t.pins = s.pins ∧ t.cache.vault.failNow = true ∧ t.cache.stripes = s.cache.stripes ∧ t.trials.arm = none ∧
      (s.trials.arm.isSome = true → t.trials.why = 3 ∧ shown t 0xF01 = true) ∧
      (serving s = true → restoreEnded s = false → t.cache.vault.paused = true) := by
  obtain ⟨s1, hs1⟩ : ∃ s1, s1 = hemApply (calAbort 3) { s with cache := { s.cache with vault := { s.cache.vault with
      failNow := true, failLow := true, paused := s.cache.vault.paused || (serving s && !restoreEnded s) } } } := ⟨_, rfl⟩
  have hpins : s1.pins = s.pins := by rw [hs1]; exact same_of_alone .pins (view_hemApply _ _ rfl rfl)
  have htrials : s1.trials = s.trials := by rw [hs1]; exact same_of_alone .trials (view_hemApply _ _ rfl rfl)
  have hcache : s1.cache = { s.cache with vault := { s.cache.vault with
      failNow := true, failLow := true, paused := s.cache.vault.paused || (serving s && !restoreEnded s) } } := by
    rw [hs1]
    exact same_of_alone .cache (view_hemApply _ _ rfl rfl)
  have hfail : powerFail s = endTrial 3 s1 := by rw [hs1]; rfl
  obtain ⟨hpins', hcache'⟩ := endTrial_keeps 3 s1
  obtain ⟨harm, hends⟩ := endTrial_ends 3 s1
  rw [htrials] at hends
  rw [hcache] at hcache'
  simp only [hfail, hcache']
  exact ⟨hpins'.trans hpins, trivial, trivial, harm, hends, fun hs hr => by simp [hs, hr]⟩

/-! ### Events shown behind ledger changes (R506) -/

theorem keepsShown_raiseIf (c : Bool) (n : Nat) (s : State) : KeepsShown s (raiseIf c n s) := by
  unfold raiseIf
  split
  · exact keepsShown_raise n s
  · exact fun _ hn => hn

theorem keepsShown_takeRun (s : State) (r : Nat × Nat × Nat) : KeepsShown s (takeRun s r) := by
  have hkeep : KeepsShown s (keepRun r s) := keepsShown_dropWork _ s
  unfold takeRun
  generalize keepRun r s = t at hkeep
  refine hkeep.trans (KeepsShown.trans ?_ (keepsShown_raiseIf _ _ _))
  exact .of_events rfl

theorem keepsShown_applyEntry (k : Nat) (e : LEntry) (s : State) : KeepsShown s (applyEntry k e s) := by
  unfold applyEntry
  extract_lets old before after kept ledger s1 s2 s3 s4 ledger'
  have htaken : KeepsShown s s1 := by
    refine KeepsShown.trans ?_ (keepsShown_foldl _ _ keepsShown_takeRun)
    exact .of_events rfl
  have hreleased : KeepsShown s1 s2 := keepsShown_foldl _ _ fun _ _ => .of_events rfl
  have hleft : KeepsShown s2 s3 := by
    unfold s3
    split <;> exact .of_events rfl
  have hjoined : KeepsShown s3 s4 := by
    unfold s4
    split <;> exact .of_events rfl
  have hwritten : ∀ t, KeepsShown t (smcWrite k e t) := fun t =>
    .of_events (same_of_alone .events (by apply view_smcWrite <;> rfl))
  refine htaken.trans (hreleased.trans (hleft.trans (hjoined.trans (KeepsShown.trans ?_ (hwritten _)))))
  exact .of_events rfl

theorem keepsShown_logRec (r : LRec) (s : State) : KeepsShown s (logRec r s) := by
  refine .of_events ?_
  simp only [logRec]
  split
  · exact emit_events _ _
  · rfl

theorem keepsShown_moveAbandon (k : Nat) (f : LEntry → LEntry) (extra : List Byte) (s : State) :
    KeepsShown s (changeEntry .moveAbandon k f extra s) := by
  refine KeepsShown.trans ?_ (keepsShown_logRec _ _)
  simp only [applyRec]
  refine KeepsShown.trans (KeepsShown.trans ?_ (keepsShown_applyEntry _ _ _)) (keepsShown_foldl _ _ fun _ _ => .of_events rfl)
  exact .of_events rfl

/-- A migration abandoned raises its event and clears none. -/
theorem keepsShown_abandonMove (k : Nat) (s : State) : KeepsShown s (abandonMove k s) := by
  unfold abandonMove
  split
  · exact fun _ hn => hn
  · have habandon := keepsShown_moveAbandon k (fun e => { e with moving := false }) [] s
    refine KeepsShown.trans ?_ (keepsShown_raise _ _)
    exact fun n hn => habandon n hn

theorem keepsShown_giveUpMoves (s : State) : KeepsShown s (giveUpMoves s) :=
  keepsShown_foldl _ s fun t k =>
    (keepsShown_foldl _ t fun u i => keepsShown_cancelJob i u).trans (keepsShown_abandonMove k _)

/-! ### Sequence numbers of the ledger (R281) -/

theorem seq_le_abandonMove (k : Nat) (s : State) : s.ledger.seq ≤ (abandonMove k s).ledger.seq := by
  unfold abandonMove
  split
  · exact Nat.le_refl _
  · rw [raise_ledger]
    exact Nat.le_trans (Nat.le_succ _) (Nat.le_of_eq (ledgerChange_seq _ _ _ _ s).symm)

/-- Migrations given up take the next sequence numbers. -/
theorem seq_le_giveUpMoves (s : State) : s.ledger.seq ≤ (giveUpMoves s).ledger.seq :=
  List.foldlRecOn _ _ (motive := fun t : State => s.ledger.seq ≤ t.ledger.seq) (Nat.le_refl _) fun t ht k _ => by
    obtain ⟨u, hu, hledger, -⟩ := giveUpMove_eq k t
    rw [hu]
    exact Nat.le_trans ht (hledger ▸ seq_le_abandonMove k u)

/-- The merging buffer drained leaves the sequence number and what is shown. -/
theorem drainAll_keeps (s : State) : (drainAll s).ledger.seq = s.ledger.seq ∧ KeepsShown s (drainAll s) := by
  refine ⟨foldl_keeps (part := fun t => t.ledger.seq) _ s fun t _ => ?_,
    .of_events (same_of_alone .events (view_drainAll _ rfl rfl))⟩
  unfold drainMerge
  split <;> rfl

/-! ### The append queue flushed (R350) -/

theorem keepsShown_checkClean (s : State) : KeepsShown s (checkClean s) := by
  unfold checkClean
  dsimp only
  split
  · refine KeepsShown.trans ?_ (keepsShown_raise _ _)
    exact .of_events rfl
  · exact .of_events rfl

/-- A batch that becomes durable puts its ledger records on the way to the on-drive log, and clears no event. -/
theorem endBatch_ledger (s : State) :
    (endBatch s).ledger =
        { s.ledger with log := s.ledger.log ++ ledgerRecs (s.cache.appendQ.take s.cache.batch) } ∧
      KeepsShown s (endBatch s) := by
  have hclean : ∀ t, (checkClean t).ledger = t.ledger := fun t => same_of_alone .ledger (view_checkClean _ rfl rfl rfl)
  have hdrop : ∀ rs t, (dropRetired rs t).ledger = t.ledger ∧ (dropRetired rs t).events = t.events := fun rs t =>
    ⟨foldl_keeps (part := State.ledger) rs t fun t r => by cases r <;> rfl,
      foldl_keeps (part := State.events) rs t fun t r => by cases r <;> rfl⟩
  simp only [endBatch]
  refine ⟨?_, KeepsShown.trans ?_ (keepsShown_checkClean _)⟩
  · rw [hclean]
    exact (hdrop _ _).1
  · exact .of_events (hdrop _ _).2

/-- The append queue goes to the journal with all its records; vault and sequence number stand. -/
theorem flushJournal_flushes (s : State) :
    let t := flushJournal s
    t.cache.appendQ = [] ∧ t.cache.vault = s.cache.vault ∧ t.ledger.seq = s.ledger.seq ∧
      t.ledger.log = s.ledger.log ++ ledgerRecs s.cache.appendQ ∧ KeepsShown s t := by
  obtain ⟨s1, hs1⟩ : ∃ s1, s1 = (batchJob s).elim s fun p => cancelJob p.1 s := ⟨_, rfl⟩
  have hcache : s1.cache = s.cache := by rw [hs1]; exact same_of_alone .cache (by simp)
  have hledger : s1.ledger = s.ledger := by rw [hs1]; exact same_of_alone .ledger (by simp)
  have hshown : KeepsShown s s1 := by
    rw [hs1]
    cases batchJob s with
    | none => exact fun _ hn => hn
    | some p =>
      rw [Option.elim_some]
      exact keepsShown_cancelJob p.1 s
  obtain ⟨s2, hs2⟩ : ∃ s2, s2 = { s1 with cache := { s1.cache with batch := s1.cache.appendQ.length } } := ⟨_, rfl⟩
  have hflush : flushJournal s = endBatch s2 := by rw [hs2, hs1]; rfl
  have hring := sansRing_endBatch s2
  obtain ⟨hlog, hkept⟩ := endBatch_ledger s2
  have hall : s2.cache.appendQ.take s2.cache.batch = s.cache.appendQ := by
    rw [hs2, ← hcache]
    exact List.take_length
  have hnone : s2.cache.appendQ.drop s2.cache.batch = [] := by
    rw [hs2]
    exact List.drop_length
  have hledger2 : s2.ledger = s.ledger := by rw [hs2]; exact hledger
  rw [hall, hledger2] at hlog
  simp only [hflush]
  refine ⟨(congrArg Cache.appendQ hring :).trans hnone, (congrArg Cache.vault hring :).trans ?_, by rw [hlog], by rw [hlog], ?_⟩
  · rw [hs2, ← hcache]
    rfl
  · refine hshown.trans (KeepsShown.trans ?_ hkept)
    exact .of_events (by rw [hs2])

/-! ### The dump begins (R348, R350) -/

/-- The writes of a dump are a plan of the vault. -/
theorem postDump_plans (p : Purpose) (ws : List Work) (s : State) : ∃ q ∈ (postDump p ws s).jobs, q.2.purpose = p := by
  have hjob : ∃ j, getJob (newJob p .journal false 0 [] s).2 (newJob p .journal false 0 [] s).1 = some j ∧ j.purpose = p :=
    ⟨_, tabFind_tabInsert_same _ _ _, rfl⟩
  obtain ⟨j, hj, hpurpose⟩ := hjob
  simp only [postDump]
  exact ⟨_, mem_of_tabFind (getJob_modJob_same _ hj), hpurpose⟩

/-- A SEAL among the records of the journal is kept for the on-drive log. -/
theorem mem_ledgerRecs {l : LRec} {rs : List JRec} (h : .ledger l ∈ rs) : l ∈ ledgerRecs rs :=
  List.mem_filterMap.mpr ⟨_, h, rfl⟩

/-- The journal as a dump writes it: the append queue flushed, migrations given up, the merging buffer drained and a SEAL behind
it all (R278, R350). -/
def sealJournal (s : State) : State :=
  flushJournal (ledgerChange .seal 0 0 [] (drainAll (giveUpMoves (flushJournal s))))

/-- The next epoch begun in the half that is free, its headers DUMPING (R350, R354). -/
def takeEpoch (s : State) : State :=
  { s with cache := { s.cache with vault := { s.cache.vault with
    dump := .headers, dumpTick := s.drone.count, epoch := s.cache.vault.top + 1, top := s.cache.vault.top + 1
    half := freeHalf s.cache.vault.liveEpochs, state := 1, drives := vaultSlots s, segments := 0, counts := [] } } }

theorem beginDump_eq (s : State) :
    let t := takeEpoch (sealJournal (raise 0xB06 (setDump .appending s)))
    beginDump s = postDump .vault (headerWrites t 1) t := by
  simp only [beginDump, sealJournal, takeEpoch]

/-- The SEAL is the newest ledger record, and every record before it is durable. -/
theorem sealJournal_seals (s : State) :
    let t := sealJournal s
    t.cache.appendQ = [] ∧ t.cache.vault = s.cache.vault ∧ t.drone.count = s.drone.count ∧ s.ledger.seq < t.ledger.seq ∧
      (∃ l ∈ t.ledger.log, l.type = .seal ∧ l.seq = t.ledger.seq) ∧ KeepsShown s t := by
  obtain ⟨s1, hs1⟩ : ∃ s1, s1 = flushJournal s := ⟨_, rfl⟩
  obtain ⟨s2, hs2⟩ : ∃ s2, s2 = drainAll (giveUpMoves s1) := ⟨_, rfl⟩
  obtain ⟨s3, hs3⟩ : ∃ s3, s3 = ledgerChange .seal 0 0 [] s2 := ⟨_, rfl⟩
  have hseal : sealJournal s = flushJournal s3 := by rw [hs3, hs2, hs1]; rfl
  have htick : (sealJournal s).drone.count = s.drone.count := same_of_alone .tick (by simp [sealJournal])
  obtain ⟨-, hvault1, hseq1, -, hshown1⟩ := flushJournal_flushes s
  rw [← hs1] at hvault1 hseq1 hshown1
  obtain ⟨hqueue, hvault, hseq, hlog, hshown⟩ := flushJournal_flushes s3
  obtain ⟨hdrained, hdrainedShown⟩ := drainAll_keeps (giveUpMoves s1)
  rw [← hs2] at hdrained hdrainedShown
  have hvault2 : s2.cache.vault = s1.cache.vault := by rw [hs2]; exact same_of_alone .vault (by simp)
  have hvault3 : s3.cache.vault = s2.cache.vault := by rw [hs3]; exact same_of_alone .vault (by simp)
  have hseq3 : s3.ledger.seq = s2.ledger.seq + 1 := by rw [hs3, ledgerChange_seq]
  have hshown3 : KeepsShown s2 s3 := by rw [hs3]; exact keepsShown_logRec _ _
  rw [hseal] at htick
  simp only [hseal]
  refine ⟨hqueue, hvault.trans (hvault3.trans (hvault2.trans hvault1)), htick, ?_, ?_,
    hshown1.trans (((keepsShown_giveUpMoves s1).trans hdrainedShown).trans (hshown3.trans hshown))⟩
  · have hmoves := seq_le_giveUpMoves s1
    omega
  · have hmem : JRec.ledger { seq := s2.ledger.seq + 1, type := .seal, volume := 0, key := 0, payload := [] } ∈
        s3.cache.appendQ := by
      rw [hs3, ledgerChange_appendQ]
      exact List.mem_append_right _ (List.mem_singleton_self _)
    have hrec := mem_ledgerRecs hmem
    exact ⟨_, hlog ▸ List.mem_append_right _ hrec, rfl, (hseq.trans hseq3).symm⟩

/-- A dump's beginning: the journal and a SEAL appended, the next epoch taken, its headers DUMPING. -/
theorem beginDump_begins (s : State) :
    let t := beginDump s
    t.cache.vault.dump = .headers ∧ t.cache.vault.epoch = s.cache.vault.top + 1 ∧ t.cache.vault.state = 1 ∧
      t.cache.vault.dumpTick = s.drone.count ∧ s.ledger.seq < t.ledger.seq ∧
      (∃ l ∈ t.ledger.log, l.type = .seal ∧ l.seq = t.ledger.seq) ∧ t.cache.appendQ = [] ∧ shown t 0xB06 = true ∧
      t.halted = s.halted := by
  have hhalted : (beginDump s).halted = s.halted := same_of_alone .halted (by apply view_beginDump <;> rfl)
  obtain ⟨hqueue, hvault, htick, hseq, hlogged, hshown⟩ := sealJournal_seals (raise 0xB06 (setDump .appending s))
  have hbegin := beginDump_eq s
  generalize sealJournal (raise 0xB06 (setDump .appending s)) = u at *
  have hcache : (beginDump s).cache = (takeEpoch u).cache := by
    rw [hbegin]
    exact same_of_alone .cache (view_postDump _ _ _ rfl rfl)
  have hledger : (beginDump s).ledger = u.ledger := by
    rw [hbegin]
    exact same_of_alone .ledger (s := takeEpoch u) (view_postDump _ _ _ rfl rfl)
  have hevents : (beginDump s).events = u.events := by
    rw [hbegin]
    exact same_of_alone .events (s := takeEpoch u) (view_postDump _ _ _ rfl rfl)
  have htop : u.cache.vault.top = s.cache.vault.top := (congrArg Vault.top hvault :)
  simp only [hcache, hledger, hhalted]
  refine ⟨rfl, congrArg (· + 1) htop, rfl, htick, hseq, hlogged, hqueue, ?_, trivial⟩
  exact KeepsShown.of_events hevents _ (hshown _ (shown_raise_same _ _))

/-- A reload given up leaves what a dump begins from. -/
theorem abandonReload_keeps (s : State) :
    let t := abandonReload s
    t.cache.vault = s.cache.vault ∧ t.ledger = s.ledger ∧ t.drone = s.drone ∧ t.halted = s.halted ∧ t.sampled = s.sampled ∧
      fenceHolder t = fenceHolder s ∧ restoreEnded t = restoreEnded s := by
  have hvault : (abandonReload s).cache.vault = s.cache.vault := same_of_alone .vault (by apply view_abandonReload <;> rfl)
  have hsampled : (abandonReload s).sampled = s.sampled := same_of_alone .sampled (by apply view_abandonReload <;> rfl)
  have hpair : (abandonReload s).pair = s.pair := same_of_alone .pair (by apply view_abandonReload <;> rfl)
  refine ⟨hvault, same_of_alone .ledger (by apply view_abandonReload <;> rfl),
    same_of_alone .drone (by apply view_abandonReload <;> rfl), same_of_alone .halted (by apply view_abandonReload <;> rfl),
    hsampled, ?_, ?_⟩
  · rw [fenceHolder, hsampled, hpair, fenceHolder]
  · rw [restoreEnded, hvault, restoreEnded]

/-- A plane that halts leaves cache and events. -/
theorem haltPlane_halts (s : State) :
    (haltPlane s).halted = true ∧ (haltPlane s).cache = s.cache ∧ (haltPlane s).events = s.events := by
  unfold haltPlane
  split <;> exact ⟨rfl, rfl, rfl⟩

theorem exec_dumpStart {s : State} (hd : dumpDue s = true) : exec .dumpStart s = .next (startDump s) := by
  simp [exec, execDumpStart, hd]

/-! ### The phases of a dump (R350, R556) -/

theorem dumpPhase_posts (p : DumpPhase) (st : Nat) (ws : List Work) (s : State) :
    let t := dumpPhase p st ws s
    t.cache.vault.dump = p ∧ t.cache.vault.state = st ∧ ∃ q ∈ t.jobs, q.2.purpose = .vault := by
  have hcache : ∀ u, (postDump .vault ws u).cache = u.cache := fun u => same_of_alone .cache (view_postDump _ _ _ rfl rfl)
  refine ⟨?_, ?_, postDump_plans _ _ _⟩
  · simp only [dumpPhase, hcache]
    rfl
  · simp only [dumpPhase, hcache]

/-- The dump is SEALED: its epoch is live, and the plane halts. -/
theorem endDump_seals (s : State) :
    let t := endDump s
    t.cache.vault.dump = .done ∧ t.halted = true ∧ shown t 0xB07 = true ∧
      (s.cache.vault.epoch, s.cache.vault.half) ∈ t.cache.vault.liveEpochs := by
  simp only [endDump]
  obtain ⟨s1, hs1⟩ : ∃ s1, s1 = raise 0xB07 (setDump .done { s with cache := { s.cache with vault := { s.cache.vault with
    liveEpochs := (s.cache.vault.liveEpochs.filter fun p => p.2 != s.cache.vault.half) ++
      [(s.cache.vault.epoch, s.cache.vault.half)] } } }) := ⟨_, rfl⟩
  rw [← hs1]
  obtain ⟨hhalted, hcache, hevents⟩ := haltPlane_halts s1
  refine ⟨by rw [hcache, hs1]; rfl, hhalted, KeepsShown.of_events hevents _ ?_, ?_⟩
  · rw [hs1]
    exact shown_raise_same _ _
  · rw [hcache, hs1]
    exact List.mem_append_right _ (List.mem_singleton_self _)

/-! ### O39 -/

/-- Settles O39: the pin's fall, the dump's start by who holds the fence and whether restore has ended, and each phase behind its
writes. -/
theorem powerFailureAndDump : Obligations.PowerFailureAndDump := by
  refine ⟨fun s hb hf => ?pin, fun s hd hr => ⟨startDump s, exec_dumpStart hd, fun hno => ?other, fun hholder => ?holder⟩,
    fun s hd hr => ⟨startDump s, exec_dumpStart hd, ?restoring⟩,
    fun s hs hidle => ⟨fun hdump => ?pages, fun hdump => ?flush, fun hdump => ?sealed⟩⟩
  case pin =>
    obtain ⟨hpins, hfail, hstripes, harm, htrial, hpause⟩ := powerFail_counts { s with pins := { s.pins with pwrFailN := false } }
    exact ⟨_, by simp [exec, execPwrFailAssert, hb, hf], by rw [hpins], hfail, hstripes, harm, htrial, hpause⟩
  case other =>
    obtain ⟨hvault, -, -, -, -, hfence, hended⟩ := abandonReload_keeps s
    obtain ⟨hhalted, hcache, -⟩ := haltPlane_halts (abandonReload s)
    have hstart : startDump s = haltPlane (abandonReload s) := by simp [startDump, hended, hr, hfence, hno]
    rw [hstart, hcache, hvault]
    exact ⟨hhalted, rfl⟩
  case holder =>
    obtain ⟨hvault, hledger, hdrone, hhalted, -, hfence, hended⟩ := abandonReload_keeps s
    have hstart : startDump s = beginDump (abandonReload s) := by simp [startDump, hended, hr, hfence, hholder]
    have hbegins := beginDump_begins (abandonReload s)
    rw [hvault, hledger, hdrone, hhalted] at hbegins
    rw [hstart]
    exact hbegins
  case restoring =>
    obtain ⟨hvault, -, -, -, hsampled, -, hended⟩ := abandonReload_keeps s
    obtain ⟨hhalted, hcache, -⟩ := haltPlane_halts (abandonReload s)
    cases hstop : s.sampled.stop with
    | false =>
      have hstart : startDump s = abandonReload s := by simp [startDump, hended, hr, hsampled, hstop]
      rw [hstart, hvault]
      exact ⟨rfl, fun h => absurd h (by simp)⟩
    | true =>
      have hstart : startDump s = haltPlane (abandonReload s) := by simp [startDump, hended, hr, hsampled, hstop]
      rw [hstart, hcache, hvault]
      exact ⟨rfl, fun _ => hhalted⟩
  case pages => exact ⟨_, by simp only [exec, execDumpJournalSafe, hs, hdump, hidle]; rfl, dumpPhase_posts _ _ _ _⟩
  case flush => exact ⟨_, by simp only [exec, execDumpFlush, hs, hdump, hidle]; rfl, dumpPhase_posts _ _ _ _⟩
  case sealed =>
    have hcache : (endVaultJobs s).cache = s.cache := same_of_alone .cache (view_endVaultJobs _ rfl rfl)
    have hseals := endDump_seals (endVaultJobs s)
    rw [hcache] at hseals
    exact ⟨_, by simp only [exec, execJrnDumpDone, hs, hdump, hidle]; rfl, hseals⟩

end Sys2Proof.Machine

/-! O48: frames of the stream. A frame buffered, passed over or applied; what each kind of frame does where it is applied. -/

namespace Sys2Proof.Machine

open Sys2Proof

/-! ### A frame received (R457, R480) -/

/-- The stamp of a frame received is noted. -/
def sawStamp (stamp : Nat) (s : State) : State :=
  { s with pair := { s.pair with lastStamp := max s.pair.lastStamp stamp } }

/-- The commands that bring a frame of the stream, with the frame. -/
def Streams (i : Instr) (stamp : Nat) (f : Frame) : Prop :=
  (∃ n w, i = .input stamp n w ∧ f = .input n w) ∨ (∃ r, i = .jrec stamp r ∧ f = .jrec r) ∨
    (∃ k q j d pi, i = .page stamp k q j d pi ∧ f = .page k q j d pi) ∨
    (∃ k q d, i = .dinput stamp k q d ∧ f = .dinput k q d) ∨
    ∃ n j l lc pc js, i = .digest stamp n j l lc pc js ∧ f = .digest stamp n j l lc pc js

theorem exec_stream {i : Instr} {stamp : Nat} {f : Frame} {s : State} (hh : hears s = true) (h : Streams i stamp f) :
    exec i s = .next (receive stamp f s) := by
  rcases h with ⟨n, w, rfl, rfl⟩ | ⟨r, rfl, rfl⟩ | ⟨k, q, j, d, pi, rfl, rfl⟩ | ⟨k, q, d, rfl, rfl⟩ |
    ⟨n, j, l, lc, pc, js, rfl, rfl⟩
  · simp [exec, execInput, hh]
  · simp [exec, execJrec, hh]
  · simp [exec, execPage, hh]
  · simp [exec, execDinput, hh]
  · simp [exec, execDigest, hh]

theorem seeStream_of_not_active {s : State} (h : s.pair.claim.unit ≠ .active) : seeStream s = s := by
  simp [seeStream, h]

theorem unit_of_buffers {s : State} (h : buffers s = true) : s.pair.claim.unit = .unsynced := by
  simp only [buffers, Bool.and_eq_true, beq_iff_eq] at h
  exact h.1

/-- A unit that applies the stream is a standby, and buffers nothing. -/
theorem standby_of_applies {s : State} (h : applies s = true) : s.pair.claim.unit ≠ .active ∧ buffers s = false := by
  have hunit : s.pair.claim.unit = .standbySynced ∨ s.pair.claim.unit = .unsynced ∧ s.pair.phase = 4 := by
    simpa [applies] using h
  rcases hunit with hu | ⟨hu, hp⟩
  · simp [buffers, hu]
  · simp [buffers, hu, hp]

/-- A frame received is buffered, applied or of no use, by what the unit is once it has seen it. -/
theorem receive_eq (stamp : Nat) (f : Frame) (s : State) : receive stamp f s =
    if buffers (seeStream s) then
      modEpg (fun p => { p with buffer := p.buffer ++ [(stamp, f)] }) (sawStamp stamp (seeStream s))
    else if applies (seeStream s) then applyFrame stamp f (sawStamp stamp (seeStream s))
    else sawStamp stamp (seeStream s) := rfl

theorem receive_of_buffers {stamp : Nat} {f : Frame} {s : State} (h : buffers s = true) :
    receive stamp f s = { s with pair := { s.pair with
      lastStamp := max s.pair.lastStamp stamp, buffer := s.pair.buffer ++ [(stamp, f)] } } := by
  rw [receive_eq, seeStream_of_not_active (by simp [unit_of_buffers h]), if_pos h]
  rfl

theorem receive_of_neither {stamp : Nat} {f : Frame} {s : State} (hb : buffers s = false) (ha : applies s = false)
    (hu : s.pair.claim.unit ≠ .active) : receive stamp f s = sawStamp stamp s := by
  rw [receive_eq, seeStream_of_not_active hu, if_neg (by simp [hb]), if_neg (by simp [ha])]

theorem receive_of_applies {stamp : Nat} {f : Frame} {s : State} (ha : applies s = true) :
    receive stamp f s = applyFrame stamp f (sawStamp stamp s) := by
  obtain ⟨hu, hb⟩ := standby_of_applies ha
  rw [receive_eq, seeStream_of_not_active hu, if_neg (by simp [hb]), if_pos ha]

theorem liveStamp_of_none {stamp : Nat} {s : State} (h : s.loader.live = none) : liveStamp stamp s = s := by
  simp [liveStamp, h]

/-! ### The old active steps down (R488) -/

theorem dropPlans_pair (s : State) : (dropPlans s).pair = s.pair :=
  same_of_alone .pair (view_dropPlans _ rfl rfl rfl rfl rfl)

/-- A step down writes the unit state over a pair sequencer whose switch is over, opens the intake and raises its event. -/
theorem stepDown_eq (s : State) :
    ∃ u, u.pair.claim = s.pair.claim ∧ u.pair.switch = 0 ∧ stepDown s = raise 0xACD { setUnit .standbySynced u with
      host := { (setUnit .standbySynced u).host with stopped := false } } :=
by
  have hclaim := congrArg Pair.claim (dropPlans_pair s)
  unfold stepDown
  generalize dropPlans s = w at hclaim
  refine ⟨modEpg _ w, ?_, ?_, rfl⟩
  · exact hclaim
  · rfl

/-- The old active is STANDBY_SYNCED under the claim it had, its switch over and its intake open. -/
theorem stepDown_yields (s : State) :
    let t := stepDown s
    t.pair.claim.unit = .standbySynced ∧ t.pair.claim.claim = s.pair.claim.claim ∧ t.pair.switch = 0 ∧
      t.host.stopped = false ∧ shown t 0xACD = true ∧ t.loader = s.loader := by
  have hloader : (stepDown s).loader = s.loader := same_of_alone .loader (by apply view_stepDown <;> rfl)
  obtain ⟨u, hclaim, hswitch, hstep⟩ := stepDown_eq s
  simp only [hloader, and_true]
  simp only [hstep]
  refine ⟨setUnit_unit _ u, (setUnit_claim _ u).trans (by rw [hclaim]), ?_, rfl, shown_raise_same _ _⟩
  exact (congrArg Pair.switch (setUnit_pair _ u)).trans hswitch

/-- An old active that sees the stream steps down, and applies the frame. -/
theorem receive_of_preempted {stamp : Nat} {f : Frame} {s : State} (hu : s.pair.claim.unit = .active)
    (hsw : s.pair.switch = 3) : receive stamp f s = applyFrame stamp f (sawStamp stamp (stepDown s)) := by
  obtain ⟨hunit, -⟩ := stepDown_yields s
  have hsee : seeStream s = stepDown s := by simp [seeStream, hu, hsw]
  rw [receive_eq, hsee, if_neg (by simp [buffers, hunit]), if_pos (by simp [applies, hunit])]

/-! ### Frames applied (R457)

On a unit that applies the stream, with no live replacement pending. -/

theorem exec_input_of_applies {stamp n : Nat} {w : InStep} {s : State} (hh : hears s = true) (ha : applies s = true)
    (hl : s.loader.live = none) : exec (.input stamp n w) s = .next (applyInput n w (sawStamp stamp s)) := by
  simp only [exec, execInput, hh, if_true, receive_of_applies ha, applyFrame, liveStamp_of_none (s := sawStamp stamp s) hl]

theorem exec_jrec_of_applies {stamp : Nat} {r : JRec} {s : State} (hh : hears s = true) (ha : applies s = true)
    (hl : s.loader.live = none) : exec (.jrec stamp r) s = .next (takeRec r (sawStamp stamp s)) := by
  simp only [exec, execJrec, hh, if_true, receive_of_applies ha, applyFrame, liveStamp_of_none (s := sawStamp stamp s) hl]

theorem exec_page_of_applies {stamp key q j : Nat} {d pi : List Byte} {s : State} (hh : hears s = true) (ha : applies s = true)
    (hl : s.loader.live = none) : exec (.page stamp key q j d pi) s = .next (takePage key q j d pi (sawStamp stamp s)) := by
  simp only [exec, execPage, hh, if_true, receive_of_applies ha, applyFrame, liveStamp_of_none (s := sawStamp stamp s) hl]

/-- A DINPUT frame applied waits for the parity leg that takes it. -/
theorem applyFrame_dinput {stamp k q : Nat} {d : List Byte} {s : State} (hl : s.loader.live = none) :
    applyFrame stamp (.dinput k q d) s = { s with pair := { s.pair with dins := s.pair.dins ++ [(k, q, d)] } } := by
  simp only [applyFrame, liveStamp_of_none hl]
  rfl

/-! ### Inputs (R457) -/

/-- The content of an input leaves the append queue: what the standby makes waits for the active's records. -/
theorem applyWhat_appendQ (w : InStep) (s : State) : (applyWhat w s).cache.appendQ = s.cache.appendQ := by
  have hlost : ∀ e, (volLost e s).cache = s.cache := fun e => same_of_alone .cache (view_volLost _ _ rfl rfl rfl rfl)
  have hins : ∀ l, (insertLost none s l).cache = s.cache := fun l =>
    same_of_alone .cache (view_insertLost _ _ _ rfl rfl rfl rfl)
  cases w with
  | data e sg bs pi =>
    simp only [applyWhat]
    split <;> rfl
  | volume e sg => exact congrArg Cache.appendQ (hlost e)
  | lost l => exact congrArg Cache.appendQ (hins l)
  | clear v => rfl
  | live => rfl
  | destage k j => rfl

/-- A lost-block entry of the stream enters the list at its place while there is room (R379). -/
theorem applyWhat_lost {l : Lost} {s : State} (h : s.array.lost.length < 4096) :
    (applyWhat (.lost l) s).array.lost = insertBy lostLe l s.array.lost := by
  simp [applyWhat, insertLost, h]

theorem applyInput_of_gap {n : Nat} {w : InStep} {s : State} (h0 : s.pair.iseq ≠ 0) (hn : n ≠ s.pair.iseq + 1) :
    applyInput n w s = s := by
  simp [applyInput, h0, hn]

theorem applyInput_in_order {n : Nat} {s : State} (w : InStep) (h : s.pair.iseq = 0 ∨ n = s.pair.iseq + 1) :
    applyInput n w s = modEpg (fun p => { p with iseq := n, appliedIseq := n }) (applyWhat w s) := by
  have hno : ¬ (s.pair.iseq ≠ 0 ∧ n ≠ s.pair.iseq + 1) := by
    rintro ⟨h0, hn⟩
    exact h.elim h0 hn
  simp [applyInput, hno]

/-! ### Records (R346, R347) -/

theorem emptyGroups_keeps (old new : BitVec 32) (pk : Nat) (s : State) :
    (emptyGroups old new pk s).ledger = s.ledger ∧ (emptyGroups old new pk s).cache.appendQ = s.cache.appendQ := by
  refine ⟨foldl_keeps (part := State.ledger) _ _ fun _ _ => rfl,
    foldl_keeps (part := fun t => t.cache.appendQ) _ _ fun _ _ => rfl⟩

/-- A newer ledger record but for one of a slot is applied with its SEQ; a ZERO_MASK record may empty OPEN intents. -/
theorem applyLedger_of_newer {l : LRec} {s : State} (ht : l.type ≠ .slot) (hn : s.ledger.seq < l.seq) :
    (applyLedger l s).ledger.seq = l.seq ∧ (applyLedger l s).cache.appendQ = s.cache.appendQ := by
  have hq : (applyRec l s).cache.appendQ = s.cache.appendQ :=
    congrArg Cache.appendQ (same_of_alone .cache (by apply view_applyRec <;> rfl))
  have hnew : ¬ l.seq ≤ s.ledger.seq := Nat.not_le.mpr hn
  simp only [applyLedger, if_neg hnew]
  split
  · simp only [emptyGroups_keeps]
    exact ⟨trivial, hq⟩
  · exact ⟨rfl, hq⟩

/-- A ledger record brings its SEQ and leaves the append queue; one that the unit has is passed over. -/
theorem applyLedger_keeps {l : LRec} {s : State} (ht : l.type ≠ .slot) :
    (applyLedger l s).ledger.seq = max s.ledger.seq l.seq ∧ (applyLedger l s).cache.appendQ = s.cache.appendQ ∧
      (l.seq ≤ s.ledger.seq → (applyLedger l s).ledger = s.ledger) := by
  rcases Nat.lt_or_ge s.ledger.seq l.seq with hn | hold
  · obtain ⟨hseq, hq⟩ := applyLedger_of_newer ht hn
    exact ⟨by omega, hq, fun h => absurd hn (Nat.not_lt.mpr h)⟩
  · have hsame : applyLedger l s = s := by simp [applyLedger, hold]
    rw [hsame]
    exact ⟨by omega, rfl, fun _ => rfl⟩

/-- A ledger record that the unit has not made itself joins the append queue. -/
theorem takeRec_ledger {l : LRec} {s : State} (ho : (s.pair.ownRecs.find? fun o => o.seq == l.seq) = none)
    (ht : l.type ≠ .slot) :
    (takeRec (.ledger l) s).ledger.seq = max s.ledger.seq l.seq ∧
      (takeRec (.ledger l) s).cache.appendQ = s.cache.appendQ ++ [.ledger l] ∧
      (l.seq ≤ s.ledger.seq → (takeRec (.ledger l) s).ledger = s.ledger) := by
  obtain ⟨hseq, hq, hold⟩ := applyLedger_keeps (s := s) ht
  simp only [takeRec, takeLedger, ho]
  exact ⟨hseq, congrArg (· ++ [JRec.ledger l]) hq, hold⟩

/-- A record that supersedes none brings a new intent. -/
theorem takeRec_intent {r : IntentRec} {s : State} (h : r.prev = 0) :
    ∃ i, (getDesc (takeRec (.intent r) s) r.stripe).intents = (getDesc s r.stripe).intents ++ [i] ∧ i.jseq = r.jseq ∧
      i.method = r.method ∧ i.phase = (if r.method = .open_ then .open_ else .writing) ∧ i.stripMask = r.stripMask ∧
      (takeRec (.intent r) s).cache.nextJseq = max s.cache.nextJseq (r.jseq + 1) := by
  have hnew : ((getDesc s r.stripe).intents.any fun i => r.prev != 0 && i.jseq == r.prev) = false := by simp [h]
  refine ⟨r.take (Intent.fresh r.jseq r.tick r.oldGen false), ?_, rfl, rfl, rfl, rfl, rfl⟩
  have hput : getDesc (takeRec (.intent r) s) r.stripe = getDesc (setDesc r.stripe
      { intents := (getDesc s r.stripe).intents ++ [r.take (Intent.fresh r.jseq r.tick r.oldGen false)] } s) r.stripe := by
    simp only [takeRec, adoptIntent, hnew]
    rfl
  rw [hput, getDesc_setDesc_same _ _ (by simp)]

/-- An intent that a retire record names retires. -/
def Intent.retireNamed (old : Nat) (i : Intent) : Intent := if i.jseq = old then { i with phase := .retiring } else i

/-- The intents that a retire record names retire, once no parity leg of theirs is pending (R347). -/
theorem takeRec_retire {j key old : Nat} {s : State} (hp : parityPending s old = false) (hne : (getDesc s key).intents ≠ []) :
    ∀ x ∈ (getDesc (takeRec (.retire j key old) s) key).intents, x.jseq = old → x.phase = .retiring := by
  have hput : getDesc (takeRec (.retire j key old) s) key =
      getDesc (setDesc key { intents := (getDesc s key).intents.map (Intent.retireNamed old) } s) key := by
    simp only [takeRec, takeRetire, hp]
    rfl
  rw [hput, getDesc_setDesc_map _ hne]
  intro x hx hjseq
  obtain ⟨i, -, rfl⟩ := List.mem_map.mp hx
  by_cases hi : i.jseq = old
  · simp [Intent.retireNamed, hi]
  · simp [Intent.retireNamed, hi] at hjseq

/-! ### Digests (R464, R465) -/

/-- What a digest says agrees with what the stream has brought: sequence numbers and LEDGER_CRC. -/
def digestAgrees (n j l : Nat) (lc : Word) (s : State) : Bool :=
  (s.pair.iseq == 0 || s.pair.iseq == n) && (s.pair.digest.jseq == 0 || s.pair.digest.jseq == j) &&
    (s.pair.digest.lseq == 0 || s.pair.digest.lseq == l) && crc64 s.pair.digest.ledger == lc

/-- A digest without destages that finds no other waiting is judged at once. -/
theorem takeDigest_of_no_jseqs {stamp n j l : Nat} {lc pc : Word} {s : State} (h : s.pair.dcheck = []) :
    takeDigest stamp n j l lc pc [] s = modEpg (fun p => { p with
      iseq := n, appliedIseq := n
      digest := { p.digest with ledger := [], lseq := l, jseq := j }
      dcheck := [{ tick := stamp, ok := digestAgrees n j l lc s, parity := pc, jseqs := [] }] }) s := by
  simp only [takeDigest, startParities, modEpg, h, digestAgrees, List.nil_append, List.flatMap_cons, List.flatMap_nil,
    List.append_nil, List.foldl_nil]

theorem confirmDigests_of_agreeing {d : DigestIn} {s : State} (h : s.pair.dcheck = [d]) (hjs : d.jseqs = [])
    (hok : d.ok = true) (hp : crc64 [] = d.parity) : confirmDigests 1 s = confirmed d s := by
  have hbytes : parityBytes s d.jseqs = some [] := by rw [hjs]; rfl
  simp [confirmDigests, h, hok, hbytes, hp]

theorem confirmDigests_of_differing {d : DigestIn} {s : State} (h : s.pair.dcheck = [d]) (hjs : d.jseqs = [])
    (hbad : d.ok = false ∨ crc64 [] ≠ d.parity) : confirmDigests 1 s = mismatchAt d.tick s := by
  have hbytes : parityBytes s d.jseqs = some [] := by rw [hjs]; rfl
  cases hok : d.ok with
  | false => simp [confirmDigests, h, hok]
  | true =>
    have hp : crc64 [] ≠ d.parity := hbad.resolve_left (by simp [hok])
    simp [confirmDigests, h, hok, hbytes, hp]

/-- A mismatch is sent and shown, and the unit is UNSYNCED without its copy. -/
theorem mismatchAt_drops (tick : Nat) (s : State) :
    let t := mismatchAt tick s
    t.pair.claim.unit = .unsynced ∧ shown t 0xACB = true ∧ .frame tick (.mismatch tick) ∈ t.out ∧ t.cache.stripes = [] ∧
      t.pair.phase = 0 := by
  obtain ⟨s1, hs1⟩ : ∃ s1, s1 = noteMismatch (raise 0xACB (emit (.frame tick (.mismatch tick)) s)) := ⟨_, rfl⟩
  have hshown : shown s1 0xACB = true := by
    rw [hs1]
    exact shown_raise_same 0xACB _
  have hout : .frame tick (.mismatch tick) ∈ s1.out := by
    rw [hs1]
    exact List.mem_append_right _ (List.mem_singleton_self _)
  have hsent : (setUnit .unsynced (dropCopy s1)).out = s1.out :=
    (same_of_alone .out (view_setUnit _ _ rfl)).trans (same_of_alone .out (by apply view_dropCopy <;> rfl))
  have hevents : (setUnit .unsynced (dropCopy s1)).events = (dropCopy s1).events := same_of_alone .events (view_setUnit _ _ rfl)
  have hdrop : mismatchAt tick s = setUnit .unsynced (dropCopy s1) := by rw [hs1]; rfl
  simp only [hdrop]
  refine ⟨setUnit_unit _ _, KeepsShown.of_events hevents _ ((dropCopy_keeps s1).2.2 _ hshown), hsent ▸ hout, ?_, ?_⟩
  · rw [setUnit_cache]
    rfl
  · rw [setUnit_pair]
    rfl

theorem exec_digest_of_applies {stamp n j l : Nat} {lc pc : Word} {js : List Nat} {s : State} (hh : hears s = true)
    (ha : applies s = true) : exec (.digest stamp n j l lc pc js) s =
      .next (applyFrame stamp (.digest stamp n j l lc pc js) (sawStamp stamp s)) := by
  simp only [exec, execDigest, hh, if_true, receive_of_applies ha]

/-- A digest without destages that agrees with the stream, or differs from it, on a unit that waits for no other. -/
theorem applyFrame_digest {stamp n j l : Nat} {lc pc : Word} {s : State} (hl : s.loader.live = none) (h : s.pair.dcheck = []) :
    ∃ u, u.pair.claim = s.pair.claim ∧ u.pair.ackTick = s.pair.ackTick ∧ u.pair.dcheck.length = 1 ∧
      (digestAgrees n j l lc s = true → crc64 [] = pc →
        applyFrame stamp (.digest stamp n j l lc pc []) s =
          confirmed { tick := stamp, ok := true, parity := pc, jseqs := [] } u) ∧
      (digestAgrees n j l lc s = false ∨ crc64 [] ≠ pc →
        applyFrame stamp (.digest stamp n j l lc pc []) s = mismatchAt stamp u) := by
  obtain ⟨u, hu⟩ : ∃ u, u = takeDigest stamp n j l lc pc [] s := ⟨_, rfl⟩
  have hd : u.pair.dcheck = [{ tick := stamp, ok := digestAgrees n j l lc s, parity := pc, jseqs := [] }] := by
    rw [hu, takeDigest_of_no_jseqs h]
    rfl
  have happly : applyFrame stamp (.digest stamp n j l lc pc []) s = confirmDigests 1 u := by
    simp only [applyFrame, liveStamp_of_none hl, ← hu, hd]
    rfl
  refine ⟨u, by rw [hu, takeDigest_of_no_jseqs h]; rfl, by rw [hu, takeDigest_of_no_jseqs h]; rfl,
    by rw [hd]; rfl, fun hok hp => ?_, fun hbad => ?_⟩
  · rw [happly, ← hok]
    exact confirmDigests_of_agreeing hd rfl hok hp
  · have hdiffers := confirmDigests_of_differing hd rfl hbad
    exact happly.trans hdiffers

/-- A digest confirmed on a synced standby is acknowledged, and waits no more. -/
theorem confirmed_of_synced {d : DigestIn} {s : State} (hu : s.pair.claim.unit = .standbySynced) :
    (confirmed d s).pair.ackTick = max s.pair.ackTick d.tick ∧ (confirmed d s).pair.claim = s.pair.claim ∧
      (confirmed d s).pair.dcheck = s.pair.dcheck.drop 1 := by
  have hno : ¬ ((modEpg (fun p => { p with
      ackTick := max p.ackTick d.tick, dcheck := p.dcheck.drop 1
      digest := { p.digest with parity := p.digest.parity.filter fun x => !d.jseqs.contains x.1 } }) s).pair.claim.unit =
      .unsynced) := by
    simp [modEpg, hu]
  simp only [confirmed, hno, false_and, if_false]
  exact ⟨rfl, rfl, rfl⟩

/-! ### O48 -/

/-- Settles O48: a frame by what the unit does with the stream, and each frame applied by its kind. -/
theorem streamFrames : Obligations.StreamFrames := by
  refine ⟨fun i stamp f s hh hi => ⟨fun hb => ?buffered, fun hb ha hu => ?passed⟩,
    fun stamp k q d s hh hu hsw hl => ?preempted,
    fun stamp s hh ha hl => ⟨fun n w h0 hn => ?gap, fun n w h => ?inOrder,
      fun l ho ht => ⟨_, exec_jrec_of_applies hh ha hl, takeRec_ledger (s := sawStamp stamp s) ho ht⟩, fun r hr => ?intent,
      fun j key old hp hne => ⟨_, exec_jrec_of_applies hh ha hl, takeRec_retire (s := sawStamp stamp s) hp hne⟩,
      fun key q j d pi x hx hj hq hd => ?page, fun k q d => ?dinput,
      fun n j l hd hu => ⟨fun hn hj hseq => ?agrees, fun lc pc hbad => ?differs⟩⟩⟩
  case buffered => rw [exec_stream hh hi, receive_of_buffers hb]
  case passed =>
    rw [exec_stream hh hi, receive_of_neither hb ha hu]
    rfl
  case preempted =>
    have hrec := receive_of_preempted (stamp := stamp) (f := .dinput k q d) hu hsw
    have hyields := stepDown_yields s
    generalize stepDown s = u at hrec hyields
    obtain ⟨hunit, hclaim, hswitch, hstopped, hshown, hloader⟩ := hyields
    rw [applyFrame_dinput (s := sawStamp stamp u) ((congrArg Loader.live hloader).trans hl)] at hrec
    have hexec := exec_stream (i := .dinput stamp k q d) hh (.inr (.inr (.inr (.inl ⟨k, q, d, rfl, rfl⟩))))
    refine ⟨_, hexec.trans (congrArg _ hrec), ?_⟩
    exact ⟨hunit, hclaim, hswitch, hstopped, hshown⟩
  case gap =>
    rw [exec_input_of_applies hh ha hl]
    exact congrArg _ (applyInput_of_gap (s := sawStamp stamp s) h0 hn)
  case inOrder =>
    refine ⟨_, exec_input_of_applies hh ha hl, ?_⟩
    rw [applyInput_in_order (s := sawStamp stamp s) w h]
    refine ⟨rfl, rfl, applyWhat_appendQ w (sawStamp stamp s), fun l hw hroom => ?_⟩
    rw [hw]
    exact applyWhat_lost (s := sawStamp stamp s) hroom
  case intent =>
    obtain ⟨i, hi⟩ := takeRec_intent (s := sawStamp stamp s) hr
    exact ⟨_, i, exec_jrec_of_applies hh ha hl, hi⟩
  case page =>
    obtain ⟨y, hy⟩ := takePage_dirty (s := sawStamp stamp s) (pi := pi) hx hj hq hd
    exact ⟨_, y, exec_page_of_applies hh ha hl, hy⟩
  case dinput =>
    simp only [exec, execDinput, hh, if_true, receive_of_applies ha, applyFrame_dinput (s := sawStamp stamp s) hl]
    rfl
  case agrees =>
    obtain ⟨u, hclaim, htick, hlen, hok, -⟩ := applyFrame_digest (stamp := stamp) (n := n) (j := j) (l := l)
      (lc := crc64 s.pair.digest.ledger) (pc := crc64 []) (s := sawStamp stamp s) hl hd
    have hagrees : digestAgrees n j l (crc64 s.pair.digest.ledger) (sawStamp stamp s) = true := by
      simp [digestAgrees, sawStamp, hn, hj, hseq]
    obtain ⟨hack, hkept, hdrop⟩ := confirmed_of_synced (d := { tick := stamp, ok := true, parity := crc64 [], jseqs := [] })
      (hclaim ▸ hu : u.pair.claim.unit = .standbySynced)
    refine ⟨_, by rw [exec_digest_of_applies hh ha, hok hagrees rfl], htick ▸ hack, hkept.trans hclaim, ?_⟩
    rw [hdrop]
    exact List.drop_eq_nil_of_le (Nat.le_of_eq hlen)
  case differs =>
    obtain ⟨u, -, -, -, -, hdiff⟩ := applyFrame_digest (stamp := stamp) (n := n) (j := j) (l := l) (lc := lc) (pc := pc)
      (s := sawStamp stamp s) hl hd
    have hdiffers : digestAgrees n j l lc (sawStamp stamp s) = false ∨ crc64 [] ≠ pc := by
      rcases hbad with ⟨h0, h⟩ | ⟨h0, h⟩ | h | h
      · exact .inl (by simp [digestAgrees, sawStamp, h0, h])
      · exact .inl (by simp [digestAgrees, sawStamp, h0, h])
      · exact .inl (by simp [digestAgrees, sawStamp, h])
      · exact .inr h
    exact ⟨_, by rw [exec_digest_of_applies hh ha, hdiff hdiffers], mismatchAt_drops stamp u⟩

end Sys2Proof.Machine
